-- ==== Sys2Proof/Word.lean ====
section
/-! DEFINITION. The words the part computes with: bytes of frames and of the layout record, analog samples,
and the numbers that name channels, rooms and jacks. -/

namespace Sys2Proof

/-- A data byte of a frame or of the layout record (R159, R176). -/
abbrev Byte := BitVec 8

/-- A 12-bit analog conversion, 0 to 4095 (R16, R82, R132). -/
abbrev Sample := BitVec 12

/-- A set of the twelve notice classes: bit n stands for class n (R171, R185). -/
abbrev Classes := BitVec 12

/-- The two bytes of a class set as ACK and ROUTE carry them (R185). -/
abbrev ClassWord := BitVec 16

/-- A drive channel, 0 to 15 (chapter 1). -/
abbrev Chan := Fin 16

/-- A room: value k - 1 stands for ROOMk. -/
abbrev RoomId := Fin 4

/-- A jack: value j - 1 stands for jack j. -/
abbrev JackId := Fin 6

/-- A moment or a span of time, counted in sampling steps of 25 µs (R24). -/
abbrev Time := Nat

end Sys2Proof
end

