-- ==== Sys2Proof/Syntax.lean ====
section
/-! DEFINITION. The commands of the block: one constructor of `Instr` for each row of spec/opcode_table.json. -/

namespace Sys2Proof

/-- One of the three master ports (chapter 9). -/
inductive Port where
  | p1 | p2 | p3
deriving DecidableEq, Repr

/-- Motor A or motor B of a room (section 3.1). A one-motor room and the awning have motor A alone. -/
inductive Motor where
  | a | b
deriving DecidableEq, Repr

/-- The levels of the two seat lines and the two kind lines of a channel, as a census read takes them (R2).
A seat field is true when the line is asserted. -/
structure Levels where
  sea : Bool
  seb : Bool
  knd1 : Bool
  knd0 : Bool
deriving DecidableEq, Repr

/-- A conditioned discrete line (section 2.1). -/
inductive Line where
  | hom (n : Chan)
  | sea (n : Chan)
  | seb (n : Chan)
  | knd1 (n : Chan)
  | knd0 (n : Chan)
  | park
  | ign
deriving DecidableEq, Repr

/-- The straps read at each reset (R186): the two-bit variant code and the rate strap (true is high). -/
structure Straps where
  variant : BitVec 2
  rate : Bool
deriving DecidableEq, Repr

/-- The six groups, in the order of their codes (00 section 3.2). -/
inductive Group where
  | room (k : RoomId)
  | jacks
  | awning
deriving DecidableEq, Repr

/-- The commands of the block. The fields of a request are the bytes its frame carries, so that a field out of
range is an operand like any other (R166). -/
inductive Instr where
  /-- COLD_RESET: power-on of the logic supply begins a cold reset (R183); the straps are read (R186). -/
  | coldReset (straps : Straps)
  /-- WARM_RESET: RESET has been held low for 1 ms (R183). -/
  | warmReset (straps : Straps)
  /-- RESET_END: the end of a reset of either kind (R177). -/
  | resetEnd
  /-- INITIAL_ACCEPTED_LEVEL: the lines that take their first accepted level at one sample (R23). -/
  | initialAcceptedLevel (levels : List (Line × Bool))
  /-- MOVE (R111). -/
  | move (p : Port) (group dir : Byte)
  /-- AUTO (R112). -/
  | auto (p : Port) (group action : Byte)
  /-- MOVE_JACK (R116). -/
  | moveJack (p : Port) (jack dir : Byte)
  /-- RELEASE (R117). -/
  | release (p : Port) (group : Byte)
  /-- STOP (R121). -/
  | stop (p : Port)
  /-- CLEAR_FAULT (R122). -/
  | clearFault (p : Port) (group : Byte)
  /-- RUN_PLAN (R149). -/
  | runPlan (p : Port) (plan : Byte)
  /-- STATUS (R168). -/
  | status (p : Port)
  /-- READ_AXIS (R169). -/
  | readAxis (p : Port) (axis : Byte)
  /-- ACK (R173). -/
  | ack (p : Port) (classes : ClassWord)
  /-- ROUTE (R174). -/
  | route (p : Port) (classes : ClassWord)
  /-- LAYOUT_LOAD (R178). -/
  | layoutLoad (p : Port) (segment : Byte) (data : Vector Byte 16)
  /-- LAYOUT_READ (R178). -/
  | layoutRead (p : Port) (segment : Byte)
  /-- LAYOUT_COMMIT (R179). -/
  | layoutCommit (p : Port)
  /-- STORE_WRITE_COMPLETE (R182). -/
  | storeWriteComplete
  /-- LINK_CHARACTER: a received character, its data byte, its mark bit, and whether its stop bit read high
  (R159, R160). -/
  | linkCharacter (p : Port) (data : Byte) (mark stopHigh : Bool)
  /-- PARTIAL_FRAME_TIMEOUT (R161). -/
  | partialFrameTimeout (p : Port)
  /-- REPLY_SENT (R165). -/
  | replySent (p : Port)
  /-- CENSUS_READ: one read of the start-up census of a channel (R3), with the accepted levels it takes. -/
  | censusRead (n : Chan) (read : Levels)
  /-- RECENSUS_PASS: one pass over the channels (R4), with the accepted levels it takes. -/
  | recensusPass (reads : Vector Levels 16)
  /-- CONFIRMING_READ: one confirming read of a channel (R4), with the accepted levels it takes. -/
  | confirmingRead (n : Chan) (read : Levels)
  /-- STOPPING_END (R13). -/
  | stoppingEnd (n : Chan)
  /-- DWELL_END (R14). -/
  | dwellEnd (n : Chan)
  /-- RAMP_STEP (R11). -/
  | rampStep (n : Chan)
  /-- ANALOG_SAMPLE: the raw sample of one channel's ANAn (R16). -/
  | analogSample (n : Chan) (raw : Sample)
  /-- OVERCURRENT: the over-limit run of a channel reaches 3 (R17). -/
  | overcurrent (n : Chan)
  /-- CONTACT_LOST: the loss run of a jack reaches 3 (R66). -/
  | contactLost (j : JackId)
  /-- PLS_PULSE: an accepted rising edge on PLSn (R25). -/
  | plsPulse (n : Chan)
  /-- PULSE_NOISE: the rejected tally of a channel reaches 64 (R34). -/
  | pulseNoise (n : Chan)
  /-- STALL: the interval counter of a driven channel reaches its stall limit (R35). -/
  | stall (n : Chan)
  /-- WND_PULSE: an accepted rising edge on WND (R38). -/
  | wndPulse
  /-- WIND_SPEED_TICK: the 100 ms computation of the wind speed (R39). -/
  | windSpeedTick
  /-- GUST_HOLD_REACHED (R105). -/
  | gustHoldReached
  /-- CALM_HOLD_REACHED (R105). -/
  | calmHoldReached
  /-- ROOM_HOME_CLOSED (R42). -/
  | roomHomeClosed (k : RoomId) (m : Motor)
  /-- ROOM_HOME_OPENED (R43). -/
  | roomHomeOpened (k : RoomId) (m : Motor)
  /-- ROOM_SEAT_DEADLINE (R46). -/
  | roomSeatDeadline (k : RoomId) (m : Motor)
  /-- ROOM_RUN_TIMEOUT (R45). -/
  | roomRunTimeout (k : RoomId)
  /-- JACK_HOME_CLOSED (R65). -/
  | jackHomeClosed (j : JackId)
  /-- JACK_HOME_OPENED (R65). -/
  | jackHomeOpened (j : JackId)
  /-- JACK_RUN_TIMEOUT (R77). -/
  | jackRunTimeout
  /-- TILT_SAMPLE: one sample of TILTX and of TILTY (R82). -/
  | tiltSample (x y : Sample)
  /-- CONTACT_PHASE_TIMEOUT (R84). -/
  | contactPhaseTimeout
  /-- SETTLE_END (R85). -/
  | settleEnd
  /-- PASS_TIMEOUT (R87). -/
  | passTimeout
  /-- AWNING_HOME_CLOSED (R96). -/
  | awningHomeClosed
  /-- AWNING_HOME_OPENED (R96). -/
  | awningHomeOpened
  /-- AWNING_SEAT_DEADLINE (R98). -/
  | awningSeatDeadline
  /-- AWNING_RUN_TIMEOUT (R97). -/
  | awningRunTimeout
  /-- HOLD_DEADLINE (R118). -/
  | holdDeadline (g : Group)
  /-- PARK_SET (R123). -/
  | parkSet
  /-- PARK_RELEASED (R124). -/
  | parkReleased
  /-- IGN_RISE (R126). -/
  | ignRise
  /-- FAULT_PATTERN_END (R130). -/
  | faultPatternEnd
  /-- MOTION_PERIOD (R130). -/
  | motionPeriod
  /-- SUPPLY_SAMPLE: one raw sample of VSUP (R132). -/
  | supplySample (raw : Sample)
  /-- PAUSE_LIMIT (R143). -/
  | pauseLimit (g : Group)
deriving DecidableEq, Repr

end Sys2Proof
end

