-- ==== Sys2Proof/Decode.lean ====
section
/-! DEFINITION. The decoder of words: the opcode table gives no row any bits. -/

namespace Sys2Proof

/-- The command that a word of a number of bits spells by the bits of the opcode table. The table gives bits to no row,
so no word spells a command (log 1). -/
def decodeTableWord (_nbits _w : Nat) : Option Instr := none

end Sys2Proof
end

