-- ==== Sys2Proof/Config.lean ====
section
/-! DEFINITION. What the spec leaves to the part and gives no value for. -/

namespace Sys2Proof

/-- How long the store write begun at a moment takes, in steps of 25 µs. R181 bounds it ("at most 400 ms after it
began") and states no value, so it is a free value; its one reader takes the smaller of it and 400 ms (log 9). -/
opaque Config.storeWriteTime : Time → Time

end Sys2Proof
end

