-- ==== Sys2Proof/Machine/Units.lean ====
section
/-! DEFINITION. Units of time and the whole-number helpers the chapters' formulas use. -/

namespace Sys2Proof.Machine

/-- A span of n milliseconds (00 section 3.3). -/
def ms (n : Nat) : Time := 40 * n

/-- A span of n seconds. -/
def seconds (n : Nat) : Time := 40000 * n

/-- A span of n pace ticks of 100 µs. -/
def paceTicks (n : Nat) : Time := 4 * n

/-- The number of pace ticks of the time base passed at a moment (R28). -/
def tickCount (t : Time) : Nat := t / 4

/-- The quotient rounded to the nearest whole number, with halves rounded away from zero (R82, R86). -/
def roundDiv (a : Int) (d : Nat) : Int :=
  let q : Nat := (2 * a.natAbs + d) / (2 * d)
  if a < 0 then -(q : Int) else (q : Int)

/-- A value clamped to plus or minus a bound (R82). -/
def clampInt (bound : Nat) (a : Int) : Int :=
  if a > bound then bound else if a < -(bound : Int) then -(bound : Int) else a

/-- Twelve-bit and eight-bit numbers as bytes: the low eight bits of n. -/
def byteOf (n : Nat) : Byte := BitVec.ofNat 8 n

/-- A two-byte value, high byte first (R185). -/
def twoBytes (n : Nat) : List Byte := [byteOf (n / 256), byteOf n]

/-- A three-byte value, high byte first (R185). -/
def threeBytes (n : Nat) : List Byte := [byteOf (n / 65536), byteOf (n / 256), byteOf n]

/-- The two's complement number of a 16-bit value (R185). -/
def signed16 (n : Nat) : Int := if n < 32768 then (n : Int) else (n : Int) - 65536

/-- The 16-bit value of a signed number in two's complement (R185). -/
def unsigned16 (a : Int) : Nat := (a % 65536).toNat

/-- A flag as a byte: 0 for no and 1 for yes (R185). -/
def flagByte (b : Bool) : Byte := if b then 1 else 0

/-- The sixteen channels in rising number. -/
def allChans : List Chan := List.finRange 16

/-- The four rooms in rising number. -/
def allRooms : List RoomId := List.finRange 4

/-- The six jacks in rising number. -/
def allJacks : List JackId := List.finRange 6

/-- The six groups in the order of their codes (00 section 3.2). -/
def allGroups : List Group := allRooms.map Group.room ++ [.jacks, .awning]

/-- The three ports. -/
def allPorts : List Port := [.p1, .p2, .p3]

end Sys2Proof.Machine
end

