-- ==== Sys2Proof/Machine/Image.lean ====
section
/-! DEFINITION. The 512-byte buffers of chapter 10 (the stored record, the staging image) as lists of cells in one
canonical form, and the check over them. -/

namespace Sys2Proof.Machine

/-- A 512-byte buffer. A byte that is not listed reads 0x00 (log 7). -/
abbrev Image := List Host.Cell

/-- What a byte that no cell lists reads as (log 7). -/
def unlistedByte : Byte := 0

/-- The byte at an address. -/
def Image.read : Image → Nat → Byte
  | [], _ => unlistedByte
  | (k, b) :: rest, a => if k = a then b else Image.read rest a

/-- Put one byte at an address, keeping the canonical form. -/
def Image.write : Image → Nat → Byte → Image
  | [], a, b => if b = unlistedByte then [] else [(a, b)]
  | (k, c) :: rest, a, b =>
    if a < k then
      if b = unlistedByte then (k, c) :: rest else (a, b) :: (k, c) :: rest
    else if a = k then
      if b = unlistedByte then rest else (a, b) :: rest
    else (k, c) :: Image.write rest a b

/-- Put a run of bytes from an address on. -/
def Image.writeAll : Image → Nat → List Byte → Image
  | m, _, [] => m
  | m, a, b :: rest => Image.writeAll (Image.write m a b) (a + 1) rest

/-- The buffer that holds a run of bytes from address 0 on. -/
def Image.ofBytes (bs : List Byte) : Image :=
  ((List.range bs.length).zip bs).filter fun c => c.2 ≠ unlistedByte

/-- The bytes from an address on. -/
def Image.bytes (m : Image) (a count : Nat) : List Byte :=
  (List.range count).map fun i => Image.read m (a + i)

/-- Addresses at or above a bound, strictly rising, no cell equal to what an unlisted byte reads as. -/
def Image.wfFrom : Nat → Image → Bool
  | _, [] => true
  | lo, (k, b) :: rest => decide (lo ≤ k) && decide (k < 512) && decide (b ≠ unlistedByte) && Image.wfFrom (k + 1) rest

/-- The canonical form of a 512-byte buffer. -/
def Image.wf (m : Image) : Bool := Image.wfFrom 0 m

/-- A one-byte number. -/
def Image.u8 (m : Image) (a : Nat) : Nat := (Image.read m a).toNat

/-- A two-byte number, high byte first (R185). -/
def Image.u16 (m : Image) (a : Nat) : Nat := Image.u8 m a * 256 + Image.u8 m (a + 1)

/-- A three-byte number, high byte first (R185). -/
def Image.u24 (m : Image) (a : Nat) : Nat := Image.u16 m a * 256 + Image.u8 m (a + 2)

/-- A signed two-byte number (R185). -/
def Image.s16 (m : Image) (a : Nat) : Int := signed16 (Image.u16 m a)

/-- The blank store: all 512 bytes read 0xFF (R176). -/
def Image.blank : Image := (List.range 512).map fun a => (a, 0xFF#8)

/-- One bit of the check register: a shift to the left, and the polynomial when a one falls out (R176). -/
def crcShift (r : Nat) : Nat :=
  if r < 32768 then 2 * r else Nat.xor (2 * r - 65536) 0x1021

/-- One byte entered into the check register, most significant bit first (R176). -/
def crcByte (r : Nat) (b : Nat) : Nat :=
  crcShift (crcShift (crcShift (crcShift (crcShift (crcShift (crcShift (crcShift
    (Nat.xor r (b * 256)))))))))

/-- The check register after a run of bytes. The register is taken apart at each byte, which changes no value
and lets Lean's kernel evaluate it byte by byte. -/
def crcRun : Nat → List Byte → Nat
  | r, [] => r
  | r, b :: rest =>
    match crcByte r b.toNat with
    | 0 => crcRun 0 rest
    | q + 1 => crcRun (q + 1) rest

/-- The check of a run of bytes: the register starts at 0xFFFF and is not inverted at the end (R176). -/
def crcOf (bytes : List Byte) : Nat := crcRun 0xFFFF bytes

/-- The check computed over bytes 0 to 509 of a record (R176). -/
def Image.crc (m : Image) : Nat := crcOf (Image.bytes m 0 510)

/-- The record with its check in bytes 510 and 511, high byte first (R176, R179). -/
def Image.withCrc (m : Image) : Image :=
  Image.writeAll m 510 (twoBytes (Image.crc m))

/-- The record passes its check (R176). -/
def Image.passes (m : Image) : Bool := Image.crc m == Image.u16 m 510

/-- All 512 bytes of the record read 0xFF (R176). -/
def Image.isBlank (m : Image) : Bool := (Image.bytes m 0 512).all fun b => b == 0xFF#8

end Sys2Proof.Machine
end

