-- ==== Sys2Proof/Machine/Layout.lean ====
section
/-! DEFINITION. The coach layout: its items (R176), the segment map by which they lie in the record (section 11.3),
the EMPTY layout (R177) and the validation of a commit (R180). -/

namespace Sys2Proof.Machine

/-- The kind of an actuator, in the order of the kind codes 00, 01, 10, 11 (R1). -/
inductive Kind where
  | slideMotor | jackValve | pumpMotor | awningMotor
deriving DecidableEq, Repr

/-- The role the layout gives a channel (R1). -/
inductive Role where
  | none
  | room (k : RoomId) (m : Motor)
  | jack (j : JackId)
  | pump
  | awning
deriving DecidableEq, Repr

/-- A direction of a channel or of a motion: outward is OUT for a room, EXTEND for jacks and awning and the pumping
direction of the pump; stowing is IN or RETRACT (section 1.3). -/
inductive Dir where
  | outward | stowing
deriving DecidableEq, Repr

/-- What a claim or a motion entry moves (R110): a direction of the whole group, the level run, or one jack. -/
inductive Action where
  | toward (d : Dir)
  | level
  | jack (j : JackId) (d : Dir)
deriving DecidableEq, Repr

/-- The two stored plans (chapter 8). -/
inductive PlanName where
  | setup | stow
deriving DecidableEq, Repr

/-- The per-kind parameters of chapters 1 and 2. -/
structure KindParams where
  startDuty : Nat
  runDuty : Nat
  rampStep : Nat
  currentLimit : Nat
  startBlank : Nat
  depth : Nat
  maskFraction : Nat
  stallFactor : Nat
  stallFloor : Nat
  startLimit : Nat
  filter : Nat
deriving DecidableEq, Repr

/-- The parameters of a room (section 3.1). -/
structure RoomParams where
  motorCount : Nat
  travel : Nat
  endWindow : Nat
  seatFraction : Nat
  syncWindow : Nat
  rackLimit : Nat
  needsSupport : Bool
  awningClash : Bool
deriving DecidableEq, Repr

/-- The parameters of the awning (R94). -/
structure AwningParams where
  travel : Nat
  endWindow : Nat
  seatFraction : Nat
  runTimeout : Nat
deriving DecidableEq, Repr

/-- The parameters of a jack (R62). -/
structure JackParams where
  x : Int
  y : Int
  strokeMax : Nat
  spp : Nat
  contactThreshold : Nat
  hysteresis : Nat
deriving DecidableEq, Repr

/-- The tilt parameters (section 4.8) and the level run parameters (section 4.9). -/
structure LevelParams where
  zeroX : Nat
  zeroY : Nat
  perDegree : Nat
  tolerance : Nat
  passLimit : Nat
  steepLimit : Nat
  settleTime : Nat
  passTimeout : Nat
  deadband : Nat
deriving DecidableEq, Repr

/-- The wind parameters (section 5.5, R39). -/
structure WindParams where
  present : Bool
  constantK : Nat
  filter : Nat
  gust : Nat
  calm : Nat
  gustHold : Nat
  calmHold : Nat
deriving DecidableEq, Repr

/-- One step of a plan: its groups in listed order, each with its action (section 8.1). -/
abbrev PlanStep := List (Group × Action)

/-- The coach layout (R176). -/
structure Layout where
  roles : Vector Role 16
  dirFlags : Vector Bool 16
  scales : Vector Int 16
  slide : KindParams
  pump : KindParams
  awningMotor : KindParams
  valve : KindParams
  reversalDwell : Nat
  holdWindow : Nat
  pauseLimit : Nat
  roomTimeout : Nat
  jackTimeout : Nat
  supplyScale : Nat
  autoStow : Bool
  rooms : Vector RoomParams 4
  awning : AwningParams
  jacks : Vector JackParams 6
  level : LevelParams
  setup : List PlanStep
  stow : List PlanStep
  wind : WindParams
deriving DecidableEq, Repr

/-- The kind a role expects (R1). -/
def Role.kind : Role → Option Kind
  | .none => Option.none
  | .room _ _ => some .slideMotor
  | .jack _ => some .jackValve
  | .pump => some .pumpMotor
  | .awning => some .awningMotor

/-- The group that owns the channels of a role (R1). -/
def Role.group : Role → Option Group
  | .none => Option.none
  | .room k _ => some (.room k)
  | .jack _ => some .jacks
  | .pump => some .jacks
  | .awning => some .awning

/-- The supply units of a kind (R1). -/
def Kind.units : Kind → Nat
  | .slideMotor => 3
  | .jackValve => 1
  | .pumpMotor => 4
  | .awningMotor => 2

/-- The kind code of two kind lines, KND1 first (section 1.1, R1). -/
def kindOfLines (knd1 knd0 : Bool) : Kind :=
  match knd1, knd0 with
  | false, false => .slideMotor
  | false, true => .jackValve
  | true, false => .pumpMotor
  | true, true => .awningMotor

/-- The other direction. -/
def Dir.opposite : Dir → Dir
  | .outward => .stowing
  | .stowing => .outward

/-- The parameters of a kind in a layout. A valve is driven at the fixed duty 255 (R8, R11). -/
def Layout.kindParams (l : Layout) : Kind → KindParams
  | .slideMotor => l.slide
  | .jackValve => { l.valve with startDuty := 255, runDuty := 255 }
  | .pumpMotor => l.pump
  | .awningMotor => l.awningMotor

/-- The steps of a plan in a layout. -/
def Layout.planSteps (l : Layout) : PlanName → List PlanStep
  | .setup => l.setup
  | .stow => l.stow

/-! ### Codes (section 11.1) -/

/-- The group of a code, 1 to 6. -/
def groupOfCode : Nat → Option Group
  | 1 => some (.room 0)
  | 2 => some (.room 1)
  | 3 => some (.room 2)
  | 4 => some (.room 3)
  | 5 => some .jacks
  | 6 => some .awning
  | _ => none

/-- The code of a group. -/
def groupCode : Group → Nat
  | .room k => k.val + 1
  | .jacks => 5
  | .awning => 6

/-- The place of a group in the claim table, its code less one. -/
def groupIndex : Group → Fin 6
  | .room k => ⟨k.val, by omega⟩
  | .jacks => 4
  | .awning => 5

/-- The direction of a code: 1 is OUT or EXTEND, 2 is IN or RETRACT. -/
def dirOfCode : Nat → Option Dir
  | 1 => some .outward
  | 2 => some .stowing
  | _ => none

/-- The action of a code for a group: 3, LEVEL, belongs to JACKS alone (R166). -/
def actionOfCode (g : Group) (c : Nat) : Option Action :=
  match dirOfCode c with
  | some d => some (.toward d)
  | none => if c = 3 ∧ g = .jacks then some .level else none

/-- The jack of a number, 1 to 6. -/
def jackOfNumber (n : Nat) : Option JackId :=
  if h : 1 ≤ n ∧ n ≤ 6 then some ⟨n - 1, by omega⟩ else none

/-- The plan of a code. -/
def planOfCode : Nat → Option PlanName
  | 1 => some .setup
  | 2 => some .stow
  | _ => none

/-- The role of a code: NONE = 0, ROOMk-A = 2k − 1, ROOMk-B = 2k, JACKj = 8 + j, PUMP = 15, AWNING = 16. -/
def roleOfCode (c : Nat) : Option Role :=
  if c = 0 then some .none
  else if c ≤ 8 then some (.room (Fin.ofNat 4 ((c - 1) / 2)) (if c % 2 = 1 then .a else .b))
  else if c ≤ 14 then some (.jack (Fin.ofNat 6 (c - 9)))
  else if c = 15 then some .pump
  else if c = 16 then some .awning
  else none

/-! ### The segment map (section 11.3) -/

/-- First byte of the per-kind parameters of a kind: segments 2 to 5. -/
def kindBase : Kind → Nat
  | .slideMotor => 32
  | .pumpMotor => 48
  | .awningMotor => 64
  | .jackValve => 80

/-- First byte of the parameters of a room: segments 7 to 10. -/
def roomBase (k : RoomId) : Nat := 112 + 16 * k.val

/-- First byte of the parameters of a jack: segments 12 to 17. -/
def jackBase (j : JackId) : Nat := 192 + 16 * j.val

/-- First byte of a plan: segments 19 to 22 and 23 to 26. -/
def planBase : PlanName → Nat
  | .setup => 304
  | .stow => 368

/-- First byte of step i of a plan, counted from 0: its group count, with its six entries after it. -/
def stepBase (p : PlanName) (i : Nat) : Nat := planBase p + 1 + 7 * i

/-- The per-kind parameters of a kind. The pump has no pulse parameters and the valve no duty, limit or blank bytes
(section 11.3); a valve is driven at 255 (R11). -/
def readKind (m : Image) (kd : Kind) : KindParams :=
  let b := kindBase kd
  let motor := kd ≠ .jackValve
  let pulse := kd ≠ .pumpMotor
  { startDuty := if motor then m.u8 b else 255
    runDuty := if motor then m.u8 (b + 1) else 255
    rampStep := if motor then m.u8 (b + 2) else 0
    currentLimit := if motor then m.u16 (b + 3) else 0
    startBlank := if motor then m.u16 (b + 5) else 0
    depth := if pulse then m.u8 (b + 7) else 0
    maskFraction := if pulse then m.u8 (b + 8) else 0
    stallFactor := if pulse then m.u8 (b + 9) else 0
    stallFloor := if pulse then m.u16 (b + 10) else 0
    startLimit := if pulse then m.u16 (b + 12) else 0
    filter := if pulse then m.u8 (b + 14) else 0 }

/-- The parameters of a room. -/
def readRoom (m : Image) (k : RoomId) : RoomParams :=
  let b := roomBase k
  { motorCount := m.u8 b
    travel := m.u16 (b + 1)
    endWindow := m.u16 (b + 3)
    seatFraction := m.u8 (b + 5)
    syncWindow := m.u8 (b + 6)
    rackLimit := m.u8 (b + 7)
    needsSupport := m.u8 (b + 8) ≠ 0
    awningClash := m.u8 (b + 9) ≠ 0 }

/-- The parameters of a jack. -/
def readJack (m : Image) (j : JackId) : JackParams :=
  let b := jackBase j
  { x := m.s16 b
    y := m.s16 (b + 2)
    strokeMax := m.u16 (b + 4)
    spp := m.u8 (b + 6)
    contactThreshold := m.u16 (b + 7)
    hysteresis := m.u16 (b + 9) }

/-- One entry of a step: the group code in the high four bits and the action in the low four. -/
def readEntry (m : Image) (a : Nat) : Option (Group × Action) :=
  let v := m.u8 a
  match groupOfCode (v / 16) with
  | none => none
  | some g => (actionOfCode g (v % 16)).map fun act => (g, act)

/-- The groups of step i of a plan. -/
def readStep (m : Image) (p : PlanName) (i : Nat) : PlanStep :=
  let b := stepBase p i
  (List.range (min (m.u8 b) 6)).filterMap fun e => readEntry m (b + 1 + e)

/-- The steps of a plan. -/
def readPlan (m : Image) (p : PlanName) : List PlanStep :=
  (List.range (min (m.u8 (planBase p)) 8)).map fun i => readStep m p i

/-- The layout of a record. A byte that validation would have refused is read as log 27 says. -/
def Layout.ofImage (m : Image) : Layout :=
  { roles := Vector.ofFn fun n => (roleOfCode (m.u8 (2 * n.val))).getD .none
    dirFlags := Vector.ofFn fun n => decide (128 ≤ m.u8 (2 * n.val + 1))
    scales := Vector.ofFn fun n => ((m.u8 (2 * n.val + 1) % 8 : Nat) : Int) - 3
    slide := readKind m .slideMotor
    pump := readKind m .pumpMotor
    awningMotor := readKind m .awningMotor
    valve := readKind m .jackValve
    reversalDwell := m.u16 96
    holdWindow := m.u16 98
    pauseLimit := m.u16 100
    roomTimeout := m.u16 102
    jackTimeout := m.u16 104
    supplyScale := m.u16 106
    autoStow := m.u8 108 ≠ 0
    rooms := Vector.ofFn fun k => readRoom m k
    awning :=
      { travel := m.u16 176, endWindow := m.u16 178, seatFraction := m.u8 180, runTimeout := m.u16 181 }
    jacks := Vector.ofFn fun j => readJack m j
    level :=
      { zeroX := m.u16 288, zeroY := m.u16 290, perDegree := m.u16 292, tolerance := m.u8 294, passLimit := m.u8 295
        steepLimit := m.u16 296, settleTime := m.u16 298, passTimeout := m.u16 300, deadband := m.u8 302 }
    setup := readPlan m .setup
    stow := readPlan m .stow
    wind :=
      { present := m.u8 432 ≠ 0, constantK := m.u24 433, filter := m.u8 436, gust := m.u16 437, calm := m.u16 439
        gustHold := m.u8 441, calmHold := m.u16 442 } }

/-! ### The EMPTY layout (R177) -/

/-- The defaults of the slide motor (R11, section 2.3). -/
def slideDefaults : KindParams :=
  { startDuty := 64, runDuty := 230, rampStep := 16, currentLimit := 2800, startBlank := 300
    depth := 4, maskFraction := 40, stallFactor := 24, stallFloor := 100, startLimit := 1500, filter := 1 }

/-- The defaults of the pump motor (R11). It has no pulse parameters. -/
def pumpDefaults : KindParams :=
  { startDuty := 96, runDuty := 255, rampStep := 32, currentLimit := 3600, startBlank := 300
    depth := 0, maskFraction := 0, stallFactor := 0, stallFloor := 0, startLimit := 0, filter := 0 }

/-- The defaults of the awning motor (R11, section 2.3). -/
def awningMotorDefaults : KindParams :=
  { startDuty := 80, runDuty := 200, rampStep := 20, currentLimit := 2000, startBlank := 300
    depth := 4, maskFraction := 40, stallFactor := 24, stallFloor := 100, startLimit := 1500, filter := 1 }

/-- The defaults of the jack valve (section 2.3); its duty is fixed at 255 (R11). -/
def valveDefaults : KindParams :=
  { startDuty := 255, runDuty := 255, rampStep := 0, currentLimit := 0, startBlank := 0
    depth := 2, maskFraction := 32, stallFactor := 32, stallFloor := 100, startLimit := 2500, filter := 2 }

/-- The EMPTY layout: every role NONE, every parameter at its default, or 0 where it has none (R177). -/
def Layout.empty : Layout :=
  { roles := Vector.replicate 16 .none
    dirFlags := Vector.replicate 16 false
    scales := Vector.replicate 16 0
    slide := slideDefaults
    pump := pumpDefaults
    awningMotor := awningMotorDefaults
    valve := valveDefaults
    reversalDwell := 500
    holdWindow := 300
    pauseLimit := 60
    roomTimeout := 90
    jackTimeout := 180
    supplyScale := 256
    autoStow := false
    rooms := Vector.replicate 4
      { motorCount := 0, travel := 0, endWindow := 40, seatFraction := 64, syncWindow := 6, rackLimit := 24
        needsSupport := false, awningClash := false }
    awning := { travel := 0, endWindow := 40, seatFraction := 64, runTimeout := 60 }
    jacks := Vector.replicate 6 { x := 0, y := 0, strokeMax := 0, spp := 0, contactThreshold := 0, hysteresis := 0 }
    level :=
      { zeroX := 2048, zeroY := 2048, perDegree := 400, tolerance := 15, passLimit := 5, steepLimit := 600
        settleTime := 1500, passTimeout := 60, deadband := 2 }
    setup := []
    stow := []
    wind :=
      { present := false, constantK := 70000, filter := 2, gust := 110, calm := 80, gustHold := 3, calmHold := 120 } }

/-! ### A layout written out as a record -/

/-- The code of a role (section 11.1). -/
def Role.code : Role → Nat
  | .none => 0
  | .room k m => 2 * k.val + (if m = .a then 1 else 2)
  | .jack j => 9 + j.val
  | .pump => 15
  | .awning => 16

/-- The code of a direction (section 11.1). -/
def Dir.code : Dir → Nat
  | .outward => 1
  | .stowing => 2

/-- The code of an action (section 11.1). -/
def Action.code : Action → Nat
  | .toward d => d.code
  | .level => 3
  | .jack _ d => d.code

/-- Bytes filled up with zeros to a length; by the model's choice the bytes of the EMPTY image that the segment map assigns to
no field hold 0 (log 54). -/
def padTo (n : Nat) (bs : List Byte) : List Byte := bs ++ List.replicate (n - bs.length) 0

/-- The segment of a kind's parameters. The pump's pulse bytes and the valve's duty, limit and blank bytes are assigned to no
field and hold 0 (log 54). -/
def kindSegment (kd : Kind) (q : KindParams) : List Byte :=
  let duty := [byteOf q.startDuty, byteOf q.runDuty, byteOf q.rampStep] ++ twoBytes q.currentLimit ++ twoBytes q.startBlank
  let pulse := [byteOf q.depth, byteOf q.maskFraction, byteOf q.stallFactor] ++ twoBytes q.stallFloor ++
    twoBytes q.startLimit ++ [byteOf q.filter]
  padTo 16 ((if kd = .jackValve then List.replicate 7 0 else duty) ++ (if kd = .pumpMotor then [] else pulse))

/-- The segment of a room. -/
def roomSegment (r : RoomParams) : List Byte :=
  padTo 16 ([byteOf r.motorCount] ++ twoBytes r.travel ++ twoBytes r.endWindow ++
    [byteOf r.seatFraction, byteOf r.syncWindow, byteOf r.rackLimit, flagByte r.needsSupport, flagByte r.awningClash])

/-- The segment of a jack. -/
def jackSegment (j : JackParams) : List Byte :=
  padTo 16 (twoBytes (unsigned16 j.x) ++ twoBytes (unsigned16 j.y) ++ twoBytes j.strokeMax ++ [byteOf j.spp] ++
    twoBytes j.contactThreshold ++ twoBytes j.hysteresis)

/-- The seven bytes of a step. -/
def stepBytes (st : PlanStep) : List Byte :=
  padTo 7 (byteOf st.length :: st.map fun e => byteOf (16 * groupCode e.1 + e.2.code))

/-- The four segments of a plan. -/
def planSegments (p : List PlanStep) : List Byte :=
  padTo 64 (byteOf p.length :: (p.map stepBytes).flatten)

/-- Bytes 0 to 509 of the record of a layout (section 11.3), as far as the segment map assigns them; the rest read 0
(log 54). -/
def Layout.bytes (l : Layout) : List Byte :=
  (allChans.map fun n => [byteOf l.roles[n].code,
      byteOf ((if l.dirFlags[n] then 128 else 0) + (l.scales[n] + 3).toNat)]).flatten ++
    kindSegment .slideMotor l.slide ++ kindSegment .pumpMotor l.pump ++ kindSegment .awningMotor l.awningMotor ++
    kindSegment .jackValve l.valve ++
    padTo 16 (twoBytes l.reversalDwell ++ twoBytes l.holdWindow ++ twoBytes l.pauseLimit ++ twoBytes l.roomTimeout ++
      twoBytes l.jackTimeout ++ twoBytes l.supplyScale ++ [flagByte l.autoStow]) ++
    (allRooms.map fun k => roomSegment l.rooms[k]).flatten ++
    padTo 16 (twoBytes l.awning.travel ++ twoBytes l.awning.endWindow ++ [byteOf l.awning.seatFraction] ++
      twoBytes l.awning.runTimeout) ++
    (allJacks.map fun j => jackSegment l.jacks[j]).flatten ++
    padTo 16 (twoBytes l.level.zeroX ++ twoBytes l.level.zeroY ++ twoBytes l.level.perDegree ++
      [byteOf l.level.tolerance, byteOf l.level.passLimit] ++ twoBytes l.level.steepLimit ++
      twoBytes l.level.settleTime ++ twoBytes l.level.passTimeout ++ [byteOf l.level.deadband]) ++
    planSegments l.setup ++ planSegments l.stow ++
    [flagByte l.wind.present] ++ threeBytes l.wind.constantK ++ [byteOf l.wind.filter] ++ twoBytes l.wind.gust ++
    twoBytes l.wind.calm ++ [byteOf l.wind.gustHold] ++ twoBytes l.wind.calmHold

/-- The record of a layout, its check placed (R176). -/
def Layout.toImage (l : Layout) : Image := Image.withCrc (Image.ofBytes l.bytes)

/-- The EMPTY image: bytes 510 and 511 hold its check (R177). -/
def emptyImage : Image := Layout.toImage Layout.empty

/-! ### Validation (R180) -/

/-- A failure at an address when a test does not hold. -/
def badIf (fails : Bool) (a : Nat) : List Nat := if fails then [a] else []

/-- A field of a number of bytes is outside its range. -/
def outside (lo hi v : Nat) : Bool := !(decide (lo ≤ v) && decide (v ≤ hi))

/-- A flag is one byte, 0 or 1 (R185). -/
def badFlag (m : Image) (a : Nat) : List Nat := badIf (outside 0 1 (m.u8 a)) a

/-- The role code of a channel in a record. -/
def roleCode (m : Image) (n : Nat) : Nat := m.u8 (2 * n)

/-- Some channel of the record has a role code. -/
def hasRole (m : Image) (c : Nat) : Bool := (List.range 16).any fun n => roleCode m n == c

/-- The jack numbers that a channel of the record configures, as codes 9 to 14. -/
def jackCodes (m : Image) : List Nat := (List.range' 9 6).filter fun c => hasRole m c

/-- The role byte of the lowest-numbered channel with a jack's role (R180). -/
def lowestJackByte (m : Image) : List Nat :=
  ((List.range 16).find? fun n => decide (9 ≤ roleCode m n) && decide (roleCode m n ≤ 14)).toList.map fun n => 2 * n

/-- The role byte of the first channel with a role code. -/
def roleByteOf (m : Image) (c : Nat) : List Nat :=
  ((List.range 16).find? fun n => roleCode m n == c).toList.map fun n => 2 * n

/-- Failures of the channel segments: role and scale codes, roles beyond the variant, roles given twice. -/
def badChannels (m : Image) (count : Nat) : List Nat :=
  ((List.range 16).map fun n =>
    badIf (decide (16 < roleCode m n)) (2 * n) ++
    badIf (decide (6 < m.u8 (2 * n + 1) % 8)) (2 * n + 1) ++
    badIf (decide (count ≤ n) && roleCode m n != 0) (2 * n) ++
    badIf (roleCode m n != 0 && (List.range n).any fun k => roleCode m k == roleCode m n) (2 * n)).flatten

/-- Failures of the roles among themselves: a ROOMk-B without its A, J of 1 or 2, a missing or a lone PUMP. -/
def badRoles (m : Image) : List Nat :=
  ((List.range 4).map fun k =>
    if hasRole m (2 * k + 2) && !hasRole m (2 * k + 1) then roleByteOf m (2 * k + 2) else []).flatten ++
  (let js := jackCodes m
   let lowest := lowestJackByte m
   (if js.length = 1 ∨ js.length = 2 then lowest else []) ++
   (if 0 < js.length ∧ !hasRole m 15 then lowest else []) ++
   (if js.length = 0 then roleByteOf m 15 else []))

/-- Failures of a kind's parameters (R11, section 2.3). -/
def badKind (m : Image) (kd : Kind) : List Nat :=
  let b := kindBase kd
  (if kd = .jackValve then [] else
    badIf (outside 1 255 (m.u8 (b + 1)) || decide (m.u8 (b + 1) < m.u8 b)) (b + 1) ++
    badIf (outside 1 255 (m.u8 (b + 2))) (b + 2) ++
    badIf (outside 1 4095 (m.u16 (b + 3))) (b + 3) ++
    badIf (outside 0 2000 (m.u16 (b + 5))) (b + 5)) ++
  (if kd = .pumpMotor then [] else
    badIf (!([1, 2, 4, 8] : List Nat).contains (m.u8 (b + 7))) (b + 7) ++
    badIf (outside 0 127 (m.u8 (b + 8))) (b + 8) ++
    badIf (outside 20 64 (m.u8 (b + 9))) (b + 9) ++
    badIf (outside 20 5000 (m.u16 (b + 10))) (b + 10) ++
    badIf (outside 200 5000 (m.u16 (b + 12))) (b + 12) ++
    badIf (outside 0 3 (m.u8 (b + 14))) (b + 14))

/-- Failures of segment 6: the dwell, the windows, the timeouts, the supply scale and the auto-stow flag. -/
def badGeneral (m : Image) : List Nat :=
  badIf (outside 100 2000 (m.u16 96)) 96 ++ badIf (outside 150 1000 (m.u16 98)) 98 ++
  badIf (outside 10 300 (m.u16 100)) 100 ++ badIf (outside 10 300 (m.u16 102)) 102 ++
  badIf (outside 10 600 (m.u16 104)) 104 ++ badIf (outside 128 512 (m.u16 106)) 106 ++ badFlag m 108

/-- Failures of a room that some channel's role configures (section 3.1). -/
def badRoom (m : Image) (k : RoomId) : List Nat :=
  let b := roomBase k
  if !hasRole m (2 * k.val + 1) && !hasRole m (2 * k.val + 2) then [] else
    badIf (m.u8 b != (if hasRole m (2 * k.val + 2) then 2 else 1)) b ++
    badIf (outside 1 20000 (m.u16 (b + 1))) (b + 1) ++
    badIf (outside 1 500 (m.u16 (b + 3))) (b + 3) ++
    badIf (outside 0 127 (m.u8 (b + 5))) (b + 5) ++
    badIf (outside 1 100 (m.u8 (b + 6))) (b + 6) ++
    badIf (decide (200 < m.u8 (b + 7)) || decide (m.u8 (b + 7) ≤ m.u8 (b + 6))) (b + 7) ++
    badFlag m (b + 8) ++ badFlag m (b + 9)

/-- Failures of the awning, when a channel's role configures it (R94). -/
def badAwning (m : Image) : List Nat :=
  if !hasRole m 16 then [] else
    badIf (outside 1 20000 (m.u16 176)) 176 ++ badIf (outside 1 500 (m.u16 178)) 178 ++
    badIf (outside 0 127 (m.u8 180)) 180 ++ badIf (outside 10 300 (m.u16 181)) 181

/-- Failures of a jack that a channel's role configures (R62). -/
def badJack (m : Image) (j : JackId) : List Nat :=
  let b := jackBase j
  if !hasRole m (9 + j.val) then [] else
    badIf (decide (1200 < (m.s16 b).natAbs)) b ++
    badIf (decide (1200 < (m.s16 (b + 2)).natAbs)) (b + 2) ++
    badIf (outside 0 4000 (m.u16 (b + 4))) (b + 4) ++
    badIf (outside 1 50 (m.u8 (b + 6))) (b + 6) ++
    badIf (outside 1 4095 (m.u16 (b + 7))) (b + 7) ++
    badIf (outside 0 1000 (m.u16 (b + 9))) (b + 9)

/-- Failures of the tilt and level run parameters (sections 4.8 and 4.9). -/
def badLevel (m : Image) : List Nat :=
  badIf (outside 0 4095 (m.u16 288)) 288 ++ badIf (outside 0 4095 (m.u16 290)) 290 ++
  badIf (outside 10 2000 (m.u16 292)) 292 ++ badIf (outside 5 100 (m.u8 294)) 294 ++
  badIf (outside 1 8 (m.u8 295)) 295 ++ badIf (outside 100 1000 (m.u16 296)) 296 ++
  badIf (outside 1000 5000 (m.u16 298)) 298 ++ badIf (outside 10 300 (m.u16 300)) 300 ++
  badIf (outside 1 50 (m.u8 302)) 302

/-- Failures of one step: a group count of 0 or above 6 is named at the step's first byte, an entry that cannot be read
or repeats a group at its own byte (R180, log 26). -/
def badStep (m : Image) (p : PlanName) (i : Nat) : List Nat :=
  let b := stepBase p i
  let count := m.u8 b
  badIf (outside 1 6 count) b ++
  ((List.range (min count 6)).map fun e =>
    badIf ((readEntry m (b + 1 + e)).isNone ||
      (List.range e).any fun d => m.u8 (b + 1 + d) / 16 == m.u8 (b + 1 + e) / 16) (b + 1 + e)).flatten

/-- Failures of a plan: its step count and the entries of its first "step count" steps (section 11.3). -/
def badPlan (m : Image) (p : PlanName) : List Nat :=
  let count := m.u8 (planBase p)
  badIf (outside 0 8 count) (planBase p) ++
  ((List.range (min count 8)).map fun i => badStep m p i).flatten

/-- Failures of the wind parameters (R39, section 5.5). -/
def badWind (m : Image) : List Nat :=
  badFlag m 432 ++ badIf (outside 1000 200000 (m.u24 433)) 433 ++ badIf (outside 0 3 (m.u8 436)) 436 ++
  badIf (outside 20 999 (m.u16 437)) 437 ++
  badIf (outside 10 998 (m.u16 439) || decide (m.u16 437 ≤ m.u16 439)) 439 ++
  badIf (outside 1 30 (m.u8 441)) 441 ++ badIf (outside 10 900 (m.u16 442)) 442

/-- Every byte that validation names in an image, for a variant's channel count (R180). -/
def badBytes (m : Image) (count : Nat) : List Nat :=
  badChannels m count ++ badRoles m ++
  badKind m .slideMotor ++ badKind m .pumpMotor ++ badKind m .awningMotor ++ badKind m .jackValve ++
  badGeneral m ++ (allRooms.map fun k => badRoom m k).flatten ++ badAwning m ++
  (allJacks.map fun j => badJack m j).flatten ++ badLevel m ++ badPlan m .setup ++ badPlan m .stow ++ badWind m

/-- The lowest byte that validation names, or none when the image passes (R180). -/
def firstBadByte (m : Image) (count : Nat) : Option Nat := (badBytes m count).min?

end Sys2Proof.Machine
end

