-- ==== Sys2Proof/Machine/State.lean ====
section
/-! DEFINITION. Everything the spec gives the block to hold, the reasons a step could stop, and the state right after
reset. -/

namespace Sys2Proof.Machine

/-- A step of this block never stops: the spec gives every command an effect in every state, so no meaning raises a
fault and this type has no constructor (safe: nothing can be proved from a fault that never comes). -/
inductive Fault where
deriving DecidableEq, Repr

/-- Reasons to refuse a command. -/
inductive Refusal where
  /-- Raised by exec's arm of a command that has no meaning yet; no arm raises it now (safe: the model stops). -/
  | notModelled (mnemonic : String)
deriving DecidableEq, Repr

/-! ### Codes that records hold (section 11.1) -/

/-- How a motion ended (00 section 4, codes in section 11.1). -/
inductive MotionOutcome where
  | endReached | homeReached | stabilised | levelled | limited | released | holdLapsed | stopped | road | interlock
  | preempted | supplyLow | tooSteep | fault
deriving DecidableEq, Repr

/-- A fault code of an axis record (section 11.1). -/
inductive FaultCode where
  | obstructed | overcurrent | racked | unseated | mismatch | overtravel | runTimeout | pulseNoise | passTimeout
deriving DecidableEq, Repr

/-- Why a permit is not met (R127, section 11.1). -/
inductive Cause where
  | road | needsSupport | roomsOut | awningOut | awningClash | wind
deriving DecidableEq, Repr

/-- Why a request is refused, in the order of the table of R170. -/
inductive Reason where
  | held | notPermitted | budget | homeFirst | faulted | unavailable | planActive | tooSteep | storeBusy | notConfigured
  | badRequest | layoutInvalid
deriving DecidableEq, Repr

/-- The holder of a claim (R110). -/
inductive Owner where
  | port (p : Port)
  | sequencer
  | wind
deriving DecidableEq, Repr

/-- Who started a plan (section 8.2). -/
inductive PlanOwner where
  | port (p : Port)
  | ignition
deriving DecidableEq, Repr

/-- The mode of a claim (R110). -/
inductive Mode where
  | hold | auto
deriving DecidableEq, Repr

/-! ### Channels (section 1.3) -/

/-- A channel's fitted state (R2). -/
inductive CensusState where
  | absent | unused | empty | loose | seated | mismatch
deriving DecidableEq, Repr

/-- A channel's drive state (R8, R9). -/
inductive DriveState where
  | off | stopping | dwelling | ramping | atSpeed
deriving DecidableEq, Repr

/-- The time and direction of a channel's last stop (R13). -/
structure LastStop where
  time : Time
  dir : Dir
deriving DecidableEq, Repr

/-- The record of a channel (section 1.3). The output duty is derived from it (R11, R12). -/
structure Channel where
  census : CensusState
  settled : Bool
  kindRead : Kind
  /-- The levels of a read awaiting confirmation; in the start-up census, of the read just before (log 20). -/
  pendingRead : Option Levels
  /-- When that read was taken: the next is taken 20 ms after it (R3, R4). The model's own field. -/
  pendingAt : Option Time
  settledLevels : Option Levels
  drive : DriveState
  dir : Dir
  ramped : Nat
  trimmed : Option Nat
  lastStop : Option LastStop
  driveStart : Option Time
  /-- Ramp steps made since the drive start: the next falls due 10 ms after the last (R11). The model's own field. -/
  rampCount : Nat
  scaled : Nat
  overRun : Nat
  /-- The duty of the PWM period in progress (R10). -/
  waveDuty : Nat
deriving DecidableEq, Repr

/-! ### Input conditioning (chapter 2) -/

/-- A conditioned discrete line: its last samples, oldest first, at most three, and its accepted level (R21, R23). True
stands for high, and for a seat line for asserted, which is low (section 11.4). -/
structure DiscreteLine where
  samples : List Bool
  accepted : Option Bool
deriving DecidableEq, Repr

/-- A conditioned pulse line: its accepted level and its run of differing samples (R24, R26). -/
structure PulseLine where
  accepted : Option Bool
  run : Nat
deriving DecidableEq, Repr

/-- The conditioned lines of a channel. -/
structure ChannelLines where
  hom : DiscreteLine
  sea : DiscreteLine
  seb : DiscreteLine
  knd1 : DiscreteLine
  knd0 : DiscreteLine
  pls : PulseLine
deriving DecidableEq, Repr

/-- The pace watch record of a channel (section 2.3). The fill is the length of the ring. -/
structure PaceRecord where
  counter : Nat
  /-- The captures, oldest first, at most eight (R33). -/
  ring : List Nat
  tally : Nat
  stallRaised : Bool
deriving DecidableEq, Repr

/-! ### Rooms and the awning (chapters 3 and 5) -/

/-- Where a room or the awning stands. The awning's STOWED, EXTENDING, OUT and RETRACTING correspond to CLOSED,
OPENING, OPEN and CLOSING (R94); `midway` is PARTIAL. -/
inductive AxisState where
  | closed | opening | opened | closing | midway | unknown
deriving DecidableEq, Repr

/-- What a motor is doing within the present motion (section 3.1). -/
inductive MotorPhase where
  | idle | travel | seat | finished
deriving DecidableEq, Repr

/-- The fields a room record holds once for each motor (section 3.1). -/
structure MotorRec where
  count : Option Nat
  phase : MotorPhase
  seatDeadline : Option Time
  tally : Nat
deriving DecidableEq, Repr

/-- The record of a room, or of the awning with motor A alone (section 3.1, R94). Position known is derived. -/
structure SliderRec where
  state : AxisState
  motorA : MotorRec
  motorB : MotorRec
  fault : Option FaultCode
  lastOutcome : Option MotionOutcome
  runTime : Time
deriving DecidableEq, Repr

/-! ### Jacks (chapter 4) -/

/-- A jack's part in the present motion (section 4.2). -/
inductive JackPhase where
  | idle | active | done
deriving DecidableEq, Repr

/-- The record of a jack (section 4.2). Its state is derived (R63). -/
structure Jack where
  count : Option Nat
  contact : Bool
  lossRun : Nat
  liftOff : Bool
  pressure : Nat
  atStroke : Bool
  fault : Option FaultCode
  phase : JackPhase
  dir : Dir
deriving DecidableEq, Repr

/-- The state of a jack, in the order of section 4.2 (R63). -/
inductive JackState where
  | retracted | extending | retracting | down | contact | lifted
deriving DecidableEq, Repr

/-- The state of the jack set, in the order of its codes (R70, section 11.1). -/
inductive JackSetState where
  | stowed | deployed | stabilised | levelled | faulted
deriving DecidableEq, Repr

/-- The jack set record (section 4.5). Its state is derived (R70). -/
structure JackSet where
  levelMark : Bool
  lastOutcome : Option MotionOutcome
  runTime : Time
deriving DecidableEq, Repr

/-- The status of the level run record (section 4.9). -/
inductive LevelStatus where
  | none | active | ended
deriving DecidableEq, Repr

/-- The phase of a level run (section 4.9). -/
inductive LevelPhase where
  | contact | settle | lift
deriving DecidableEq, Repr

/-- The level run record (section 4.9). -/
structure LevelRun where
  status : LevelStatus
  phase : LevelPhase
  pass : Nat
  returns : Nat
  phaseTime : Time
  pitch : Int
  roll : Int
  targets : Vector (Option Nat) 6
  progress : Vector Nat 6
  selected : Vector Bool 6
  limited : Bool
  outcome : Option MotionOutcome
deriving DecidableEq, Repr

/-- The tilt record: the last samples held, oldest first, at most 100 of each, and the present pitch and roll (R82). -/
structure Tilt where
  samplesX : List Nat
  samplesY : List Nat
  pitch : Int
  roll : Int
deriving DecidableEq, Repr

/-! ### Wind (chapters 2 and 5) -/

/-- The wind state (section 5.5). -/
inductive WindState where
  | unwatched | calm | rising | gusty | easing
deriving DecidableEq, Repr

/-- The wind record (section 5.5) with the wind interval record (R38). -/
structure Wind where
  state : WindState
  speed : Nat
  deadline : Option Time
  timer : Time
  counter : Nat
  ring : List Nat
  /-- An entry into GUSTY fell while a store write was in flight, so the check of R107 is still to be made (R107). -/
  gustMissed : Bool
deriving DecidableEq, Repr

/-! ### Claims, budget, plan (chapters 6 to 8) -/

/-- A claim on a group (R110). Its motion is the group's entry in either list. -/
structure Claim where
  owner : Owner
  mode : Mode
  action : Action
  deadline : Option Time
  ended : Bool
deriving DecidableEq, Repr

/-- The state of a motion entry (R134). -/
inductive EntryState where
  | running | paused | waiting
deriving DecidableEq, Repr

/-- A motion entry (R134). -/
structure Entry where
  group : Group
  owner : Owner
  mode : Mode
  action : Action
  units : Nat
  order : Nat
  state : EntryState
  pausedSince : Option Time
deriving DecidableEq, Repr

/-- The supply band (R133). -/
inductive Band where
  | a | b | c | d
deriving DecidableEq, Repr

/-- The supply record (R132, R133): the raw samples held, oldest first, at most 25, the last mean and the band. -/
structure Supply where
  samples : List Nat
  mean : Option Nat
  band : Band
deriving DecidableEq, Repr

/-- The status of the plan record (section 8.2). -/
inductive PlanStatus where
  | none | running | done | failed | preempted | stopped
deriving DecidableEq, Repr

/-- A step slot: ACTIVE without an outcome, SUCCEEDED with one (section 8.2). -/
structure Slot where
  group : Group
  outcome : Option MotionOutcome
deriving DecidableEq, Repr

/-- What ended a FAILED or PREEMPTED plan (section 8.2, R154). -/
structure PlanFailure where
  step : Nat
  group : Group
  reason : Option Reason
  cause : Option Cause
  outcome : Option MotionOutcome
  fault : Option FaultCode
deriving DecidableEq, Repr

/-- The plan record (section 8.2). -/
structure Plan where
  status : PlanStatus
  name : Option PlanName
  owner : Option PlanOwner
  stepCount : Nat
  stepIndex : Nat
  reserved : Vector Bool 6
  slots : List Slot
  limited : Bool
  failure : Option PlanFailure
deriving DecidableEq, Repr

/-! ### Ports and store (chapters 9 and 10) -/

/-- A partial frame: its data bytes so far and the time of its first character (section 9, R160). -/
structure PartialFrame where
  bytes : List Byte
  first : Time
deriving DecidableEq, Repr

/-- A port record (section 9). The assembly state is IN_FRAME while a partial frame is held. -/
structure PortRec where
  frame : Option PartialFrame
  linkErrors : Nat
  routeMask : Classes
  pending : Classes
  /-- The reply frames waiting, each as the bytes of its characters, the head being sent (R165). -/
  replies : List (List Byte)
  /-- When the head of the reply queue began to be sent (R165). The model's own field. -/
  headSince : Option Time
deriving DecidableEq, Repr

/-- What the non-volatile store holds: a whole record, or the remains of a write that was cut off, whose bytes the spec
does not give but for failing their check (R184, log 8). -/
inductive Stored where
  | record (m : Image)
  | cutOff
deriving DecidableEq, Repr

/-- The kind of a reset in progress (R183). -/
inductive ResetKind where
  | cold | warm
deriving DecidableEq, Repr

/-- The levels of the input lines of a channel as they stand, true for high; but a seat field is true when its line is
asserted, which is low (section 11.4). -/
structure ChannelPins where
  pls : Bool
  hom : Bool
  sea : Bool
  seb : Bool
  knd1 : Bool
  knd0 : Bool
  ana : Sample
deriving DecidableEq, Repr

/-- The levels of the part's input lines and straps as they stand (section 11.4). -/
structure Pins where
  channels : Vector ChannelPins 16
  park : Bool
  ign : Bool
  wnd : Bool
  /-- The level of RESET, active low. -/
  reset : Bool
  tiltX : Sample
  tiltY : Sample
  vsup : Sample
  straps : Straps
deriving DecidableEq, Repr

/-- The state of the block. -/
structure State where
  /-- The commands waiting, the next at the head. -/
  pending : List Instr
  /-- Time since the end of the last reset. -/
  now : Time
  /-- The moment of the last idle step, which has raised every event due at it (log 3). The model's own field. -/
  tickedAt : Option Time
  /-- The reset in progress, if one is (R183). -/
  inReset : Option ResetKind
  /-- How long RESET has been low, up to the 1 ms that begins a warm reset (R183). -/
  resetLow : Time
  pins : Pins
  /-- The straps as read at the last reset (R186). -/
  straps : Straps
  layout : Layout
  staging : Image
  stored : Stored
  /-- The store write in flight, with the time it began (R181). -/
  write : Option Time
  channels : Vector Channel 16
  lines : Vector ChannelLines 16
  /-- The moment from which the discrete lines of a channel are sampled: the end of reset, or the layout that gave it
  its role (R23). -/
  lineStart : Vector Time 16
  park : DiscreteLine
  ign : DiscreteLine
  wndLine : PulseLine
  /-- When the start-up census in progress or last made began (R3). -/
  censusStart : Time
  pace : Vector PaceRecord 16
  rooms : Vector SliderRec 4
  awning : SliderRec
  jacks : Vector Jack 6
  jackSet : JackSet
  level : LevelRun
  tilt : Tilt
  wind : Wind
  claims : Vector (Option Claim) 6
  /-- The drive-away alarm (R125). -/
  alarm : Bool
  /-- The pending fault count, 0 to 4 (R130). -/
  faultCount : Nat
  /-- The start of the fault pattern playing, if one is (R130). -/
  faultPattern : Option Time
  /-- The start of the motion period in progress, while the load list is not empty (R130). -/
  motionPeriod : Option Time
  /-- The motion period in progress sounds its pulse: false in the period in which a fault pattern ended (R130). -/
  motionPulse : Bool
  supply : Supply
  /-- The load list, oldest entry first (R135). -/
  load : List Entry
  /-- The pause list, in admission order (R135). -/
  paused : List Entry
  /-- The next admission order. The model's own field. -/
  nextOrder : Nat
  plan : Plan
  ports : Vector PortRec 3
deriving DecidableEq, Repr

/-! ### Values after reset -/

/-- A channel record after reset, for a census state (R19). -/
def freshChannel (c : CensusState) (settled : Bool) : Channel :=
  { census := c, settled := settled, kindRead := .slideMotor, pendingRead := none, pendingAt := none
    settledLevels := none, drive := .off, dir := .stowing, ramped := 0, trimmed := none, lastStop := none, driveStart := none
    rampCount := 0, scaled := 0, overRun := 0, waveDuty := 0 }

/-- A discrete line without samples and without an accepted level (R23). -/
def freshLine : DiscreteLine := { samples := [], accepted := none }

/-- A pulse line before its first sample (R26). -/
def freshPulse : PulseLine := { accepted := none, run := 0 }

/-- The lines of a channel before their first samples (R23, R26). -/
def freshLines : ChannelLines :=
  { hom := freshLine, sea := freshLine, seb := freshLine, knd1 := freshLine, knd0 := freshLine, pls := freshPulse }

/-- A cleared pace watch record (R27). -/
def clearedPace : PaceRecord := { counter := 0, ring := [], tally := 0, stallRaised := false }

/-- A motor of a room record after a cold reset (R57). -/
def freshMotor : MotorRec := { count := none, phase := .idle, seatDeadline := none, tally := 0 }

/-- A room or awning record after a cold reset (R57, R103). -/
def freshSlider : SliderRec :=
  { state := .unknown, motorA := freshMotor, motorB := freshMotor, fault := none, lastOutcome := none, runTime := 0 }

/-- What the record of an awning that is not configured reads: STOWED, position known, count 0 (R94). -/
def stowedAwning : SliderRec := { freshSlider with state := .closed, motorA := { freshMotor with count := some 0 } }

/-- A jack record after a cold reset (R90); the direction is log 6. -/
def freshJack : Jack :=
  { count := none, contact := false, lossRun := 0, liftOff := false, pressure := 0, atStroke := false, fault := none
    phase := .idle, dir := .outward }

/-- The level run record with status NONE (R90); its other fields are log 6. -/
def freshLevel : LevelRun :=
  { status := .none, phase := .contact, pass := 0, returns := 0, phaseTime := 0, pitch := 0, roll := 0
    targets := Vector.replicate 6 none, progress := Vector.replicate 6 0, selected := Vector.replicate 6 false
    limited := false, outcome := none }

/-- The tilt record with no sample held: pitch and roll read 0 (R82). -/
def freshTilt : Tilt := { samplesX := [], samplesY := [], pitch := 0, roll := 0 }

/-- The wind record after reset (R106, R38). -/
def freshWind (present : Bool) : Wind :=
  { state := if present then .calm else .unwatched, speed := 0, deadline := none, timer := 0, counter := 0, ring := []
    gustMissed := false }

/-- The supply record after reset: no samples, no mean, band D (R132, R133). -/
def freshSupply : Supply := { samples := [], mean := none, band := .d }

/-- The plan record with status NONE (R148). -/
def freshPlan : Plan :=
  { status := .none, name := none, owner := none, stepCount := 0, stepIndex := 0
    reserved := Vector.replicate 6 false, slots := [], limited := false, failure := none }

/-- Notice class CENSUS, number 8 (R171). -/
def censusClass : Classes := 0x100

/-- A port record after reset (R175). -/
def freshPort : PortRec :=
  { frame := none, linkErrors := 0, routeMask := 0xFFF, pending := censusClass, replies := [], headSince := none }

/-- The input lines right after reset. The spec gives no level for any of them, so each is the model's choice (log 5):
RESET is high; no seat contact asserts its line, so every SEAn and SEBn is high, since a seat line is asserted when pulled
low (section 11.4); every other digital line and strap is low, and every analog line samples 0. -/
def idlePins : Pins :=
  { channels := Vector.replicate 16
      { pls := false, hom := false, sea := false, seb := false, knd1 := false, knd0 := false, ana := 0 }
    park := false, ign := false, wnd := false, reset := true, tiltX := 0, tiltY := 0, vsup := 0
    straps := { variant := 0, rate := false } }

/-- Every field at the value the spec states for the moment right after a cold reset, with a blank store, so that the
layout in force is EMPTY and notice LAYOUT stands beside CENSUS (R177). What the spec does not state here (the straps,
the blank store, the levels of the input lines) is log 5. -/
def State.reset : State :=
  { pending := []
    now := 0
    tickedAt := none
    inReset := none
    resetLow := 0
    pins := idlePins
    straps := { variant := 0, rate := false }
    layout := Layout.empty
    staging := emptyImage
    stored := .record Image.blank
    write := none
    channels := Vector.replicate 16 (freshChannel .unused true)
    lines := Vector.replicate 16 freshLines
    lineStart := Vector.replicate 16 0
    park := freshLine
    ign := freshLine
    wndLine := freshPulse
    censusStart := 0
    pace := Vector.replicate 16 clearedPace
    rooms := Vector.replicate 4 freshSlider
    awning := freshSlider
    jacks := Vector.replicate 6 freshJack
    jackSet := { levelMark := false, lastOutcome := none, runTime := 0 }
    level := freshLevel
    tilt := freshTilt
    wind := freshWind false
    claims := Vector.replicate 6 none
    alarm := false
    faultCount := 0
    faultPattern := none
    motionPeriod := none
    motionPulse := false
    supply := freshSupply
    load := []
    paused := []
    nextOrder := 0
    plan := freshPlan
    ports := Vector.replicate 3 { freshPort with pending := 0x300 } }

end Sys2Proof.Machine
end

