-- ==== Sys2Proof/Machine/Ops.lean ====
section
/-! DEFINITION. The named reads and writes of the state that every chapter uses: channels and roles, groups and their
availability, the two lists, claims, room and jack records, the road state. -/

namespace Sys2Proof.Machine

/-! ### Ports -/

/-- The place of a port in the list of port records. -/
def portIndex : Port → Fin 3
  | .p1 => 0
  | .p2 => 1
  | .p3 => 2

/-- The record of a port. -/
def State.port (s : State) (p : Port) : PortRec := s.ports[portIndex p]

/-- Replace the record of a port. -/
def State.setPort (s : State) (p : Port) (r : PortRec) : State :=
  { s with ports := s.ports.set (portIndex p) r }

/-! ### Channels, roles and lines -/

/-- The record of a channel. -/
def State.chan (s : State) (n : Chan) : Channel := s.channels[n]

/-- Replace the record of a channel. -/
def State.setChan (s : State) (n : Chan) (c : Channel) : State :=
  { s with channels := s.channels.set n c }

/-- The pace watch record of a channel. -/
def State.paceRec (s : State) (n : Chan) : PaceRecord := s.pace[n]

/-- Replace the pace watch record of a channel. -/
def State.setPace (s : State) (n : Chan) (r : PaceRecord) : State :=
  { s with pace := s.pace.set n r }

/-- The channel count of a variant code (R186). -/
def variantCount (v : BitVec 2) : Nat := if v = 0 then 16 else 10

/-- The channel is within the variant's channel count (R2). -/
def State.present (s : State) (n : Chan) : Bool := decide (n.val < variantCount s.straps.variant)

/-- The role the layout in force gives a channel (R1). -/
def State.role (s : State) (n : Chan) : Role := s.layout.roles[n]

/-- The channel needs census reads: it is present and has a role (R2). Such a channel is also the one that is
sampled and conditioned (R16, R21). -/
def State.needsReads (s : State) (n : Chan) : Bool := s.present n && s.role n != .none

/-- The channel that has a role. -/
def State.roleChan (s : State) (r : Role) : Option Chan := allChans.find? fun n => s.role n == r

/-- The channels of a group (R1). -/
def State.groupChans (s : State) (g : Group) : List Chan := allChans.filter fun n => (s.role n).group == some g

/-- The parameters of the kind that a channel's role expects. A channel without a role has no use for them. -/
def State.kindParams (s : State) (n : Chan) : KindParams :=
  s.layout.kindParams ((s.role n).kind.getD .slideMotor)

/-- The channel is driven: RAMPING or AT_SPEED. -/
def Channel.driven (c : Channel) : Bool := c.drive == .ramping || c.drive == .atSpeed

/-- The output duty of a channel (R11, R12): the smaller of the trimmed and the ramped duty while driven, else 0. -/
def Channel.outputDuty (c : Channel) : Nat :=
  if c.driven then
    match c.trimmed with
    | some t => min t c.ramped
    | none => c.ramped
  else 0

/-- The home switch of a channel reads closed: its accepted level is high (R22). -/
def State.homeClosed (s : State) (n : Chan) : Bool := (s.lines[n]).hom.accepted == some true

/-! ### Groups -/

/-- Jack j has a channel (R62). -/
def State.jackConfigured (s : State) (j : JackId) : Bool := (s.roleChan (.jack j)).isSome

/-- The configured jacks in rising number. -/
def State.configuredJacks (s : State) : List JackId := allJacks.filter fun j => s.jackConfigured j

/-- The jack count J (R62). -/
def State.jackCount (s : State) : Nat := s.configuredJacks.length

/-- The group is configured: a room by its ROOMk-A channel (section 3.1), JACKS by J above 0 (R62), AWNING by its
channel (R94). -/
def State.configured (s : State) : Group → Bool
  | .room k => (s.roleChan (.room k .a)).isSome
  | .jacks => decide (0 < s.jackCount)
  | .awning => (s.roleChan .awning).isSome

/-- The group is UNAVAILABLE: some channel of it is not SEATED (R6). -/
def State.unavailable (s : State) (g : Group) : Bool :=
  (s.groupChans g).any fun n => (s.chan n).census != .seated

/-- The road state: PARKED while the accepted level of PARK is high, ROAD while it is low, none before the first
accepted level (R123). -/
inductive Road where
  | none | parked | road
deriving DecidableEq, Repr

/-- The road state (R123). -/
def State.road (s : State) : Road :=
  match s.park.accepted with
  | Option.none => .none
  | some true => .parked
  | some false => .road

/-- The claim on a group, if one stands. -/
def State.claim (s : State) (g : Group) : Option Claim := s.claims[groupIndex g]

/-- Replace the entry of a group in the claim table. -/
def State.setClaim (s : State) (g : Group) (c : Option Claim) : State :=
  { s with claims := s.claims.set (groupIndex g) c }

/-- Every claim entry is free. -/
def State.allFree (s : State) : Bool := allGroups.all fun g => (s.claim g).isNone

/-- Every entry of the claim table made free (R121). -/
def State.freeAllClaims (s : State) : State := { s with claims := Vector.replicate 6 none }

/-! ### The two lists (R134, R135) -/

/-- The motion of a group: its entry in the load list or the pause list. -/
def State.entryOf (s : State) (g : Group) : Option Entry := (s.load ++ s.paused).find? fun e => e.group == g

/-- The group's motion is RUNNING in the load list. -/
def State.running (s : State) (g : Group) : Bool := s.load.any fun e => e.group == g

/-- The group has a motion in the pause list. -/
def State.isPaused (s : State) (g : Group) : Bool := s.paused.any fun e => e.group == g

/-- The units held by a list of entries. -/
def unitsOf (l : List Entry) : Nat := (l.map Entry.units).sum

/-- The held units: the sum of the units of the load list (R134). -/
def State.heldUnits (s : State) : Nat := unitsOf s.load

/-- The budget of a band (R133). -/
def Band.budget : Band → Nat
  | .a => 12
  | .b => 8
  | .c => 5
  | .d => 0

/-- The budget of the present band (R133). -/
def State.budget (s : State) : Nat := s.supply.band.budget

/-- Units fit within what is left of the budget (R136). -/
def State.fits (s : State) (units : Nat) : Bool := decide (units + s.heldUnits ≤ s.budget)

/-- Replace the load list. Motion periods count from the moment at which it last passed from empty to not empty, within an
event too (log 45), and stop when it empties (R130). -/
def State.setLoad (s : State) (l : List Entry) : State :=
  { s with
    load := l
    motionPeriod := if l.isEmpty then none else if s.load.isEmpty then some s.now else s.motionPeriod
    motionPulse := if l.isEmpty then false else if s.load.isEmpty then true else s.motionPulse }

/-- Take the entries of a group out of both lists. -/
def State.removeEntry (s : State) (g : Group) : State :=
  let s1 := s.setLoad (s.load.filter fun e => e.group != g)
  { s1 with paused := s.paused.filter fun e => e.group != g }

/-- Put an entry into the pause list at its place by admission order (R135). -/
def insertByOrder (e : Entry) : List Entry → List Entry
  | [] => [e]
  | x :: rest => if e.order < x.order then e :: x :: rest else x :: insertByOrder e rest

/-- The channels that belong to a motion (R7): of a single-jack motion the valve of its jack and the pump, of every
other motion all channels of its group. -/
def State.motionChans (s : State) (e : Entry) : List Chan :=
  match e.action with
  | .jack j _ => allChans.filter fun n => s.role n == .jack j || s.role n == .pump
  | _ => s.groupChans e.group

/-- The motion in either list that a channel belongs to (R7). -/
def State.motionOfChan (s : State) (n : Chan) : Option Entry :=
  (s.load ++ s.paused).find? fun e => (s.motionChans e).contains n

/-- The channel may be enabled: it is SEATED and belongs to a RUNNING motion in the load list (R8, R9). -/
def State.mayDrive (s : State) (n : Chan) : Bool :=
  (s.chan n).census == .seated && s.load.any fun e => (s.motionChans e).contains n

/-- The direction of a motion's action. The level run extends (R83). -/
def Action.dir : Action → Dir
  | .toward d => d
  | .level => .outward
  | .jack _ d => d

/-! ### Rooms and the awning as sliders -/

/-- A room, or the awning, which is driven "under the same home, seat, end-of-travel and overtravel rules as a one-motor
room" (chapter 5). -/
inductive Slider where
  | room (k : RoomId)
  | awning
deriving DecidableEq, Repr

/-- The group of a slider. -/
def Slider.group : Slider → Group
  | .room k => .room k
  | .awning => .awning

/-- The slider of a group, if the group is not JACKS. -/
def sliderOf : Group → Option Slider
  | .room k => some (.room k)
  | .jacks => none
  | .awning => some .awning

/-- The record of a slider. -/
def State.slider (s : State) : Slider → SliderRec
  | .room k => s.rooms[k]
  | .awning => s.awning

/-- Replace the record of a slider. -/
def State.setSlider (s : State) : Slider → SliderRec → State
  | .room k, r => { s with rooms := s.rooms.set k r }
  | .awning, r => { s with awning := r }

/-- The channel of a motor of a slider. -/
def State.motorChan (s : State) : Slider → Motor → Option Chan
  | .room k, m => s.roleChan (.room k m)
  | .awning, .a => s.roleChan .awning
  | .awning, .b => none

/-- The motors of a slider: A, and B where a ROOMk-B channel exists (section 3.1). -/
def State.motors (s : State) (id : Slider) : List Motor :=
  if (s.motorChan id .b).isSome then [.a, .b] else [.a]

/-- The slider has two motors. -/
def State.twoMotors (s : State) (id : Slider) : Bool := (s.motorChan id .b).isSome

/-- A motor's fields of a slider record. -/
def SliderRec.motor (r : SliderRec) : Motor → MotorRec
  | .a => r.motorA
  | .b => r.motorB

/-- Replace a motor's fields of a slider record. -/
def SliderRec.setMotor (r : SliderRec) : Motor → MotorRec → SliderRec
  | .a, x => { r with motorA := x }
  | .b, x => { r with motorB := x }

/-- A motor's fields. -/
def State.motor (s : State) (id : Slider) (m : Motor) : MotorRec := (s.slider id).motor m

/-- Replace a motor's fields. -/
def State.setMotor (s : State) (id : Slider) (m : Motor) (x : MotorRec) : State :=
  s.setSlider id ((s.slider id).setMotor m x)

/-- The travel count T of a slider. -/
def State.travel (s : State) : Slider → Nat
  | .room k => (s.layout.rooms[k]).travel
  | .awning => s.layout.awning.travel

/-- The end window E of a slider. -/
def State.endWindow (s : State) : Slider → Nat
  | .room k => (s.layout.rooms[k]).endWindow
  | .awning => s.layout.awning.endWindow

/-- The seat fraction C of a slider. -/
def State.seatFraction (s : State) : Slider → Nat
  | .room k => (s.layout.rooms[k]).seatFraction
  | .awning => s.layout.awning.seatFraction

/-- The run timeout of a slider (R45, R97). -/
def State.sliderTimeout (s : State) : Slider → Time
  | .room _ => seconds s.layout.roomTimeout
  | .awning => seconds s.layout.awning.runTimeout

/-- The travel limit T + E (section 3.1, R94). -/
def State.travelLimit (s : State) (id : Slider) : Nat := s.travel id + s.endWindow id

/-- A motor's home switch reads closed. -/
def State.motorHome (s : State) (id : Slider) (m : Motor) : Bool :=
  match s.motorChan id m with
  | some n => s.homeClosed n
  | none => false

/-- Every motor's home switch reads closed. -/
def State.allHome (s : State) (id : Slider) : Bool := (s.motors id).all fun m => s.motorHome id m

/-- The record of a slider as permits, tests and replies read it: an awning that is not configured reads STOWED with
position known and count 0 (R94). -/
def State.sliderRead (s : State) : Slider → SliderRec
  | .room k => s.rooms[k]
  | .awning => if s.configured .awning then s.awning else stowedAwning

/-- Position known: every motor has a count (section 3.1). -/
def State.positionKnown (s : State) (id : Slider) : Bool :=
  (s.motors id).all fun m => ((s.sliderRead id).motor m).count.isSome

/-- A motor is driven. -/
def State.motorDriven (s : State) (id : Slider) (m : Motor) : Bool :=
  match s.motorChan id m with
  | some n => (s.chan n).driven
  | none => false

/-- The state of a slider as the permits and the replies read it (R94). -/
def State.sliderState (s : State) (id : Slider) : AxisState := (s.sliderRead id).state

/-! ### Jacks -/

/-- The record of a jack. -/
def State.jack (s : State) (j : JackId) : Jack := s.jacks[j]

/-- Replace the record of a jack. -/
def State.setJack (s : State) (j : JackId) (r : Jack) : State := { s with jacks := s.jacks.set j r }

/-- The layout parameters of a jack (R62). -/
def State.jackParams (s : State) (j : JackId) : JackParams := s.layout.jacks[j]

/-- A jack's home switch reads closed. -/
def State.jackHome (s : State) (j : JackId) : Bool :=
  match s.roleChan (.jack j) with
  | some n => s.homeClosed n
  | none => false

/-- A jack's valve is driven. -/
def State.valveDriven (s : State) (j : JackId) : Bool :=
  match s.roleChan (.jack j) with
  | some n => (s.chan n).driven
  | none => false

/-- The state of a jack: the first row of R63 that applies. -/
def State.jackState (s : State) (j : JackId) : JackState :=
  let r := s.jack j
  if r.phase = .active then
    match r.dir with
    | .outward => .extending
    | .stowing => .retracting
  else if s.jackHome j then .retracted
  else if r.contact then .contact
  else if r.liftOff then .lifted
  else .down

/-- A jack is planted: its contact is yes and it is not RETRACTING (R70). -/
def State.planted (s : State) (j : JackId) : Bool := (s.jack j).contact && s.jackState j != .retracting

/-- Some jack holds a fault (R70). -/
def State.jacksFaulted (s : State) : Bool := s.configuredJacks.any fun j => (s.jack j).fault.isSome

/-- The jack set state: the first row of R70 that applies; STOWED while J is 0 (R62). -/
def State.jackSetState (s : State) : JackSetState :=
  if s.jackCount = 0 then .stowed
  else if s.jacksFaulted then .faulted
  else if s.configuredJacks.all fun j => s.jackState j == .retracted then .stowed
  else if s.configuredJacks.all fun j => s.planted j then
    if s.jackSet.levelMark then .levelled else .stabilised
  else .deployed

/-- The group holds a fault (R55, R81, R102). -/
def State.groupFaulted (s : State) : Group → Bool
  | .room k => (s.rooms[k]).fault.isSome
  | .jacks => s.jacksFaulted
  | .awning => s.awning.fault.isSome

/-! ### Frames of channel writes -/

/-- Apply a state change for each element of a list, from the left. -/
def forEach {α : Type} (l : List α) (f : α → State → State) (s : State) : State := l.foldl (fun t a => f a t) s

end Sys2Proof.Machine
end

