-- ==== Sys2Proof/Machine/Flags.lean ====
section
/-! DEFINITION. The notices and the attention lines (section 9.6), the drive-away alarm (R125) and the buzzer's fault
patterns (R130). -/

namespace Sys2Proof.Machine

/-- The twelve notice classes in the order of their numbers (R171). -/
inductive Notice where
  | motionEnd | fault | interlock | wind | supply | road | plan | level | census | layout | preempt | link
deriving DecidableEq, Repr

/-- The number of a notice class (R171). -/
def Notice.number : Notice → Nat
  | .motionEnd => 0
  | .fault => 1
  | .interlock => 2
  | .wind => 3
  | .supply => 4
  | .road => 5
  | .plan => 6
  | .level => 7
  | .census => 8
  | .layout => 9
  | .preempt => 10
  | .link => 11

/-- The class set that holds one notice class. -/
def Notice.bit (c : Notice) : Classes := 1#12 <<< c.number

/-- A notice class is added to the pending set of every port (R171). -/
def State.raise (s : State) (c : Notice) : State :=
  { s with ports := s.ports.map fun r => { r with pending := r.pending ||| c.bit } }

/-- A port's ATTN line: its pending set and its route mask have a class in common (R172); from the end of a reset on, not
during it (R175). -/
def State.attn (s : State) (p : Port) : Bool := s.inReset.isNone && (s.port p).pending &&& (s.port p).routeMask != 0

/-- A fault pattern starts when the count is above 0, none is playing and the alarm is inactive (R130). -/
def State.buzzKick (s : State) : State :=
  if 0 < s.faultCount ∧ s.faultPattern = none ∧ s.alarm = false then
    { s with faultCount := s.faultCount - 1, faultPattern := some s.now }
  else s

/-- A motion ended with outcome FAULT: the pending fault count rises by 1, saturating at 4 (R130). -/
def State.countFault (s : State) : State :=
  { s with faultCount := min 4 (s.faultCount + 1) }.buzzKick

/-- Something is not stowed, as the drive-away alarm asks (R125). -/
def State.notStowed (s : State) : Bool :=
  (allRooms.any fun k => s.configured (.room k) && (s.rooms[k]).state != .closed) ||
  s.jackSetState != .stowed ||
  s.sliderState .awning != .closed

/-- The drive-away alarm is evaluated (R125). When it becomes active, notice ROAD is raised, a fault pattern in progress
is abandoned and the pending fault count becomes 0; when it becomes inactive, the rows below it apply again (R130). -/
def State.evalAlarm (s : State) : State :=
  let active := decide (s.road = .road) && s.notStowed
  if active && !s.alarm then
    { s with alarm := true, faultPattern := none, faultCount := 0 }.raise .road
  else if s.alarm && !active then { s with alarm := false }.buzzKick
  else s

/-- LAMP is on while the load list holds an entry (R129). -/
def State.lamp (s : State) : Bool := !s.load.isEmpty

/-- The level of the fault pattern a time after its start: three pulses of 100 ms at 0, 200 and 400 ms (R130). -/
def patternLevel (t : Time) : Bool :=
  decide (t < ms 100) || (decide (ms 200 ≤ t) && decide (t < ms 300)) || (decide (ms 400 ≤ t) && decide (t < ms 500))

/-- BUZZ sounds the first pattern of R130 that applies. -/
def State.buzz (s : State) : Bool :=
  if s.alarm then true
  else match s.faultPattern with
    | some t => patternLevel (s.now - t)
    | none =>
      match s.motionPeriod with
      | some t => s.motionPulse && decide (s.now - t < ms 100)
      | none => false

end Sys2Proof.Machine
end

