-- ==== Sys2Proof/Machine/Pace.lean ====
section
/-! DEFINITION. The arithmetic of the pace watch (R28 to R33) and of the wind pace (R38, R39). -/

namespace Sys2Proof.Machine

/-- The mean of the most recent captures of a ring, once a depth of them is held (R29). -/
def meanOfRecent (depth : Nat) (ring : List Nat) : Option Nat :=
  if depth ≤ ring.length then some ((ring.drop (ring.length - depth)).sum / depth) else none

/-- The ring with a newest capture; the oldest of eight is dropped (R33, R38). -/
def pushCapture (ring : List Nat) (c : Nat) : List Nat :=
  if ring.length < 8 then ring ++ [c] else ring.drop (ring.length - 7) ++ [c]

/-- The pace of a record under a kind's parameters, when it is defined (R29). -/
def paceOf (q : KindParams) (r : PaceRecord) : Option Nat := meanOfRecent q.depth r.ring

/-- The mask limit (R30). -/
def maskLimit (q : KindParams) (r : PaceRecord) : Nat :=
  match paceOf q r with
  | some p => p * q.maskFraction / 128
  | none => 0

/-- The stall limit (R31). -/
def stallLimit (q : KindParams) (r : PaceRecord) : Nat :=
  match paceOf q r with
  | some p => max q.stallFloor (min 65535 (p * q.stallFactor / 16))
  | none => max q.stallFloor (q.startLimit * 10)

/-- A counter that rises by a number of pace ticks and saturates at 65535 (R28, R38). -/
def countUp (c ticks : Nat) : Nat := min 65535 (c + ticks)

/-- The pace of a channel (R37). -/
def State.pace? (s : State) (n : Chan) : Option Nat := paceOf (s.kindParams n) (s.paceRec n)

/-- The mask limit of a channel. -/
def State.maskLimit (s : State) (n : Chan) : Nat := Machine.maskLimit (s.kindParams n) (s.paceRec n)

/-- The stall limit of a channel. -/
def State.stallLimit (s : State) (n : Chan) : Nat := Machine.stallLimit (s.kindParams n) (s.paceRec n)

/-- The channel has a position sensor, so PLSn is conditioned and a pace watch record is kept (R24, section 2.3). -/
def Role.hasPulses : Role → Bool
  | .room _ _ => true
  | .jack _ => true
  | .awning => true
  | .pump => false
  | .none => false

/-- A pulse at or above the mask limit is captured: the counter returns to 0 and stall raised becomes no (R33). -/
def PaceRecord.accept (r : PaceRecord) : PaceRecord :=
  { r with ring := pushCapture r.ring r.counter, counter := 0, stallRaised := false }

/-- A pulse below the mask limit raises the rejected tally, saturating at 255 (R32). -/
def PaceRecord.reject (r : PaceRecord) : PaceRecord := { r with tally := min 255 (r.tally + 1) }

/-- The wind pace (R38). -/
def windPace (w : Wind) : Option Nat := meanOfRecent 4 w.ring

/-- The wind speed computed from the wind pace, the wind counter and K (R39). -/
def windSpeed (k : Nat) (w : Wind) : Nat :=
  match windPace w with
  | none => 0
  | some p =>
    if w.counter = 65535 then 0
    else
      let divisor := max p w.counter
      if divisor = 0 then 999 else min 999 (k / divisor)

end Sys2Proof.Machine
end

