-- ==== Sys2Proof/Machine/Drive.lean ====
section
/-! DEFINITION. Driving a channel (section 1.5): starts, stops, the reversal dwell, the trim, the output lines. -/

namespace Sys2Proof.Machine

/-- The time for which DIRn holds its level after a stop, and for which coast pulses count (R13, R25). -/
def coastTime : Time := ms 50

/-- The reversal dwell of the layout (R14). -/
def State.dwellTime (s : State) : Time := ms s.layout.reversalDwell

/-- The reversal dwell holds a start of a channel in a direction (R14). By the model's choice its three conditions hold the
pump too where a new layout has turned a channel that last stopped stowing into PUMP (R68, R182, log 56). -/
def State.dwellHolds (s : State) (n : Chan) (d : Dir) : Bool :=
  match (s.chan n).lastStop with
  | some l => l.dir == d.opposite && decide (s.now < l.time + s.dwellTime)
  | none => false

/-- A channel record at its drive start (R8, R11): a valve is AT_SPEED at 255; a motor ramps from its start duty, or is
AT_SPEED at once when that equals its run duty. -/
def Channel.driveStarted (c : Channel) (q : KindParams) (d : Dir) (now : Time) : Channel :=
  { c with
    drive := if q.runDuty ≤ q.startDuty then .atSpeed else .ramping
    dir := d
    ramped := q.startDuty
    trimmed := none
    driveStart := some now
    rampCount := 0
    overRun := 0 }

/-- The rejected tally mirror of a motor follows the pace watch tally of its channel (R60). -/
def State.mirrorTally (s : State) (n : Chan) : State :=
  match s.role n with
  | .room k m => s.setMotor (.room k) m { s.motor (.room k) m with tally := (s.paceRec n).tally }
  | .awning => s.setMotor .awning .a { s.motor .awning .a with tally := (s.paceRec n).tally }
  | _ => s

/-- A drive start (R8): the channel starts, its pace record is cleared (R27), and the drive start of a jack valve clears
the level mark (R70). -/
def State.driveStart (s : State) (n : Chan) (d : Dir) : State :=
  let s1 := s.setChan n ((s.chan n).driveStarted (s.kindParams n) d s.now)
  let s2 := (s1.setPace n clearedPace).mirrorTally n
  match s.role n with
  | .jack _ => { s2 with jackSet := { s2.jackSet with levelMark := false } }
  | _ => s2

/-- A channel record stopped while driven (R13). -/
def Channel.halted (c : Channel) (now : Time) : Channel :=
  { c with
    drive := .stopping
    ramped := 0
    trimmed := none
    overRun := 0
    waveDuty := 0
    lastStop := some { time := now, dir := c.dir } }

/-- A DWELLING channel whose pending start is cancelled (R15): OFF, or STOPPING within 50 ms of its last stop. -/
def Channel.cancelled (c : Channel) (now : Time) : Channel :=
  match c.lastStop with
  | some l => { c with drive := if now < l.time + coastTime then .stopping else .off }
  | none => { c with drive := .off }

/-- A stop of a channel (R13, R15). A stop of an OFF or STOPPING channel has no effect. -/
def State.stopChan (s : State) (n : Chan) : State :=
  match (s.chan n).drive with
  | .ramping | .atSpeed => s.setChan n ((s.chan n).halted s.now)
  | .dwelling => s.setChan n ((s.chan n).cancelled s.now)
  | .off | .stopping => s

/-- A start from OFF or STOPPING: DWELLING while the reversal dwell holds it, else a drive start (R8). The flag says
whether a drive start took place. -/
def State.startHeld (s : State) (n : Chan) (d : Dir) : State × Bool :=
  if s.dwellHolds n d then (s.setChan n { s.chan n with drive := .dwelling, dir := d }, false)
  else (s.driveStart n d, true)

/-- A start request (R8, R15). The flag says whether a drive start took place. -/
def State.startChan (s : State) (n : Chan) (d : Dir) : State × Bool :=
  if s.mayDrive n then
    match (s.chan n).drive with
    | .off | .stopping => s.startHeld n d
    | .ramping | .atSpeed =>
      if (s.chan n).dir = d then (s, false) else (s.stopChan n).startHeld n d
    | .dwelling =>
      if (s.chan n).dir = d then (s, false) else (s.driveStart n d, true)
  else (s, false)

/-- Set or clear the trimmed duty of a channel (R12). -/
def State.setTrim (s : State) (n : Chan) (t : Option Nat) : State :=
  s.setChan n { s.chan n with trimmed := t }

/-! ### Output lines -/

/-- ENn (R9). -/
def State.enOut (s : State) (n : Chan) : Bool := (s.chan n).driven

/-- The level of a direction on DIRn, by the channel's direction flag (R9). -/
def dirLevel (flag : Bool) (d : Dir) : Bool := (d == .outward) != flag

/-- DIRn (R9, R13). By inference the direction flag is the one of the layout in force, also for a channel that a new layout
finds within the 50 ms after its stop (R182): its DIRn changes level where the flag changes (log 48). -/
def State.dirOut (s : State) (n : Chan) : Bool :=
  let c := s.chan n
  let flag := s.layout.dirFlags[n]
  match c.drive with
  | .off => false
  | .ramping | .atSpeed => dirLevel flag c.dir
  | .stopping =>
    match c.lastStop with
    | some l => dirLevel flag l.dir
    | none => false
  | .dwelling =>
    match c.lastStop with
    | some l => decide (s.now < l.time + coastTime) && dirLevel flag l.dir
    | none => false

/-- DRVn at a phase of its 50 µs period, given in 256ths (R9, R10): high for duty/256 of the period, and for all of it at
duty 255. -/
def State.drvOut (s : State) (n : Chan) (phase : Nat) : Bool :=
  let c := s.chan n
  c.driven && (c.waveDuty == 255 || decide (phase < c.waveDuty))

end Sys2Proof.Machine
end

