-- ==== Sys2Proof/Machine/Task.lean ====
section
/-! DEFINITION. The work that one block hands to another within one event: an ending, a change of state for the permit
table, a scan of the pause list, the steps of a plan. -/

namespace Sys2Proof.Machine

/-- What an ending does to the group's claim: what R119 and R120 say, or what the ending's own rule says. -/
inductive ClaimEffect where
  /-- An ending by itself: a HOLD claim keeps its ended flag, an AUTO claim of a port or of WIND is freed, a SEQUENCER
  claim stays (R119, R120). -/
  | byRule
  /-- The claim is freed in the event (R117, R118). -/
  | free
  /-- The claim is left as it is (R107, R115). -/
  | keep
deriving DecidableEq, Repr

/-- An ending of a motion: its outcome, the fault it brings with the jacks named for it, and the cause of an
INTERLOCK. -/
structure Ending where
  outcome : MotionOutcome
  fault : Option FaultCode := none
  jacks : List JackId := []
  cause : Option Cause := none
  claim : ClaimEffect := .byRule
deriving DecidableEq, Repr

/-- The states that the permit table and the drive-away alarm read (R125, R128). -/
structure View where
  room1 : AxisState
  room2 : AxisState
  room3 : AxisState
  room4 : AxisState
  jackSet : JackSetState
  awning : AxisState
  wind : WindState
deriving DecidableEq, Repr

/-- The present view. -/
def State.view (s : State) : View :=
  { room1 := (s.rooms[0]).state
    room2 := (s.rooms[1]).state
    room3 := (s.rooms[2]).state
    room4 := (s.rooms[3]).state
    jackSet := s.jackSetState
    awning := s.sliderState .awning
    wind := s.wind.state }

/-- One piece of work handed on within an event. -/
inductive Task where
  /-- A motion ends (R52, R78, R100). -/
  | endMotion (g : Group) (e : Ending)
  /-- States may have changed since a view was taken: the permits are re-evaluated at a change (R125, R128). -/
  | handover (old : View)
  /-- The permits of the motions in both lists are re-evaluated (R128). -/
  | permits
  /-- Freed units are offered to the pause list (R140). -/
  | scan
  /-- An entry that a scan has moved is handed to its controller; `first` for an entry that was WAITING (R141). -/
  | resume (g : Group) (order : Nat) (first : Bool)
  /-- The ending of a motion of a SEQUENCER claim is handed to the sequencer (R153, R154). -/
  | planTakes (g : Group) (a : Action) (e : Ending) (stored : Option FaultCode)
  /-- The present step of the plan begins (R151). -/
  | beginStep
  /-- The remaining groups of the step are placed (R152). -/
  | place (rest : PlanStep)
  /-- The ended plan's motions end and its claims are freed (R154). -/
  | endPlan
deriving DecidableEq, Repr

/-- A state with the work still to be done in the event. -/
abbrev Work := State × List Task

/-- Run a piece of work and put a handover of the state changes it made before what it leaves to do. -/
def State.handing (s : State) (f : State → Work) : Work :=
  let w := f s
  (w.1, .handover s.view :: w.2)

end Sys2Proof.Machine
end

