-- ==== Sys2Proof/Machine/Slide.lean ====
section
/-! DEFINITION. The room controller (chapter 3) and the awning controller (chapter 5), which drives the awning by the
rules of a one-motor room. -/

namespace Sys2Proof.Machine

/-- The direction of a slider's motion, if it has one. -/
def State.slideDir (s : State) (id : Slider) : Option Dir := (s.entryOf id.group).map fun e => e.action.dir

/-- The sync window W1 of a slider. -/
def State.syncWindow (s : State) : Slider → Nat
  | .room k => (s.layout.rooms[k]).syncWindow
  | .awning => 0

/-- The rack limit W2 of a slider. -/
def State.rackLimit (s : State) : Slider → Nat
  | .room k => (s.layout.rooms[k]).rackLimit
  | .awning => 0

/-- The two counts of a two-motor room when both are known (R50). -/
def State.bothCounts (s : State) (id : Slider) : Option (Nat × Nat) :=
  if s.twoMotors id then
    match (s.motor id .a).count, (s.motor id .b).count with
    | some a, some b => some (a, b)
    | _, _ => none
  else none

/-- The lead: the difference of the two counts (R50). -/
def leadOf (a b : Nat) : Nat := max a b - min a b

/-- The motor further along in a direction, if the counts differ (R50). -/
def leaderOf (d : Dir) (a b : Nat) : Option Motor :=
  if a = b then none
  else
    match d with
    | .outward => some (if b < a then .a else .b)
    | .stowing => some (if a < b then .a else .b)

/-- The lead is at or above the rack limit (R50). -/
def State.racked (s : State) (id : Slider) : Bool :=
  match s.bothCounts id with
  | some (a, b) => decide (s.rackLimit id ≤ leadOf a b)
  | none => false

/-- Some motor of the slider is driven. -/
def State.anyMotorDriven (s : State) (id : Slider) : Bool := (s.motors id).any fun m => s.motorDriven id m

/-- Set or clear the trim of a motor of a slider. -/
def State.trimMotor (s : State) (id : Slider) (m : Motor) (t : Option Nat) : State :=
  match s.motorChan id m with
  | some n => s.setTrim n t
  | none => s

/-- The trimmed duty of a leader: the larger of 64 and its ramped duty less 32 for each count beyond W1 (R51). -/
def trimDuty (ramped lead window : Nat) : Nat := max 64 (ramped - 32 * (lead - window))

/-- The ramped duty of a motor of a slider. -/
def State.motorRamped (s : State) (id : Slider) (m : Motor) : Nat :=
  match s.motorChan id m with
  | some n => (s.chan n).ramped
  | none => 0

/-- The trims that R51 asks for now: the leader's, while both motors are driven, both counts are known and the lead is
above W1. -/
def State.wantedTrim (s : State) (id : Slider) : Option (Motor × Nat) :=
  match s.bothCounts id, s.slideDir id with
  | some (a, b), some d =>
    if s.motorDriven id .a && s.motorDriven id .b && decide (s.syncWindow id < leadOf a b) then
      (leaderOf d a b).map fun m => (m, trimDuty (s.motorRamped id m) (leadOf a b) (s.syncWindow id))
    else none
  | _, _ => none

/-- The room controller trims the leader and clears the other trim (R51). A one-motor slider has no trim. -/
def State.retrim (s : State) (id : Slider) : State :=
  if s.twoMotors id then
    match s.wantedTrim id with
    | some (.a, t) => (s.trimMotor id .b none).trimMotor id .a (some t)
    | some (.b, t) => (s.trimMotor id .a none).trimMotor id .b (some t)
    | none => (s.trimMotor id .a none).trimMotor id .b none
  else s

/-- Stop the channel of a motor. -/
def State.stopMotor (s : State) (id : Slider) (m : Motor) : State :=
  match s.motorChan id m with
  | some n => s.stopChan n
  | none => s

/-- Every motor of the slider is FINISHED. -/
def State.allFinished (s : State) (id : Slider) : Bool :=
  (s.motors id).all fun m => (s.motor id m).phase == .finished

/-- The seat of a motor ends: the motor stops and enters FINISHED, and the motion ends HOME_REACHED when every motor
has finished (R46, R47, R98). -/
def State.seatDone (s : State) (id : Slider) (m : Motor) : Work :=
  let s1 := s.stopMotor id m
  let s2 := (s1.setMotor id m { s1.motor id m with phase := .finished, seatDeadline := none }).retrim id
  (s2, if s2.allFinished id then [.endMotion id.group { outcome := .homeReached }] else [])

/-- The seat time of a motor: floor(pace × C / 128) ticks, 0 while the pace is undefined (R46, R98). -/
def State.seatTicks (s : State) (id : Slider) (m : Motor) : Nat :=
  match s.motorChan id m with
  | some n =>
    match s.pace? n with
    | some p => p * s.seatFraction id / 128
    | none => 0
  | none => 0

/-- A motor enters SEAT; a seat time of 0 ends the seat in the same event (R46, R98). -/
def State.beginSeat (s : State) (id : Slider) (m : Motor) : Work :=
  let t := s.seatTicks id m
  let s1 := s.setMotor id m { s.motor id m with phase := .seat, seatDeadline := some (s.now + paceTicks t) }
  if t = 0 then s1.seatDone id m else (s1.retrim id, [])

/-- An ending of a slider's motion with a fault of the controller's own. -/
def slideFault (id : Slider) (f : FaultCode) : List Task := [.endMotion id.group { outcome := .fault, fault := some f }]

/-- What a rack check makes of the work that would follow it: with the two counts W2 or more apart the motion ends RACKED
instead (R50). -/
def State.rackCheck (s : State) (id : Slider) (w : Work) : Work := if s.racked id then (s, slideFault id .racked) else w

/-- A motor at home has count 0 (R46, R47). -/
def State.zeroMotor (s : State) (id : Slider) (m : Motor) : State :=
  if s.motorHome id m then s.setMotor id m { s.motor id m with count := some 0 } else s

/-- What the controller does in the event of a motor's drive start: the rack check (R50), the overtravel of a motor
already at its travel limit (R44, R97), the seat of a motor already at home (R46, R101), whose count of 0 the rack check
sees too (log 40). -/
def State.motorStarted (s : State) (id : Slider) (m : Motor) : Work :=
  match s.slideDir id with
  | none => (s, [])
  | some d =>
    s.rackCheck id
      (match d with
      | .outward =>
        match (s.motor id m).count with
        | some c => (s, if s.travelLimit id ≤ c then slideFault id .overtravel else [])
        | none => (s, [])
      | .stowing =>
        if (s.motor id m).phase = .travel ∧ s.motorHome id m then
          (s.zeroMotor id m).rackCheck id ((s.zeroMotor id m).beginSeat id m)
        else (s, []))

/-- The controller asks for a start of a motor (R44). -/
def State.startMotor (s : State) (id : Slider) (m : Motor) (d : Dir) : Work :=
  match s.motorChan id m with
  | some n =>
    let r := s.startChan n d
    if r.2 then r.1.motorStarted id m else (r.1, [])
  | none => (s, [])

/-- The controller asks for a start of each TRAVEL motor, until one of the starts ends the motion (R44, R54). The order of
the two starts is the model's choice: motor A first, and motor B is not started where A's start ends the motion (log 55). -/
def State.startMotors (s : State) (id : Slider) (d : Dir) : Work :=
  let w := (s.motors id).foldl (fun (w : Work) m =>
    if w.2.isEmpty && (w.1.motor id m).phase == .travel then w.1.startMotor id m d else w) (s, [])
  (w.1.retrim id, w.2)

/-- The phase a motor takes when a motion is received (R44, R97). -/
def State.firstPhase (s : State) (id : Slider) (d : Dir) (m : Motor) : MotorPhase :=
  match d with
  | .outward => .travel
  | .stowing => if s.motorHome id m then .finished else .travel

/-- Set the phase of every motor of a slider, with no seat deadline. -/
def State.setPhases (s : State) (id : Slider) (f : Motor → MotorPhase) : State :=
  forEach (s.motors id) (fun m t => t.setMotor id m { t.motor id m with phase := f m, seatDeadline := none }) s

/-- On the way in a motor whose home switch reads closed takes part with count 0 (R47, R50). -/
def State.zeroFinished (s : State) (id : Slider) : Dir → State
  | .outward => s
  | .stowing => forEach (s.motors id) (fun m t => t.zeroMotor id m) s

/-- The state of a moving slider. -/
def movingState : Dir → AxisState
  | .outward => .opening
  | .stowing => .closing

/-- The controller receives an admitted motion (R44, R97). A motion IN with every home switch closed ends in the event
of its admission and hands over only the state it ends in (R60, R100). -/
def State.slideAdmit (s : State) (id : Slider) (d : Dir) (run : Bool) : Work :=
  let s1 := ((s.setSlider id { s.slider id with runTime := 0 }).setPhases id (s.firstPhase id d)).zeroFinished id d
  if s1.allFinished id then (s1, [.endMotion id.group { outcome := .homeReached }])
  else
    let s2 := s1.setSlider id { s1.slider id with state := movingState d }
    if run then s2.startMotors id d else (s2, [])

/-- The motion resumes: each TRAVEL motor is started as at its first start (R54, R101). -/
def State.slideResume (s : State) (id : Slider) : Work :=
  match s.slideDir id with
  | some d => s.startMotors id d
  | none => (s, [])

/-- The motion is shed, its channels already stopped: a motor in SEAT returns to TRAVEL (R54, R101). -/
def State.slideShed (s : State) (id : Slider) : State :=
  forEach (s.motors id) (fun m t =>
    if (t.motor id m).phase = .seat then
      t.setMotor id m { t.motor id m with phase := .travel, seatDeadline := none }
    else t) s

/-- The state of a slider at rest: CLOSED with every switch closed, else by whether its position is known (R52,
R100). -/
def State.restState (s : State) (id : Slider) : AxisState :=
  if s.allHome id then .closed else if s.positionKnown id then .midway else .unknown

/-- The state a slider takes at an ending, by the table of R52 and R100, also after an outward stall short of T − E
(log 41). -/
def State.endState (s : State) (id : Slider) (e : Ending) : AxisState :=
  match e.outcome with
  | .homeReached => .closed
  | .endReached => .opened
  | .fault => if e.fault = some .overtravel then .opened else s.restState id
  | _ => s.restState id

/-- The controller's part of the common ending (R52, R100): motors stopped, phases IDLE, the fault stored when the
record holds none, the outcome and the state recorded. -/
def State.slideEnd (s : State) (id : Slider) (e : Ending) : State :=
  let s1 := (forEach (s.motors id) (fun m t => t.stopMotor id m) s).setPhases id (fun _ => .idle)
  let r := s1.slider id
  s1.setSlider id
    { r with
      state := s1.endState id e
      fault := if r.fault.isSome then r.fault else e.fault
      lastOutcome := some e.outcome }

/-- A count moved by one step, held between 0 and the travel limit (R41, R95). -/
def stepCount (limit : Nat) (d : Dir) (c : Nat) : Nat :=
  match d with
  | .outward => min (c + 1) limit
  | .stowing => c - 1

/-- A position step of a motor (R41, R95): discarded while the count is absent and in SEAT and FINISHED; the overtravel
stop of a driven step of a motion OUT (R49, R99), then the rack check and the trim of a two-motor room (R50, R51). -/
def State.slideStep (s : State) (id : Slider) (m : Motor) (d : Dir) (driven : Bool) : Work :=
  let x := s.motor id m
  match x.count, x.phase with
  | none, _ => (s, [])
  | some _, .seat => (s, [])
  | some _, .finished => (s, [])
  | some c, _ =>
    let c1 := stepCount (s.travelLimit id) d c
    let s1 := s.setMotor id m { x with count := some c1 }
    if driven && s.slideDir id == some .outward && d == .outward && decide (s.travelLimit id ≤ c1) then
      (s1, slideFault id .overtravel)
    else if s1.anyMotorDriven id then
      s1.rackCheck id (s1.retrim id, [])
    else (s1, [])

/-- Every motor's count is at or above T − E (R49, R99). -/
def State.inEndWindow (s : State) (id : Slider) : Bool :=
  (s.motors id).all fun m =>
    match (s.motor id m).count with
    | some c => decide (s.travel id - s.endWindow id ≤ c)
    | none => false

/-- A stall of a motor (R46, R48, R49, R98, R99). -/
def State.slideStall (s : State) (id : Slider) (m : Motor) : Work :=
  match s.slideDir id with
  | some .outward =>
    (s, if s.inEndWindow id then [.endMotion id.group { outcome := .endReached }] else slideFault id .obstructed)
  | some .stowing =>
    match (s.motor id m).phase with
    | .seat => s.seatDone id m
    | .travel => (s, slideFault id .obstructed)
    | _ => (s, [])
  | none => (s, [])

/-- A home switch closes (R42, R96). A closure that leaves the counts of a driven two-motor room W2 or more apart ends its
motion RACKED: the law of R50 lets no such room drive on (log 40). -/
def State.slideHomeClosed (s : State) (id : Slider) (m : Motor) : Work :=
  let s1 := s.setMotor id m { s.motor id m with count := some 0 }
  match s1.slideDir id with
  | none =>
    let st := if s1.allHome id then .closed else if s1.positionKnown id then .midway else (s1.slider id).state
    (s1.setSlider id { s1.slider id with state := st }, [])
  | some d =>
    let w :=
      if d = .stowing ∧ (s1.motor id m).phase = .travel ∧ s1.motorDriven id m then s1.beginSeat id m
      else (s1.retrim id, [])
    if s1.anyMotorDriven id then s1.rackCheck id w else w

/-- A home switch opens (R43, R96): a CLOSED slider at rest becomes PARTIAL. -/
def State.slideHomeOpened (s : State) (id : Slider) : State :=
  if (s.slideDir id).isNone ∧ (s.slider id).state = .closed then
    s.setSlider id { s.slider id with state := .midway }
  else s

/-- CLEAR_FAULT of a room or the awning (R56, R102). A room standing with its two counts W2 or more apart also loses
them. -/
def State.slideClearFault (s : State) (id : Slider) : State :=
  let s1 := s.setSlider id { s.slider id with fault := none }
  if s.racked id then
    let s2 := (s1.setMotor id .a { s1.motor id .a with count := none })
    let s3 := (s2.setMotor id .b { s2.motor id .b with count := none })
    s3.setSlider id { s3.slider id with state := if s3.allHome id then (s3.slider id).state else .unknown }
  else s1

/-- A fault of a channel of the slider ends its motion (R7, R17, R34). -/
def slideChannelFault (id : Slider) (f : FaultCode) : List Task := slideFault id f

end Sys2Proof.Machine
end

