-- ==== Sys2Proof/Machine/Lift.lean ====
section
/-! DEFINITION. The jack controller (chapter 4): the pump, ground contact, jack motions, tilt, and the level run. -/

namespace Sys2Proof.Machine

/-- An ending of a jack motion. -/
def jackEnding (e : Ending) : List Task := [.endMotion .jacks e]

/-- The jacks of a motion: the one of a single-jack motion, else every configured jack (section 4.6). -/
def State.jacksOf (s : State) : Action → List JackId
  | .jack j _ => [j]
  | _ => s.configuredJacks

/-- The present jack motion. -/
def State.jackMotion (s : State) : Option Entry := s.entryOf .jacks

/-- A level run exists: its status is ACTIVE (section 4.9). -/
def State.levelActive (s : State) : Bool := s.level.status == .active

/-- Stop a jack's valve. -/
def State.stopValve (s : State) (j : JackId) : State :=
  match s.roleChan (.jack j) with
  | some n => s.stopChan n
  | none => s

/-- Ask for a start of a jack's valve. -/
def State.startValve (s : State) (j : JackId) (d : Dir) : State :=
  match s.roleChan (.jack j) with
  | some n => (s.startChan n d).1
  | none => s

/-- The pump follows the valves of the jack motion: started outward while one is driven, stopped when none is (R68). It
looks at the valves as the event leaves them (log 16). -/
def State.pumpFollow (s : State) : State :=
  match s.jackMotion, s.roleChan .pump with
  | some e, some n =>
    if (s.jacksOf e.action).any fun j => s.valveDriven j then
      if (s.chan n).driven then s else (s.startChan n .outward).1
    else s.stopChan n
  | _, _ => s

/-- Change a jack's record. -/
def State.onJack (s : State) (j : JackId) (f : Jack → Jack) : State := s.setJack j (f (s.jack j))

/-- A jack is stopped and becomes DONE. -/
def State.jackDone (s : State) (j : JackId) : State := (s.stopValve j).onJack j fun r => { r with phase := .done }

/-- A jack that met the end of its stroke: stopped, DONE, at-stroke yes; in a level run the limited flag becomes yes
(R76, R84, R87). -/
def State.jackAtStroke (s : State) (j : JackId) : State :=
  let s1 := (s.jackDone j).onJack j fun r => { r with atStroke := true }
  if s1.levelActive then { s1 with level := { s1.level with limited := true } } else s1

/-- A jack becomes ACTIVE in a direction: extending clears at-stroke (R72), retracting clears the lift-off mark
(R67). -/
def State.jackActivate (s : State) (j : JackId) (d : Dir) : State :=
  s.onJack j fun r =>
    match d with
    | .outward => { r with phase := .active, dir := .outward, atStroke := false }
    | .stowing => { r with phase := .active, dir := .stowing, liftOff := false }

/-- Some jack of a list is ACTIVE. -/
def State.anyActive (s : State) (l : List JackId) : Bool := l.any fun j => (s.jack j).phase == .active

/-- Start the valve of each ACTIVE jack of a list, each in its direction. -/
def State.startActive (s : State) (l : List JackId) : State :=
  forEach l (fun j t => if (t.jack j).phase = .active then t.startValve j (t.jack j).dir else t) s

/-! ### Phases of the level run -/

/-- The SETTLE phase begins (R85): every jack is DONE, no valve is driven and the pump stops. -/
def State.settleBegin (s : State) : State :=
  { s with level := { s.level with phase := .settle, phaseTime := 0 } }.pumpFollow

/-- The LIFT phase is complete: the pass count rises by 1 and SETTLE begins (R87). -/
def State.liftComplete (s : State) : State :=
  { s with level := { s.level with pass := s.level.pass + 1 } }.settleBegin

/-- The CONTACT phase begins: a jack with contact or at-stroke stays DONE, every other extends; with none ACTIVE the
phase ends in this event (R84). -/
def State.contactBegin (s : State) : State :=
  let js := s.configuredJacks
  let s1 := { s with level := { s.level with phase := .contact, phaseTime := 0 } }
  let s2 := forEach js (fun j t =>
    t.onJack j fun r =>
      if r.contact || r.atStroke then { r with phase := .done } else { r with phase := .active, dir := .outward }) s1
  let s3 := (s2.startActive js).pumpFollow
  if s3.anyActive js then s3 else s3.settleBegin

/-- The jacks of the selected set. -/
def State.selectedJacks (s : State) : List JackId := allJacks.filter fun j => s.level.selected[j]

/-- The LIFT phase begins (R87). -/
def State.liftBegin (s : State) : State :=
  let js := s.selectedJacks
  let s1 := { s with level := { s.level with phase := .lift, phaseTime := 0, progress := Vector.replicate 6 0 } }
  let s2 := forEach js (fun j t => t.onJack j fun r => { r with phase := .active, dir := .outward }) s1
  (s2.startActive js).pumpFollow

/-! ### Endings of jack motions by themselves -/

/-- The outcome of a jack motion none of whose jacks is left ACTIVE (R72, R74, R75, R76); an all-jack extend that ends with
a jack that has lost contact without a lift-off is LIMITED (log 42). -/
def State.jackOutcome (s : State) : Action → MotionOutcome
  | .jack _ .outward => .endReached
  | .jack _ .stowing => .homeReached
  | .toward .stowing => .homeReached
  | .toward .outward => if s.configuredJacks.all fun j => (s.jack j).contact then .stabilised else .limited
  | .level => .limited

/-- What follows when no jack of the motion is left ACTIVE: a level run that is RUNNING passes on to SETTLE (R84, R87),
any other motion ends by itself (R72, R74, R75). -/
def State.jackCheck (s : State) : Work :=
  match s.jackMotion with
  | none => (s, [])
  | some e =>
    if s.anyActive (s.jacksOf e.action) then (s, [])
    else
      match e.action with
      | .level =>
        if s.running .jacks then
          match s.level.phase with
          | .contact => (s.settleBegin, [])
          | .lift => (s.liftComplete, [])
          | .settle => (s, [])
        else (s, [])
      | a => (s, jackEnding { outcome := s.jackOutcome a })

/-- The pump follows and the motion is checked: the end of every event at a jack's valve. -/
def State.jackSettled (s : State) : Work := s.pumpFollow.jackCheck

/-! ### Motions -/

/-- A jack whose part in a new motion is done at once (R72): at contact in an all-jack extend, at home in a retract, at
stroke max in a MOVE_JACK EXTEND. -/
def State.doneAtOnce (s : State) (a : Action) (j : JackId) : State :=
  let r := s.jack j
  match a with
  | .toward .outward => if r.contact then s.onJack j fun r => { r with phase := .done } else s
  | .toward .stowing | .jack _ .stowing => if s.jackHome j then s.onJack j fun r => { r with phase := .done } else s
  | .jack _ .outward =>
    if 0 < (s.jackParams j).strokeMax ∧ r.count = some (s.jackParams j).strokeMax then
      s.onJack j fun r => { r with phase := .done, atStroke := true }
    else s
  | .level => s

/-- The level run record of an admitted run (R83). Pitch and roll keep their last values. -/
def LevelRun.admitted (l : LevelRun) : LevelRun :=
  { freshLevel with status := .active, pitch := l.pitch, roll := l.roll }

/-- A level run is admitted (R83). -/
def State.levelAdmit (s : State) (run : Bool) : State :=
  let s1 := { s with level := s.level.admitted, jackSet := { s.jackSet with levelMark := false } }
  let s2 := forEach s.configuredJacks (fun j t => t.onJack j fun r => { r with phase := .done, atStroke := false }) s1
  if run then s2.contactBegin else s2

/-- The controller receives an admitted jack motion (R72, R83). -/
def State.jackAdmit (s : State) (a : Action) (run : Bool) : Work :=
  let s0 := { s with jackSet := { s.jackSet with runTime := 0 } }
  match a with
  | .level => (s0.levelAdmit run, [])
  | a =>
    let js := s0.jacksOf a
    let s1 := forEach js (fun j t => (t.jackActivate j a.dir).doneAtOnce a j) s0
    if s1.anyActive js then
      ((if run then (s1.startActive js).pumpFollow else s1), [])
    else s1.jackCheck

/-- The jack of a MOVE_JACK motion changes from one to another, the entry already naming the new one (R73). -/
def State.jackChange (s : State) (old new : JackId) (d : Dir) (run : Bool) : Work :=
  let s1 := (s.stopValve old).onJack old fun r => { r with phase := .idle }
  let s2 := { s1 with jackSet := { s1.jackSet with runTime := 0 } }
  let s3 := (s2.jackActivate new d).doneAtOnce (.jack new d) new
  let s4 := if run then s3.startActive [new] else s3
  s4.jackSettled

/-- The motion resumes, or makes its first start out of the pause list (R80, R88, R141). -/
def State.jackResume (s : State) (first : Bool) : Work :=
  match s.jackMotion with
  | none => (s, [])
  | some e =>
    match e.action with
    | .level =>
      if first then (s.contactBegin, [])
      else
        match s.level.phase with
        | .settle => ({ s with level := { s.level with phaseTime := 0 } }, [])
        | _ => (s.startActive (s.jacksOf e.action)).jackSettled
    | a => (s.startActive (s.jacksOf a)).jackSettled

/-- A fault is stored in a jack that holds none (R78); the storing of a fault clears the level mark (R70). -/
def State.storeJackFault (s : State) (f : FaultCode) (j : JackId) : State :=
  if (s.jack j).fault.isSome then s
  else
    { s.onJack j (fun r => { r with fault := some f }) with
      jackSet := { s.jackSet with levelMark := false } }

/-- Stop the pump. -/
def State.stopPump (s : State) : State :=
  match s.roleChan .pump with
  | some n => s.stopChan n
  | none => s

/-- Every jack's phase becomes IDLE. -/
def State.idleJacks (s : State) : State := forEach allJacks (fun j t => t.onJack j fun r => { r with phase := .idle }) s

/-- The fault of an ending is stored in the jacks named for it (R78). -/
def State.storeEndFault (s : State) (e : Ending) : State :=
  match e.fault with
  | some f => forEach e.jacks (fun j t => t.storeJackFault f j) s
  | none => s

/-- The outcome is recorded, a level run's in its own record too, with the level mark it leaves (R78, R89). -/
def State.recordJackEnd (s : State) (a : Action) (o : MotionOutcome) : State :=
  if a = .level then
    { s with
      level := { s.level with status := .ended, outcome := some o }
      jackSet := { s.jackSet with lastOutcome := some o, levelMark := decide (o = .levelled) } }
  else { s with jackSet := { s.jackSet with lastOutcome := some o } }

/-- The controller's part of the common ending (R78, R89). -/
def State.jackEnd (s : State) (a : Action) (e : Ending) : State :=
  (((forEach (s.jacksOf a) (fun j t => t.stopValve j) s).stopPump.idleJacks).storeEndFault e).recordJackEnd a e.outcome

/-! ### Events at a jack -/

/-- The motion drives unplanted jacks down to the ground: an all-jack extend (R74), or a level run in its CONTACT phase
(R84). -/
def State.seeksContact (s : State) : Bool :=
  match s.jackMotion with
  | some e =>
    match e.action with
    | .toward .outward => true
    | .level => s.level.phase == .contact
    | _ => false
  | none => false

/-- A jack gains contact (R66); a jack driven down to the ground stops there (R74, R84). -/
def State.contactGained (s : State) (j : JackId) : Work :=
  let s1 := s.onJack j fun r => { r with contact := true, lossRun := 0, liftOff := false }
  if (s1.jack j).phase = .active ∧ (s1.jack j).dir = .outward ∧ s1.seeksContact then (s1.jackDone j).jackSettled
  else (s1, [])

/-- A lift-off (R67): marked, noticed, and the level mark cleared. -/
def State.liftOff (s : State) (j : JackId) : State :=
  let s1 := s.onJack j fun r => { r with liftOff := true }
  { s1 with jackSet := { s1.jackSet with levelMark := false } }.raise .level

/-- A jack loses contact (R66, R67). A DONE jack that lifts off short of its stroke is driven down again (R74, R84); while
the motion is not RUNNING it becomes ACTIVE and nothing is driven (R80, R88), by inference also while a level run is WAITING,
before its CONTACT phase has begun (R83, log 58). -/
def State.contactLost (s : State) (j : JackId) : Work :=
  let lifts := s.jackState j != .retracting && !s.jackHome j
  let s1 := s.onJack j fun r => { r with contact := false, lossRun := 0 }
  if lifts then
    let s2 := s1.liftOff j
    if (s2.jack j).phase = .done ∧ (s2.jack j).atStroke = false ∧ s2.seeksContact then
      let s3 := s2.onJack j fun r => { r with phase := .active, dir := .outward }
      ((if s3.running .jacks then s3.startValve j .outward else s3).pumpFollow, [])
    else (s2, [])
  else (s1, [])

/-- A scaled pressure sample of a jack's valve channel (R66). -/
def State.pressureSample (s : State) (j : JackId) (v : Nat) : Work :=
  let p := s.jackParams j
  let s1 := s.onJack j fun r => { r with pressure := v }
  let r := s1.jack j
  if r.contact then
    if v + p.hysteresis < p.contactThreshold then
      if 3 ≤ r.lossRun + 1 then s1.contactLost j
      else (s1.onJack j fun r => { r with lossRun := r.lossRun + 1 }, [])
    else (s1.onJack j fun r => { r with lossRun := 0 }, [])
  else if p.contactThreshold ≤ v then s1.contactGained j
  else (s1, [])

/-- The count ceiling of a jack (R64). -/
def State.countCeiling (s : State) (j : JackId) : Nat :=
  if 0 < (s.jackParams j).strokeMax then (s.jackParams j).strokeMax else 65535

/-- The LIFT phase feeds the progress of a selected jack with this step (R87). -/
def State.feedsProgress (s : State) (j : JackId) (d : Dir) : Bool :=
  s.levelActive && s.level.phase == .lift && s.level.selected[j] && d == .outward

/-- A position step of a jack (R64): its count within the ceiling, the progress of a LIFT phase (R87), the end of its
stroke (R76, R84), where its count stood already too (log 44), and the end of its target (R87). -/
def State.jackStep (s : State) (j : JackId) (d : Dir) (driven : Bool) : Work :=
  let s1 := s.onJack j fun r => { r with count := r.count.map (stepCount (s.countCeiling j) d) }
  let feeds := s1.feedsProgress j d
  let s2 := if feeds then
      { s1 with level := { s1.level with progress := s1.level.progress.set j (min 65535 (s1.level.progress[j] + 1)) } }
    else s1
  let r := s2.jack j
  let extending := decide (r.phase = .active ∧ r.dir = .outward)
  let atStroke := extending && driven && d == .outward && decide (0 < (s.jackParams j).strokeMax) &&
    decide (r.count = some (s.jackParams j).strokeMax)
  let atTarget := extending && feeds &&
    match s2.level.targets[j] with
    | some t => decide (t ≤ s2.level.progress[j])
    | none => false
  if atStroke then (s2.jackAtStroke j).jackSettled
  else if atTarget then (s2.jackDone j).jackSettled
  else (s2, [])

/-- A stall on a jack's valve (R76, R84, R87): the end of stroke while extending, an obstruction while retracting. -/
def State.jackStall (s : State) (j : JackId) : Work :=
  if (s.jack j).phase = .active then
    match (s.jack j).dir with
    | .outward => (s.jackAtStroke j).jackSettled
    | .stowing => (s, jackEnding { outcome := .fault, fault := some .obstructed, jacks := [j] })
  else (s, [])

/-- A jack's home switch closes (R65). -/
def State.jackHomeClosed (s : State) (j : JackId) : Work :=
  let s1 := s.onJack j fun r => { r with count := some 0, atStroke := false, liftOff := false }
  if (s1.jack j).phase = .active ∧ (s1.jack j).dir = .stowing then (s1.jackDone j).jackSettled else (s1, [])

/-- A fault of a valve's or the pump's channel ends the jack motion (R69, R78): a valve's in its own jack, the pump's in
every jack of the motion. -/
def State.jackChannelFault (s : State) (r : Role) (f : FaultCode) : List Task :=
  match s.jackMotion with
  | none => []
  | some e =>
    match r with
    | .jack j => jackEnding { outcome := .fault, fault := some f, jacks := [j] }
    | _ => jackEnding { outcome := .fault, fault := some f, jacks := s.jacksOf e.action }

/-- CLEAR_FAULT of JACKS (R81). -/
def State.jacksClearFault (s : State) : State :=
  forEach allJacks (fun j t => t.onJack j fun r => { r with fault := none }) s

/-! ### Tilt and the corner lifts -/

/-- One tilt value from the samples held (R82). -/
def tiltOf (samples : List Nat) (mid perDegree : Nat) : Int :=
  let n := samples.length
  clampInt 1500 (roundDiv (((samples.sum : Int) - n * mid) * 100) (n * perDegree))

/-- The last hundred of a list of samples. -/
def lastHundred (l : List Nat) : List Nat := l.drop (l.length - 100)

/-- A tilt sample is taken, and the present pitch and roll are computed (R82). -/
def State.tiltSample (s : State) (x y : Nat) : State :=
  let xs := lastHundred (s.tilt.samplesX ++ [x])
  let ys := lastHundred (s.tilt.samplesY ++ [y])
  let q := s.layout.level
  { s with
    tilt :=
      { samplesX := xs
        samplesY := ys
        pitch := tiltOf ys q.zeroY q.perDegree
        roll := tiltOf xs q.zeroX q.perDegree } }

/-- A pitch or a roll exceeds the steep limit in magnitude (R83, R85). -/
def State.tooSteep (s : State) (pitch roll : Int) : Bool :=
  decide (s.layout.level.steepLimit < pitch.natAbs) || decide (s.layout.level.steepLimit < roll.natAbs)

/-- The height of a jack's corner, in 0.1 mm (R86, step 1). -/
def cornerHeight (x y p r : Int) : Int := roundDiv ((x * p + y * r) * 17453) 1000000

/-- The height of the corner of jack j for the stored pitch and roll. -/
def State.heightOf (s : State) (j : JackId) : Int :=
  cornerHeight (s.jackParams j).x (s.jackParams j).y s.level.pitch s.level.roll

/-- The greatest corner height (R86, step 2). -/
def State.highestCorner (s : State) : Int :=
  match s.configuredJacks with
  | [] => 0
  | j :: rest => rest.foldl (fun m i => max m (s.heightOf i)) (s.heightOf j)

/-- The target of a jack before it is bounded: floor(lift / spp) (R86, step 3). -/
def State.rawTarget (s : State) (j : JackId) : Nat :=
  (s.highestCorner - s.heightOf j).toNat / (s.jackParams j).spp

/-- The target of a jack with the limited flag it sets: at most 4000, at most the stroke left, and 0 at stroke (R86,
steps 3 and 4). -/
def State.targetOf (s : State) (j : JackId) : Nat × Bool :=
  let t := s.rawTarget j
  let capped := min t 4000
  let tooBig := decide (4000 < t)
  let r := s.jack j
  let stroke := (s.jackParams j).strokeMax
  if r.atStroke then (0, tooBig)
  else
    match r.count with
    | some c => if 0 < stroke ∧ stroke < c + capped then (stroke - c, true) else (capped, tooBig)
    | none => (capped, tooBig)

/-- The corner lifts are solved: targets and selected set are stored in the record (R86). -/
def State.solveLifts (s : State) : State :=
  let targets : Vector (Option Nat) 6 :=
    Vector.ofFn fun j => if s.jackConfigured j then some (s.targetOf j).1 else none
  let selected : Vector Bool 6 :=
    Vector.ofFn fun j => s.jackConfigured j && decide (s.layout.level.deadband ≤ (s.targetOf j).1)
  let limited := s.level.limited || s.configuredJacks.any fun j => (s.targetOf j).2
  { s with level := { s.level with targets := targets, selected := selected, limited := limited } }

/-- Some jack reads LIFTED. -/
def State.anyLifted (s : State) : Bool := s.configuredJacks.any fun j => s.jackState j == .lifted

/-- The end of SETTLE: the tilt is taken, and the first test of R85 that applies decides the run's course. -/
def State.settleDecide (s : State) : Work :=
  let s1 := { s with level := { s.level with pitch := s.tilt.pitch, roll := s.tilt.roll } }
  let l := s1.level
  let q := s1.layout.level
  if s1.anyLifted then
    if q.passLimit ≤ l.returns then (s1, jackEnding { outcome := .limited })
    else ({ s1 with level := { l with returns := l.returns + 1 } }.contactBegin, [])
  else if l.pitch.natAbs ≤ q.tolerance ∧ l.roll.natAbs ≤ q.tolerance then
    (s1, jackEnding { outcome := if l.limited then .limited else .levelled })
  else if s1.tooSteep l.pitch l.roll then (s1, jackEnding { outcome := .tooSteep })
  else if q.passLimit ≤ l.pass then (s1, jackEnding { outcome := .limited })
  else
    let s2 := s1.solveLifts
    if s2.selectedJacks.isEmpty then
      ({ s2 with level := { s2.level with limited := true } }, jackEnding { outcome := .limited })
    else (s2.liftBegin, [])

end Sys2Proof.Machine
end

