-- ==== Sys2Proof/Machine/Permits.lean ====
section
/-! DEFINITION. The permit table (R127, R128). -/

namespace Sys2Proof.Machine

/-- Some configured room is not CLOSED. -/
def State.roomsOut (s : State) : Bool :=
  allRooms.any fun k => s.configured (.room k) && (s.rooms[k]).state != .closed

/-- The awning is not STOWED. -/
def State.awningNotStowed (s : State) : Bool := s.sliderState .awning != .closed

/-- The jack set supports a room: STABILISED or LEVELLED (R127). -/
def State.supported (s : State) : Bool := s.jackSetState == .stabilised || s.jackSetState == .levelled

/-- The wind closes the awning's way out: GUSTY or EASING (R105, R127). -/
def State.windy (s : State) : Bool := s.wind.state == .gusty || s.wind.state == .easing

/-- The action retracts jacks: MOVE JACKS, AUTO JACKS or MOVE_JACK in direction RETRACT (R127). -/
def Action.retracts : Action → Bool
  | .toward .stowing => true
  | .jack _ .stowing => true
  | _ => false

/-- The first cause unmet of the rows of a group and action, in the order of the table, but for the road row (R127,
R128). -/
def State.permitCause (s : State) (g : Group) (a : Action) : Option Cause :=
  match g with
  | .room k =>
    if a.dir = .outward ∧ (s.layout.rooms[k]).needsSupport = true ∧ s.supported = false then some .needsSupport
    else if (s.layout.rooms[k]).awningClash = true ∧ s.awningNotStowed = true then some .awningClash
    else none
  | .jacks =>
    if a.retracts = true ∧ s.roomsOut = true then some .roomsOut
    else if a.retracts = true ∧ s.awningNotStowed = true then some .awningOut
    else none
  | .awning => if a.dir = .outward ∧ s.windy = true then some .wind else none

/-- The first motion of the two lists whose permit has fallen, with the cause of the first row unmet (R128). Where several
permits fall in one event, the model chooses to end the motions of the load list from its head and then those of the pause
list; the spec gives no order, and the first to end gives the group that a plan's failure names (log 49). -/
def State.fallenPermit (s : State) : Option (Group × Cause) :=
  (s.load ++ s.paused).findSome? fun e => (s.permitCause e.group e.action).map fun c => (e.group, c)

/-- Room OUT and awning EXTEND need position known (R111 check 7, R151 test 4). -/
def State.homeFirst (s : State) (g : Group) (a : Action) : Bool :=
  match sliderOf g with
  | some id => a.dir == .outward && !s.positionKnown id
  | none => false

end Sys2Proof.Machine
end

