-- ==== Sys2Proof/Machine/Budget.lean ====
section
/-! DEFINITION. The supply budget (chapter 7): units, placing, shedding and the scan of the pause list. -/

namespace Sys2Proof.Machine

/-- A motion as it stands before the budget places it. -/
def newEntry (g : Group) (o : Owner) (m : Mode) (a : Action) (order : Nat) : Entry :=
  { group := g, owner := o, mode := m, action := a, units := 0, order := order, state := .running
    pausedSince := none }

/-- The supply units of a channel's role (R1). -/
def Role.units (r : Role) : Nat :=
  match r.kind with
  | some k => k.units
  | Option.none => 0

/-- The units of a motion: the sum over every channel that it may drive (R1, R134). -/
def State.motionUnits (s : State) (g : Group) (a : Action) : Nat :=
  ((s.motionChans (newEntry g .sequencer .auto a 0)).map fun n => (s.role n).units).sum

/-- An entry enters the tail of the load list as RUNNING (R135, R136). -/
def State.enterLoad (s : State) (e : Entry) : State :=
  s.setLoad (s.load ++ [{ e with state := .running, pausedSince := none }])

/-- An entry takes its place in the pause list by admission order (R135). -/
def State.enterPause (s : State) (e : Entry) (st : EntryState) : State :=
  { s with paused := insertByOrder { e with state := st, pausedSince := some s.now } s.paused }

/-- The budget places a new motion with the next admission order (R136): in the load list when it fits, else in the pause
list as WAITING. The flag says whether it is RUNNING. -/
def State.placeEntry (s : State) (g : Group) (o : Owner) (m : Mode) (a : Action) : State × Bool :=
  let e := { newEntry g o m a s.nextOrder with units := s.motionUnits g a }
  let s1 := { s with nextOrder := s.nextOrder + 1 }
  if s.fits e.units then (s1.enterLoad e, true) else (s1.enterPause e .waiting, false)

/-- The group's controller receives an admitted motion (R44, R72, R83, R97). -/
def State.controllerAdmit (s : State) (g : Group) (a : Action) (run : Bool) : Work :=
  match g with
  | .room k => s.slideAdmit (.room k) a.dir run
  | .jacks => s.jackAdmit a run
  | .awning => s.slideAdmit .awning a.dir run

/-- The budget places a motion and hands it to its controller. -/
def State.placeAndStart (s : State) (g : Group) (o : Owner) (m : Mode) (a : Action) : Work :=
  let r := s.placeEntry g o m a
  r.1.controllerAdmit g a r.2

/-- A motion is admitted: placed and handed to its controller. An ending within the admission comes before the states
are handed over, so that only the state it ends in is (R60). -/
def State.admitMotion (s : State) (g : Group) (o : Owner) (m : Mode) (a : Action) : Work :=
  let w := s.placeAndStart g o m a
  (w.1, w.2 ++ [.handover s.view])

/-- The controller of a shed motion keeps it as a paused motion (R54, R80, R88, R101). -/
def State.controllerShed (s : State) (g : Group) : State :=
  match sliderOf g with
  | some id => s.slideShed id
  | none => s

/-- One entry is shed (R137, R138): its channels stop, its controller keeps it, and it becomes PAUSED in the pause
list. -/
def State.shed (s : State) (e : Entry) : State :=
  let s1 := forEach (s.motionChans e) (fun n t => t.stopChan n) s
  let s2 := s1.controllerShed e.group
  (s2.setLoad (s2.load.filter fun x => x != e)).enterPause e .paused

/-- The entry that shedding takes next: the last of the load list that is not WIND's, or WIND's own when it is the only
one left (R137). -/
def shedNext (l : List Entry) : Option Entry :=
  match (l.filter fun e => e.owner != .wind).getLast? with
  | some e => some e
  | none => l.getLast?

/-- Entries are shed until the held units are at or below a limit, at most `fuel` of them. -/
def State.shedDown : Nat → Nat → State → State
  | 0, _, s => s
  | fuel + 1, limit, s =>
    if s.heldUnits ≤ limit then s
    else
      match shedNext s.load with
      | some e => State.shedDown fuel limit (s.shed e)
      | none => s

/-- Shedding to a limit (R137). Each entry shed leaves the load list, so its length bounds their number. -/
def State.shedTo (s : State) (limit : Nat) : State := State.shedDown s.load.length limit s

/-- The budget places the wind retract (R139). -/
def State.placeWind (s : State) : Work :=
  let a := Action.toward .stowing
  let units := s.motionUnits .awning a
  if s.fits units || decide (s.budget < units) then s.placeAndStart .awning .wind .auto a
  else ((s.shedTo (s.budget - units)).raise .supply).placeAndStart .awning .wind .auto a

/-- The order in which a scan goes through the pause list: a WIND entry first, then the others from the oldest admission
order onward (R140). -/
def scanOrder (l : List Entry) : List Entry :=
  (l.filter fun e => e.owner == .wind) ++ (l.filter fun e => e.owner != .wind)

/-- One entry is offered the units left: when it fits it leaves the pause list and enters the tail of the load list
(R140). -/
def offerUnits (s : State) (e : Entry) : State :=
  if s.fits e.units then { s with paused := s.paused.filter fun x => x != e }.enterLoad e else s

/-- The entries that a scan of the pause list moves, in the order in which they move (R140). -/
def State.scanMoves : State → List Entry → List Entry
  | _, [] => []
  | s, e :: rest =>
    if s.fits e.units then e :: State.scanMoves (offerUnits s e) rest else State.scanMoves s rest

/-- Freed units are offered to the pause list, and each entry moved is handed to its controller (R140, R141). -/
def State.scan (s : State) : Work :=
  let order := scanOrder s.paused
  (order.foldl offerUnits s,
    (s.scanMoves order).map fun e => .resume e.group e.order (decide (e.state = .waiting)))

/-- A moved entry makes its first start or resumes (R141). -/
def State.resumeEntry (s : State) (g : Group) (order : Nat) (first : Bool) : Work :=
  if s.load.any fun e => e.group == g && e.order == order then
    s.handing fun t =>
      match sliderOf g with
      | some id => t.slideResume id
      | none => t.jackResume first
  else (s, [])

end Sys2Proof.Machine
end

