-- ==== Sys2Proof/Machine/Plan.lean ====
section
/-! DEFINITION. The plan sequencer (chapter 8). -/

namespace Sys2Proof.Machine

/-- A plan is RUNNING (section 8.2). -/
def State.planRunning (s : State) : Bool := s.plan.status == .running

/-- The groups that the steps of a plan name (R147). -/
def planGroups (steps : List PlanStep) : List Group :=
  allGroups.filter fun g => steps.any fun st => st.any fun e => e.1 == g

/-- The action of a group in the first step that names it (R150). -/
def firstAction (steps : List PlanStep) (g : Group) : Option Action :=
  (steps.flatten.find? fun e => e.1 == g).map fun e => e.2

/-- The step in progress, as the layout in force holds it (R148). -/
def State.presentStep (s : State) : PlanStep :=
  match s.plan.name with
  | some p => ((s.layout.planSteps p)[s.plan.stepIndex - 1]?).getD []
  | none => []

/-- A plan is accepted (R150): the record is set and every reserved group is claimed; its first step is to begin. -/
def State.planStart (s : State) (p : PlanName) (o : PlanOwner) : Work :=
  let steps := s.layout.planSteps p
  let groups := planGroups steps
  let s1 := { s with
    plan :=
      { status := .running, name := some p, owner := some o, stepCount := steps.length, stepIndex := 1
        reserved := Vector.ofFn fun i => groups.any fun g => groupIndex g == i
        slots := [], limited := false, failure := none } }
  let claimed := forEach groups (fun g t =>
    match firstAction steps g with
    | some a =>
      t.setClaim g (some { owner := .sequencer, mode := .auto, action := a, deadline := none, ended := false })
    | none => t) s1
  (claimed, [.beginStep])

/-- The plan ends: status, failure and notice PLAN; then its motions end and its claims are freed (R154). -/
def State.planEnd (s : State) (st : PlanStatus) (f : Option PlanFailure) : Work :=
  ({ s with plan := { s.plan with status := st, failure := f } }.raise .plan, [.endPlan])

/-- The plan ends FAILED at the step in progress, before a motion of it could start (R151, R152). -/
def State.planRefused (s : State) (g : Group) (r : Reason) (c : Option Cause) : Work :=
  s.planEnd .failed (some
    { step := s.plan.stepIndex, group := g, reason := some r, cause := c, outcome := none, fault := none })

/-- The first step-start test that a group fails (R151). -/
def State.stepTest (s : State) (g : Group) (a : Action) : Option (Reason × Option Cause) :=
  if s.configured g = false then some (.notConfigured, none)
  else if s.unavailable g = true then some (.unavailable, none)
  else if s.groupFaulted g = true then some (.faulted, none)
  else if s.homeFirst g a = true then some (.homeFirst, none)
  else
    match s.permitCause g a with
    | some c => some (.notPermitted, some c)
    | none => if a = .level ∧ s.tooSteep s.tilt.pitch s.tilt.roll = true then some (.tooSteep, none) else none

/-- A step of the running plan begins (R151): notice PLAN, the tests of its groups in listed order, and then their
placing. By the model's choice the slots are emptied here, so that a step that fails a test has none (log 51). -/
def State.stepBegin (s : State) : Work :=
  if s.planRunning then
    let s1 := { s with plan := { s.plan with slots := [] } }.raise .plan
    let step := s1.presentStep
    match step.findSome? fun e => (s1.stepTest e.1 e.2).map fun r => (e.1, r) with
    | some (g, r, c) => s1.planRefused g r c
    | none => (s1, [.place step])
  else (s, [])

/-- The step is complete: every group of it has been placed and every slot reads SUCCEEDED (R153). -/
def State.stepComplete (s : State) : Bool :=
  decide (s.plan.slots.length = s.presentStep.length) && s.plan.slots.all fun x => x.outcome.isSome

/-- A complete step passes on to the next, or the plan ends DONE (R153). -/
def State.stepAdvance (s : State) : Work :=
  if s.planRunning && s.stepComplete then
    if s.plan.stepIndex < s.plan.stepCount then
      ({ s with plan := { s.plan with stepIndex := s.plan.stepIndex + 1 } }, [.beginStep])
    else s.planEnd .done none
  else (s, [])

/-- The claim of the group takes the step's action (R152). -/
def State.aimClaim (s : State) (g : Group) (a : Action) : State :=
  match s.claim g with
  | some c => if c.owner = Owner.sequencer then s.setClaim g (some { c with action := a }) else s
  | none => s

/-- The step slot of a group becomes ACTIVE (R152). By the model's choice a group has its slot from its placing on
(log 51). -/
def State.openSlot (s : State) (g : Group) : State :=
  { s with plan := { s.plan with slots := s.plan.slots ++ [Slot.mk g none] } }

/-- The next group of the step is placed, its permit rows tested once more (R152). -/
def State.placeNext (s : State) : PlanStep → Work
  | [] => s.stepAdvance
  | (g, a) :: rest =>
    if s.planRunning then
      match s.permitCause g a with
      | some c => s.planRefused g .notPermitted (some c)
      | none =>
        let w := ((s.aimClaim g a).openSlot g).admitMotion g .sequencer .auto a
        (w.1, w.2 ++ [.place rest])
    else (s, [])

/-- An outcome is a success of a step motion (R153). -/
def stepSuccess (a : Action) : MotionOutcome → Bool
  | .endReached | .homeReached | .stabilised | .levelled => true
  | .limited => decide (a = .level)
  | _ => false

/-- The sequencer takes the ending of a motion of one of its claims (R153, R154, R155). -/
def State.planTakes (s : State) (g : Group) (a : Action) (e : Ending) (stored : Option FaultCode) : Work :=
  if s.planRunning = false ∨ e.outcome = .stopped ∨ e.outcome = .road then (s, [])
  else if stepSuccess a e.outcome then
    let s1 : State :=
      { s with
        plan :=
          { s.plan with
            slots := s.plan.slots.map fun x => if x.group = g then { x with outcome := some e.outcome } else x
            limited := s.plan.limited || decide (e.outcome = .limited) } }
    s1.stepAdvance
  else
    s.planEnd (if e.outcome = .preempted then .preempted else .failed) (some
      { step := s.plan.stepIndex, group := g, reason := none, cause := e.cause, outcome := some e.outcome
        fault := if e.outcome = .fault then stored else none })

/-- The claims that the sequencer holds are freed (R154). -/
def State.freePlanClaims (s : State) : State :=
  forEach allGroups (fun g t =>
    match t.claim g with
    | some c => if c.owner = .sequencer then t.setClaim g none else t
    | none => t) s

/-- The ended plan's motions end STOPPED one after another, those of the pause list first, with the scan of R140
after each that leaves the load list (log 14); then its claims are freed (R154). -/
def State.planEndNext (s : State) : Work :=
  match (s.paused ++ s.load).find? fun e => e.owner == .sequencer with
  | some e => (s, [.endMotion e.group { outcome := .stopped, claim := .keep }, .endPlan])
  | none => (s.freePlanClaims, [])

end Sys2Proof.Machine
end

