-- ==== Sys2Proof/Machine/Cascade.lean ====
section
/-! DEFINITION. The common ending of a motion (R52, R78, R100, R119, R120, R142) and the running of the work that one
event brings about. -/

namespace Sys2Proof.Machine

/-- The controller's part of an ending (R52, R78, R100). -/
def State.controllerEnd (s : State) (g : Group) (a : Action) (e : Ending) : State :=
  match sliderOf g with
  | some id => s.slideEnd id e
  | none => s.jackEnd a e

/-- The claim after an ending that its own rule says nothing else of: a HOLD claim keeps its ended flag (R119), an AUTO
claim of a port or of WIND is freed, a claim of SEQUENCER stays (R120). -/
def endedByRule (c : Claim) : Option Claim :=
  match c.mode with
  | .hold => some { c with ended := true }
  | .auto => if c.owner = .sequencer then some c else none

/-- What an ending does to its group's claim. -/
def State.endClaim (s : State) (g : Group) : ClaimEffect → State
  | .byRule =>
    match s.claim g with
    | some c => s.setClaim g (endedByRule c)
    | none => s
  | .free => s.setClaim g none
  | .keep => s

/-- The notices of an ending and its place in BUZZ's fault count (R52, R78, R100, R128, R130). -/
def State.endNotices (s : State) (e : Ending) : State :=
  let s1 := s.raise .motionEnd
  let s2 := if e.outcome = .fault then (s1.raise .fault).countFault else s1
  if e.outcome = .interlock then s2.raise .interlock else s2

/-- The fault stored in the axis record of a motion that ended FAULT (R154): a slider's own, or that of the first jack
named. -/
def State.storedFault (s : State) (g : Group) (e : Ending) : Option FaultCode :=
  match sliderOf g with
  | some id => (s.slider id).fault
  | none =>
    match e.jacks with
    | j :: _ => (s.jack j).fault
    | [] => none

/-- A motion ends: the controller's common ending, the notices, the claim, the entry out of its list. The work it leaves
is the handing over of the states, a scan when the load list held the entry, and the sequencer's part, in this order
(log 13). -/
def State.motionEnd (s : State) (g : Group) (e : Ending) : Work :=
  match s.entryOf g with
  | none => (s, [])
  | some m =>
    let s1 := s.controllerEnd g m.action e
    let s2 := ((s1.endNotices e).endClaim g e.claim).removeEntry g
    (s2, .handover s.view ::
      ((if s.running g then [.scan] else []) ++
        (if m.owner = .sequencer then [.planTakes g m.action e (s1.storedFault g e)] else [])))

/-- States are handed over: at a change the alarm is evaluated and the permits are re-evaluated (R125, R128). -/
def State.handOver (s : State) (old : View) : Work :=
  if s.view = old then (s, []) else (s.evalAlarm, [.permits])

/-- The permits are re-evaluated: the first motion whose permit has fallen ends INTERLOCK, and the rest are tested again
(R128). -/
def State.checkPermits (s : State) : Work :=
  match s.fallenPermit with
  | some (g, c) => (s, [.endMotion g { outcome := .interlock, cause := some c }, .permits])
  | none => (s, [])

/-- One piece of work. -/
def State.runTask (s : State) : Task → Work
  | .endMotion g e => s.motionEnd g e
  | .handover old => s.handOver old
  | .permits => s.checkPermits
  | .scan => s.scan
  | .resume g order first => s.resumeEntry g order first
  | .planTakes g a e stored => s.planTakes g a e stored
  | .beginStep => s.stepBegin
  | .place rest => s.placeNext rest
  | .endPlan => s.planEndNext

/-- The work of an event is run, the work that a piece leaves before the rest, until none is left. -/
def drain : Nat → Work → State
  | 0, w => w.1
  | _ + 1, (s, []) => s
  | fuel + 1, (s, t :: rest) =>
    let w := s.runTask t
    drain fuel (w.1, w.2 ++ rest)

/-- More pieces of work than one event can bring about (log 19). -/
def workBound : Nat := 10000

/-- An event: what it does, the states it changes handed over, and the work it leaves run to its end. -/
def State.event (s : State) (f : State → Work) : State := drain workBound (s.handing f)

/-- An event that leaves no work of its own but the handing over of states. -/
def State.change (s : State) (f : State → State) : State := s.event fun t => (f t, [])

/-- Every motion of the two lists ends with an outcome, those of the pause list first (R121, R124, R142, log 14). What
the endings leave to do finds nothing: no scan moves an entry that is about to end, and the sequencer records neither
STOPPED nor ROAD (R155). -/
def State.endAllMotions (s : State) (o : MotionOutcome) : State :=
  forEach ((s.paused ++ s.load).map fun e => e.group)
    (fun g t => (t.motionEnd g { outcome := o, claim := .keep }).1) s

/-- STOP and the change to ROAD (R121, R124, R155): every motion ends, a running plan ends STOPPED, and every claim is
freed. -/
def State.stopAll (s : State) (o : MotionOutcome) : State :=
  let s1 := s.endAllMotions o
  let s2 := if s1.planRunning then { s1 with plan := { s1.plan with status := .stopped } }.raise .plan else s1
  s2.freeAllClaims

end Sys2Proof.Machine
end

