-- ==== Sys2Proof/Machine/Operands.lean ====
section
/-! DEFINITION. The fields of the requests: their ranges (R166), their kinds and lengths (section 9.2), their bytes
(section 11.2). -/

namespace Sys2Proof.Machine

/-- The axes that READ_AXIS may name (R166, R169). -/
inductive Axis where
  | room (k : RoomId)
  | jack (j : JackId)
  | awning
  | wind
  | supply
  | level
  | plan
deriving DecidableEq, Repr

/-- The axis of a number: 1 to 4, 11 to 16, 21, 31 to 34 (R166). -/
def axisOfNumber (n : Nat) : Option Axis :=
  if h : 1 ≤ n ∧ n ≤ 4 then some (.room ⟨n - 1, by omega⟩)
  else if 11 ≤ n then
    match jackOfNumber (n - 10) with
    | some j => some (.jack j)
    | none =>
      if n = 21 then some .awning
      else if n = 31 then some .wind
      else if n = 32 then some .supply
      else if n = 33 then some .level
      else if n = 34 then some .plan
      else none
  else none

/-- The class set of an ACK or a ROUTE: the four positions above the twelve are clear (R166). -/
def classesOfWord (w : ClassWord) : Option Classes :=
  if w.toNat < 4096 then some (BitVec.ofNat 12 w.toNat) else none

/-- A request whose fields are in range. -/
inductive Request where
  | move (g : Group) (d : Dir)
  | auto (g : Group) (a : Action)
  | moveJack (j : JackId) (d : Dir)
  | release (g : Group)
  | stop
  | clearFault (g : Group)
  | runPlan (p : PlanName)
  | status
  | readAxis (number : Byte) (a : Axis)
  | ack (c : Classes)
  | route (c : Classes)
  | layoutLoad (segment : Fin 32) (data : Vector Byte 16)
  | layoutRead (segment : Fin 32)
  | layoutCommit
deriving DecidableEq, Repr

/-- The kind of a request frame (section 9.2). -/
inductive RequestKind where
  | move | release | auto | moveJack | runPlan | stop | status | readAxis | ack | route | clearFault
  | layoutLoad | layoutCommit | layoutRead
deriving DecidableEq, Repr

/-- The kind code of a request (section 9.2). -/
def RequestKind.code : RequestKind → Byte
  | .move => 0x10
  | .release => 0x11
  | .auto => 0x12
  | .moveJack => 0x13
  | .runPlan => 0x14
  | .stop => 0x15
  | .status => 0x20
  | .readAxis => 0x21
  | .ack => 0x22
  | .route => 0x23
  | .clearFault => 0x24
  | .layoutLoad => 0x30
  | .layoutCommit => 0x31
  | .layoutRead => 0x32

/-- Every request kind. -/
def allKinds : List RequestKind :=
  [.move, .release, .auto, .moveJack, .runPlan, .stop, .status, .readAxis, .ack, .route, .clearFault,
    .layoutLoad, .layoutCommit, .layoutRead]

/-- The request kind of a data byte, if it is a request kind code (R160). -/
def kindOfByte (b : Byte) : Option RequestKind := allKinds.find? fun k => k.code == b

/-- The number of characters of a frame of a kind, the kind and the check included (section 9.2). -/
def RequestKind.length : RequestKind → Nat
  | .move | .auto | .moveJack | .ack | .route => 4
  | .release | .runPlan | .readAxis | .clearFault | .layoutRead => 3
  | .stop | .status | .layoutCommit => 2
  | .layoutLoad => 19

/-! ### Fields in range (R166) -/

/-- MOVE with its fields in range. -/
def moveRequest (group dir : Byte) : Option Request :=
  match groupOfCode group.toNat, dirOfCode dir.toNat with
  | some g, some d => some (.move g d)
  | _, _ => none

/-- AUTO with its fields in range. -/
def autoRequest (group action : Byte) : Option Request :=
  match groupOfCode group.toNat with
  | some g => (actionOfCode g action.toNat).map fun a => .auto g a
  | none => none

/-- MOVE_JACK with its fields in range. -/
def moveJackRequest (jack dir : Byte) : Option Request :=
  match jackOfNumber jack.toNat, dirOfCode dir.toNat with
  | some j, some d => some (.moveJack j d)
  | _, _ => none

/-- RELEASE with its field in range. -/
def releaseRequest (group : Byte) : Option Request := (groupOfCode group.toNat).map .release

/-- CLEAR_FAULT with its field in range. -/
def clearFaultRequest (group : Byte) : Option Request := (groupOfCode group.toNat).map .clearFault

/-- RUN_PLAN with its field in range. -/
def runPlanRequest (plan : Byte) : Option Request := (planOfCode plan.toNat).map .runPlan

/-- READ_AXIS with its field in range. -/
def readAxisRequest (axis : Byte) : Option Request := (axisOfNumber axis.toNat).map fun a => .readAxis axis a

/-- ACK with its field in range. -/
def ackRequest (w : ClassWord) : Option Request := (classesOfWord w).map .ack

/-- ROUTE with its field in range. -/
def routeRequest (w : ClassWord) : Option Request := (classesOfWord w).map .route

/-- A segment number in range: 0 to 31. -/
def segmentOfByte (b : Byte) : Option (Fin 32) := if h : b.toNat < 32 then some ⟨b.toNat, h⟩ else none

/-- LAYOUT_LOAD with its field in range. -/
def layoutLoadRequest (segment : Byte) (data : Vector Byte 16) : Option Request :=
  (segmentOfByte segment).map fun n => .layoutLoad n data

/-- LAYOUT_READ with its field in range. -/
def layoutReadRequest (segment : Byte) : Option Request := (segmentOfByte segment).map .layoutRead

/-- The field byte at a place after the kind byte of a frame. -/
def fieldByte (fields : List Byte) (i : Nat) : Byte := (fields[i]?).getD 0

/-- The class word of two field bytes, high byte first (R185). -/
def fieldWord (fields : List Byte) : ClassWord :=
  BitVec.ofNat 16 ((fieldByte fields 0).toNat * 256 + (fieldByte fields 1).toNat)

/-- The request that the fields of a complete frame make, none when one is out of range. -/
def requestOfFields (k : RequestKind) (f : List Byte) : Option Request :=
  match k with
  | .move => moveRequest (fieldByte f 0) (fieldByte f 1)
  | .release => releaseRequest (fieldByte f 0)
  | .auto => autoRequest (fieldByte f 0) (fieldByte f 1)
  | .moveJack => moveJackRequest (fieldByte f 0) (fieldByte f 1)
  | .runPlan => runPlanRequest (fieldByte f 0)
  | .stop => some .stop
  | .status => some .status
  | .readAxis => readAxisRequest (fieldByte f 0)
  | .ack => ackRequest (fieldWord f)
  | .route => routeRequest (fieldWord f)
  | .clearFault => clearFaultRequest (fieldByte f 0)
  | .layoutLoad => layoutLoadRequest (fieldByte f 0) (Vector.ofFn fun i => fieldByte f (i.val + 1))
  | .layoutCommit => some .layoutCommit
  | .layoutRead => layoutReadRequest (fieldByte f 0)

/-! ### Answers -/

/-- What the block that decides a request answers (R164, R170). -/
inductive Answer where
  | accepted (renewed held done : Bool)
  | refused (r : Reason) (detail1 detail2 : Nat)
  | status (bytes : List Byte)
  | axis (number : Byte) (bytes : List Byte)
  | segment (number : Nat) (bytes : List Byte)
deriving DecidableEq, Repr

/-- The code of a reason, in the order of the table of R170: HELD = 1 to LAYOUT_INVALID = 12 (section 11.1). -/
def Reason.code : Reason → Nat
  | .held => 1
  | .notPermitted => 2
  | .budget => 3
  | .homeFirst => 4
  | .faulted => 5
  | .unavailable => 6
  | .planActive => 7
  | .tooSteep => 8
  | .storeBusy => 9
  | .notConfigured => 10
  | .badRequest => 11
  | .layoutInvalid => 12

/-- The code of a cause (section 11.1). -/
def Cause.code : Cause → Nat
  | .road => 1
  | .needsSupport => 2
  | .roomsOut => 3
  | .awningOut => 4
  | .awningClash => 5
  | .wind => 6

/-- The code of a port as an owner (section 11.1). -/
def portCode : Port → Nat
  | .p1 => 1
  | .p2 => 2
  | .p3 => 3

/-- The code of an owner (section 11.1). -/
def Owner.code : Owner → Nat
  | .port p => portCode p
  | .sequencer => 4
  | .wind => 5

/-- The code of the owner of a plan (section 11.1). -/
def PlanOwner.code : PlanOwner → Nat
  | .port p => portCode p
  | .ignition => 6

/-- A plain acceptance: every flag clear. -/
def Answer.plain : Answer := .accepted false false false

/-- A refusal without details (R170). -/
def refusal (r : Reason) : Answer := .refused r 0 0

/-- A HELD refusal, with the owner's code (R170). -/
def heldBy (o : Owner) : Answer := .refused .held o.code 0

/-- A NOT_PERMITTED refusal, with its cause (R170). -/
def notPermitted (c : Cause) : Answer := .refused .notPermitted c.code 0

end Sys2Proof.Machine
end

