-- ==== Sys2Proof/Machine/Claims.lean ====
section
/-! DEFINITION. The claim table (chapter 6) and the acceptance of plans (R149, R150, R126). -/

namespace Sys2Proof.Machine

/-- The hold deadline of a request taken now: its arrival plus the hold window (R112, R114). -/
def State.newDeadline (s : State) : Time := s.now + ms s.layout.holdWindow

/-- A limp move: a held move in the stowing direction (R111). -/
def limpMove (m : Mode) (a : Action) : Bool := m == .hold && a.dir == .stowing

/-- The group of a motion request, or the jack that a MOVE_JACK names, is configured (R111 check 2). -/
def State.actionConfigured (s : State) (g : Group) : Action → Bool
  | .jack j _ => s.jackConfigured j
  | _ => s.configured g

/-- Checks 5 to 9 of R111, in order. -/
def State.motionRefusal (s : State) (m : Mode) (g : Group) (a : Action) : Option Answer :=
  if s.unavailable g = true then some (refusal .unavailable)
  else if s.groupFaulted g = true ∧ limpMove m a = false then some (refusal .faulted)
  else if s.homeFirst g a = true then some (refusal .homeFirst)
  else
    match s.permitCause g a with
    | some c => some (notPermitted c)
    | none =>
      if a = .level ∧ s.tooSteep s.tilt.pitch s.tilt.roll = true then some (refusal .tooSteep) else none

/-- The motion fits the budget, the units of the group's present motion in the load list counted as free (R111 check 10,
R115). -/
def State.fitsReplacing (s : State) (g : Group) (a : Action) : Bool :=
  decide (s.motionUnits g a + unitsOf (s.load.filter fun e => e.group != g) ≤ s.budget)

/-- Checks 5 to 10 of R111, in order. -/
def State.fullRefusal (s : State) (m : Mode) (g : Group) (a : Action) : Option Answer :=
  match s.motionRefusal m g a with
  | some r => some r
  | none => if m = .hold ∧ s.fitsReplacing g a = false then some (refusal .budget) else none

/-- The claim that an accepted motion request makes (R112). -/
def State.newClaim (s : State) (p : Port) (m : Mode) (a : Action) : Claim :=
  { owner := .port p, mode := m, action := a
    deadline := if m = .hold then some s.newDeadline else none
    ended := false }

/-- A motion request on a free group that passed every check: the claim is made and the motion admitted (R112). -/
def State.acceptMotion (s : State) (p : Port) (m : Mode) (g : Group) (a : Action) : State × Answer :=
  let held := !s.fits (s.motionUnits g a)
  (drain workBound ((s.setClaim g (some (s.newClaim p m a))).admitMotion g (.port p) m a), .accepted false held false)

/-- A renewal (R114). -/
def State.renewClaim (s : State) (g : Group) (c : Claim) : State × Answer :=
  (s.setClaim g (some { c with deadline := some s.newDeadline }), .accepted true (s.isPaused g) c.ended)

/-- A replacement that passed its checks (R115): the old motion ends RELEASED, the claim takes the new action, the new
motion is placed, and only then is the pause list scanned. -/
def State.replaceMotion (s : State) (p : Port) (g : Group) (a : Action) : State × Answer :=
  let s1 := (s.motionEnd g { outcome := .released, claim := .keep }).1
  let s2 := s1.setClaim g (some (s1.newClaim p .hold a))
  let w := s2.placeAndStart g (.port p) .hold a
  (drain workBound (w.1, w.2 ++ [.handover s.view, .scan]), .plain)

/-- The entries of a list with the action of a group's entry replaced (R116). -/
def withAction (g : Group) (a : Action) (l : List Entry) : List Entry :=
  l.map fun e => if e.group = g then { e with action := a } else e

/-- A jack change that passed its checks (R116): the claim and the entry name the new jack, and the jack controller moves
the motion to it (R73). -/
def State.changeJack (s : State) (c : Claim) (old new : JackId) (d : Dir) : State × Answer :=
  let a := Action.jack new d
  let s1 := s.setClaim .jacks (some { c with action := a, deadline := some s.newDeadline })
  let s2 := { s1 with load := withAction .jacks a s1.load, paused := withAction .jacks a s1.paused }
  (drain workBound
    (let w := s2.jackChange old new d (s2.running .jacks)
     (w.1, .handover s.view :: w.2)),
    .accepted false (s.isPaused .jacks) false)

/-- A request of the holder of a HOLD claim that is no renewal: a jack change or a replacement, after checks 5 to 10
(R113, R115, R116). -/
def State.changeMotion (s : State) (p : Port) (g : Group) (c : Claim) (a : Action) : State × Answer :=
  match c.action, a with
  | .jack old _, .jack new d =>
    if old ≠ new ∧ c.ended = false then
      match s.motionRefusal .hold g a with
      | some r => (s, r)
      | none => s.changeJack c old new d
    else
      match s.fullRefusal .hold g a with
      | some r => (s, r)
      | none => s.replaceMotion p g a
  | _, _ =>
    match s.fullRefusal .hold g a with
    | some r => (s, r)
    | none => s.replaceMotion p g a

/-- The claim is a HOLD claim of the port that asks (R113). -/
def Claim.heldBy (c : Claim) (p : Port) : Bool := c.mode == .hold && c.owner == .port p

/-- A motion request (R111 to R116). A renewal is told before the checks, since it makes none (R114, log 37). -/
def State.motionRequest (s : State) (p : Port) (m : Mode) (g : Group) (a : Action) : State × Answer :=
  match s.claim g with
  | some c =>
    if m = .hold ∧ c.heldBy p = true ∧ c.action = a then s.renewClaim g c
    else if s.write.isSome then (s, refusal .storeBusy)
    else if s.actionConfigured g a = false then (s, refusal .notConfigured)
    else if s.road ≠ .parked then (s, notPermitted .road)
    else if m = .hold ∧ c.heldBy p = true then s.changeMotion p g c a
    else (s, heldBy c.owner)
  | none =>
    if s.write.isSome then (s, refusal .storeBusy)
    else if s.actionConfigured g a = false then (s, refusal .notConfigured)
    else if s.road ≠ .parked then (s, notPermitted .road)
    else
      match s.fullRefusal m g a with
      | some r => (s, r)
      | none => s.acceptMotion p m g a

/-- A group's motion ends with an outcome and its claim is freed; a claim without a motion is freed without an outcome
(R117, R118). -/
def State.endAndFree (s : State) (g : Group) (o : MotionOutcome) : State :=
  if (s.entryOf g).isSome then drain workBound (s, [.endMotion g { outcome := o, claim := .free }])
  else s.setClaim g none

/-- RELEASE (R117). -/
def State.releaseGroup (s : State) (p : Port) (g : Group) : State × Answer :=
  match s.claim g with
  | none => (s, .plain)
  | some c => if c.owner = .port p then (s.endAndFree g .released, .plain) else (s, heldBy c.owner)

/-- STOP (R121). The alarm follows the states that the endings leave. -/
def State.stopEverything (s : State) : State × Answer := (s.change fun t => t.stopAll .stopped, .plain)

/-- The controller removes the fault of a group (R56, R81, R102). -/
def State.clearFaultOf (s : State) (g : Group) : State :=
  match sliderOf g with
  | some id => s.slideClearFault id
  | none => s.jacksClearFault

/-- CLEAR_FAULT (R122); the permits are re-evaluated (R128). -/
def State.clearFault (s : State) (g : Group) : State × Answer :=
  if s.configured g = false then (s, refusal .notConfigured)
  else
    match s.claim g with
    | some c => (s, heldBy c.owner)
    | none => (s.event fun t => (t.clearFaultOf g, [.permits]), .plain)

/-- A plan is accepted and its first step begun (R150). -/
def State.acceptPlan (s : State) (n : PlanName) (o : PlanOwner) : State := drain workBound (s.planStart n o)

/-- The owner of the first claimed group of a list (R149, R179). -/
def State.firstOwner (s : State) (l : List Group) : Option Owner :=
  l.findSome? fun g => (s.claim g).map fun c => c.owner

/-- RUN_PLAN (R149, R150). -/
def State.runPlan (s : State) (p : Port) (n : PlanName) : State × Answer :=
  if s.write.isSome then (s, refusal .storeBusy)
  else if s.road ≠ .parked then (s, notPermitted .road)
  else if (s.layout.planSteps n).isEmpty then (s, refusal .badRequest)
  else if s.planRunning then (s, refusal .planActive)
  else
    match s.firstOwner (planGroups (s.layout.planSteps n)) with
    | some o => (s, heldBy o)
    | none => (s.acceptPlan n (.port p), .plain)

/-- A rise of the accepted IGN level (R126). -/
def State.ignitionRise (s : State) : State :=
  if s.layout.autoStow = true ∧ s.road = .parked then
    if s.allFree = true ∧ s.write = none ∧ s.layout.stow ≠ [] then s.acceptPlan .stow .ignition else s.raise .plan
  else s

/-- The hold deadline of a claim is reached (R118). -/
def State.holdLapse (s : State) (g : Group) : State := s.endAndFree g .holdLapsed

/-- The road state changes to ROAD: as STOP, with outcome ROAD, and the alarm is evaluated (R124, R125). -/
def State.roadBegins (s : State) : State := (s.stopAll .road).evalAlarm

end Sys2Proof.Machine
end

