-- ==== Sys2Proof/Machine/WindWatch.lean ====
section
/-! DEFINITION. The wind watch (chapter 5, section 2.5): the gust state machine and the wind retract. -/

namespace Sys2Proof.Machine

/-- The wind watch may take the AWNING claim (R107): the awning is not STOWED, the road state is PARKED, and the group is
neither UNAVAILABLE nor NOT_CONFIGURED. -/
def State.windMayTake (s : State) : Bool :=
  s.awningNotStowed && decide (s.road = .parked) && s.configured .awning && !s.unavailable .awning

/-- Steps 1 and 2 of R107: the awning motion of another owner ends, INTERLOCK for EXTEND and PREEMPTED for RETRACT; the
claim stands. By the model's choice the scan for the units that the motion frees (R140) is made here, before the wind retract
is placed; an entry that it moves may then be shed for the retract (log 50). -/
def State.windEndsMotion (s : State) : State :=
  match s.entryOf .awning with
  | none => s
  | some e =>
    let ending : Ending :=
      match e.action.dir with
      | .outward => { outcome := .interlock, cause := some .wind, claim := .keep }
      | .stowing => { outcome := .preempted, claim := .keep }
    drain workBound (s, [.endMotion .awning ending])

/-- Step 3 of R107: a claim of another owner is displaced, and a running plan whose claim it was ends PREEMPTED (R157). -/
def State.windDisplaces (s : State) : State :=
  match s.claim .awning with
  | none => s
  | some c =>
    let s1 := s.raise .preempt
    if c.owner = .sequencer ∧ s1.planRunning = true then
      drain workBound (s1.planEnd .preempted (some
        { step := s1.plan.stepIndex, group := .awning, reason := none, cause := none, outcome := some .preempted
          fault := none }))
    else s1

/-- The claim of the wind watch (R107). -/
def windClaim : Claim :=
  { owner := .wind, mode := .auto, action := .toward .stowing, deadline := none, ended := false }

/-- Step 4 of R107: the claim becomes WIND's and the wind retract is handed to the supply budget. -/
def State.windRetract (s : State) : State :=
  let w := (s.setClaim .awning (some windClaim)).placeWind
  drain workBound (w.1, w.2 ++ [.handover s.view])

/-- The claim on AWNING is WIND's. -/
def State.windHolds (s : State) : Bool :=
  match s.claim .awning with
  | some c => c.owner == .wind
  | none => false

/-- The check of R107 and, when its three conditions hold, the taking of the claim. -/
def State.gustCheck (s : State) : State :=
  if s.windMayTake && !s.windHolds then s.windEndsMotion.windDisplaces.windRetract else s

/-- An entry into GUSTY (R107): in a store write the check is left until the write completes. -/
def State.gustEntered (s : State) : State :=
  if s.write.isSome then { s with wind := { s.wind with gustMissed := true } } else s.gustCheck

/-- The wind record in a state, with no deadline and the timer at 0 (R104, R105). -/
def Wind.settledIn (w : Wind) (st : WindState) : Wind := { w with state := st, deadline := none, timer := 0 }

/-- The wind record in RISING or EASING, with its hold deadline and the timer from 0 (R104). -/
def Wind.holding (w : Wind) (st : WindState) (t : Time) : Wind :=
  { w with state := st, deadline := some t, timer := 0 }

/-- The moment at which a gust hold begun now is reached. -/
def State.gustDeadline (s : State) : Time := s.now + seconds s.layout.wind.gustHold

/-- The moment at which a calm hold begun now is reached. -/
def State.calmDeadline (s : State) : Time := s.now + seconds s.layout.wind.calmHold

/-- Set the wind record. -/
def State.setWind (s : State) (w : Wind) : State := { s with wind := w }

/-- A speed is handed to the wind watch (R104, R40). -/
def State.windHanded (s : State) (v : Nat) : State :=
  let w := { s.wind with speed := v }
  let q := s.layout.wind
  match w.state with
  | .unwatched => s
  | .calm => s.setWind (if q.gust ≤ v then w.holding .rising s.gustDeadline else w)
  | .rising => s.setWind (if v < q.gust then w.settledIn .calm else w)
  | .gusty => s.setWind (if v < q.calm then w.holding .easing s.calmDeadline else w)
  | .easing =>
    if q.calm ≤ v then (s.setWind (w.settledIn .gusty)).gustEntered else s.setWind w

/-- The wind speed is computed and handed over (R39, R40); a change of wind state goes to the permit table (R105). -/
def State.computeWind (s : State) : State :=
  s.change fun t => t.windHanded (windSpeed t.layout.wind.constantK t.wind)

/-- The gust hold is reached: GUSTY, notice WIND and the check of R107 (R105). -/
def State.gustReached (s : State) : State :=
  s.change fun t => ((t.setWind (t.wind.settledIn .gusty)).raise .wind).gustEntered

/-- The calm hold is reached: CALM and notice WIND (R105). -/
def State.calmReached (s : State) : State :=
  s.change fun t => (t.setWind (t.wind.settledIn .calm)).raise .wind

/-- An accepted WND pulse is captured without a mask test and the counter returns to 0 (R38). -/
def Wind.pulse (w : Wind) : Wind := { w with ring := pushCapture w.ring w.counter, counter := 0 }

end Sys2Proof.Machine
end

