-- ==== Sys2Proof/Machine/Clock.lean ====
section
/-! DEFINITION. The part's time base (00 section 3.4): what the passing of time alone changes. -/

namespace Sys2Proof.Machine

/-- The pace ticks that fall in a span begun at a moment (R28). -/
def ticksIn (start span : Time) : Nat := tickCount (start + span) - tickCount start

/-- The interval counters of driven channels rise at every pace tick (R28). -/
def State.countPace (s : State) (span : Time) : State :=
  { s with
    pace := Vector.ofFn fun n =>
      if (s.channels[n]).driven then
        { s.pace[n] with counter := countUp (s.pace[n]).counter (ticksIn s.now span) }
      else s.pace[n] }

/-- The wind counter rises at every pace tick while an anemometer is present (R38); the timer rises in RISING and EASING
(section 5.5). -/
def State.countWind (s : State) (span : Time) : State :=
  let w := s.wind
  { s with
    wind :=
      { w with
        counter := if s.layout.wind.present then countUp w.counter (ticksIn s.now span) else w.counter
        timer := if w.state = .rising ∨ w.state = .easing then w.timer + span else w.timer } }

/-- A run time rises while its motion is RUNNING and stops at its timeout (R45, R77, R97, log 35). -/
def runOn (limit : Time) (span : Time) (t : Time) : Time := if t < limit then min limit (t + span) else t

/-- The jack run timeout (R77). -/
def State.jackTimeout (s : State) : Time := seconds s.layout.jackTimeout

/-- The limit of the phase time of the present phase of the level run (R84, R85, R87). -/
def State.phaseLimit (s : State) : Time :=
  match s.level.phase with
  | .contact => s.jackTimeout
  | .settle => ms s.layout.level.settleTime
  | .lift => seconds s.layout.level.passTimeout

/-- A level run is RUNNING in the load list. -/
def State.levelRunning (s : State) : Bool := s.levelActive && s.running .jacks

/-- The run times of the running motions rise (R45, R77, R97), a level run's phase time in place of a run time (R84, R85,
R87). -/
def State.countRuns (s : State) (span : Time) : State :=
  { s with
    rooms := Vector.ofFn fun k =>
      if s.running (.room k) then
        { s.rooms[k] with runTime := runOn (s.sliderTimeout (.room k)) span (s.rooms[k]).runTime }
      else s.rooms[k]
    awning :=
      if s.running .awning then { s.awning with runTime := runOn (s.sliderTimeout .awning) span s.awning.runTime }
      else s.awning
    jackSet :=
      if s.running .jacks && !s.levelActive then
        { s.jackSet with runTime := runOn s.jackTimeout span s.jackSet.runTime }
      else s.jackSet
    level :=
      if s.levelRunning then { s.level with phaseTime := runOn s.phaseLimit span s.level.phaseTime } else s.level }

/-- The duty of a PWM period is taken at its start, every 50 µs (R10, log 30). -/
def State.latchDuty (s : State) (span : Time) : State :=
  if s.now / 2 < (s.now + span) / 2 then
    { s with channels := s.channels.map fun c => { c with waveDuty := c.outputDuty } }
  else s

/-- Time passes: a number of steps of 25 µs. -/
def State.elapse (s : State) (span : Time) : State :=
  let s1 := (((s.countPace span).countWind span).countRuns span).latchDuty span
  { s1 with now := s.now + span }

/-- The clock moves on to a moment, if that lies ahead. -/
def State.advanceTo (s : State) (t : Time) : State := if s.now < t then s.elapse (t - s.now) else s

/-- The idle step has raised every event that is due at the present moment (log 3). -/
def State.clocked (s : State) : Bool := s.tickedAt == some s.now

/-- A timed command finds its moment come, or may move the clock on to it: where the idle step has raised what is due now,
an event whose moment lies ahead is not due (R35, R118, log 3). -/
def State.comes (s : State) (t : Time) : Bool := decide (t ≤ s.now) || !s.clocked

/-- The same for a running time or a counter and its limit (R35, R45, R77). -/
def State.mayReach (s : State) (t limit : Nat) : Bool := decide (limit ≤ t) || !s.clocked

/-- A motion's run or phase time stands at its limit: the motion may have been shed in the meantime, and its ending removes
it from whichever list holds it (R144). -/
def State.atLimit (s : State) (g : Group) (t limit : Time) : Bool := (s.entryOf g).isSome && decide (limit ≤ t)

/-- A run or phase timeout of a group's motion is taken: the time stands at its limit, or the motion is RUNNING and the
clock may move on to it (R45, R77, R84, R87, R97, R144). -/
def State.timesOut (s : State) (g : Group) (t limit : Time) : Bool :=
  s.atLimit g t limit || (s.running g && s.mayReach t limit)

/-- The clock moves on by what a running time still lacks of a limit. -/
def State.advanceRun (s : State) (t limit : Time) : State := if t < limit then s.elapse (limit - t) else s

/-- The clock moves on until a driven channel's interval counter reaches a value (R35). -/
def State.advanceCounter (s : State) (n : Chan) (value : Nat) : State :=
  let c := (s.paceRec n).counter
  if c < value then s.advanceTo (paceTicks (tickCount s.now + (value - c))) else s

end Sys2Proof.Machine
end

