-- ==== Sys2Proof/Machine/Census.lean ====
section
/-! DEFINITION. The census of the plugs (section 1.4), the analog samples and the overcurrent watch (section 1.6), and
the pulses, tallies and stalls of the pace watch (section 2.4). -/

namespace Sys2Proof.Machine

/-! ### Faults of a channel -/

/-- The tasks by which a fault of a channel goes to the controller of its group (R7, R17, R34). -/
def State.channelFaultTasks (s : State) (n : Chan) (f : FaultCode) : List Task :=
  match s.role n with
  | .none => []
  | .room k _ => slideChannelFault (.room k) f
  | .awning => slideChannelFault .awning f
  | .jack j => s.jackChannelFault (.jack j) f
  | .pump => s.jackChannelFault .pump f

/-- The census block stops a channel and hands its fault to the controller of its group (R7, R17, R34). -/
def State.channelFault (s : State) (n : Chan) (f : FaultCode) : Work :=
  (s.stopChan n, s.channelFaultTasks n f)

/-! ### Census reads (R2 to R7) -/

/-- The kind code of a read. -/
def levelsKind (r : Levels) : Kind := kindOfLines r.knd1 r.knd0

/-- The census state that a read gives for a role (R2). -/
def readState (role : Role) (r : Levels) : CensusState :=
  if r.sea && r.seb then if some (levelsKind r) = role.kind then .seated else .mismatch
  else if r.sea || r.seb then .loose
  else .empty

/-- A channel record with an agreed read taken (R3, R4). -/
def Channel.confirmed (c : Channel) (role : Role) (r : Levels) : Channel :=
  { c with
    census := readState role r, settled := true, kindRead := levelsKind r, pendingRead := none, pendingAt := none
    settledLevels := some r }

/-- The fault of a channel whose census state leaves SEATED (R7). -/
def lossFault (st : CensusState) : FaultCode := if st = .mismatch then .mismatch else .unseated

/-- An agreed read is taken: the record, notice CENSUS at a change of census state (R5), and the loss of a channel of a
motion (R7). -/
def State.confirmRead (s : State) (n : Chan) (r : Levels) : Work :=
  let old := (s.chan n).census
  let c := (s.chan n).confirmed (s.role n) r
  let s1 := s.setChan n c
  let s2 := if c.census ≠ old then s1.raise .census else s1
  if old = .seated ∧ c.census ≠ .seated ∧ (s.motionOfChan n).isSome then s2.channelFault n (lossFault c.census)
  else (s2, [])

/-- A read that waits for another to agree with it, from the present moment on. -/
def State.holdRead (s : State) (n : Chan) (r : Levels) : State :=
  s.setChan n { s.chan n with pendingRead := some r, pendingAt := some s.now }

/-- A read is compared with the one before it: two that agree are taken (R3, R4). -/
def State.compareRead (s : State) (n : Chan) (r : Levels) : Work :=
  if (s.chan n).pendingRead = some r then s.confirmRead n r else (s.holdRead n r, [])

/-- The moment of a channel's next start-up or confirming read: 20 ms after the read that waits, and 20 ms after the
start-up census began where no read waits yet (R3, R4, R23). -/
def State.readDue (s : State) (n : Chan) : Time := ((s.chan n).pendingAt.getD s.censusStart) + ms 20

/-- A start-up or confirming read is taken at its moment. One that the idle step raised under the census before a new
layout finds its moment ahead and is not taken (R3, R23, log 3). -/
def State.takeRead (s : State) (n : Chan) (r : Levels) : State :=
  if s.comes (s.readDue n) then (s.advanceTo (s.readDue n)).event fun t => t.compareRead n r else s

/-- A start-up read falls to a channel: it needs reads and has not settled (R3). -/
def State.startingUp (s : State) (n : Chan) : Bool := s.needsReads n && !(s.chan n).settled

/-- A confirming read falls to a channel: it needs reads, has settled and has a pending read (R4). -/
def State.confirming (s : State) (n : Chan) : Bool :=
  s.needsReads n && (s.chan n).settled && (s.chan n).pendingRead.isSome

/-- A read of the start-up census (R3). -/
def State.censusRead (s : State) (n : Chan) (r : Levels) : State := if s.startingUp n then s.takeRead n r else s

/-- A confirming read (R4). -/
def State.confirmingRead (s : State) (n : Chan) (r : Levels) : State := if s.confirming n then s.takeRead n r else s

/-- The re-census pass of one channel (R4). -/
def State.passRead (s : State) (n : Chan) (r : Levels) : State :=
  let c := s.chan n
  if s.needsReads n && c.settled && c.pendingRead.isNone && decide (c.settledLevels ≠ some r) then s.holdRead n r else s

/-- A re-census pass (R4). -/
def State.recensus (s : State) (reads : Vector Levels 16) : State :=
  forEach allChans (fun n t => t.passRead n reads[n]) s

/-! ### Analog samples (R16 to R18) -/

/-- A raw sample converted with a scale code (R16). -/
def scaleSample (raw : Nat) (code : Int) : Nat :=
  if 0 ≤ code then min 4095 (raw * 2 ^ code.toNat) else raw / 2 ^ (-code).toNat

/-- A sample of a channel counts for the overcurrent watch: the channel is driven and its start blank has passed
(R17). -/
def State.countsCurrent (s : State) (n : Chan) : Bool :=
  (s.chan n).driven &&
    match (s.chan n).driveStart with
    | some t => decide (t + ms (s.kindParams n).startBlank ≤ s.now)
    | none => false

/-- The overcurrent watch takes the scaled sample of a motor channel (R17). -/
def State.watchCurrent (s : State) (n : Chan) (v : Nat) : Work :=
  if s.countsCurrent n then
    if (s.kindParams n).currentLimit ≤ v then
      let run := (s.chan n).overRun + 1
      let s1 := s.setChan n { s.chan n with overRun := min 3 run }
      if 3 ≤ run then s1.channelFault n .overcurrent else (s1, [])
    else (s.setChan n { s.chan n with overRun := 0 }, [])
  else (s, [])

/-- A sample of ANAn (R16): current on a motor channel (R17), line pressure on a valve channel (R66). -/
def State.analogSample (s : State) (n : Chan) (raw : Sample) : State :=
  if s.needsReads n then
    s.event fun t =>
      let v := scaleSample raw.toNat t.layout.scales[n]
      let t1 := t.setChan n { t.chan n with scaled := v }
      match t.role n with
      | .jack j => t1.pressureSample j v
      | _ => t1.watchCurrent n v
  else s

/-- The channel is a motor channel: slide, pump or awning (R1). -/
def Role.isMotor : Role → Bool
  | .room _ _ => true
  | .pump => true
  | .awning => true
  | .jack _ => false
  | .none => false

/-- The over-limit run of a motor channel reaches 3: the third counting sample at or above the limit (R17, log 12). -/
def State.overcurrent (s : State) (n : Chan) : State :=
  if (s.role n).isMotor && s.countsCurrent n && decide (2 ≤ (s.chan n).overRun) then
    s.event fun t => (t.setChan n { t.chan n with overRun := 3 }).channelFault n .overcurrent
  else s

/-- The loss run of a jack in contact reaches 3 (R66, log 12). -/
def State.lossReached (s : State) (j : JackId) : State :=
  if (s.jack j).contact && decide (2 ≤ (s.jack j).lossRun) && s.jackConfigured j then s.event fun t => t.contactLost j
  else s

/-! ### Pulses and stalls (R25, R32 to R36) -/

/-- One position step of a channel is handed to the controller of its axis (R36). -/
def State.handStep (s : State) (n : Chan) (d : Dir) (driven : Bool) : Work :=
  match s.role n with
  | .room k m => s.slideStep (.room k) m d driven
  | .awning => s.slideStep .awning .a d driven
  | .jack j => s.jackStep j d driven
  | .pump => (s, [])
  | .none => (s, [])

/-- A driven pulse is tested against the mask (R32, R33, R34). -/
def State.drivenPulse (s : State) (n : Chan) : Work :=
  let r := s.paceRec n
  if r.counter < s.maskLimit n then
    let s1 := (s.setPace n r.reject).mirrorTally n
    if r.reject.tally = 64 ∧ r.tally ≠ 64 then s1.channelFault n .pulseNoise else (s1, [])
  else (s.setPace n r.accept).handStep n (s.chan n).dir true

/-- A pulse on PLSn (R25). -/
def State.pulse (s : State) (n : Chan) : Work :=
  let c := s.chan n
  if c.driven then s.drivenPulse n
  else
    match c.lastStop with
    | some l => if s.now < l.time + coastTime then s.handStep n l.dir false else (s, [])
    | none => (s, [])

/-- PLSn of the channel is conditioned (R24). -/
def State.hasPulses (s : State) (n : Chan) : Bool := s.present n && (s.role n).hasPulses

/-- The rejected tally of a driven channel reaches 64 (R34, log 12). -/
def State.noiseReached (s : State) (n : Chan) : State :=
  if s.hasPulses n && (s.chan n).driven && decide (63 ≤ (s.paceRec n).tally) then
    s.event fun t => ((t.setPace n { t.paceRec n with tally := 64 }).mirrorTally n).channelFault n .pulseNoise
  else s

/-- A stall is handed to the controller of the channel's group (R35). -/
def State.handStall (s : State) (n : Chan) : Work :=
  match s.role n with
  | .room k m => s.slideStall (.room k) m
  | .awning => s.slideStall .awning .a
  | .jack j => s.jackStall j
  | .pump => (s, [])
  | .none => (s, [])

/-- A stall may be raised on a channel: it is driven, and none has been raised since the last accepted pulse (R35). -/
def State.mayStall (s : State) (n : Chan) : Bool :=
  s.hasPulses n && (s.chan n).driven && !(s.paceRec n).stallRaised

/-- The interval counter of a driven channel reaches its stall limit (R35). A pulse taken first at the same moment has
returned the counter to 0, and no stall is raised. -/
def State.stallReached (s : State) (n : Chan) : State :=
  if s.mayStall n && s.mayReach (s.paceRec n).counter (s.stallLimit n) then
    (s.advanceCounter n (s.stallLimit n)).event fun t =>
      (t.setPace n { t.paceRec n with stallRaised := true }).handStall n
  else s

end Sys2Proof.Machine
end

