-- ==== Sys2Proof/Machine/SupplyBand.lean ====
section
/-! DEFINITION. The supply record: samples, mean and band (section 7.1). -/

namespace Sys2Proof.Machine

/-- The order of the bands, from the lowest. -/
def Band.rank : Band → Nat
  | .d => 0
  | .c => 1
  | .b => 2
  | .a => 3

/-- The lower edge of a band, in 10 mV (R133). -/
def Band.lowerEdge : Band → Nat
  | .a => 1240
  | .b => 1180
  | .c => 1100
  | .d => 0

/-- The band whose range holds a mean (R133). -/
def bandOf (mean : Nat) : Band :=
  if 1240 ≤ mean then .a else if 1180 ≤ mean then .b else if 1100 ≤ mean then .c else .d

/-- The highest band whose edge for entry from below a mean meets (R133). -/
def entryBand (mean : Nat) : Band :=
  if 1255 ≤ mean then .a else if 1195 ≤ mean then .b else if 1115 ≤ mean then .c else .d

/-- The band after a mean: set directly at the first mean, else fallen or risen by the edges (R133). -/
def bandAfter (first : Bool) (present : Band) (mean : Nat) : Band :=
  if first then bandOf mean
  else if mean < present.lowerEdge then bandOf mean
  else if present.rank < (entryBand mean).rank then entryBand mean
  else present

/-- A raw sample of VSUP in 10 mV (R132). -/
def supplyValue (scale raw : Nat) : Nat := raw * scale / 256

/-- The last twenty-five of a list of samples. -/
def lastTwentyFive (l : List Nat) : List Nat := l.drop (l.length - 25)

/-- The mean of twenty-five samples (R132). -/
def supplyMean (scale : Nat) (l : List Nat) : Option Nat :=
  if l.length = 25 then some ((l.map (supplyValue scale)).sum / 25) else none

/-- What follows a change of band: notice SUPPLY, shedding at a fall, a scan at a rise (R133, R137, R140). -/
def State.bandChanged (s : State) (old : Band) : Work :=
  let s1 := s.raise .supply
  if s.supply.band.rank < old.rank then (s1.shedTo s1.budget, []) else (s1, [.scan])

/-- A sample of VSUP is taken, the mean computed and the band tested (R132, R133). -/
def State.supplyTaken (s : State) (raw : Nat) : Work :=
  let samples := lastTwentyFive (s.supply.samples ++ [raw])
  match supplyMean s.layout.supplyScale samples with
  | none => ({ s with supply := { s.supply with samples := samples } }, [])
  | some m =>
    let band := bandAfter s.supply.mean.isNone s.supply.band m
    let s1 := { s with supply := { samples := samples, mean := some m, band := band } }
    if band = s.supply.band then (s1, []) else s1.bandChanged s.supply.band

end Sys2Proof.Machine
end

