-- ==== Sys2Proof/Machine/Store.lean ====
section
/-! DEFINITION. The layout store and start-up (chapter 10), the resets (R183, R184), and what a reset and a new layout do
to the state of each block. -/

namespace Sys2Proof.Machine

/-! ### Requests to the store -/

/-- The first byte of a segment. -/
def segmentBase (n : Fin 32) : Nat := 16 * n.val

/-- LAYOUT_LOAD (R178). -/
def State.loadSegment (s : State) (n : Fin 32) (data : Vector Byte 16) : State × Answer :=
  if s.write.isSome then (s, refusal .storeBusy)
  else ({ s with staging := s.staging.writeAll (segmentBase n) data.toList }, .plain)

/-- LAYOUT_READ (R178). -/
def State.readSegment (s : State) (n : Fin 32) : Answer := .segment n.val (s.staging.bytes (segmentBase n) 16)

/-- LAYOUT_COMMIT (R179, R181). -/
def State.commit (s : State) : State × Answer :=
  if s.write.isSome then (s, refusal .storeBusy)
  else if s.road ≠ .parked then (s, notPermitted .road)
  else
    match s.firstOwner allGroups with
    | some o => (s, heldBy o)
    | none =>
      match firstBadByte s.staging (variantCount s.straps.variant) with
      | some a => (s, .refused .layoutInvalid (a / 16) (a % 16))
      | none => ({ s with staging := s.staging.withCrc, write := some s.now }, .plain)

/-! ### Resets (R183, R184) -/

/-- A write in flight is cut off and leaves a record that fails its check (R184). -/
def State.cutWrite (s : State) : State :=
  if s.write.isSome then { s with stored := .cutOff, write := none } else s

/-- A channel had stopped less than 50 ms ago (R58, R91, R103). -/
def State.justStopped (s : State) (n : Option Chan) : Bool :=
  match n with
  | some n =>
    match (s.chan n).lastStop with
    | some l => decide (s.now < l.time + coastTime)
    | none => false
  | none => false

/-- A room or the awning counts as in motion (R58, R103). -/
def State.sliderInMotion (s : State) (id : Slider) : Bool :=
  (s.entryOf id.group).isSome || (s.motors id).any fun m => s.justStopped (s.motorChan id m)

/-- A jack counts as in motion (R91). -/
def State.jackInMotion (s : State) (j : JackId) : Bool :=
  (match s.jackMotion with
    | some e => (s.jacksOf e.action).contains j
    | none => false) || s.justStopped (s.roleChan (.jack j))

/-- A motor of a slider record after a warm reset (R58, R103). -/
def MotorRec.warm (x : MotorRec) (moving : Bool) : MotorRec :=
  { count := if moving then none else x.count, phase := .idle, seatDeadline := none, tally := 0 }

/-- A slider record after a warm reset (R58, R103). -/
def SliderRec.warm (r : SliderRec) (moving : Bool) : SliderRec :=
  { r with
    state := if moving then .unknown else r.state
    motorA := r.motorA.warm moving
    motorB := r.motorB.warm moving
    runTime := 0 }

/-- A jack record after a warm reset (R91), which keeps the direction of its last motion (log 6). -/
def Jack.warm (r : Jack) (moving : Bool) : Jack :=
  { r with
    count := if moving then none else r.count
    atStroke := if moving then false else r.atStroke
    contact := false
    lossRun := 0
    liftOff := false
    pressure := 0
    phase := .idle }

/-- The axis records after a cold reset (R57, R90, R103). -/
def State.coldAxes (s : State) : State :=
  { s with
    rooms := Vector.replicate 4 freshSlider
    awning := freshSlider
    jacks := Vector.replicate 6 freshJack
    jackSet := { levelMark := false, lastOutcome := none, runTime := 0 } }

/-- The axis records after a warm reset, told from the state before it (R58, R91, R103). -/
def State.warmAxes (s : State) : State :=
  { s with
    rooms := Vector.ofFn fun k => (s.rooms[k]).warm (s.sliderInMotion (.room k))
    awning := s.awning.warm (s.sliderInMotion .awning)
    jacks := Vector.ofFn fun j => (s.jacks[j]).warm (s.jackInMotion j)
    jackSet := { s.jackSet with levelMark := false, runTime := 0 } }

/-- What a reset of either kind clears at once: channels, lists, claims, plan, level run, ports, indicators and input
histories (R19, R23, R26, R27, R82, R106, R110, R123, R130, R132, R145, R148, R175, R183). -/
def State.cleared (s : State) : State :=
  { s with
    channels := Vector.replicate 16 (freshChannel .empty false)
    tickedAt := none
    lines := Vector.replicate 16 freshLines
    lineStart := Vector.replicate 16 0
    park := freshLine
    ign := freshLine
    wndLine := freshPulse
    pace := Vector.replicate 16 clearedPace
    level := freshLevel
    tilt := freshTilt
    wind := freshWind s.layout.wind.present
    claims := Vector.replicate 6 none
    alarm := false
    faultCount := 0
    faultPattern := none
    motionPeriod := none
    motionPulse := false
    supply := freshSupply
    load := []
    paused := []
    nextOrder := 0
    plan := freshPlan
    ports := Vector.replicate 3 freshPort }

/-- A reset begins (R183, R184, R186). The straps are read at each reset; the model chooses its beginning, so a strap that
changes before the reset ends is seen at the next one (log 53). -/
def State.beginReset (s : State) (k : ResetKind) (straps : Straps) : State :=
  let s1 := match k with
    | .cold => s.coldAxes
    | .warm => s.warmAxes
  { s1.cutWrite.cleared with inReset := some k, straps := straps, resetLow := 0 }

/-- The record that the store holds, when it is not blank and passes its check (R177). -/
def Stored.good : Stored → Option Image
  | .record m => if m.isBlank || !m.passes then none else some m
  | .cutOff => none

/-- The census state of a channel as the start-up census begins (R2, R3, R19). -/
def State.startCensus (s : State) (n : Chan) : CensusState :=
  if s.present n then if s.role n = .none then .unused else .empty else .absent

/-- The state is one of a channel that needs no reads (R2). -/
def CensusState.noReads (c : CensusState) : Bool := c == .absent || c == .unused

/-- The layout and the staging image are chosen, with notice LAYOUT for an EMPTY one (R177). -/
def State.chooseLayout (s : State) : State :=
  match s.stored.good with
  | some m => { s with layout := Layout.ofImage m, staging := m }
  | none => { s with layout := Layout.empty, staging := emptyImage }.raise .layout

/-- The end of a reset (R177): the layout is chosen, time starts, and every block stands at its reset values under that
layout. -/
def State.endReset (s : State) : State :=
  let s1 := { s with inReset := none, now := 0, censusStart := 0 }.chooseLayout
  { s1 with
    wind := freshWind s1.layout.wind.present
    channels := Vector.ofFn fun n =>
      freshChannel (s1.startCensus n) (s1.startCensus n).noReads }

/-! ### A new layout takes effect (R182) -/

/-- A channel as a new layout begins its start-up census (R3). Drive state and last stop are kept (R182). -/
def State.recensusChannel (s : State) (n : Chan) : Channel :=
  let st := s.startCensus n
  let c := s.chan n
  let d : Channel :=
    { c with
      census := st, settled := st.noReads, pendingRead := none, pendingAt := none, settledLevels := none, overRun := 0 }
  if st.noReads then { d with scaled := 0 } else { d with kindRead := .slideMotor }

/-- A new layout restarts the start-up census, with notice CENSUS when a channel's census state changes (R3, R5). -/
def State.restartCensus (s : State) : State :=
  let s1 := { s with channels := Vector.ofFn fun n => s.recensusChannel n, censusStart := s.now }
  if allChans.any fun n => decide ((s1.chan n).census ≠ (s.chan n).census) then s1.raise .census else s1

/-- The conditioned lines of a channel under a new layout: the discrete lines of a channel that gains a role, changes it
or loses it start anew (R23, log 23), the pulse line of one that gains or loses conditioning (R26). -/
def newLines (old new : Role) (l : ChannelLines) : ChannelLines :=
  let disc := if old = new then l else { freshLines with pls := l.pls }
  if old.hasPulses && new.hasPulses then disc else { disc with pls := freshPulse }

/-- The moment from which the discrete lines of a channel are sampled under a new layout: from now for a channel that
gains a role or changes it (R23, log 23). -/
def State.newLineStart (s : State) (old : Layout) (n : Chan) : Time :=
  if old.roles[n] = s.layout.roles[n] then s.lineStart[n] else s.now

/-- The lines, and the pace records of channels whose conditioning begins or ends (R23, R26, R27). -/
def State.newInputs (s : State) (old : Layout) : State :=
  { s with
    lines := Vector.ofFn fun n => newLines old.roles[n] s.layout.roles[n] s.lines[n]
    lineStart := Vector.ofFn fun n => s.newLineStart old n
    pace := Vector.ofFn fun n =>
      if (old.roles[n]).hasPulses && (s.layout.roles[n]).hasPulses then s.pace[n] else clearedPace
    wndLine := if old.wind.present && s.layout.wind.present then s.wndLine else freshPulse }

/-- A slider record under a new layout (R59, R103): `known` says whether the old layout configured it too. A motor at home
has count 0 (log 43). By the model's choice a motor keeps its rejected tally mirror, also a motor B that an earlier layout
dropped and this one adds again to a room configured throughout (log 57). -/
def State.newSlider (s : State) (id : Slider) (known : Bool) : SliderRec :=
  if s.configured id.group && known then
    let r := s.slider id
    let keep := fun (m : Motor) (x : MotorRec) =>
      { x with count := if s.motorHome id m then some 0 else none }
    let r1 := { r with motorA := keep .a r.motorA, motorB := keep .b r.motorB }
    { r1 with state := if s.allHome id then .closed else .unknown }
  else freshSlider

/-- A jack record under a new layout (R92). A jack at home has count 0 (log 43). -/
def State.newJack (s : State) (j : JackId) (known : Bool) : Jack :=
  if s.jackConfigured j && known then
    let r := { s.jack j with lossRun := 0 }
    if s.jackHome j then { r with count := some 0 } else { r with count := none, atStroke := false }
  else freshJack

/-- A layout gives some channel a role. -/
def Layout.hasRole (l : Layout) (r : Role) : Bool := allChans.any fun n => l.roles[n] == r

/-- The axis records under a new layout (R59, R92, R103). -/
def State.newAxes (s : State) (old : Layout) : State :=
  { s with
    rooms := Vector.ofFn fun k => s.newSlider (.room k) (old.hasRole (.room k .a))
    awning := s.newSlider .awning (old.hasRole .awning)
    jacks := Vector.ofFn fun j => s.newJack j (old.hasRole (.jack j))
    jackSet := { s.jackSet with levelMark := false }
    level := freshLevel
    tilt := if s.jackCount = 0 then freshTilt else s.tilt }

/-- The wind record under a new layout (R106, R38). -/
def State.newWind (s : State) (old : Layout) : State :=
  if s.layout.wind.present then
    if old.wind.present then
      let w := { s.wind with counter := 0, ring := [] }
      match w.state with
      | .rising => s.setWind (w.settledIn .calm)
      | .easing => s.setWind (w.holding .easing s.calmDeadline)
      | _ => s.setWind w
    else s.setWind (freshWind true)
  else s.setWind (freshWind false)

/-- The check of R107 left from an entry into GUSTY during the write (R107, log 22). -/
def State.gustAfterWrite (s : State) : State :=
  let s1 := s.setWind { s.wind with gustMissed := false }
  if s.wind.gustMissed && decide (s.wind.state = .gusty) then s1.gustCheck else s1

/-- The written image becomes the layout in force and takes effect on every block (R182). The alarm is evaluated with the
axes that are configured now (R125). -/
def State.takeLayout (s : State) (m : Image) : State :=
  let old := s.layout
  let s1 := { s with layout := Layout.ofImage m, stored := .record m, write := none }
  let s2 := (s1.restartCensus.newInputs old).newAxes old
  let s3 := ({ s2 with plan := freshPlan }.newWind old).raise .layout
  s3.evalAlarm.gustAfterWrite

/-- How long the store write begun at a moment takes: its free length, at most 400 ms (R181, log 9). -/
def writeLength (start : Time) : Time := min (Config.storeWriteTime start) (ms 400)

end Sys2Proof.Machine
end

