-- ==== Sys2Proof/Machine/Records.lean ====
section
/-! DEFINITION. The bytes of STATUS_REPLY and of the axis records (R60, R93, R103, R109, R146, R158, R168, R185, sections
11.1 and 11.2). -/

namespace Sys2Proof.Machine

/-! ### Codes (section 11.1) -/

/-- The code of an outcome; none is 0. -/
def MotionOutcome.code : MotionOutcome → Nat
  | .endReached => 1
  | .homeReached => 2
  | .stabilised => 3
  | .levelled => 4
  | .limited => 5
  | .released => 6
  | .holdLapsed => 7
  | .stopped => 8
  | .road => 9
  | .interlock => 10
  | .preempted => 11
  | .supplyLow => 12
  | .tooSteep => 13
  | .fault => 14

/-- The code of a fault; none is 0. -/
def FaultCode.code : FaultCode → Nat
  | .obstructed => 1
  | .overcurrent => 2
  | .racked => 3
  | .unseated => 4
  | .mismatch => 5
  | .overtravel => 6
  | .runTimeout => 7
  | .pulseNoise => 8
  | .passTimeout => 9

/-- The code of a room or awning state. -/
def AxisState.code : AxisState → Nat
  | .closed => 0
  | .opening => 1
  | .opened => 2
  | .closing => 3
  | .midway => 4
  | .unknown => 5

/-- The code of a jack set state. -/
def JackSetState.code : JackSetState → Nat
  | .stowed => 0
  | .deployed => 1
  | .stabilised => 2
  | .levelled => 3
  | .faulted => 4

/-- The code of a wind state. -/
def WindState.code : WindState → Nat
  | .unwatched => 0
  | .calm => 1
  | .rising => 2
  | .gusty => 3
  | .easing => 4

/-- The code of a plan status. -/
def PlanStatus.code : PlanStatus → Nat
  | .none => 0
  | .running => 1
  | .done => 2
  | .failed => 3
  | .preempted => 4
  | .stopped => 5

/-- The code of a census state. -/
def CensusState.code : CensusState → Nat
  | .absent => 0
  | .unused => 1
  | .empty => 2
  | .loose => 3
  | .seated => 4
  | .mismatch => 5

/-- The code of a drive state. -/
def DriveState.code : DriveState → Nat
  | .off => 0
  | .stopping => 1
  | .dwelling => 2
  | .ramping => 3
  | .atSpeed => 4

/-- The code of a kind (R1). -/
def Kind.code : Kind → Nat
  | .slideMotor => 0
  | .jackValve => 1
  | .pumpMotor => 2
  | .awningMotor => 3

/-- The code of a band: A = 0 to D = 3 (section 11.2). -/
def Band.code : Band → Nat
  | .a => 0
  | .b => 1
  | .c => 2
  | .d => 3

/-- The number of a mode, in the order of its field (R185). -/
def Mode.code : Mode → Nat
  | .hold => 0
  | .auto => 1

/-- The number of an entry state, in the order of its field (R185). -/
def EntryState.code : EntryState → Nat
  | .running => 0
  | .paused => 1
  | .waiting => 2

/-- The number of a motor phase, in the order of its field (R185). -/
def MotorPhase.code : MotorPhase → Nat
  | .idle => 0
  | .travel => 1
  | .seat => 2
  | .finished => 3

/-- The number of a jack state, in the order of its field (R185). -/
def JackState.code : JackState → Nat
  | .retracted => 0
  | .extending => 1
  | .retracting => 2
  | .down => 3
  | .contact => 4
  | .lifted => 5

/-- The number of a jack motion phase, in the order of its field (R185). -/
def JackPhase.code : JackPhase → Nat
  | .idle => 0
  | .active => 1
  | .done => 2

/-- The number of a level run status, in the order of its field (R185). -/
def LevelStatus.code : LevelStatus → Nat
  | .none => 0
  | .active => 1
  | .ended => 2

/-- The number of a level run phase, in the order of its field (R185). -/
def LevelPhase.code : LevelPhase → Nat
  | .contact => 0
  | .settle => 1
  | .lift => 2

/-- The code of a plan; none is 0. -/
def PlanName.code : PlanName → Nat
  | .setup => 1
  | .stow => 2

/-- The code of the road state (section 11.2). -/
def Road.code : Road → Nat
  | .none => 0
  | .parked => 1
  | .road => 2

/-! ### Fields (R185) -/

/-- The code of an optional field, 0 when it is absent. -/
def codeOr {α : Type} (f : α → Nat) (x : Option α) : Byte :=
  match x with
  | some v => byteOf (f v)
  | none => 0

/-- A two-byte value that may be absent: its presence byte and its value, 0 when absent. -/
def optional (x : Option Nat) : List Byte :=
  match x with
  | some v => 1 :: twoBytes v
  | none => [0, 0, 0]

/-- A signed two-byte value in two's complement. -/
def signedBytes (a : Int) : List Byte := twoBytes (unsigned16 a)

/-- A time in 0.1 s, in two bytes, saturating. -/
def tenths (t : Time) : List Byte := twoBytes (min 65535 (t / ms 100))

/-- The time that remains until a deadline, in whole units (log 25), with its presence byte, saturating. -/
def State.remaining (s : State) (unit : Time) (d : Option Time) : List Byte :=
  optional (d.map fun t => min 65535 ((t - s.now) / unit))

/-- A list with its count byte before it. -/
def counted {α : Type} (f : α → List Byte) (l : List α) : List Byte := byteOf l.length :: (l.map f).flatten

/-- A set of numbered things as one byte: bit i for the thing at place i. -/
def setByte (l : List Bool) : Byte :=
  byteOf ((l.mapIdx fun i b => if b then 2 ^ i else 0).sum)

/-! ### Channel and pace watch records (R20, R37, section 11.2) -/

/-- A channel record: 7 bytes. -/
def State.channelBytes (s : State) (n : Chan) : List Byte :=
  let c := s.chan n
  [byteOf c.census.code, byteOf c.kindRead.code, byteOf c.drive.code,
    flagByte (c.dir == .outward), byteOf c.outputDuty] ++ twoBytes c.scaled

/-- A ring: its fill and eight positions, oldest first. -/
def ringBytes (ring : List Nat) : List Byte :=
  byteOf ring.length :: ((ring ++ List.replicate (8 - ring.length) 0).map twoBytes).flatten

/-- A pace watch record: 28 bytes. -/
def State.paceBytes (s : State) (n : Chan) : List Byte :=
  let r := s.paceRec n
  twoBytes r.counter ++ ringBytes r.ring ++ optional (s.pace? n) ++ twoBytes (s.maskLimit n) ++
    twoBytes (s.stallLimit n) ++ [byteOf r.tally, flagByte r.stallRaised]

/-- The channel and pace watch records of the channel that has a role. Of an ABSENT channel the pace watch keeps no record
(section 2.3); by the model's choice its 28 bytes are sent all the same, as a cleared record with the limits computed from
it (log 52). -/
def State.sensedBytes (s : State) (r : Role) : List Byte :=
  match s.roleChan r with
  | some n => s.channelBytes n ++ s.paceBytes n
  | none => []

/-! ### Axis records -/

/-- The count of a motor, with its presence byte. -/
def countBytes (x : MotorRec) : List Byte := optional x.count

/-- The record of a room (R60). A one-motor room's motor B fields read 0 (R185). -/
def State.roomBytes (s : State) (k : RoomId) : List Byte :=
  let r := s.rooms[k]
  let rb := if s.twoMotors (.room k) then r.motorB else freshMotor
  [byteOf r.state.code, flagByte (s.positionKnown (.room k))] ++ countBytes r.motorA ++ countBytes rb ++
    [byteOf r.motorA.phase.code, byteOf rb.phase.code, codeOr FaultCode.code r.fault,
      codeOr MotionOutcome.code r.lastOutcome] ++ tenths r.runTime ++
    [byteOf r.motorA.tally, byteOf rb.tally] ++ s.sensedBytes (.room k .a) ++ s.sensedBytes (.room k .b)

/-- The record of a jack, of its valve and of the pump (R93). -/
def State.jackBytes (s : State) (j : JackId) : List Byte :=
  let r := s.jack j
  let chanOf := fun (role : Role) => match s.roleChan role with
    | some n => s.channelBytes n
    | none => List.replicate 7 0
  let paceOf := match s.roleChan (.jack j) with
    | some n => s.paceBytes n
    | none => List.replicate 28 0
  [byteOf (s.jackState j).code] ++ optional r.count ++ [flagByte r.contact, byteOf r.lossRun, flagByte r.liftOff] ++
    twoBytes r.pressure ++
    [flagByte r.atStroke, codeOr FaultCode.code r.fault, byteOf r.phase.code, byteOf r.dir.code,
      byteOf s.jackSetState.code, codeOr MotionOutcome.code s.jackSet.lastOutcome] ++
    chanOf (.jack j) ++ chanOf .pump ++ paceOf

/-- The record of the awning (R103). -/
def State.awningBytes (s : State) : List Byte :=
  let r := s.sliderRead .awning
  [byteOf r.state.code, flagByte (s.positionKnown .awning)] ++ countBytes r.motorA ++ [byteOf r.motorA.phase.code] ++
    s.remaining (ms 1) r.motorA.seatDeadline ++
    [codeOr FaultCode.code r.fault, codeOr MotionOutcome.code r.lastOutcome] ++ tenths r.runTime ++
    [byteOf r.motorA.tally] ++ s.sensedBytes .awning

/-- The wind record and the wind pace (R109, R40). -/
def State.windBytes (s : State) : List Byte :=
  let w := s.wind
  [byteOf w.state.code] ++ twoBytes w.speed ++ tenths w.timer ++ s.remaining (ms 100) w.deadline ++
    twoBytes s.layout.wind.gust ++ twoBytes s.layout.wind.calm ++ twoBytes w.counter ++ ringBytes w.ring ++
    optional (windPace w)

/-- An action: its code and its jack number, 0 when it names no jack (R185). -/
def actionBytes : Action → List Byte
  | .jack j d => [byteOf d.code, byteOf (j.val + 1)]
  | a => [byteOf a.code, 0]

/-- The fields of an entry that both lists send (R146). -/
def entryBytes (e : Entry) : List Byte :=
  [byteOf (groupCode e.group), byteOf e.owner.code, byteOf e.mode.code] ++ actionBytes e.action ++ [byteOf e.units]

/-- A pause list entry, with its state and the time it has stood in the list (R146). -/
def State.pausedBytes (s : State) (e : Entry) : List Byte :=
  entryBytes e ++ [byteOf e.state.code] ++ tenths (s.now - e.pausedSince.getD s.now)

/-- The supply record and both lists (R146). -/
def State.supplyBytes (s : State) : List Byte :=
  [byteOf s.supply.samples.length] ++ optional s.supply.mean ++
    [byteOf s.supply.band.code, byteOf s.budget, byteOf s.heldUnits] ++
    counted entryBytes s.load ++ counted s.pausedBytes s.paused

/-- The level run record with the present pitch and roll (R93). -/
def State.levelBytes (s : State) : List Byte :=
  let l := s.level
  [byteOf l.status.code, byteOf l.phase.code, byteOf l.pass, byteOf l.returns] ++ tenths l.phaseTime ++
    signedBytes l.pitch ++ signedBytes l.roll ++
    (allJacks.map fun j => if s.jackConfigured j then optional l.targets[j] else [0, 0, 0]).flatten ++
    (allJacks.map fun j => if s.jackConfigured j then twoBytes l.progress[j] else [0, 0]).flatten ++
    [setByte l.selected.toList, flagByte l.limited, codeOr MotionOutcome.code l.outcome] ++
    signedBytes s.tilt.pitch ++ signedBytes s.tilt.roll

/-- A step slot: its group, ACTIVE = 0 or SUCCEEDED = 1, and its outcome (R158, R185). -/
def slotBytes (x : Slot) : List Byte :=
  [byteOf (groupCode x.group), flagByte x.outcome.isSome, codeOr MotionOutcome.code x.outcome]

/-- The failure of a plan: its presence byte and its parts (R158, R185). -/
def failureBytes : Option PlanFailure → List Byte
  | some f =>
    [1, byteOf f.step, byteOf (groupCode f.group), codeOr Reason.code f.reason, codeOr Cause.code f.cause,
      codeOr MotionOutcome.code f.outcome, codeOr FaultCode.code f.fault]
  | none => List.replicate 7 0

/-- The plan record (R158). -/
def State.planBytes (s : State) : List Byte :=
  let p := s.plan
  [byteOf p.status.code, codeOr PlanName.code p.name, codeOr PlanOwner.code p.owner, byteOf p.stepCount,
    byteOf p.stepIndex, setByte p.reserved.toList] ++ counted slotBytes p.slots ++ [flagByte p.limited] ++
    failureBytes p.failure

/-- The record of an axis, none when the axis is not configured (R169). -/
def State.axisBytes (s : State) : Axis → Option (List Byte)
  | .room k => if s.configured (.room k) then some (s.roomBytes k) else none
  | .jack j => if s.jackConfigured j then some (s.jackBytes j) else none
  | .awning => if s.configured .awning then some s.awningBytes else none
  | .wind => some s.windBytes
  | .supply => some s.supplyBytes
  | .level => if s.configured .jacks then some s.levelBytes else none
  | .plan => some s.planBytes

/-- READ_AXIS (R169). -/
def State.readAxis (s : State) (number : Byte) (a : Axis) : Answer :=
  match s.axisBytes a with
  | some l => .axis number l
  | none => refusal .notConfigured

/-! ### STATUS_REPLY (R168) -/

/-- The availability of a group: 0 available, 1 UNAVAILABLE, 2 NOT_CONFIGURED. -/
def State.availability (s : State) (g : Group) : Nat :=
  if s.configured g then if s.unavailable g then 1 else 0 else 2

/-- The code of a group's state. -/
def State.groupStateCode (s : State) : Group → Nat
  | .room k => (s.rooms[k]).state.code
  | .jacks => s.jackSetState.code
  | .awning => (s.sliderState .awning).code

/-- A claim as a byte: bits 0 to 2 the owner, bit 3 for AUTO, bit 4 the ended flag; free is 0 (section 11.2). -/
def claimByte : Option Claim → Byte
  | some c => byteOf (c.owner.code + (if c.mode = .auto then 8 else 0) + (if c.ended then 16 else 0))
  | none => 0

/-- The three bytes of a group in STATUS_REPLY. -/
def State.groupBytes (s : State) (g : Group) : List Byte :=
  [byteOf (s.availability g), byteOf (s.groupStateCode g), claimByte (s.claim g)]

/-- The bytes of STATUS_REPLY after the request kind. -/
def State.statusBytes (s : State) (p : Port) : List Byte :=
  [byteOf s.straps.variant.toNat, byteOf s.road.code, flagByte s.alarm, byteOf s.supply.band.code, byteOf s.budget,
    byteOf s.heldUnits] ++ (allGroups.map s.groupBytes).flatten ++
    [byteOf s.wind.state.code, byteOf s.plan.status.code] ++ twoBytes (s.port p).pending.toNat ++
    [byteOf (s.port p).linkErrors]

end Sys2Proof.Machine
end

