-- ==== Sys2Proof/Machine/PortLink.lean ====
section
/-! DEFINITION. The master ports (chapter 9): discarded frames, taking a request, the reply queue, the assembly of a
frame. -/

namespace Sys2Proof.Machine

/-! ### Replies (R165, R170, section 11.2) -/

/-- The sum of bytes as numbers. -/
def sumBytes (l : List Byte) : Nat := (l.map BitVec.toNat).sum

/-- The check byte that brings the sum of a frame to 0 modulo 256 (R162). -/
def checkByte (l : List Byte) : Byte := byteOf (256 - sumBytes l % 256)

/-- A frame: its kind, its bytes and its check. -/
def frameOf (kind : Byte) (l : List Byte) : List Byte := (kind :: l) ++ [checkByte (kind :: l)]

/-- The flags of ACCEPTED: bit 0 renewed, bit 1 paused, bit 2 ended. -/
def acceptedFlags (renewed held done : Bool) : Byte :=
  byteOf ((if renewed then 1 else 0) + (if held then 2 else 0) + (if done then 4 else 0))

/-- The reply frame of an answer to a request of a kind (R170, section 11.2). -/
def replyFrame (k : RequestKind) : Answer → List Byte
  | .accepted renewed held done => frameOf 0x80 [k.code, acceptedFlags renewed held done]
  | .refused r d1 d2 => frameOf 0x81 [k.code, byteOf r.code, byteOf d1, byteOf d2]
  | .status l => frameOf 0x82 (k.code :: l)
  | .axis n l => frameOf 0x83 ([k.code, n, byteOf l.length] ++ l)
  | .segment n l => frameOf 0x84 ([k.code, byteOf n] ++ l)

/-- A reply takes its place at the tail of the queue; at the head it begins to be sent (R164, R165). -/
def State.queueReply (s : State) (p : Port) (f : List Byte) : State :=
  let r := s.port p
  s.setPort p { r with replies := r.replies ++ [f], headSince := if r.replies.isEmpty then some s.now else r.headSince }

/-! ### Discards (R163) -/

/-- A discarded frame: the link error count rises, saturating at 255, and notice LINK is raised. -/
def State.discardFrame (s : State) (p : Port) : State :=
  let r := s.port p
  (s.setPort p { r with linkErrors := min 255 (r.linkErrors + 1) }).raise .link

/-! ### Requests (R164 to R167) -/

/-- ACK (R173). -/
def State.ackClasses (s : State) (p : Port) (c : Classes) : State :=
  s.setPort p { s.port p with pending := (s.port p).pending &&& ~~~c }

/-- ROUTE (R174). -/
def State.routeClasses (s : State) (p : Port) (c : Classes) : State :=
  s.setPort p { s.port p with routeMask := c }

/-- The block that a request goes to decides it (R167). -/
def State.decideRequest (s : State) (p : Port) : Request → State × Answer
  | .move g d => s.motionRequest p .hold g (.toward d)
  | .auto g a => s.motionRequest p .auto g a
  | .moveJack j d => s.motionRequest p .hold .jacks (.jack j d)
  | .release g => s.releaseGroup p g
  | .stop => s.stopEverything
  | .clearFault g => s.clearFault g
  | .runPlan n => s.runPlan p n
  | .status => (s, .status (s.statusBytes p))
  | .readAxis n a => (s, s.readAxis n a)
  | .ack c => (s.ackClasses p c, .plain)
  | .route c => (s.routeClasses p c, .plain)
  | .layoutLoad n data => s.loadSegment n data
  | .layoutRead n => (s, s.readSegment n)
  | .layoutCommit => s.commit

/-- A valid request is taken (R164): discarded when the reply queue holds 4 frames, refused BAD_REQUEST when a field is
out of range, else decided; its reply goes to the tail of the queue. -/
def State.takeRequest (s : State) (p : Port) (k : RequestKind) (r : Option Request) : State :=
  if 4 ≤ (s.port p).replies.length then s.discardFrame p
  else
    match r with
    | none => s.queueReply p (replyFrame k (refusal .badRequest))
    | some q =>
      let w := s.decideRequest p q
      w.1.queueReply p (replyFrame k w.2)

/-! ### Characters (R159 to R162) -/

/-- Set the partial frame of a port. -/
def State.setFrame (s : State) (p : Port) (f : Option PartialFrame) : State :=
  s.setPort p { s.port p with frame := f }

/-- A complete frame is checked and, when its bytes sum to 0, taken (R162). -/
def State.checkFrame (s : State) (p : Port) (k : RequestKind) (bytes : List Byte) : State :=
  if sumBytes bytes % 256 = 0 then s.takeRequest p k (requestOfFields k (bytes.drop 1).dropLast) else s.discardFrame p

/-- A marked character: any partial frame is abandoned; a request kind code begins a new one (R160). -/
def State.markedCharacter (s : State) (p : Port) (b : Byte) : State :=
  let s1 := if (s.port p).frame.isSome then s.discardFrame p else s
  match kindOfByte b with
  | some _ => s1.setFrame p (some { bytes := [b], first := s.now })
  | none => (s1.setFrame p none).discardFrame p

/-- An unmarked character: added to the partial frame, which is checked when it reaches its length; dropped in IDLE
(R160). -/
def State.unmarkedCharacter (s : State) (p : Port) (b : Byte) : State :=
  match (s.port p).frame with
  | none => s
  | some f =>
    let bytes := f.bytes ++ [b]
    match kindOfByte (fieldByte f.bytes 0) with
    | none => s.setFrame p none
    | some k =>
      if bytes.length < k.length then s.setFrame p (some { f with bytes := bytes })
      else (s.setFrame p none).checkFrame p k bytes

/-- A character arrives (R159, R160). -/
def State.character (s : State) (p : Port) (b : Byte) (mark stopHigh : Bool) : State :=
  if stopHigh = false then (s.setFrame p none).discardFrame p
  else if mark then s.markedCharacter p b
  else s.unmarkedCharacter p b

/-- The moment at which a partial frame is discarded (R161). -/
def PartialFrame.expiry (f : PartialFrame) : Time := f.first + ms 20

/-- The 20 ms of a partial frame run out (R161). -/
def State.frameExpired (s : State) (p : Port) : State :=
  match (s.port p).frame with
  | none => s
  | some f => if s.comes f.expiry then ((s.advanceTo f.expiry).setFrame p none).discardFrame p else s

/-! ### The frames of the requests (section 11.2) -/

/-- The port of a request, its kind, and the bytes of its fields as its frame carries them; none for a command that is
no request. -/
def requestOf : Instr → Option (Port × RequestKind × List Byte)
  | .move p group dir => some (p, .move, [group, dir])
  | .auto p group action => some (p, .auto, [group, action])
  | .moveJack p jack dir => some (p, .moveJack, [jack, dir])
  | .release p group => some (p, .release, [group])
  | .stop p => some (p, .stop, [])
  | .clearFault p group => some (p, .clearFault, [group])
  | .runPlan p plan => some (p, .runPlan, [plan])
  | .status p => some (p, .status, [])
  | .readAxis p axis => some (p, .readAxis, [axis])
  | .ack p classes => some (p, .ack, twoBytes classes.toNat)
  | .route p classes => some (p, .route, twoBytes classes.toNat)
  | .layoutLoad p segment data => some (p, .layoutLoad, segment :: data.toList)
  | .layoutRead p segment => some (p, .layoutRead, [segment])
  | .layoutCommit p => some (p, .layoutCommit, [])
  | _ => none

/-- The characters that carry a frame to a port, as commands: the first is marked (section 9.2). -/
def charactersOf (p : Port) : List Byte → List Instr
  | [] => []
  | b :: rest => .linkCharacter p b true true :: rest.map fun c => .linkCharacter p c false true

/-! ### Sending (R159, R165) -/

/-- The time that a number of characters of 11 bits take, rounded up to a whole step (R159, log 29). -/
def sendTime (fast : Bool) (count : Nat) : Time :=
  let d := if fast then 36 else 12
  (count * 275 + d - 1) / d

/-- The moment at which the head reply has been sent. -/
def State.replyDue (s : State) (p : Port) : Option Time :=
  match (s.port p).replies, (s.port p).headSince with
  | f :: _, some t => some (t + sendTime s.straps.rate f.length)
  | _, _ => none

/-- The last character of the head reply has been sent: it leaves the queue and the next begins (R165). -/
def State.replySent (s : State) (p : Port) : State :=
  match s.replyDue p with
  | none => s
  | some t =>
    if s.comes t then
      let s1 := s.advanceTo t
      let r := s1.port p
      s1.setPort p
        { r with replies := r.replies.drop 1, headSince := if (r.replies.drop 1).isEmpty then none else some s1.now }
    else s

/-- The eleven bits of a character on the line: the start bit, low; eight data bits, least significant first; the mark
bit; the stop bit, high (R159). -/
def characterBits (b : Byte) (mark : Bool) : List Bool :=
  [false, b.getLsbD 0, b.getLsbD 1, b.getLsbD 2, b.getLsbD 3, b.getLsbD 4, b.getLsbD 5, b.getLsbD 6, b.getLsbD 7, mark,
    true]

/-- The bits of a frame on the line: its first character is marked (R165). -/
def frameBits : List Byte → List Bool
  | [] => []
  | b :: rest => characterBits b true ++ (rest.map fun c => characterBits c false).flatten

/-- How many whole bits have been sent a time after the first began, and a phase of the step in progress in 256ths: 36/25
of a bit a step at 57 600 bit/s, 12/25 at 19 200 (R159). -/
def bitsSent (fast : Bool) (t : Time) (phase : Nat) : Nat := (256 * t + phase) * (if fast then 36 else 12) / 6400

/-- TXDp at a phase of the present step: the bit of the head reply being sent, and high while the line rests idle (R159,
R165, R175). -/
def State.txOut (s : State) (p : Port) (phase : Nat) : Bool :=
  match (s.port p).replies, (s.port p).headSince with
  | f :: _, some t => (frameBits f).getD (bitsSent s.straps.rate (s.now - t) phase) true
  | _, _ => true

end Sys2Proof.Machine
end

