-- ==== Sys2Proof/Machine/Inputs.lean ====
section
/-! DEFINITION. The events of the input lines (chapter 2): first accepted levels, home switches, PARK and IGN. -/

namespace Sys2Proof.Machine

/-- HOMn of the channel is conditioned: present, with a role, and not the pump's (R21). -/
def State.hasHome (s : State) (n : Chan) : Bool := s.needsReads n && s.role n != .pump

/-- A discrete line is conditioned (R21). -/
def State.conditioned (s : State) : Line → Bool
  | .hom n => s.hasHome n
  | .sea n => s.needsReads n
  | .seb n => s.needsReads n
  | .knd1 n => s.needsReads n
  | .knd0 n => s.needsReads n
  | .park => true
  | .ign => true

/-- The record of a discrete line. -/
def State.line (s : State) : Line → DiscreteLine
  | .hom n => (s.lines[n]).hom
  | .sea n => (s.lines[n]).sea
  | .seb n => (s.lines[n]).seb
  | .knd1 n => (s.lines[n]).knd1
  | .knd0 n => (s.lines[n]).knd0
  | .park => s.park
  | .ign => s.ign

/-- Replace the lines of a channel. -/
def State.setLines (s : State) (n : Chan) (l : ChannelLines) : State := { s with lines := s.lines.set n l }

/-- Replace the record of a discrete line. -/
def State.setLine (s : State) (x : DiscreteLine) : Line → State
  | .hom n => s.setLines n { s.lines[n] with hom := x }
  | .sea n => s.setLines n { s.lines[n] with sea := x }
  | .seb n => s.setLines n { s.lines[n] with seb := x }
  | .knd1 n => s.setLines n { s.lines[n] with knd1 := x }
  | .knd0 n => s.setLines n { s.lines[n] with knd0 := x }
  | .park => { s with park := x }
  | .ign => { s with ign := x }

/-- A discrete line takes an accepted level. -/
def State.accept (s : State) (l : Line) (level : Bool) : State :=
  s.setLine { s.line l with accepted := some level } l

/-- An event of a home switch goes to the controller of the axis (R22, R42, R43, R65, R96). -/
def State.homeEvent (s : State) (n : Chan) (closed : Bool) : Work :=
  match s.role n, closed with
  | .room k m, true => s.slideHomeClosed (.room k) m
  | .room k _, false => (s.slideHomeOpened (.room k), [])
  | .awning, true => s.slideHomeClosed .awning .a
  | .awning, false => (s.slideHomeOpened .awning, [])
  | .jack j, true => s.jackHomeClosed j
  | .jack _, false => (s, [])
  | .pump, _ => (s, [])
  | .none, _ => (s, [])

/-- A home switch of a present channel changes its accepted level (R22). -/
def State.homeChanged (s : State) (n : Chan) (closed : Bool) : State :=
  if s.hasHome n then s.event fun t => (t.accept (.hom n) closed).homeEvent n closed else s

/-- The home switch of the channel that has a role changes its accepted level. -/
def State.homeOf (s : State) (r : Role) (closed : Bool) : State :=
  match s.roleChan r with
  | some n => s.homeChanged n closed
  | none => s

/-- One line takes its first accepted level; a home switch hands its initial reading over (R23). -/
def State.firstLevel (w : Work) (x : Line × Bool) : Work :=
  let s := w.1
  if s.conditioned x.1 && (s.line x.1).accepted.isNone then
    let s1 := s.accept x.1 x.2
    match x.1 with
    | .hom n =>
      let v := s1.homeEvent n x.2
      (v.1, w.2 ++ v.2)
    | _ => (s1, w.2)
  else w

/-- The line is a home switch. -/
def isHomeLine : Line → Bool
  | .hom _ => true
  | _ => false

/-- The first accepted levels of one sample are handed over: the home switches before the others, then the alarm is
evaluated when PARK is among them (R23, R123, log 32). -/
def State.initialLevels (s : State) (l : List (Line × Bool)) : State :=
  let homes := l.filter fun x => isHomeLine x.1
  let others := l.filter fun x => !isHomeLine x.1
  s.event fun t =>
    let w := (homes ++ others).foldl State.firstLevel (t, [])
    if t.park.accepted.isNone && w.1.park.accepted.isSome then (w.1.evalAlarm, w.2) else w

/-- The accepted level of PARK goes high: PARKED (R123, R124). -/
def State.parkHigh (s : State) : State := (s.accept .park true).evalAlarm

/-- The accepted level of PARK goes low: ROAD (R123, R124). -/
def State.parkLow (s : State) : State := (s.accept .park false).roadBegins

/-- The accepted level of IGN rises (R126). -/
def State.ignHigh (s : State) : State := (s.accept .ign true).ignitionRise

end Sys2Proof.Machine
end

