-- ==== Sys2Proof/Machine/Timed.lean ====
section
/-! DEFINITION. The events that the part's own time brings: ends of stops and dwells, ramp steps, deadlines, run times,
phases, patterns. Each takes place at its own moment: the clock moves on to it (log 3). -/

namespace Sys2Proof.Machine

/-! ### Channels (R11, R13, R14) -/

/-- The moment at which a STOPPING channel's 50 ms end (R13). -/
def Channel.stoppingDue (c : Channel) : Option Time :=
  if c.drive = .stopping then c.lastStop.map fun l => l.time + coastTime else none

/-- The 50 ms of a STOPPING channel end: OFF (R13). -/
def State.stoppingEnd (s : State) (n : Chan) : State :=
  match (s.chan n).stoppingDue with
  | some t =>
    if s.comes t then
      let s1 := s.advanceTo t
      s1.setChan n { s1.chan n with drive := .off }
    else s
  | none => s

/-- The moment at which a DWELLING channel's reversal dwell ends (R14). -/
def State.dwellDue (s : State) (n : Chan) : Option Time :=
  if (s.chan n).drive = .dwelling then (s.chan n).lastStop.map fun l => l.time + s.dwellTime else none

/-- What the controller of a channel does at a drive start that ends a dwell (R46, R49, R50, R51, R68, R101). -/
def State.startedLate (s : State) (n : Chan) : Work :=
  match s.role n with
  | .room k m =>
    let w := s.motorStarted (.room k) m
    (w.1.retrim (.room k), w.2)
  | .awning => s.motorStarted .awning .a
  | .jack _ => (s.pumpFollow, [])
  | .pump => (s, [])
  | .none => (s, [])

/-- The reversal dwell of a channel ends: the drive start takes place when the channel is still SEATED in a RUNNING
motion (R14). -/
def State.dwellEnd (s : State) (n : Chan) : State :=
  match s.dwellDue n with
  | some t =>
    if s.comes t then
      let s1 := s.advanceTo t
      if s1.mayDrive n then s1.event fun u => (u.driveStart n (u.chan n).dir).startedLate n else s1
    else s
  | none => s

/-- The moment of a ramping channel's next ramp step: 10 ms after the last, or after the drive start (R11). -/
def Channel.rampDue (c : Channel) : Option Time :=
  if c.drive = .ramping then c.driveStart.map fun t => t + ms (10 * (c.rampCount + 1)) else none

/-- A channel record after a ramp step (R11). -/
def Channel.ramp (c : Channel) (q : KindParams) : Channel :=
  let d := min q.runDuty (c.ramped + q.rampStep)
  { c with ramped := d, rampCount := c.rampCount + 1, drive := if q.runDuty ≤ d then .atSpeed else .ramping }

/-- The trims of the room that a channel belongs to are set anew (R51). -/
def State.retrimOf (s : State) (n : Chan) : State :=
  match s.role n with
  | .room k _ => s.retrim (.room k)
  | _ => s

/-- A ramp step of a channel (R11); a trimmed room follows it (R51). -/
def State.rampStep (s : State) (n : Chan) : State :=
  match (s.chan n).rampDue with
  | some t =>
    if s.comes t then
      let s1 := s.advanceTo t
      (s1.setChan n ((s1.chan n).ramp (s1.kindParams n))).retrimOf n
    else s
  | none => s

/-! ### Rooms and the awning (R45, R46, R97, R98) -/

/-- The seat deadline of a motor that is in SEAT. -/
def State.seatDue (s : State) (id : Slider) (m : Motor) : Option Time :=
  if (s.motor id m).phase = .seat then (s.motor id m).seatDeadline else none

/-- A seat deadline is reached (R46, R98). -/
def State.seatReached (s : State) (id : Slider) (m : Motor) : State :=
  match s.seatDue id m with
  | some t => if s.comes t then (s.advanceTo t).event fun u => u.seatDone id m else s
  | none => s

/-- The run timeout of a room's or the awning's motion is reached (R45, R97); it ends a motion that a band fall of the same
moment has shed too (R144). -/
def State.slideTimeout (s : State) (id : Slider) : State :=
  if s.timesOut id.group (s.slider id).runTime (s.sliderTimeout id) then
    drain workBound (s.advanceRun (s.slider id).runTime (s.sliderTimeout id), slideFault id .runTimeout)
  else s

/-! ### Jacks (R77, R84, R85, R87) -/

/-- The ACTIVE jacks of the jack motion. -/
def State.activeJacks (s : State) : List JackId :=
  match s.jackMotion with
  | some e => (s.jacksOf e.action).filter fun j => (s.jack j).phase == .active
  | none => []

/-- A fault in every ACTIVE jack of the motion, which it ends (R77, R84, R87). -/
def State.activeFault (s : State) (f : FaultCode) : Work :=
  (s, jackEnding { outcome := .fault, fault := some f, jacks := s.activeJacks })

/-- The jack run timeout of a motion other than a level run is reached (R77, R144). -/
def State.jackRunOut (s : State) : State :=
  if !s.levelActive && s.timesOut .jacks s.jackSet.runTime s.jackTimeout then
    drain workBound ((s.advanceRun s.jackSet.runTime s.jackTimeout).activeFault .runTimeout)
  else s

/-- What a level run does in a phase when the phase time reaches its limit. -/
def State.atPhaseLimit (s : State) (p : LevelPhase) (taken : Bool) (f : State → Work) : State :=
  if s.levelActive && s.level.phase == p && taken then (s.advanceRun s.level.phaseTime s.phaseLimit).event f else s

/-- The timeout of the present phase of the level run is taken (R84, R87, R144). -/
def State.phaseTimesOut (s : State) : Bool := s.timesOut .jacks s.level.phaseTime s.phaseLimit

/-- The phase time of CONTACT reaches the jack run timeout (R84). -/
def State.contactPhaseOut (s : State) : State := s.atPhaseLimit .contact s.phaseTimesOut fun t => t.activeFault .runTimeout

/-- The settle time ends (R85). Of a run shed before it, it finds nothing to do: SETTLE begins anew when the run resumes (R88,
log 46). -/
def State.settleDone (s : State) : State :=
  s.atPhaseLimit .settle (s.running .jacks && s.mayReach s.level.phaseTime s.phaseLimit) fun t => t.settleDecide

/-- The phase time of LIFT reaches the pass timeout (R87). -/
def State.passOut (s : State) : State := s.atPhaseLimit .lift s.phaseTimesOut fun t => t.activeFault .passTimeout

/-! ### Claims, lists, wind (R105, R118, R143) -/

/-- The hold deadline of a HOLD claim. -/
def State.holdDue (s : State) (g : Group) : Option Time :=
  match s.claim g with
  | some c => if c.mode = .hold then c.deadline else none
  | none => none

/-- A hold deadline is reached (R118). -/
def State.holdReached (s : State) (g : Group) : State :=
  match s.holdDue g with
  | some t => if s.comes t then (s.advanceTo t).holdLapse g else s
  | none => s

/-- The pause limit of the layout (R143). -/
def State.pauseTime (s : State) : Time := seconds s.layout.pauseLimit

/-- The moment at which an AUTO entry of the pause list reaches the pause limit (R143). -/
def State.pauseDue (s : State) (g : Group) : Option Time :=
  match s.paused.find? fun e => e.group == g with
  | some e => if e.mode = .auto then e.pausedSince.map fun t => t + s.pauseTime else none
  | none => none

/-- The pause limit of an entry is reached (R143). -/
def State.pauseReached (s : State) (g : Group) : State :=
  match s.pauseDue g with
  | some t => if s.comes t then drain workBound (s.advanceTo t, [.endMotion g { outcome := .supplyLow }]) else s
  | none => s

/-- The hold deadline of a wind state. -/
def State.windDue (s : State) (st : WindState) : Option Time :=
  if s.wind.state = st then s.wind.deadline else none

/-- The gust hold is reached (R105). -/
def State.gustHold (s : State) : State :=
  match s.windDue .rising with
  | some t => if s.comes t then (s.advanceTo t).gustReached else s
  | none => s

/-- The calm hold is reached (R105). -/
def State.calmHold (s : State) : State :=
  match s.windDue .easing with
  | some t => if s.comes t then (s.advanceTo t).calmReached else s
  | none => s

/-! ### BUZZ (R130) -/

/-- The length of a fault pattern. -/
def patternTime : Time := ms 1000

/-- The length of a motion period. -/
def periodTime : Time := seconds 1

/-- A fault pattern ends: the next follows at once while the count is above 0; the motion pulse stays silent until the
next motion period (R130, log 34). -/
def State.patternEnd (s : State) : State :=
  match s.faultPattern with
  | some t =>
    if s.comes (t + patternTime) then
      let s1 := s.advanceTo (t + patternTime)
      { s1 with faultPattern := none, motionPulse := false }.buzzKick
    else s
  | none => s

/-- A motion period begins (R130). -/
def State.periodBegins (s : State) : State :=
  match s.motionPeriod with
  | some t =>
    if s.comes (t + periodTime) then
      { s.advanceTo (t + periodTime) with motionPeriod := some (t + periodTime), motionPulse := true }
    else s
  | none => s

end Sys2Proof.Machine
end

