-- ==== Sys2Proof/Machine/Idle.lean ====
section
/-! DEFINITION. What an empty queue's step does: one step of 25 µs passes, the pins are sampled, and the events that fall
due are put in the queue (log 2, 4, 10). -/

namespace Sys2Proof.Machine

/-! ### Sampling (R21 to R26) -/

/-- The acceptance count of a filter width code (R24). -/
def acceptanceCount (code : Nat) : Nat :=
  match code with
  | 0 => 1
  | 1 => 5
  | 2 => 9
  | _ => 17

/-- One sample of a pulse line; the flag says whether a rising edge is accepted (R24, R25, R26). -/
def PulseLine.sample (l : PulseLine) (count : Nat) (level : Bool) : PulseLine × Bool :=
  match l.accepted with
  | none => ({ accepted := some level, run := 0 }, false)
  | some a =>
    if level = a then ({ l with run := 0 }, false)
    else if count ≤ l.run + 1 then ({ accepted := some level, run := 0 }, level)
    else ({ l with run := l.run + 1 }, false)

/-- The last three of a list of samples. -/
def lastThree (l : List Bool) : List Bool := l.drop (l.length - 3)

/-- The level held by at least two of the last three samples, once three are held (R21). -/
def majority (l : List Bool) : Option Bool :=
  match l with
  | [a, b, c] => some ((a && b) || (a && c) || (b && c))
  | _ => none

/-- A sample is taken into a discrete line's history (R21). -/
def DiscreteLine.push (l : DiscreteLine) (level : Bool) : DiscreteLine :=
  { l with samples := lastThree (l.samples ++ [level]) }

/-- The accepted level that the history calls for, when it differs from the present one (R21, R23). -/
def DiscreteLine.wanted (l : DiscreteLine) : Option Bool :=
  match majority l.samples with
  | some m => if l.accepted = some m then none else some m
  | none => none

/-- The level of a discrete line's pin. -/
def State.pinOf (s : State) : Line → Bool
  | .hom n => (s.pins.channels[n]).hom
  | .sea n => (s.pins.channels[n]).sea
  | .seb n => (s.pins.channels[n]).seb
  | .knd1 n => (s.pins.channels[n]).knd1
  | .knd0 n => (s.pins.channels[n]).knd0
  | .park => s.pins.park
  | .ign => s.pins.ign

/-- The discrete lines of a channel. -/
def channelLines (n : Chan) : List Line := [.hom n, .sea n, .seb n, .knd1 n, .knd0 n]

/-- The discrete lines that are conditioned (R21). -/
def State.discreteLines (s : State) : List Line :=
  ((allChans.map channelLines).flatten ++ [Line.park, Line.ign]).filter s.conditioned

/-- A seat or kind line that changes its accepted level gives no event (R22). -/
def State.settleQuiet (s : State) (l : Line) : State :=
  match l, (s.line l).wanted, (s.line l).accepted with
  | .sea _, some v, some _ => s.accept l v
  | .seb _, some v, some _ => s.accept l v
  | .knd1 _, some v, some _ => s.accept l v
  | .knd0 _, some v, some _ => s.accept l v
  | .ign, some false, some _ => s.accept l false
  | _, _, _ => s

/-- The moment from which a discrete line's samples are counted (R23). -/
def State.lineOrigin (s : State) : Line → Time
  | .hom n | .sea n | .seb n | .knd1 n | .knd0 n => s.lineStart[n]
  | .park | .ign => 0

/-- The conditioned discrete lines whose 1 ms sample falls at the present moment (R21, R23). -/
def State.sampledLines (s : State) : List Line :=
  s.discreteLines.filter fun l =>
    decide (s.lineOrigin l < s.now) && (s.now - s.lineOrigin l) % ms 1 == 0

/-- A discrete line is sampled (R21). -/
def State.sampleLine (s : State) (l : Line) : State := (s.setLine ((s.line l).push (s.pinOf l)) l).settleQuiet l

/-- Every conditioned discrete line whose sample falls now is sampled (R21). -/
def State.sampleDiscrete (s : State) : State := forEach s.sampledLines (fun l t => t.sampleLine l) s

/-- The pulse filter's acceptance count of a channel (R24). -/
def State.filterCount (s : State) (n : Chan) : Nat := acceptanceCount (s.kindParams n).filter

/-- The sample of a channel's PLSn. -/
def State.plsSample (s : State) (n : Chan) : PulseLine × Bool :=
  (s.lines[n]).pls.sample (s.filterCount n) (s.pins.channels[n]).pls

/-- The sample of WND. -/
def State.wndSample (s : State) : PulseLine × Bool :=
  s.wndLine.sample (acceptanceCount s.layout.wind.filter) s.pins.wnd

/-- Every conditioned pulse line is sampled (R24). -/
def State.samplePulses (s : State) : State :=
  { s with
    lines := Vector.ofFn fun n => if s.hasPulses n then { s.lines[n] with pls := (s.plsSample n).1 } else s.lines[n]
    wndLine := if s.layout.wind.present then s.wndSample.1 else s.wndLine }

/-- The pulses accepted at a sample (R25). -/
def State.pulseEvents (s : State) : List Instr :=
  ((allChans.filter fun n => s.hasPulses n && (s.plsSample n).2).map .plsPulse) ++
    (if s.layout.wind.present && s.wndSample.2 then [.wndPulse] else [])

/-- The command that a change of a line's accepted level raises (R22). -/
def State.lineEvent (s : State) (l : Line) (level : Bool) : List Instr :=
  match l with
  | .hom n =>
    match s.role n, level with
    | .room k m, true => [.roomHomeClosed k m]
    | .room k m, false => [.roomHomeOpened k m]
    | .jack j, true => [.jackHomeClosed j]
    | .jack j, false => [.jackHomeOpened j]
    | .awning, true => [.awningHomeClosed]
    | .awning, false => [.awningHomeOpened]
    | .pump, _ => []
    | .none, _ => []
  | .park => [if level then .parkSet else .parkReleased]
  | .ign => if level then [.ignRise] else []
  | .sea _ | .seb _ | .knd1 _ | .knd0 _ => []

/-- The changes of accepted levels that the histories sampled now call for. -/
def State.lineEvents (s : State) : List Instr :=
  (s.sampledLines.map fun l =>
    match (s.line l).accepted, (s.line l).wanted with
    | some _, some v => s.lineEvent l v
    | _, _ => []).flatten

/-- The lines that take their first accepted level at this sample (R23). -/
def State.firstLevels (s : State) : List Instr :=
  let l := s.sampledLines.filterMap fun l =>
    match (s.line l).accepted, (s.line l).wanted with
    | none, some v => some (l, v)
    | _, _ => none
  if l.isEmpty then [] else [.initialAcceptedLevel l]

/-- The levels that a census read of a channel takes: the accepted levels of its seat and kind lines (R2). -/
def State.readLevels (s : State) (n : Chan) : Levels :=
  let l := s.lines[n]
  { sea := l.sea.accepted == some true, seb := l.seb.accepted == some true
    knd1 := l.knd1.accepted == some true, knd0 := l.knd0.accepted == some true }

/-! ### Due events -/

/-- A moment has come. -/
def State.due (s : State) (t : Option Time) : Bool :=
  match t with
  | some t => decide (t ≤ s.now)
  | none => false

/-- The present moment is a multiple of a period. -/
def State.onGrid (s : State) (period : Time) : Bool := s.now % period == 0

/-- An event when it is due. -/
def dueIf (b : Bool) (i : Instr) : List Instr := if b then [i] else []

/-- The channel events that are due (R11, R13, R14, R35). -/
def State.channelEvents (s : State) (n : Chan) : List Instr :=
  dueIf (s.mayStall n && decide (s.stallLimit n ≤ (s.paceRec n).counter)) (.stall n) ++
  dueIf (s.due (s.chan n).stoppingDue) (.stoppingEnd n) ++
  dueIf (s.due (s.dwellDue n)) (.dwellEnd n) ++
  dueIf (s.due (s.chan n).rampDue) (.rampStep n)

/-- The events of a room that are due (R45, R46). -/
def State.roomEvents (s : State) (k : RoomId) : List Instr :=
  ((s.motors (.room k)).map fun m => dueIf (s.due (s.seatDue (.room k) m)) (.roomSeatDeadline k m)).flatten ++
  dueIf (s.atLimit (.room k) (s.rooms[k]).runTime (s.sliderTimeout (.room k))) (.roomRunTimeout k)

/-- The events of the awning and the jacks that are due (R77, R84, R85, R87, R97, R98). -/
def State.axisEvents (s : State) : List Instr :=
  dueIf (s.due (s.seatDue .awning .a)) .awningSeatDeadline ++
  dueIf (s.atLimit .awning s.awning.runTime (s.sliderTimeout .awning)) .awningRunTimeout ++
  dueIf (!s.levelActive && s.atLimit .jacks s.jackSet.runTime s.jackTimeout) .jackRunTimeout ++
  (if s.levelActive && s.atLimit .jacks s.level.phaseTime s.phaseLimit then
    match s.level.phase with
    | .contact => [.contactPhaseTimeout]
    | .settle => dueIf (s.running .jacks) .settleEnd
    | .lift => [.passTimeout]
  else [])

/-- The deadlines of claims and lists that are due (R118, R143). -/
def State.groupEvents (s : State) (g : Group) : List Instr :=
  dueIf (s.due (s.holdDue g)) (.holdDeadline g) ++ dueIf (s.due (s.pauseDue g)) (.pauseLimit g)

/-- The events of a port that are due (R161, R165). -/
def State.portEvents (s : State) (p : Port) : List Instr :=
  dueIf (s.due ((s.port p).frame.map PartialFrame.expiry)) (.partialFrameTimeout p) ++
  dueIf (s.due (s.replyDue p)) (.replySent p)

/-- The events of the wind watch, of BUZZ and of the store that are due (R105, R130, R181). -/
def State.otherEvents (s : State) : List Instr :=
  dueIf (s.due (s.windDue .rising)) .gustHoldReached ++
  dueIf (s.due (s.windDue .easing)) .calmHoldReached ++
  dueIf (s.due (s.faultPattern.map fun t => t + patternTime)) .faultPatternEnd ++
  dueIf (s.due (s.motionPeriod.map fun t => t + periodTime)) .motionPeriod ++
  dueIf (s.due (s.write.map fun t => t + writeLength t)) .storeWriteComplete

/-- The census reads and the sample of a channel that fall now (R3, R4, R16). -/
def State.channelPeriodic (s : State) (n : Chan) : List Instr :=
  dueIf (s.startingUp n && decide (s.readDue n ≤ s.now)) (.censusRead n (s.readLevels n)) ++
  dueIf (s.confirming n && decide (s.readDue n ≤ s.now)) (.confirmingRead n (s.readLevels n)) ++
  dueIf (s.needsReads n && s.onGrid (ms 10)) (.analogSample n (s.pins.channels[n]).ana)

/-- The periodic events of the part (R4, R39, R82, R132). -/
def State.periodic (s : State) : List Instr :=
  dueIf (s.onGrid (ms 10) && decide (0 < s.jackCount)) (.tiltSample s.pins.tiltX s.pins.tiltY) ++
  dueIf (s.onGrid (ms 10)) (.supplySample s.pins.vsup) ++
  dueIf (s.onGrid (ms 100) && s.layout.wind.present) .windSpeedTick ++
  dueIf (s.onGrid (ms 500)) (.recensusPass (Vector.ofFn s.readLevels))

/-- Every event that is due by time alone. -/
def State.dueEvents (s : State) : List Instr :=
  (allChans.map s.channelEvents).flatten ++ (allRooms.map s.roomEvents).flatten ++ s.axisEvents ++
    (allGroups.map s.groupEvents).flatten ++ (allPorts.map s.portEvents).flatten ++ s.otherEvents ++
    (allChans.map s.channelPeriodic).flatten ++ s.periodic

/-! ### The step of an empty queue -/

/-- RESET has been low for 1 ms more or less: how long, and whether a warm reset begins (R183). -/
def State.watchReset (s : State) : State × List Instr :=
  if s.pins.reset then ({ s with resetLow := 0 }, [])
  else ({ s with resetLow := min (ms 1) (s.resetLow + 1) },
    dueIf (decide (s.resetLow + 1 = ms 1)) (.warmReset s.pins.straps))

/-- The events of one step of 25 µs are put in the queue (log 10). -/
def State.enqueue (s : State) (l : List Instr) : State := { s with pending := s.pending ++ l }

/-- One step of 25 µs out of reset. Pace ticks are counted from the end of reset, and a tick before a pulse of its
sample (R28, log 39). -/
def State.tickRunning (s : State) : State :=
  let s1 := s.elapse 1
  let pulses := s1.pulseEvents
  let s2 := { s1.samplePulses.sampleDiscrete with tickedAt := some s1.now }
  let w := s2.watchReset
  w.1.enqueue (pulses ++ s2.firstLevels ++ s2.lineEvents ++ s2.dueEvents ++ w.2)

/-- One step of 25 µs in reset: a warm reset ends when RESET returns high (R183); the end of a cold reset comes from
outside (log 31). -/
def State.tickInReset (s : State) (k : ResetKind) : State :=
  match k with
  | .warm => if s.pins.reset then s.enqueue [.resetEnd] else s
  | .cold => s

/-- What a step does on an empty queue. -/
def State.tick (s : State) : State :=
  match s.inReset with
  | some k => s.tickInReset k
  | none => s.tickRunning

end Sys2Proof.Machine
end

