-- ==== Sys2Proof/Machine/Awake.lean ====
section
/-! DEFINITION. Commands taken in reset. -/

namespace Sys2Proof.Machine

/-- During a reset nothing but a reset or its end is taken: every block stands at its reset values (R183, log 31). -/
def State.awake (s : State) (f : State → State) : State := if s.inReset.isSome then s else f s

end Sys2Proof.Machine
end

