-- ==== Sys2Proof/Machine/AwningCommands.lean ====
section
/-! DEFINITION. The events of the awning. -/

namespace Sys2Proof.Machine

/-- AWNING_HOME_CLOSED (R96, R98). -/
def execAwningHomeClosed (s : State) : Host.Outcome State Fault Refusal :=
  .next (s.awake fun t => t.homeOf .awning true)

/-- AWNING_HOME_OPENED (R96). -/
def execAwningHomeOpened (s : State) : Host.Outcome State Fault Refusal :=
  .next (s.awake fun t => t.homeOf .awning false)

/-- AWNING_SEAT_DEADLINE (R98). -/
def execAwningSeatDeadline (s : State) : Host.Outcome State Fault Refusal :=
  .next (s.awake fun t => t.seatReached .awning .a)

/-- AWNING_RUN_TIMEOUT (R97). -/
def execAwningRunTimeout (s : State) : Host.Outcome State Fault Refusal :=
  .next (s.awake fun t => t.slideTimeout .awning)

end Sys2Proof.Machine
end

