-- ==== Sys2Proof/Machine/CensusCommands.lean ====
section
/-! DEFINITION. The commands of the census. -/

namespace Sys2Proof.Machine

/-- CENSUS_READ: a read of the start-up census (R2, R3, R5). -/
def execCensusRead (n : Chan) (read : Levels) (s : State) : Host.Outcome State Fault Refusal :=
  .next (s.awake fun t => t.censusRead n read)

/-- RECENSUS_PASS: a pass over the settled channels (R4). -/
def execRecensusPass (reads : Vector Levels 16) (s : State) : Host.Outcome State Fault Refusal :=
  .next (s.awake fun t => t.recensus reads)

/-- CONFIRMING_READ: a read after one that did not agree (R4, R5, R7). -/
def execConfirmingRead (n : Chan) (read : Levels) (s : State) : Host.Outcome State Fault Refusal :=
  .next (s.awake fun t => t.confirmingRead n read)

end Sys2Proof.Machine
end

