-- ==== Sys2Proof/Machine/ClaimCommands.lean ====
section
/-! DEFINITION. The events of the claim table, of BUZZ and of the supply budget. -/

namespace Sys2Proof.Machine

/-- HOLD_DEADLINE (R118). -/
def execHoldDeadline (g : Group) (s : State) : Host.Outcome State Fault Refusal :=
  .next (s.awake fun t => t.holdReached g)

/-- PARK_SET (R123, R125). -/
def execParkSet (s : State) : Host.Outcome State Fault Refusal :=
  .next (s.awake fun t => t.parkHigh)

/-- PARK_RELEASED (R124, R125). -/
def execParkReleased (s : State) : Host.Outcome State Fault Refusal :=
  .next (s.awake fun t => t.parkLow)

/-- IGN_RISE (R126). -/
def execIgnRise (s : State) : Host.Outcome State Fault Refusal :=
  .next (s.awake fun t => t.ignHigh)

/-- FAULT_PATTERN_END (R130). -/
def execFaultPatternEnd (s : State) : Host.Outcome State Fault Refusal :=
  .next (s.awake fun t => t.patternEnd)

/-- MOTION_PERIOD (R130). -/
def execMotionPeriod (s : State) : Host.Outcome State Fault Refusal :=
  .next (s.awake fun t => t.periodBegins)

/-- SUPPLY_SAMPLE (R132, R133). -/
def execSupplySample (raw : Sample) (s : State) : Host.Outcome State Fault Refusal :=
  .next (s.awake fun t => t.event fun u => u.supplyTaken raw.toNat)

/-- PAUSE_LIMIT (R143). -/
def execPauseLimit (g : Group) (s : State) : Host.Outcome State Fault Refusal :=
  .next (s.awake fun t => t.pauseReached g)

end Sys2Proof.Machine
end

