-- ==== Sys2Proof/Machine/DriveCommands.lean ====
section
/-! DEFINITION. The events of driven channels: ends of stops and dwells, ramp steps, samples, pulses, stalls. -/

namespace Sys2Proof.Machine

/-- STOPPING_END (R13). -/
def execStoppingEnd (n : Chan) (s : State) : Host.Outcome State Fault Refusal :=
  .next (s.awake fun t => t.stoppingEnd n)

/-- DWELL_END (R14). -/
def execDwellEnd (n : Chan) (s : State) : Host.Outcome State Fault Refusal :=
  .next (s.awake fun t => t.dwellEnd n)

/-- RAMP_STEP (R11, R51). -/
def execRampStep (n : Chan) (s : State) : Host.Outcome State Fault Refusal :=
  .next (s.awake fun t => t.rampStep n)

/-- ANALOG_SAMPLE (R16, R17, R66). -/
def execAnalogSample (n : Chan) (raw : Sample) (s : State) : Host.Outcome State Fault Refusal :=
  .next (s.awake fun t => t.analogSample n raw)

/-- OVERCURRENT (R17). -/
def execOvercurrent (n : Chan) (s : State) : Host.Outcome State Fault Refusal :=
  .next (s.awake fun t => t.overcurrent n)

/-- PLS_PULSE (R25, R32, R33, R36). -/
def execPlsPulse (n : Chan) (s : State) : Host.Outcome State Fault Refusal :=
  .next (s.awake fun t => if t.hasPulses n then t.event fun u => u.pulse n else t)

/-- PULSE_NOISE (R34). -/
def execPulseNoise (n : Chan) (s : State) : Host.Outcome State Fault Refusal :=
  .next (s.awake fun t => t.noiseReached n)

/-- STALL (R35). -/
def execStall (n : Chan) (s : State) : Host.Outcome State Fault Refusal :=
  .next (s.awake fun t => t.stallReached n)

end Sys2Proof.Machine
end

