-- ==== Sys2Proof/Machine/JackCommands.lean ====
section
/-! DEFINITION. The events of the jacks and of the level run. -/

namespace Sys2Proof.Machine

/-- CONTACT_LOST (R66, R67). -/
def execContactLost (j : JackId) (s : State) : Host.Outcome State Fault Refusal :=
  .next (s.awake fun t => t.lossReached j)

/-- JACK_HOME_CLOSED (R65, R75). -/
def execJackHomeClosed (j : JackId) (s : State) : Host.Outcome State Fault Refusal :=
  .next (s.awake fun t => t.homeOf (.jack j) true)

/-- JACK_HOME_OPENED (R65). -/
def execJackHomeOpened (j : JackId) (s : State) : Host.Outcome State Fault Refusal :=
  .next (s.awake fun t => t.homeOf (.jack j) false)

/-- JACK_RUN_TIMEOUT (R77). -/
def execJackRunTimeout (s : State) : Host.Outcome State Fault Refusal :=
  .next (s.awake fun t => t.jackRunOut)

/-- TILT_SAMPLE: while J is above 0 (R62, R82). -/
def execTiltSample (x y : Sample) (s : State) : Host.Outcome State Fault Refusal :=
  .next (s.awake fun t => if 0 < t.jackCount then t.tiltSample x.toNat y.toNat else t)

/-- CONTACT_PHASE_TIMEOUT (R84). -/
def execContactPhaseTimeout (s : State) : Host.Outcome State Fault Refusal :=
  .next (s.awake fun t => t.contactPhaseOut)

/-- SETTLE_END (R85, R86, R87). -/
def execSettleEnd (s : State) : Host.Outcome State Fault Refusal :=
  .next (s.awake fun t => t.settleDone)

/-- PASS_TIMEOUT (R87). -/
def execPassTimeout (s : State) : Host.Outcome State Fault Refusal :=
  .next (s.awake fun t => t.passOut)

end Sys2Proof.Machine
end

