-- ==== Sys2Proof/Machine/LinkCommands.lean ====
section
/-! DEFINITION. The events of the links and of the layout store. -/

namespace Sys2Proof.Machine

/-- STORE_WRITE_COMPLETE: the written image, which the staging image still is (R181), becomes the layout in force
(R182). Without a write in flight nothing completes. -/
def execStoreWriteComplete (s : State) : Host.Outcome State Fault Refusal :=
  .next (s.awake fun t => if t.write.isSome then t.change fun u => u.takeLayout u.staging else t)

/-- LINK_CHARACTER: a character arrives (R159 to R164). -/
def execLinkCharacter (p : Port) (data : Byte) (mark stopHigh : Bool)
    (s : State) : Host.Outcome State Fault Refusal :=
  .next (s.awake fun t => t.character p data mark stopHigh)

/-- PARTIAL_FRAME_TIMEOUT: a partial frame is discarded 20 ms after its first character (R161). -/
def execPartialFrameTimeout (p : Port) (s : State) : Host.Outcome State Fault Refusal :=
  .next (s.awake fun t => t.frameExpired p)

/-- REPLY_SENT: the head reply has been sent and leaves the queue (R165). -/
def execReplySent (p : Port) (s : State) : Host.Outcome State Fault Refusal :=
  .next (s.awake fun t => t.replySent p)

end Sys2Proof.Machine
end

