-- ==== Sys2Proof/Machine/RequestCommands.lean ====
section
/-! DEFINITION. The requests of the masters, each taken by its port (R164) and decided by its block (R167). -/

namespace Sys2Proof.Machine

/-- MOVE (R111 to R115). -/
def execMove (p : Port) (group dir : Byte) (s : State) : Host.Outcome State Fault Refusal :=
  .next (s.awake fun t => t.takeRequest p .move (moveRequest group dir))

/-- AUTO (R111, R112). -/
def execAuto (p : Port) (group action : Byte) (s : State) : Host.Outcome State Fault Refusal :=
  .next (s.awake fun t => t.takeRequest p .auto (autoRequest group action))

/-- MOVE_JACK (R111 to R116). -/
def execMoveJack (p : Port) (jack dir : Byte) (s : State) : Host.Outcome State Fault Refusal :=
  .next (s.awake fun t => t.takeRequest p .moveJack (moveJackRequest jack dir))

/-- RELEASE (R117). -/
def execRelease (p : Port) (group : Byte) (s : State) : Host.Outcome State Fault Refusal :=
  .next (s.awake fun t => t.takeRequest p .release (releaseRequest group))

/-- STOP (R121, R155). -/
def execStop (p : Port) (s : State) : Host.Outcome State Fault Refusal :=
  .next (s.awake fun t => t.takeRequest p .stop (some .stop))

/-- CLEAR_FAULT (R122, R56, R81, R102). -/
def execClearFault (p : Port) (group : Byte) (s : State) : Host.Outcome State Fault Refusal :=
  .next (s.awake fun t => t.takeRequest p .clearFault (clearFaultRequest group))

/-- RUN_PLAN (R149, R150). -/
def execRunPlan (p : Port) (plan : Byte) (s : State) : Host.Outcome State Fault Refusal :=
  .next (s.awake fun t => t.takeRequest p .runPlan (runPlanRequest plan))

/-- STATUS (R168). -/
def execStatus (p : Port) (s : State) : Host.Outcome State Fault Refusal :=
  .next (s.awake fun t => t.takeRequest p .status (some .status))

/-- READ_AXIS (R169). -/
def execReadAxis (p : Port) (axis : Byte) (s : State) : Host.Outcome State Fault Refusal :=
  .next (s.awake fun t => t.takeRequest p .readAxis (readAxisRequest axis))

/-- ACK (R173). -/
def execAck (p : Port) (classes : ClassWord) (s : State) : Host.Outcome State Fault Refusal :=
  .next (s.awake fun t => t.takeRequest p .ack (ackRequest classes))

/-- ROUTE (R174). -/
def execRoute (p : Port) (classes : ClassWord) (s : State) : Host.Outcome State Fault Refusal :=
  .next (s.awake fun t => t.takeRequest p .route (routeRequest classes))

/-- LAYOUT_LOAD (R178). -/
def execLayoutLoad (p : Port) (segment : Byte) (data : Vector Byte 16)
    (s : State) : Host.Outcome State Fault Refusal :=
  .next (s.awake fun t => t.takeRequest p .layoutLoad (layoutLoadRequest segment data))

/-- LAYOUT_READ (R178). -/
def execLayoutRead (p : Port) (segment : Byte) (s : State) : Host.Outcome State Fault Refusal :=
  .next (s.awake fun t => t.takeRequest p .layoutRead (layoutReadRequest segment))

/-- LAYOUT_COMMIT (R179, R181). -/
def execLayoutCommit (p : Port) (s : State) : Host.Outcome State Fault Refusal :=
  .next (s.awake fun t => t.takeRequest p .layoutCommit (some .layoutCommit))

end Sys2Proof.Machine
end

