-- ==== Sys2Proof/Machine/ResetCommands.lean ====
section
/-! DEFINITION. The commands of reset and start-up. -/

namespace Sys2Proof.Machine

/-- COLD_RESET: every channel is disabled, lists, claims, plan and level run are cleared, the ports are reset, a write
in flight is cut off, the straps are read (R19, R57, R90, R103, R183, R184, R186). Taken in reset too. -/
def execColdReset (straps : Straps) (s : State) : Host.Outcome State Fault Refusal :=
  .next (s.beginReset .cold straps)

/-- WARM_RESET: as a cold reset, but the position records of axes not in motion are kept (R58, R91, R103, R183, R184).
Taken in reset too. -/
def execWarmReset (straps : Straps) (s : State) : Host.Outcome State Fault Refusal :=
  .next (s.beginReset .warm straps)

/-- RESET_END: the layout in force and the staging image are chosen and the start-up census begins (R177, R3). Without
a reset in progress there is no end of one. -/
def execResetEnd (s : State) : Host.Outcome State Fault Refusal :=
  .next (if s.inReset.isSome then s.endReset else s)

/-- INITIAL_ACCEPTED_LEVEL: the first accepted levels of one sample are handed over as initial levels (R23, R42, R43,
R65, R96, R123). -/
def execInitialAcceptedLevel (levels : List (Line × Bool)) (s : State) : Host.Outcome State Fault Refusal :=
  .next (s.awake fun t => t.initialLevels levels)

end Sys2Proof.Machine
end

