-- ==== Sys2Proof/Machine/RoomCommands.lean ====
section
/-! DEFINITION. The events of the rooms. -/

namespace Sys2Proof.Machine

/-- ROOM_HOME_CLOSED (R42, R46). -/
def execRoomHomeClosed (k : RoomId) (m : Motor) (s : State) : Host.Outcome State Fault Refusal :=
  .next (s.awake fun t => t.homeOf (.room k m) true)

/-- ROOM_HOME_OPENED (R43). -/
def execRoomHomeOpened (k : RoomId) (m : Motor) (s : State) : Host.Outcome State Fault Refusal :=
  .next (s.awake fun t => t.homeOf (.room k m) false)

/-- ROOM_SEAT_DEADLINE (R46, R47). -/
def execRoomSeatDeadline (k : RoomId) (m : Motor) (s : State) : Host.Outcome State Fault Refusal :=
  .next (s.awake fun t => t.seatReached (.room k) m)

/-- ROOM_RUN_TIMEOUT (R45). -/
def execRoomRunTimeout (k : RoomId) (s : State) : Host.Outcome State Fault Refusal :=
  .next (s.awake fun t => t.slideTimeout (.room k))

end Sys2Proof.Machine
end

