-- ==== Sys2Proof/Machine/WindCommands.lean ====
section
/-! DEFINITION. The events of the anemometer and of the wind watch. -/

namespace Sys2Proof.Machine

/-- WND_PULSE: a capture of the wind pace, and the speed computed at it (R38, R39, R40). -/
def execWndPulse (s : State) : Host.Outcome State Fault Refusal :=
  .next (s.awake fun t => if t.layout.wind.present then (t.setWind t.wind.pulse).computeWind else t)

/-- WIND_SPEED_TICK: the speed computed at the 100 ms step (R39, R40). -/
def execWindSpeedTick (s : State) : Host.Outcome State Fault Refusal :=
  .next (s.awake fun t => if t.layout.wind.present then t.computeWind else t)

/-- GUST_HOLD_REACHED (R105, R107). -/
def execGustHoldReached (s : State) : Host.Outcome State Fault Refusal :=
  .next (s.awake fun t => t.gustHold)

/-- CALM_HOLD_REACHED (R105). -/
def execCalmHoldReached (s : State) : Host.Outcome State Fault Refusal :=
  .next (s.awake fun t => t.calmHold)

end Sys2Proof.Machine
end

