-- ==== Sys2Proof/Machine/Dispatch.lean ====
section
/-! DEFINITION. One meaning for each command. -/

namespace Sys2Proof.Machine

def exec (i : Instr) (s : State) : Host.Outcome State Fault Refusal :=
  match i with
  | .coldReset straps => Sys2Proof.Machine.execColdReset straps s
  | .warmReset straps => Sys2Proof.Machine.execWarmReset straps s
  | .resetEnd => Sys2Proof.Machine.execResetEnd s
  | .initialAcceptedLevel levels => Sys2Proof.Machine.execInitialAcceptedLevel levels s
  | .move p group dir => Sys2Proof.Machine.execMove p group dir s
  | .auto p group action => Sys2Proof.Machine.execAuto p group action s
  | .moveJack p jack dir => Sys2Proof.Machine.execMoveJack p jack dir s
  | .release p group => Sys2Proof.Machine.execRelease p group s
  | .stop p => Sys2Proof.Machine.execStop p s
  | .clearFault p group => Sys2Proof.Machine.execClearFault p group s
  | .runPlan p plan => Sys2Proof.Machine.execRunPlan p plan s
  | .status p => Sys2Proof.Machine.execStatus p s
  | .readAxis p axis => Sys2Proof.Machine.execReadAxis p axis s
  | .ack p classes => Sys2Proof.Machine.execAck p classes s
  | .route p classes => Sys2Proof.Machine.execRoute p classes s
  | .layoutLoad p segment data => Sys2Proof.Machine.execLayoutLoad p segment data s
  | .layoutRead p segment => Sys2Proof.Machine.execLayoutRead p segment s
  | .layoutCommit p => Sys2Proof.Machine.execLayoutCommit p s
  | .storeWriteComplete => Sys2Proof.Machine.execStoreWriteComplete s
  | .linkCharacter p data mark stopHigh => Sys2Proof.Machine.execLinkCharacter p data mark stopHigh s
  | .partialFrameTimeout p => Sys2Proof.Machine.execPartialFrameTimeout p s
  | .replySent p => Sys2Proof.Machine.execReplySent p s
  | .censusRead n read => Sys2Proof.Machine.execCensusRead n read s
  | .recensusPass reads => Sys2Proof.Machine.execRecensusPass reads s
  | .confirmingRead n read => Sys2Proof.Machine.execConfirmingRead n read s
  | .stoppingEnd n => Sys2Proof.Machine.execStoppingEnd n s
  | .dwellEnd n => Sys2Proof.Machine.execDwellEnd n s
  | .rampStep n => Sys2Proof.Machine.execRampStep n s
  | .analogSample n raw => Sys2Proof.Machine.execAnalogSample n raw s
  | .overcurrent n => Sys2Proof.Machine.execOvercurrent n s
  | .contactLost j => Sys2Proof.Machine.execContactLost j s
  | .plsPulse n => Sys2Proof.Machine.execPlsPulse n s
  | .pulseNoise n => Sys2Proof.Machine.execPulseNoise n s
  | .stall n => Sys2Proof.Machine.execStall n s
  | .wndPulse => Sys2Proof.Machine.execWndPulse s
  | .windSpeedTick => Sys2Proof.Machine.execWindSpeedTick s
  | .gustHoldReached => Sys2Proof.Machine.execGustHoldReached s
  | .calmHoldReached => Sys2Proof.Machine.execCalmHoldReached s
  | .roomHomeClosed k m => Sys2Proof.Machine.execRoomHomeClosed k m s
  | .roomHomeOpened k m => Sys2Proof.Machine.execRoomHomeOpened k m s
  | .roomSeatDeadline k m => Sys2Proof.Machine.execRoomSeatDeadline k m s
  | .roomRunTimeout k => Sys2Proof.Machine.execRoomRunTimeout k s
  | .jackHomeClosed j => Sys2Proof.Machine.execJackHomeClosed j s
  | .jackHomeOpened j => Sys2Proof.Machine.execJackHomeOpened j s
  | .jackRunTimeout => Sys2Proof.Machine.execJackRunTimeout s
  | .tiltSample x y => Sys2Proof.Machine.execTiltSample x y s
  | .contactPhaseTimeout => Sys2Proof.Machine.execContactPhaseTimeout s
  | .settleEnd => Sys2Proof.Machine.execSettleEnd s
  | .passTimeout => Sys2Proof.Machine.execPassTimeout s
  | .awningHomeClosed => Sys2Proof.Machine.execAwningHomeClosed s
  | .awningHomeOpened => Sys2Proof.Machine.execAwningHomeOpened s
  | .awningSeatDeadline => Sys2Proof.Machine.execAwningSeatDeadline s
  | .awningRunTimeout => Sys2Proof.Machine.execAwningRunTimeout s
  | .holdDeadline g => Sys2Proof.Machine.execHoldDeadline g s
  | .parkSet => Sys2Proof.Machine.execParkSet s
  | .parkReleased => Sys2Proof.Machine.execParkReleased s
  | .ignRise => Sys2Proof.Machine.execIgnRise s
  | .faultPatternEnd => Sys2Proof.Machine.execFaultPatternEnd s
  | .motionPeriod => Sys2Proof.Machine.execMotionPeriod s
  | .supplySample raw => Sys2Proof.Machine.execSupplySample raw s
  | .pauseLimit g => Sys2Proof.Machine.execPauseLimit g s

end Sys2Proof.Machine
end

