-- ==== Sys2Proof/Machine/Step.lean ====
section
/-! DEFINITION. One step of the block: the command at the front of the queue, or, on an empty queue, one step of time. -/

namespace Sys2Proof.Machine

/-- The command at the front of the queue is taken; on an empty queue 25 µs pass (log 2). -/
def step (s : State) : Host.Outcome State Fault Refusal :=
  match s.pending with
  | [] => .next s.tick
  | i :: rest => exec i { s with pending := rest }

/-- The state with the command that a word spells put at the front of its queue. -/
def State.withCommand (s : State) : Option Instr → State
  | some i => { s with pending := i :: s.pending }
  | none => s

/-- The state with the command that a word of a number of bits spells at the front of its queue; the table gives no row
any bits, so no word spells one and the state stays as it is (log 1). -/
def State.withFetchWord (s : State) (nbits w : Nat) : State := s.withCommand (decodeTableWord nbits w)

end Sys2Proof.Machine
end

