-- ==== Sys2Proof/Safety.lean ====
section
/-! DEFINITION. The words that statements use for parts of the state, and the laws of the device that the chapters
state, as tests of a state. -/

namespace Sys2Proof.Machine

/-! ### Parts of the state -/

/-- All of the state but what the controllers work on: channels, pace watch records, rooms, awning, jacks, jack set and
level run stand here at their reset values. -/
def State.outer (s : State) : State :=
  { s with
    channels := State.reset.channels, pace := State.reset.pace, rooms := State.reset.rooms
    awning := State.reset.awning, jacks := State.reset.jacks, jackSet := State.reset.jackSet
    level := State.reset.level }

/-- What no work handed on within an event changes: queue, clock, reset, pins, straps, layout, buffers and store,
conditioned lines, census clock, supply record, tilt and wind. All else stands here at its reset value. -/
def State.fixedPart (s : State) : State :=
  { State.reset with
    pending := s.pending, now := s.now, tickedAt := s.tickedAt, inReset := s.inReset, resetLow := s.resetLow, pins := s.pins
    straps := s.straps, layout := s.layout, staging := s.staging, stored := s.stored, write := s.write
    lines := s.lines, lineStart := s.lineStart, park := s.park, ign := s.ign, wndLine := s.wndLine, censusStart := s.censusStart
    supply := s.supply, tilt := s.tilt, wind := s.wind }

/-- What a channel record holds of its plug and its samples: the drive part stands here as after a reset. -/
def Channel.reading (c : Channel) : Channel :=
  { freshChannel c.census c.settled with
    kindRead := c.kindRead, pendingRead := c.pendingRead, pendingAt := c.pendingAt, settledLevels := c.settledLevels
    scaled := c.scaled }

/-- What a jack record holds of the ground and of its length. -/
def Jack.reading (r : Jack) : Jack :=
  { freshJack with count := r.count, contact := r.contact, lossRun := r.lossRun, pressure := r.pressure }

/-- A port record but for its pending set. -/
def PortRec.link (r : PortRec) : PortRec := { r with pending := 0 }

/-- A notice class stands in the pending set of every port. -/
def State.noticed (s : State) (c : Notice) : Bool := allPorts.all fun p => (s.port p).pending &&& c.bit == c.bit

/-- An entry without what changes while its motion lasts: its state and the time of its pause. -/
def Entry.motion (e : Entry) : Entry := { e with state := .running, pausedSince := none }

/-- The motions of both lists. -/
def State.motions (s : State) : List Entry := (s.load ++ s.paused).map Entry.motion

/-- No motion of a group stands in either list. -/
def State.still (s : State) (g : Group) : Prop := ∀ e ∈ s.motions, e.group ≠ g

/-- The state of a room or the awning in motion says which way the motion goes (R44, R97). -/
def State.showsMotions (s : State) : Prop :=
  ∀ e ∈ s.load ++ s.paused, ∀ id ∈ sliderOf e.group, (s.slider id).state = movingState e.action.dir

/-- No running plan names a group. A plan that runs holds the claim of every group that it names (R149, R150). -/
def State.unplanned (s : State) (g : Group) : Prop :=
  ∀ n, s.planRunning = true → s.plan.name = some n → g ∉ planGroups (s.layout.planSteps n)

/-- The outcome last recorded for a group (R52, R78, R100). -/
def State.outcomeOf (s : State) : Group → Option MotionOutcome
  | .room k => (s.rooms[k]).lastOutcome
  | .jacks => s.jackSet.lastOutcome
  | .awning => s.awning.lastOutcome

/-- The axis records of a group: a room's, or the awning's, or those of the jacks with the jack set and the level run. -/
def axisRecords (s : State) (g : Group) : Option SliderRec × Option (Vector Jack 6 × JackSet × LevelRun) :=
  match g with
  | .room k => (some s.rooms[k], none)
  | .jacks => (none, some (s.jacks, s.jackSet, s.level))
  | .awning => (some s.awning, none)

/-! ### Commands by what they name -/

/-- The reset command of a kind (R183). -/
def resetCommand : ResetKind → Straps → Instr
  | .cold, straps => .coldReset straps
  | .warm, straps => .warmReset straps

/-- The motion request of a mode, a group and an action that a port can make; none where the requests of section 9.2
cannot say it. -/
def motionCommand (p : Port) : Mode → Group → Action → Option Instr
  | .hold, g, .toward d => some (.move p (byteOf (groupCode g)) (byteOf d.code))
  | .hold, .jacks, .jack j d => some (.moveJack p (byteOf (j.val + 1)) (byteOf d.code))
  | .auto, g, .toward d => some (.auto p (byteOf (groupCode g)) (byteOf d.code))
  | .auto, .jacks, .level => some (.auto p 5 3)
  | _, _, _ => none

/-- The kind of the motion request of a mode and an action. -/
def motionKind : Mode → Action → RequestKind
  | .auto, _ => .auto
  | .hold, .jack _ _ => .moveJack
  | .hold, _ => .move

/-- The command of a change of a room's or the awning's home switch. -/
def homeCommand : Slider → Motor → Bool → Instr
  | .room k, m, true => .roomHomeClosed k m
  | .room k, m, false => .roomHomeOpened k m
  | .awning, _, true => .awningHomeClosed
  | .awning, _, false => .awningHomeOpened

/-- The command of a room's or the awning's seat deadline. -/
def seatCommand : Slider → Motor → Instr
  | .room k, m => .roomSeatDeadline k m
  | .awning, _ => .awningSeatDeadline

/-- The command of a room's or the awning's run timeout. -/
def runTimeoutCommand : Slider → Instr
  | .room k => .roomRunTimeout k
  | .awning => .awningRunTimeout

/-- The commands of a list taken one after another, for as long as each answers a next state. -/
def runAll : List Instr → State → State
  | [], s => s
  | c :: rest, s =>
    match exec c s with
    | .next t => runAll rest t
    | _ => s

/-! ### Requests -/

/-- The reply queue of a port has room for one more reply (R165). -/
def State.hasRoom (s : State) (p : Port) : Prop := (s.port p).replies.length < 4

/-- The state in which a request of a kind has been answered and nothing else has changed. -/
def State.answered (s : State) (p : Port) (k : RequestKind) (a : Answer) : State := s.queueReply p (replyFrame k a)

/-- Checks 5 to 10 of R111 in their order, for a motion request whose group has no motion, or whose group's present
motion is counted as free (R115): the first that fails, as the answer it gives. -/
def State.verdict (s : State) (m : Mode) (g : Group) (a : Action) : Option Answer :=
  if (s.groupChans g).any fun n => (s.chan n).census != .seated then some (.refused .unavailable 0 0)
  else if s.groupFaulted g && !(m == .hold && a.dir == .stowing) then some (.refused .faulted 0 0)
  else if s.homeFirst g a then some (.refused .homeFirst 0 0)
  else
    match s.permitCause g a with
    | some c => some (.refused .notPermitted c.code 0)
    | none =>
      if a = .level ∧ (s.layout.level.steepLimit < s.tilt.pitch.natAbs ∨ s.layout.level.steepLimit < s.tilt.roll.natAbs)
      then some (.refused .tooSteep 0 0)
      else if m = .hold ∧ s.budget < s.motionUnits g a + unitsOf (s.load.filter fun e => e.group != g) then
        some (.refused .budget 0 0)
      else none

/-- Checks 1 to 3 of R111 in their order (R111). -/
def State.firstChecks (s : State) (g : Group) (a : Action) : Option Answer :=
  if s.write.isSome then some (.refused .storeBusy 0 0)
  else if s.actionConfigured g a = false then some (.refused .notConfigured 0 0)
  else if s.road ≠ .parked then some (.refused .notPermitted 1 0)
  else none

/-! ### What an event did -/

/-- From one state to the other the count of a motor stands as it was, or has become 0 under a closed home switch (R46,
R47). -/
def State.countKept (s t : State) (id : Slider) (m : Motor) : Prop :=
  (t.motor id m).count = (s.motor id m).count ∨ (s.motorHome id m = true ∧ (t.motor id m).count = some 0)

/-- From one state to the other the motion that a group had is over, with an outcome. A new motion of the group, with an
admission order not given before, can only be a running plan's next step. -/
structure Ended (g : Group) (o : MotionOutcome) (s t : State) : Prop where
  /-- The entries of the group that the first state held stand in neither list. -/
  gone : ∀ e ∈ t.motions, e.group = g → s.nextOrder ≤ e.order
  /-- MOTION_END is pending at every port. -/
  motionEnd : t.noticed .motionEnd = true
  /-- FAULT is pending at every port when the outcome is FAULT. -/
  fault : o = .fault → t.noticed .fault = true
  /-- INTERLOCK is pending at every port when the outcome is INTERLOCK. -/
  interlock : o = .interlock → t.noticed .interlock = true
  /-- With the alarm inactive and the road state not ROAD, an ending FAULT adds 1 to the fault count, up to 4, and a fault
  pattern plays: one that played already, or one that starts in this event and takes 1 from the count. Only another such ending
  of the event can have raised the count further (R130). -/
  sounds : o = .fault → s.alarm = false → s.road ≠ .road →
    t.faultPattern = some (s.faultPattern.getD s.now) ∧
      min 4 (s.faultCount + 1) - (if s.faultPattern = none then 1 else 0) ≤ t.faultCount
  /-- While no plan runs, the group has no motion and the outcome is on record. -/
  recorded : s.planRunning = false → t.still g ∧ t.outcomeOf g = some o
  /-- No count of a room or the awning has changed but to 0 at home, no count or contact of a jack, and no count of link
  errors. -/
  counts : ∀ id m, s.countKept t id m
  jacks : ∀ j, (t.jack j).reading = (s.jack j).reading
  links : ∀ p, (t.port p).link = (s.port p).link
  /-- Queue, clock, layout, buffers, store, lines, supply, tilt and wind are as they were. -/
  fixed : t.fixedPart = s.fixedPart

/-- From one state to the other a frame was discarded on a port (R163): its count of link errors has risen by 1, held at
255, LINK is pending at every port, and nothing but the port's partial frame has changed. -/
structure Discarded (p : Port) (s t : State) : Prop where
  rest : t = { s with ports := t.ports }
  port : t.port p =
    { s.port p with
      linkErrors := min 255 ((s.port p).linkErrors + 1)
      pending := (s.port p).pending ||| 0x800#12
      frame := (t.port p).frame }
  others : ∀ q, q ≠ p → t.port q = { s.port q with pending := (s.port q).pending ||| 0x800#12 }

/-- The only things in which two states differ are the alarm, BUZZ's fault patterns and the notices that the alarm
raises. -/
def State.butAlarm (s t : State) : Prop :=
  t = { s with alarm := t.alarm, faultCount := t.faultCount, faultPattern := t.faultPattern, ports := t.ports } ∧
    ∀ p, (t.port p).link = (s.port p).link

/-- A running time after a span: it rises while it runs, and stops at its limit (R45, R77, R84, R97, log 35). -/
def risen (runs : Bool) (limit span t : Time) : Time := if runs then max t (min limit (t + span)) else t

/-- Between two states a span of time has passed, and of the channels, the pace watch, the axes and the wind it has changed
only what the clock drives: the duty of the PWM period in progress, taken at a period's start (R10, log 30); the counters
of driven channels and of the wind, which rise at each pace tick (R28, R38, log 39); the wind's timer in RISING and EASING;
and the run and phase times of RUNNING motions, up to their limits (R45, R77, R84, R85, R87, R97, log 35). -/
structure TimePassed (s t : State) (span : Time) : Prop where
  now : t.now = s.now + span
  channels : ∀ n, t.chan n = { s.chan n with
    waveDuty :=
      if s.now / 2 < (s.now + span) / 2 then
        if (s.chan n).driven then min (s.chan n).ramped ((s.chan n).trimmed.getD (s.chan n).ramped) else 0
      else (s.chan n).waveDuty }
  pace : ∀ n, t.paceRec n =
    if (s.chan n).driven then
      { s.paceRec n with counter := min 65535 ((s.paceRec n).counter + ((s.now + span) / 4 - s.now / 4)) }
    else s.paceRec n
  rooms : ∀ k : RoomId, t.rooms[k] = { s.rooms[k] with
    runTime := risen (s.running (.room k)) (seconds s.layout.roomTimeout) span (s.rooms[k]).runTime }
  awning : t.awning = { s.awning with
    runTime := risen (s.running .awning) (seconds s.layout.awning.runTimeout) span s.awning.runTime }
  jacks : t.jacks = s.jacks
  jackSet : t.jackSet = { s.jackSet with
    runTime := risen (s.running .jacks && s.level.status != .active) (seconds s.layout.jackTimeout) span s.jackSet.runTime }
  level : t.level = { s.level with
    phaseTime := risen (s.running .jacks && s.level.status == .active)
      (match s.level.phase with
        | .contact => seconds s.layout.jackTimeout
        | .settle => ms s.layout.level.settleTime
        | .lift => seconds s.layout.level.passTimeout)
      span s.level.phaseTime }
  wind : t.wind = { s.wind with
    counter := if s.layout.wind.present then min 65535 (s.wind.counter + ((s.now + span) / 4 - s.now / 4)) else s.wind.counter
    timer := if s.wind.state = .rising ∨ s.wind.state = .easing then s.wind.timer + span else s.wind.timer }

/-- From one state to the other a channel has made its drive start in a direction, with the trim given: it ramps from its
start duty, or is AT_SPEED at once where that is its run duty, and its pace record is cleared (R8, R11, R12, R27). -/
structure DriveStarted (s u : State) (n : Chan) (d : Dir) (trim : Option Nat) : Prop where
  record : u.chan n = { s.chan n with
    drive := if (s.kindParams n).runDuty ≤ (s.kindParams n).startDuty then .atSpeed else .ramping
    dir := d, ramped := (s.kindParams n).startDuty, trimmed := trim, driveStart := some s.now, rampCount := 0, overRun := 0 }
  pace : u.paceRec n = { counter := 0, ring := [], tally := 0, stallRaised := false }

/-- The trim that R51 asks for of a driven motor of a two-motor room whose other motor is driven too, by its ramped duty and
the two counts. -/
def trimFor (d : Dir) (window ramped : Nat) : Option Nat → Option Nat → Option Nat
  | some mine, some other =>
    if window < max mine other - min mine other ∧ (if d = .outward then other < mine else mine < other) then
      some (max 64 (ramped - 32 * (max mine other - min mine other - window)))
    else none
  | _, _ => none

/-- From a state in which nothing moves to the other a motion has been placed, and stands: its group's claim and its entry,
in the load list or in the pause list by the entry's state (R112, R134, R135), with a motion period for BUZZ from the first
entry of the load list on (R130). Beside these only the channels named, with their pace records, and the records of the
group's own axes may have changed, and, where the drive-away alarm stood without its cause, the alarm with what it brings
(R125). -/
structure Placed (s u : State) (b : Claim) (e : Entry) (moved : List Chan) : Prop where
  claims : u.claim e.group = some b ∧ ∀ h, h ≠ e.group → u.claim h = s.claim h
  channels : ∀ x, x ∉ moved → u.chan x = s.chan x ∧ u.paceRec x = s.paceRec x
  axes : ∀ h, h ≠ e.group → axisRecords u h = axisRecords s h
  rest : u = { s with
    channels := u.channels, pace := u.pace, rooms := u.rooms, awning := u.awning, jacks := u.jacks, jackSet := u.jackSet
    level := u.level, claims := u.claims
    load := if e.state = .running then [e] else [], paused := if e.state = .running then [] else [e]
    nextOrder := s.nextOrder + 1
    motionPeriod := if e.state = .running then some s.now else s.motionPeriod
    motionPulse := e.state = .running || s.motionPulse
    alarm := u.alarm, faultCount := u.faultCount, faultPattern := u.faultPattern, ports := u.ports }
  alarm : s.alarm = false →
    u.alarm = false ∧ u.faultCount = s.faultCount ∧ u.faultPattern = s.faultPattern ∧ u.ports = s.ports

/-- A start of a channel in a direction is a drive start in that event: the channel is SEATED and at rest, and no reversal
dwell holds it (R8, R14). -/
def State.startsAtOnce (s : State) (n : Chan) (d : Dir) : Prop :=
  (s.chan n).census = .seated ∧ ((s.chan n).drive = .off ∨ (s.chan n).drive = .stopping) ∧
    ∀ l ∈ (s.chan n).lastStop, l.dir = d ∨ l.time + ms s.layout.reversalDwell ≤ s.now

/-- From one state to the other the valves of some jacks have been started, each in its direction, and the pump follows them:
those that a start drives at once have made their drive start, and so has the pump with the first of them, or it runs on
(R8, R68). -/
structure ValvesStarted (s t : State) (js : List JackId) (d : JackId → Dir) : Prop where
  valves : ∀ j ∈ js, ∀ n ∈ s.roleChan (.jack j), s.startsAtOnce n (d j) → DriveStarted s t n (d j) none
  pump : ∀ q ∈ s.roleChan .pump, (∃ j ∈ js, ∃ n ∈ s.roleChan (.jack j), s.startsAtOnce n (d j)) →
    (s.startsAtOnce q .outward → DriveStarted s t q .outward none) ∧ ((s.chan q).driven = true → t.chan q = s.chan q)

/-- From one state to the other the CONTACT phase of a RUNNING level run has begun: a jack with contact or at its stroke is
DONE and its valve left alone, every other is ACTIVE in EXTEND with its valve started, and where none is, SETTLE begins in
that event (R84). -/
structure ContactBegun (s t : State) : Prop where
  level : t.level = { s.level with
    phase := if ∃ j ∈ s.configuredJacks, (s.jack j).contact = false ∧ (s.jack j).atStroke = false then .contact else .settle
    phaseTime := 0 }
  jacks : ∀ j, t.jack j =
    if j ∉ s.configuredJacks then s.jack j
    else if (s.jack j).contact = true ∨ (s.jack j).atStroke = true then { s.jack j with phase := .done }
    else { s.jack j with phase := .active, dir := .outward }
  started : ValvesStarted s t
    (s.configuredJacks.filter fun j => !(s.jack j).contact && !(s.jack j).atStroke) fun _ => .outward
  resting : ∀ j ∈ s.configuredJacks, (s.jack j).contact = true ∨ (s.jack j).atStroke = true →
    ∀ n ∈ s.roleChan (.jack j), t.chan n = s.chan n

/-- An entry is the jack motion, and drives jacks down to the ground: an all-jack extend, or a level run in its CONTACT phase
(R74, R84). -/
def State.lowers (s : State) (e : Entry) : Prop :=
  s.entryOf .jacks = some e ∧ (e.action = .toward .outward ∨ (e.action = .level ∧ s.level.phase = .contact))

/-- The outcome of a jack motion that ends by itself, none of its jacks being left ACTIVE (section 4.6, R74; log 42 for a jack
that has lost its contact without a lift-off). -/
def ownOutcome (s : State) : Action → MotionOutcome
  | .jack _ .outward => .endReached
  | .toward .outward => if ∀ j ∈ s.configuredJacks, (s.jack j).contact = true then .stabilised else .limited
  | _ => .homeReached

/-- What follows in the event in which a jack of a jack motion becomes DONE; `s` is the state with the jack's record so, its
valve not stopped yet, and `t` the state after the event. With no jack left ACTIVE the motion ends by itself (R72, R74, R75,
R76), but a level run that is RUNNING passes on to SETTLE, out of LIFT with one pass more, and one in the pause list waits
for its resumption (R84, R87, R88). Else the motion goes on. The valve is stopped, and the pump runs on only while another
valve is driven (R68). -/
structure JackStops (s t : State) (e : Entry) (j : JackId) : Prop where
  ends : e.action ≠ .level → (∀ i ∈ s.jacksOf e.action, (s.jack i).phase ≠ .active) →
    Ended .jacks (ownOutcome s e.action) s t ∧
      (s.planRunning = false → ∀ i ∈ s.jacksOf e.action, t.valveDriven i = false)
  goesOn : (e.action = .level ∨ ∃ i ∈ s.jacksOf e.action, (s.jack i).phase = .active) →
    t.jacks = s.jacks ∧ t.load = s.load ∧ t.paused = s.paused ∧ t.claims = s.claims ∧ t.valveDriven j = false ∧
      (∀ i, i ≠ j → t.valveDriven i = s.valveDriven i) ∧
      ∀ q ∈ s.roleChan .pump,
        ((∃ i ∈ s.jacksOf e.action, i ≠ j ∧ s.valveDriven i = true) → (s.chan q).driven = true → (t.chan q).driven = true) ∧
        ((∀ i ∈ s.jacksOf e.action, i ≠ j → s.valveDriven i = false) → (t.chan q).driven = false)
  level : (e.action = .level ∨ ∃ i ∈ s.jacksOf e.action, (s.jack i).phase = .active) →
    t.level =
      if (∃ i ∈ s.jacksOf e.action, (s.jack i).phase = .active) ∨ s.running .jacks = false then s.level
      else
        match s.level.phase with
        | .contact => { s.level with phase := .settle, phaseTime := 0 }
        | .settle => s.level
        | .lift => { s.level with phase := .settle, phaseTime := 0, pass := s.level.pass + 1 }

/-- From one state to the other an entry of the pause list has been moved into the load list and handed to its controller,
and stands there (R140, R141). -/
def Moved (s t : State) (e : Entry) : Prop :=
  t.load = s.load ++ [{ e with state := .running, pausedSince := none }] ∧ t.paused = s.paused.filter fun x => decide (x ≠ e)

/-- From one state to the other a scan has moved an entry of the pause list, and its controller has taken it up again
(R141). -/
structure Resumed (s t : State) (e : Entry) : Prop where
  /-- Each motor in TRAVEL of a room or the awning makes its drive start, trimmed where it leads; a FINISHED motor rests; the
  record keeps its run time (R44, R54, R101). -/
  slides : ∀ id d, id.group = e.group → e.action = .toward d → s.racked id = false →
    (∀ m ∈ s.motors id, ∃ n ∈ s.motorChan id m, s.startsAtOnce n d) →
    (d = .outward → ∀ m ∈ s.motors id, ∀ c ∈ (s.motor id m).count, c < s.travelLimit id) →
    (d = .stowing → ∀ m ∈ s.motors id, (s.motor id m).phase = .travel → s.motorHome id m = false) →
    Moved s t e ∧ (t.slider id).state = (s.slider id).state ∧ (t.slider id).runTime = (s.slider id).runTime ∧
    ∀ m ∈ s.motors id, ∀ n ∈ s.motorChan id m,
      t.motor id m = { s.motor id m with
        tally := if (s.motor id m).phase = .travel then 0 else (s.motor id m).tally } ∧
      ((s.motor id m).phase = .travel → DriveStarted s t n d
        (match id, m with
        | .room k, .a =>
          if (s.rooms[k]).motorB.phase = .travel ∧ s.twoMotors id = true then
            trimFor d (s.layout.rooms[k]).syncWindow (s.kindParams n).startDuty (s.rooms[k]).motorA.count
              (s.rooms[k]).motorB.count
          else none
        | .room k, .b =>
          if (s.rooms[k]).motorA.phase = .travel then
            trimFor d (s.layout.rooms[k]).syncWindow (s.kindParams n).startDuty (s.rooms[k]).motorB.count
              (s.rooms[k]).motorA.count
          else none
        | .awning, _ => none)) ∧
      ((s.motor id m).phase ≠ .travel → t.enOut n = false ∧ (t.chan n).lastStop = (s.chan n).lastStop)
  /-- A motor that was seating when its motion was shed finishes at its drive start, without a second seat drive (R54,
  R101). -/
  seats : ∀ id, id.group = e.group → e.action = .toward .stowing → s.motorChan id .b = none →
    (∃ n ∈ s.motorChan id .a, s.startsAtOnce n .stowing) → (s.motor id .a).phase = .travel → s.motorHome id .a = true →
    Ended e.group .homeReached { s with supply := t.supply } t
  /-- The valve of each ACTIVE jack is started, and a jack that is DONE is not, such as one at its target; the records of the
  jacks and of a level run stand (R80, R88). -/
  jacks : e.group = .jacks → ¬(e.action = .level ∧ (e.state = .waiting ∨ s.level.phase = .settle)) →
    (∃ j ∈ s.jacksOf e.action, (s.jack j).phase = .active) →
    Moved s t e ∧ t.jacks = s.jacks ∧ t.level = s.level ∧
      ValvesStarted s t ((s.jacksOf e.action).filter fun j => decide ((s.jack j).phase = .active)) (fun j => (s.jack j).dir) ∧
      ∀ j ∈ s.jacksOf e.action, (s.jack j).phase ≠ .active → ∀ n ∈ s.roleChan (.jack j), t.chan n = s.chan n
  /-- A level run shed in SETTLE settles for a full settle time; one shed in CONTACT or LIFT with no jack left ACTIVE passes on
  to SETTLE, out of LIFT with one pass more (R88). -/
  settles : e.group = .jacks → e.action = .level → e.state ≠ .waiting →
    (s.level.phase = .settle ∨ ∀ j ∈ s.configuredJacks, (s.jack j).phase ≠ .active) →
    Moved s t e ∧ t.jacks = s.jacks ∧ (s.level.phase = .settle → t.channels = s.channels) ∧
      t.level = { s.level with
        phase := .settle, phaseTime := 0, pass := if s.level.phase = .lift then s.level.pass + 1 else s.level.pass }
  /-- A level run that has never run begins its CONTACT phase (R83, R84). -/
  begins : e.group = .jacks → e.action = .level → e.state = .waiting → Moved s t e ∧ ContactBegun s t

end Sys2Proof.Machine

namespace Sys2Proof.Safety

open Sys2Proof.Machine

/-- No channel is enabled unless it is SEATED and belongs to a RUNNING motion in the load list (R9). -/
def enableLaw (s : State) : Bool := allChans.all fun n => !s.enOut n || s.mayDrive n

/-- Every known count of a slider lies between 0 and its travel limit (R41, R95). -/
def countLaw (s : State) : Bool :=
  ([Slider.room 0, Slider.room 1, Slider.room 2, Slider.room 3, Slider.awning] : List Slider).all fun id =>
    !s.configured id.group || (s.motors id).all fun m =>
      match (s.motor id m).count with
      | some c => decide (c ≤ s.travelLimit id)
      | none => true

/-- While a motor of a two-motor room is driven and both counts are known, they stand less than the rack limit apart
(R50). -/
def rackLaw (s : State) : Bool :=
  allRooms.all fun k =>
    match (s.rooms[k]).motorA.count, (s.rooms[k]).motorB.count with
    | some a, some b =>
      !(s.twoMotors (.room k) && s.anyMotorDriven (.room k)) || decide (max a b - min a b < (s.layout.rooms[k]).rackLimit)
    | _, _ => true

/-- Every known extension count lies within its ceiling (R64). -/
def strokeLaw (s : State) : Bool :=
  s.configuredJacks.all fun j =>
    match (s.jack j).count with
    | some c => decide (c ≤ s.countCeiling j)
    | none => true

/-- A stall limit is never below its stall floor, and a mask limit lies below a pace above 0 (R31). -/
def paceLaw (s : State) : Bool :=
  allChans.all fun n =>
    decide ((s.kindParams n).stallFloor ≤ s.stallLimit n) &&
      match s.pace? n with
      | some p => p == 0 || decide (s.maskLimit n < p)
      | none => true

/-- While a level run exists, no jack's valve is driven in the retract direction (R83). -/
def levelLaw (s : State) : Bool :=
  !s.levelActive || allJacks.all fun j =>
    match s.roleChan (.jack j) with
    | some n => !(s.chan n).driven || (s.chan n).dir == .outward
    | none => true

/-- While the wind state is GUSTY or EASING, the awning is not driven outward (R105). -/
def windLaw (s : State) : Bool :=
  !s.windy || match s.roleChan .awning with
    | some n => !(s.chan n).driven || (s.chan n).dir == .stowing
    | none => true

/-- While the road state is ROAD, both lists are empty (R123). -/
def roadLaw (s : State) : Bool := s.road != .road || (s.load.isEmpty && s.paused.isEmpty)

/-- No jack is driven in the retract direction while a configured room is not CLOSED or the awning is not STOWED
(R127). -/
def retractLaw (s : State) : Bool :=
  !(s.roomsOut || s.awningNotStowed) || allJacks.all fun j =>
    match s.roleChan (.jack j) with
    | some n => !(s.chan n).driven || (s.chan n).dir == .outward
    | none => true

/-- No room that needs support is driven OUT unless the jack set state is STABILISED or LEVELLED (R127). -/
def supportLaw (s : State) : Bool :=
  s.supported || allRooms.all fun k => !(s.layout.rooms[k]).needsSupport ||
    (s.groupChans (.room k)).all fun n => !(s.chan n).driven || (s.chan n).dir == .stowing

/-- The units of the load list never exceed the budget (R135). -/
def budgetLaw (s : State) : Bool := decide (s.heldUnits ≤ s.budget)

/-- No two entries of the two lists are of one group (R135). -/
def listLaw (s : State) : Bool := allGroups.all fun g => ((s.load ++ s.paused).filter fun e => e.group == g).length ≤ 1

/-- Every motion in either list belongs to the claim of its group (R110). -/
def claimLaw (s : State) : Bool :=
  (s.load ++ s.paused).all fun e =>
    match s.claim e.group with
    | some c => c.owner == e.owner && c.mode == e.mode
    | none => false

/-- No claim stands while a store write is in flight (R181). -/
def writeLaw (s : State) : Bool := s.write.isNone || s.allFree

/-- At an entry into GUSTY the wind watch takes the AWNING claim and has its retract placed, where the awning is not STOWED,
the road state is PARKED and the group is available; `s` is the state before the event, `u` the state at its moment and `t`
the state after it. In a store write it leaves the check for the write's completion (R107, R120, R139, R157). -/
def WindTakesTheAwning (s u t : State) : Prop :=
  (s.write.isSome → t.wind.gustMissed = true ∧ ∀ g, s.claim g = none → t.claim g = none) ∧
  (s.write = none → s.sliderState .awning ≠ .closed → s.road = .parked → s.configured .awning = true →
    s.unavailable .awning = false →
    (∀ b, t.claim .awning = some b → b.owner = .wind) ∧
    ((∀ b, s.claim .awning = some b → b.owner ≠ .wind) →
      (∀ e ∈ t.motions, e.group = .awning → s.nextOrder ≤ e.order) ∧
      (s.claim .awning ≠ none → ¬ s.planRunning → t.noticed .preempt = true) ∧
      ((s.unplanned .awning ∨ ∃ b, s.claim .awning = some b ∧ b.owner = .sequencer) →
        (t.claim .awning = some
            { owner := .wind, mode := .auto, action := .toward .stowing, deadline := none, ended := false } ∧
          ∃ o, s.nextOrder ≤ o ∧
            { group := .awning, owner := .wind, mode := .auto, action := .toward .stowing
              units := s.motionUnits .awning (.toward .stowing), order := o, state := .running
              pausedSince := none : Entry } ∈ t.motions) ∨
        (t.claim .awning = none ∧ t.still .awning ∧ t.noticed .motionEnd = true)) ∧
      (∀ e, s.entryOf .awning = some e → t.noticed .motionEnd = true ∧
        (e.action.dir = .outward → t.noticed .interlock = true) ∧
        (s.planRunning = false → (∀ n, s.roleChan .awning = some n →
            ¬((t.chan n).driven = true ∧ (t.chan n).dir = .outward)) ∧
          (¬ t.still .awning → t.outcomeOf .awning =
            some (if e.action.dir = .outward then .interlock else .preempted)))) ∧
      (∀ b, s.claim .awning = some b → b.owner = .sequencer → s.planRunning = true → s.still .awning →
        t.noticed .plan = true ∧ t.noticed .preempt = true ∧
        t.plan = { s.plan with
          status := .preempted
          failure := some { step := s.plan.stepIndex, group := .awning, reason := none, cause := none
                            outcome := some .preempted, fault := none } } ∧
        (s.motions = [] → ∀ g c, g ≠ .awning → s.claim g = some c → c.owner = .sequencer → t.claim g = none)) ∧
      (∀ e units, units = s.motionUnits .awning (.toward .stowing) →
        e = { group := .awning, owner := .wind, mode := .auto, action := .toward .stowing, units := units
              order := s.nextOrder, state := .running, pausedSince := none : Entry } →
        s.planRunning = false → s.still .awning → s.fallenPermit = none → s.load.Nodup →
        (∀ x ∈ s.load, x.owner ≠ .wind) → s.allHome .awning = false →
        (units + unitsOf s.load ≤ s.budget → t.load = s.load ++ [e] ∧ t.paused = s.paused) ∧
        (units ≤ s.budget → s.budget < units + unitsOf s.load → t.noticed .supply = true ∧
          ∃ k, t.load = s.load.take k ++ [e] ∧ units + unitsOf (s.load.take k) ≤ s.budget ∧
            s.budget < units + unitsOf (s.load.take (k + 1))) ∧
        (s.budget < units → t.load = s.load ∧
          ∃ x ∈ t.paused, x = { e with state := .waiting, pausedSince := some u.now }))))

/-! ### What the validation of a commit finds (R180) -/

/-- A field of the record with a range of its own: its first byte, its value, and the least and the greatest value that a
commit takes. -/
structure RangedField where
  first : Nat
  value : Nat
  least : Nat
  greatest : Nat

/-- Duty, ramp, current and blank of a kind whose parameters begin at a byte (R11). -/
def dutyFields (m : Image) (b : Nat) : List RangedField :=
  [⟨b, m.u8 b, 0, 255⟩, ⟨b + 1, m.u8 (b + 1), 1, 255⟩, ⟨b + 2, m.u8 (b + 2), 1, 255⟩, ⟨b + 3, m.u16 (b + 3), 1, 4095⟩,
    ⟨b + 5, m.u16 (b + 5), 0, 2000⟩]

/-- Mask fraction, stall factor, stall floor, start limit and filter of a kind whose parameters begin at a byte (section
2.3). -/
def pulseFields (m : Image) (b : Nat) : List RangedField :=
  [⟨b + 8, m.u8 (b + 8), 0, 127⟩, ⟨b + 9, m.u8 (b + 9), 20, 64⟩, ⟨b + 10, m.u16 (b + 10), 20, 5000⟩,
    ⟨b + 12, m.u16 (b + 12), 200, 5000⟩, ⟨b + 14, m.u8 (b + 14), 0, 3⟩]

/-- Segment 6: dwell, hold window, pause limit, timeouts, supply scale and the auto-stow flag, with the ranges that their
chapters give. -/
def generalFields (m : Image) : List RangedField :=
  [⟨96, m.u16 96, 100, 2000⟩, ⟨98, m.u16 98, 150, 1000⟩, ⟨100, m.u16 100, 10, 300⟩, ⟨102, m.u16 102, 10, 300⟩,
    ⟨104, m.u16 104, 10, 600⟩, ⟨106, m.u16 106, 128, 512⟩, ⟨108, m.u8 108, 0, 1⟩]

/-- Segment 18: tilt and level run (sections 4.8 and 4.9). -/
def levelFields (m : Image) : List RangedField :=
  [⟨288, m.u16 288, 0, 4095⟩, ⟨290, m.u16 290, 0, 4095⟩, ⟨292, m.u16 292, 10, 2000⟩, ⟨294, m.u8 294, 5, 100⟩,
    ⟨295, m.u8 295, 1, 8⟩, ⟨296, m.u16 296, 100, 1000⟩, ⟨298, m.u16 298, 1000, 5000⟩, ⟨300, m.u16 300, 10, 300⟩,
    ⟨302, m.u8 302, 1, 50⟩]

/-- Segment 27: wind (R39, section 5.5). -/
def windFields (m : Image) : List RangedField :=
  [⟨432, m.u8 432, 0, 1⟩, ⟨433, 65536 * m.u8 433 + m.u16 434, 1000, 200000⟩, ⟨436, m.u8 436, 0, 3⟩,
    ⟨437, m.u16 437, 20, 999⟩, ⟨439, m.u16 439, 10, 998⟩, ⟨441, m.u8 441, 1, 30⟩, ⟨442, m.u16 442, 10, 900⟩]

/-- The parameters of a room that begin at a byte (section 3.1). -/
def roomFields (m : Image) (b : Nat) : List RangedField :=
  [⟨b + 1, m.u16 (b + 1), 1, 20000⟩, ⟨b + 3, m.u16 (b + 3), 1, 500⟩, ⟨b + 5, m.u8 (b + 5), 0, 127⟩,
    ⟨b + 6, m.u8 (b + 6), 1, 100⟩, ⟨b + 7, m.u8 (b + 7), 0, 200⟩, ⟨b + 8, m.u8 (b + 8), 0, 1⟩, ⟨b + 9, m.u8 (b + 9), 0, 1⟩]

/-- The parameters of the awning (R94). -/
def awningFields (m : Image) : List RangedField :=
  [⟨176, m.u16 176, 1, 20000⟩, ⟨178, m.u16 178, 1, 500⟩, ⟨180, m.u8 180, 0, 127⟩, ⟨181, m.u16 181, 10, 300⟩]

/-- The unsigned parameters of a jack that begin at a byte (R62). -/
def jackFields (m : Image) (b : Nat) : List RangedField :=
  [⟨b + 4, m.u16 (b + 4), 0, 4000⟩, ⟨b + 6, m.u8 (b + 6), 1, 50⟩, ⟨b + 7, m.u16 (b + 7), 1, 4095⟩,
    ⟨b + 9, m.u16 (b + 9), 0, 1000⟩]

/-- A role code stands at some channel of the record. -/
def roleGiven (m : Image) (c : Nat) : Bool := allChans.any fun n => m.u8 (2 * n.val) == c

/-- The jacks that the record configures (R62). -/
def jacksGiven (m : Image) : List JackId := allJacks.filter fun j => roleGiven m (9 + j.val)

/-- The fields with a range of their own that a commit tests: those of a room, a jack or the awning only where a channel's
role configures it. -/
def testedFields (m : Image) : List RangedField :=
  (([32, 48, 64].map fun b => dutyFields m b) ++ ([32, 64, 80].map fun b => pulseFields m b)).flatten ++ generalFields m ++
    levelFields m ++ windFields m ++
    (allRooms.map fun k => if roleGiven m (2 * k.val + 1) || roleGiven m (2 * k.val + 2) then roomFields m (112 + 16 * k.val)
      else []).flatten ++
    (if roleGiven m 16 then awningFields m else []) ++
    ((jacksGiven m).map fun j => jackFields m (192 + 16 * j.val)).flatten

/-- Validation finds a channel's role or scale at fault at a byte, for a channel count (R180). -/
def BadChannel (m : Image) (count a : Nat) : Prop :=
  ∃ n : Chan, (a = 2 * n.val + 1 ∧ m.u8 (2 * n.val + 1) % 8 = 7) ∨
    (a = 2 * n.val ∧ ∃ c, c = m.u8 (2 * n.val) ∧
      (16 < c ∨ (count ≤ n.val ∧ c ≠ 0) ∨ (c ≠ 0 ∧ ∃ i : Chan, i < n ∧ m.u8 (2 * i.val) = c) ∨
        (∃ k : RoomId, c = 2 * k.val + 2 ∧ roleGiven m (2 * k.val + 1) = false) ∨
        (9 ≤ c ∧ c ≤ 14 ∧ ((jacksGiven m).length < 3 ∨ roleGiven m 15 = false)) ∨ (c = 15 ∧ jacksGiven m = [])))

/-- Validation finds a rule that ties two fields together broken, or a field whose range is no interval of
unsigned numbers, at a byte (R180, R11, R62, section 2.3). -/
def BadTie (m : Image) (a : Nat) : Prop :=
  (∃ b, (b = 32 ∨ b = 48 ∨ b = 64) ∧ a = b + 1 ∧ m.u8 (b + 1) < m.u8 b) ∨
  (∃ b, (b = 32 ∨ b = 64 ∨ b = 80) ∧ a = b + 7 ∧ m.u8 a ≠ 1 ∧ m.u8 a ≠ 2 ∧ m.u8 a ≠ 4 ∧ m.u8 a ≠ 8) ∨
  (∃ k : RoomId, (roleGiven m (2 * k.val + 1) = true ∨ roleGiven m (2 * k.val + 2) = true) ∧
    ((a = 112 + 16 * k.val ∧ m.u8 a ≠ if roleGiven m (2 * k.val + 2) then 2 else 1) ∨
      (a = 119 + 16 * k.val ∧ m.u8 a ≤ m.u8 (118 + 16 * k.val)))) ∨
  (∃ j ∈ jacksGiven m, (a = 192 + 16 * j.val ∨ a = 194 + 16 * j.val) ∧ 1200 < (m.s16 a).natAbs) ∨
  (a = 439 ∧ m.u16 437 ≤ m.u16 439)

/-- Validation finds a plan at fault at a byte: more than 8 steps, a step of 0 or more than 6 groups, an entry with no
group, with an action that its group has not, or with the group of an entry before it (R180). By inference the byte named
for a bad count of groups is the count's own (log 26). -/
def BadPlan (m : Image) (a : Nat) : Prop :=
  ∃ p, (p = 304 ∨ p = 368) ∧
    ((a = p ∧ 8 < m.u8 p) ∨
      ∃ i b, i < m.u8 p ∧ i < 8 ∧ b = p + 1 + 7 * i ∧
        ((a = b ∧ (m.u8 b = 0 ∨ 6 < m.u8 b)) ∨
          ∃ e v, e < m.u8 b ∧ e < 6 ∧ a = b + 1 + e ∧ v = m.u8 a ∧
            (v / 16 = 0 ∨ 6 < v / 16 ∨ v % 16 = 0 ∨ 3 < v % 16 ∨ (v % 16 = 3 ∧ v / 16 ≠ 5) ∨
              ∃ d, d < e ∧ m.u8 (b + 1 + d) / 16 = v / 16)))

/-- Validation finds a failure that it names by a byte, for a channel count (R180). -/
def FailsAt (m : Image) (count a : Nat) : Prop :=
  (∃ f ∈ testedFields m, a = f.first ∧ (f.value < f.least ∨ f.greatest < f.value)) ∨ BadChannel m count a ∨ BadTie m a ∨
    BadPlan m a

/-- The action is one that a motion of the group can make: a level run or a single jack belongs to JACKS (R110). -/
def actionFits (g : Group) : Action → Bool
  | .toward _ => true
  | .level => g == .jacks
  | .jack _ _ => g == .jacks

/-- The stored plans keep the bounds of R147 and R180: at most 8 steps, no group twice in a step, and no action that its
group cannot make. -/
def PlansFit (l : Layout) : Prop :=
  ∀ n, (l.planSteps n).length ≤ 8 ∧
    ∀ st ∈ l.planSteps n, (st.map Prod.fst).Nodup ∧ ∀ x ∈ st, actionFits x.1 x.2 = true

/-- A running plan stands at one of its steps, with a slot for each group of it, and holds the claim of every group that its
steps name (R147, R150, R152). -/
def PlanStands (s : State) : Prop :=
  ∃ n, s.plan.name = some n ∧ 1 ≤ s.plan.stepIndex ∧ s.plan.stepIndex ≤ s.plan.stepCount ∧
    s.plan.stepCount = (s.layout.planSteps n).length ∧ s.plan.slots.map Slot.group = s.presentStep.map Prod.fst ∧
    ∀ g ∈ planGroups (s.layout.planSteps n), ∃ c, s.claim g = some c ∧ c.owner = .sequencer ∧ c.mode = .auto

/-- What every step keeps while the layout stands: the two lists, the claim table, the running plan, the channels, the jacks
and the level run agree with one another. -/
structure Regular (s : State) : Prop where
  /-- No reset is in progress. -/
  awake : s.inReset = none
  /-- No two channels have one role (R180). -/
  roles : ∀ i n : Chan, i ≠ n → s.role i = s.role n → s.role i = .none
  /-- Every motion is one that its group can make, and its claim names its action (R110). -/
  actions : ∀ e ∈ s.load ++ s.paused,
    actionFits e.group e.action = true ∧ ∀ c, s.claim e.group = some c → c.action = e.action
  /-- The stored plans keep their bounds (R180). -/
  plans : PlansFit s.layout
  /-- A running plan stands at one of its steps and holds its claims (R147, R150). -/
  planned : s.planRunning = true → PlanStands s
  /-- A motion of the sequencer is that of an ACTIVE slot of the running plan's present step (R152, R154). -/
  sequenced : ∀ e ∈ s.load ++ s.paused, e.owner = .sequencer → s.planRunning = true ∧ ⟨e.group, none⟩ ∈ s.plan.slots
  lists : listLaw s = true
  claims : claimLaw s = true
  writes : writeLaw s = true
  /-- No motion in either list has lost its permit (R128). -/
  permits : s.fallenPermit = none
  /-- A channel that is driven or waits out a dwell may be driven, in the direction of the motion it belongs to; the pump
  always pumps (R9, R14, R68). -/
  drives : ∀ n, (s.chan n).driven = true ∨ (s.chan n).drive = .dwelling →
    (s.chan n).census = .seated ∧
      ∃ e ∈ s.load, n ∈ s.motionChans e ∧ (s.role n ≠ .pump → (s.chan n).dir = e.action.dir)
  /-- An ACTIVE jack of the jack motion goes its way (R72). -/
  jacks : ∀ e ∈ s.load ++ s.paused, e.group = .jacks → ∀ j ∈ s.jacksOf e.action, (s.jack j).phase = .active →
    (s.jack j).dir = e.action.dir
  /-- A room or the awning in motion reads so (R44, R97). -/
  shown : s.showsMotions
  /-- A level run has its motion (R83). -/
  level : s.levelActive = true → ∃ e ∈ s.load ++ s.paused, e.action = .level

/-- A state that meets every law of the device. -/
def lawful (s : State) : Bool :=
  enableLaw s && countLaw s && rackLaw s && strokeLaw s && paceLaw s && levelLaw s && windLaw s && roadLaw s && retractLaw s &&
    supportLaw s && budgetLaw s && listLaw s && claimLaw s && writeLaw s

end Sys2Proof.Safety
end

