-- ==== Sys2Proof/WellFormed.lean ====
section
/-! DEFINITION. When a command is well formed: the fields of a request lie in the ranges of R166, and one sample hands
over no line twice (R23). -/

namespace Sys2Proof

/-- A byte lies in a range, both ends included. -/
def inRange (lo hi : Nat) (b : Byte) : Bool := decide (lo ≤ b.toNat) && decide (b.toNat ≤ hi)

/-- A group code (R166). -/
def groupInRange (b : Byte) : Bool := inRange 1 6 b

/-- A direction code (R166). -/
def dirInRange (b : Byte) : Bool := inRange 1 2 b

/-- The action code of an AUTO: a direction, or LEVEL, which is 3, with JACKS, which is 5 (R166). -/
def actionInRange (group action : Byte) : Bool := dirInRange action || (action == 3 && group == 5)

/-- An axis number (R166). -/
def axisInRange (b : Byte) : Bool := inRange 1 4 b || inRange 11 16 b || b == 21 || inRange 31 34 b

/-- A class set whose four positions above the twelve are clear (R166). -/
def classesInRange (w : ClassWord) : Bool := w &&& 0xF000#16 == 0#16

/-- A segment number (R166). -/
def segmentInRange (b : Byte) : Bool := inRange 0 31 b

/-- No element of a list stands in it twice. -/
def noRepeats : List Line → Bool
  | [] => true
  | x :: rest => !rest.contains x && noRepeats rest

/-- The command is well formed. -/
def Instr.wellFormed : Instr → Bool
  | .move _ group dir => groupInRange group && dirInRange dir
  | .auto _ group action => groupInRange group && actionInRange group action
  | .moveJack _ jack dir => inRange 1 6 jack && dirInRange dir
  | .release _ group => groupInRange group
  | .clearFault _ group => groupInRange group
  | .runPlan _ plan => inRange 1 2 plan
  | .readAxis _ axis => axisInRange axis
  | .ack _ classes => classesInRange classes
  | .route _ classes => classesInRange classes
  | .layoutLoad _ segment _ => segmentInRange segment
  | .layoutRead _ segment => segmentInRange segment
  | .initialAcceptedLevel levels => noRepeats (levels.map fun x => x.1)
  | .coldReset _ => true
  | .warmReset _ => true
  | .resetEnd => true
  | .stop _ => true
  | .status _ => true
  | .layoutCommit _ => true
  | .storeWriteComplete => true
  | .linkCharacter _ _ _ _ => true
  | .partialFrameTimeout _ => true
  | .replySent _ => true
  | .censusRead _ _ => true
  | .recensusPass _ => true
  | .confirmingRead _ _ => true
  | .stoppingEnd _ => true
  | .dwellEnd _ => true
  | .rampStep _ => true
  | .analogSample _ _ => true
  | .overcurrent _ => true
  | .contactLost _ => true
  | .plsPulse _ => true
  | .pulseNoise _ => true
  | .stall _ => true
  | .wndPulse => true
  | .windSpeedTick => true
  | .gustHoldReached => true
  | .calmHoldReached => true
  | .roomHomeClosed _ _ => true
  | .roomHomeOpened _ _ => true
  | .roomSeatDeadline _ _ => true
  | .roomRunTimeout _ => true
  | .jackHomeClosed _ => true
  | .jackHomeOpened _ => true
  | .jackRunTimeout => true
  | .tiltSample _ _ => true
  | .contactPhaseTimeout => true
  | .settleEnd => true
  | .passTimeout => true
  | .awningHomeClosed => true
  | .awningHomeOpened => true
  | .awningSeatDeadline => true
  | .awningRunTimeout => true
  | .holdDeadline _ => true
  | .parkSet => true
  | .parkReleased => true
  | .ignRise => true
  | .faultPatternEnd => true
  | .motionPeriod => true
  | .supplySample _ => true
  | .pauseLimit _ => true

end Sys2Proof
end

