-- ==== Sys2Proof/Certificates/Slice0/Obligations.lean ====
section
/-! DEFINITION. The statements about the block, from the numbered rules of the spec. -/

open Sys2Proof Sys2Proof.Machine

/-! ### The queue and the clock -/

/-- A step takes the command at the front of the queue and runs it with the queue's rest. -/
def Obligations.StepTakesFrontCommand : Prop :=
  ∀ (s : State) (c : Instr) (rest : List Instr),
    s.pending = c :: rest → step s = exec c { s with pending := rest }

/-- The model's choice (log 2): on an empty queue out of reset a step is one sampling step of 25 µs. It changes the clock,
what the clock drives (TimePassed, with the PWM periods of log 30, the run times of log 35 and the pace ticks of log 39),
the conditioning of the inputs, the time for which RESET has been low, and the queue, and nothing else. A discrete line
sampled now keeps its last three samples; a seat or kind line takes the level of two of them without an event, and IGN its
fall (R21, R22); a pulse line is filtered (R24, R26). Among the events it queues are the pulses accepted (R25), the changes
of PARK (R22), the warm reset of a RESET low for 1 ms (R183), and the stalls, hold deadlines, sent replies and supply
samples that are due (log 10); when a reply is sent is log 29. On an empty queue in a cold reset nothing happens, in a warm
reset RESET_END comes when RESET is high, and in a reset every command but the resets and their end changes nothing
(log 31). -/
def Obligations.IdleStepIsOneSample : Prop :=
  ∀ (s : State), s.pending = [] →
    (s.inReset = none → ∃ t, step s = .next t ∧ TimePassed s t 1 ∧ t.tickedAt = some t.now ∧
      t.resetLow = (if s.pins.reset then 0 else min 40 (s.resetLow + 1)) ∧
      (∀ l, ¬(s.conditioned l = true ∧ s.lineOrigin l < t.now ∧ (t.now - s.lineOrigin l) % 40 = 0) → t.line l = s.line l) ∧
      (∀ l, s.conditioned l = true → s.lineOrigin l < t.now → (t.now - s.lineOrigin l) % 40 = 0 →
        (t.line l).samples = ((s.line l).samples ++ [s.pinOf l]).drop ((s.line l).samples.length + 1 - 3) ∧
        ((t.line l).samples.length < 3 → (t.line l).accepted = (s.line l).accepted)) ∧
      t.park.accepted = s.park.accepted ∧
      (∀ n, (t.line (.hom n)).accepted = (s.line (.hom n)).accepted) ∧
      (∀ l a b c, s.conditioned l = true → s.lineOrigin l < t.now → (t.now - s.lineOrigin l) % 40 = 0 →
        (t.line l).samples = [a, b, c] →
        ((∃ n, l = .sea n ∨ l = .seb n ∨ l = .knd1 n ∨ l = .knd0 n) →
          (t.line l).accepted = (s.line l).accepted.map fun _ => (a && b) || (a && c) || (b && c)) ∧
        (l = .ign → (t.line l).accepted = (s.line l).accepted.map fun x => x && ((a && b) || (a && c) || (b && c)))) ∧
      (∀ (old new : PulseLine) (pin : Bool) (count : Nat),
        (∃ n, s.hasPulses n = true ∧ old = (s.lines[n]).pls ∧ new = (t.lines[n]).pls ∧ pin = (s.pins.channels[n]).pls ∧
            count = (match (s.kindParams n).filter with | 0 => 1 | 1 => 5 | 2 => 9 | _ => 17)) ∨
          (s.layout.wind.present = true ∧ old = s.wndLine ∧ new = t.wndLine ∧ pin = s.pins.wnd ∧
            count = (match s.layout.wind.filter with | 0 => 1 | 1 => 5 | 2 => 9 | _ => 17)) →
        new = (match old.accepted with
          | none => { accepted := some pin, run := 0 }
          | some a =>
            if pin = a then { accepted := some a, run := 0 }
            else if count ≤ old.run + 1 then { accepted := some pin, run := 0 }
            else { accepted := some a, run := old.run + 1 })) ∧
      (∀ n, s.hasPulses n = false → (t.lines[n]).pls = (s.lines[n]).pls) ∧
      (s.layout.wind.present = false → t.wndLine = s.wndLine) ∧
      (∀ n, .plsPulse n ∈ t.pending ↔ s.hasPulses n = true ∧ (s.lines[n]).pls.accepted = some false ∧
        (t.lines[n]).pls.accepted = some true) ∧
      (.wndPulse ∈ t.pending ↔ s.layout.wind.present = true ∧ s.wndLine.accepted = some false ∧
        t.wndLine.accepted = some true) ∧
      (∀ up, (if up then Instr.parkSet else Instr.parkReleased) ∈ t.pending ↔
        t.now % 40 = 0 ∧ s.park.accepted = some !up ∧ t.park.samples.length = 3 ∧
          2 ≤ (t.park.samples.filter fun x => x == up).length) ∧
      (∀ straps, .warmReset straps ∈ t.pending ↔ s.pins.reset = false ∧ s.resetLow + 1 = 40 ∧ straps = s.pins.straps) ∧
      (∀ n, .stall n ∈ t.pending ↔ t.mayStall n = true ∧ t.stallLimit n ≤ (t.paceRec n).counter) ∧
      (∀ g, .holdDeadline g ∈ t.pending ↔
        ∃ b due, s.claim g = some b ∧ b.mode = .hold ∧ b.deadline = some due ∧ due ≤ t.now) ∧
      (∀ p, .replySent p ∈ t.pending ↔ ∃ r rest start, (s.port p).replies = r :: rest ∧
        (s.port p).headSince = some start ∧ start + sendTime s.straps.rate r.length ≤ t.now) ∧
      (∀ raw, .supplySample raw ∈ t.pending ↔ t.now % 400 = 0 ∧ raw = s.pins.vsup) ∧
      { t with
        pending := s.pending, now := s.now, tickedAt := s.tickedAt, resetLow := s.resetLow, channels := s.channels
        lines := s.lines
        park := s.park, ign := s.ign, wndLine := s.wndLine, pace := s.pace, rooms := s.rooms
        awning := s.awning, jackSet := s.jackSet, level := s.level, wind := s.wind } = s) ∧
    (s.inReset = some .cold → step s = .next s) ∧
    (s.inReset = some .warm → step s = .next (if s.pins.reset then { s with pending := [.resetEnd] } else s)) ∧
    (∀ c, s.inReset.isSome → (∀ k straps, c ≠ resetCommand k straps) → c ≠ .resetEnd → exec c s = .next s)

/-- What the passing of time to a moment changes, by the model's choice (log 3): the clock, and what it drives, which is the
counters of the pace watch and of the wind, whose ticks are counted from the end of reset (log 39), the wind's timer, the
run and phase times of RUNNING motions (log 35) and the duties of the PWM periods (log 30), and nothing else; and when a
moment that lies ahead may be taken: not at a moment that an idle step has sampled. -/
def Obligations.ClockMovesToTheMoment : Prop :=
  ∀ (s : State) (moment : Time),
    (s.comes moment = true ↔ moment ≤ s.now ∨ s.tickedAt ≠ some s.now) ∧
    (∀ run limit, s.mayReach run limit = true ↔ limit ≤ run ∨ s.tickedAt ≠ some s.now) ∧
    (moment ≤ s.now → s.advanceTo moment = s) ∧
    (s.now < moment → TimePassed s (s.advanceTo moment) (moment - s.now)) ∧
    { s.advanceTo moment with
      now := s.now, channels := s.channels, pace := s.pace, rooms := s.rooms, awning := s.awning
      jackSet := s.jackSet, level := s.level, wind := s.wind } = s

/-! ### Resets -/

/-- What a reset of either kind leaves (R183, R186, R19, R27, R110, R123, R130, R132, R133, R145, R148, R175). That the
straps are those of the command that begins the reset is the model's choice (log 53). -/
def Obligations.ResetClearsTheBlock : Prop :=
  ∀ (s : State) (k : ResetKind) (straps : Straps), ∃ t, exec (resetCommand k straps) s = .next t ∧
    t.inReset = some k ∧ t.straps = straps ∧
    (∀ n, t.enOut n = false ∧ t.dirOut n = false ∧ (∀ phase, t.drvOut n phase = false) ∧ (t.chan n).lastStop = none ∧
      t.paceRec n = { counter := 0, ring := [], tally := 0, stallRaised := false }) ∧
    (∀ l, t.line l = { samples := [], accepted := none }) ∧
    (∀ p, t.attn p = false ∧ ∀ phase, t.txOut p phase = true) ∧
    t.road = .none ∧ (∀ g, t.claim g = none) ∧ t.load = [] ∧ t.paused = [] ∧
    t.plan.status = .none ∧ t.level.status = .none ∧
    t.alarm = false ∧ t.faultCount = 0 ∧ t.buzz = false ∧ t.lamp = false ∧
    t.supply = { samples := [], mean := none, band := .d } ∧ t.budget = 0 ∧
    t.wind.speed = 0 ∧ t.wind.counter = 0 ∧ t.wind.ring = [] ∧
    t.tilt = { samplesX := [], samplesY := [], pitch := 0, roll := 0 } ∧
    (∀ p, t.port p =
      { frame := none, linkErrors := 0, routeMask := 0xFFF#12, pending := 0x100#12, replies := [], headSince := none }) ∧
    t.layout = s.layout ∧ t.staging = s.staging ∧ t.now = s.now ∧ t.pins = s.pins ∧ t.pending = s.pending

/-- The axis records after a reset (R57, R58, R90, R91, R103): a cold reset makes them unknown; a warm reset keeps the
positions of axes not in motion, and faults and last outcomes of all. -/
def Obligations.ResetKeepsRestingAxes : Prop :=
  ∀ (s : State) (straps : Straps),
    (∃ t, exec (.coldReset straps) s = .next t ∧
      (∀ id, (t.slider id).state = .unknown ∧ (t.slider id).fault = none ∧ (t.slider id).lastOutcome = none ∧
        (t.slider id).runTime = 0 ∧
        ∀ m, t.motor id m = { count := none, phase := .idle, seatDeadline := none, tally := 0 }) ∧
      (∀ j, (t.jack j).count = none ∧ (t.jack j).contact = false ∧ (t.jack j).lossRun = 0 ∧
        (t.jack j).liftOff = false ∧ (t.jack j).pressure = 0 ∧ (t.jack j).atStroke = false ∧
        (t.jack j).fault = none ∧ (t.jack j).phase = .idle) ∧
      t.jackSet = { levelMark := false, lastOutcome := none, runTime := 0 }) ∧
    (∃ t, exec (.warmReset straps) s = .next t ∧
      (∀ id, (t.slider id).fault = (s.slider id).fault ∧ (t.slider id).lastOutcome = (s.slider id).lastOutcome ∧
        (t.slider id).runTime = 0 ∧
        (∀ m, (t.motor id m).phase = .idle ∧ (t.motor id m).seatDeadline = none ∧ (t.motor id m).tally = 0) ∧
        (((s.entryOf id.group).isSome ∨ ∃ m ∈ s.motors id, ∃ n l, s.motorChan id m = some n ∧
            (s.chan n).lastStop = some l ∧ s.now < l.time + ms 50) →
          (t.slider id).state = .unknown ∧ ∀ m, (t.motor id m).count = none) ∧
        (s.entryOf id.group = none →
          (∀ m ∈ s.motors id, ∀ n l, s.motorChan id m = some n → (s.chan n).lastStop = some l →
            l.time + ms 50 ≤ s.now) →
          (t.slider id).state = (s.slider id).state ∧ ∀ m, (t.motor id m).count = (s.motor id m).count)) ∧
      (∀ j, (t.jack j).fault = (s.jack j).fault ∧ (t.jack j).contact = false ∧ (t.jack j).lossRun = 0 ∧
        (t.jack j).liftOff = false ∧ (t.jack j).pressure = 0 ∧ (t.jack j).phase = .idle ∧
        (((∃ e, s.jackMotion = some e ∧ j ∈ s.jacksOf e.action) ∨ ∃ n l, s.roleChan (.jack j) = some n ∧
            (s.chan n).lastStop = some l ∧ s.now < l.time + ms 50) →
          (t.jack j).count = none ∧ (t.jack j).atStroke = false) ∧
        ((∀ e, s.jackMotion = some e → j ∉ s.jacksOf e.action) →
          (∀ n l, s.roleChan (.jack j) = some n → (s.chan n).lastStop = some l → l.time + ms 50 ≤ s.now) →
          (t.jack j).count = (s.jack j).count ∧ (t.jack j).atStroke = (s.jack j).atStroke)) ∧
      t.jackSet = { levelMark := false, lastOutcome := s.jackSet.lastOutcome, runTime := 0 })

/-- A reset that falls in a store write cuts it off: the record fails its check, and the reset ends with the EMPTY layout
and notice LAYOUT (R184). Without a write in flight the store keeps its record. -/
def Obligations.ResetCutsOffTheWrite : Prop :=
  ∀ (s : State) (k : ResetKind) (straps : Straps), ∃ t u,
    exec (resetCommand k straps) s = .next t ∧ exec .resetEnd t = .next u ∧ t.write = none ∧
    (s.write.isSome → t.stored.good = none ∧ u.layout = Layout.empty ∧ u.staging = emptyImage ∧
      u.noticed .layout = true) ∧
    (s.write = none → t.stored = s.stored)

/-- The end of a reset: time starts, the layout in force is the stored record when that is not blank and passes its check,
else EMPTY with notice LAYOUT, and the start-up census begins (R177, R3); the axis records stand as the reset left them
(R58, R91, R103), also those of axes that the layout then in force does not configure, by inference (log 24). By the
model's choice (log 31) RESET_END without a reset in progress changes nothing, and (log 53) the straps stay those that the
reset began with, whatever the pins show at its end. -/
def Obligations.ResetEndChoosesTheLayout : Prop :=
  ∀ (s : State),
    (s.inReset = none → exec .resetEnd s = .next s) ∧
    (s.inReset.isSome → ∃ t, exec .resetEnd s = .next t ∧ t.inReset = none ∧ t.now = 0 ∧ t.censusStart = 0 ∧
      t.stored = s.stored ∧ t.straps = s.straps ∧ t.pending = s.pending ∧ t.load = s.load ∧ t.claims = s.claims ∧
      (∀ m, s.stored = .record m → m.isBlank = false → m.passes = true →
        t.layout = Layout.ofImage m ∧ t.staging = m ∧ t.ports = s.ports) ∧
      ((s.stored = .cutOff ∨ ∃ m, s.stored = .record m ∧ (m.isBlank = true ∨ m.passes = false)) →
        t.layout = Layout.empty ∧ t.staging = emptyImage ∧ t.noticed .layout = true) ∧
      (∀ n, (t.chan n).drive = .off ∧ (t.chan n).pendingRead = none ∧ (t.chan n).pendingAt = none ∧
        (t.chan n).lastStop = none ∧
        (variantCount s.straps.variant ≤ n.val → (t.chan n).census = .absent ∧ (t.chan n).settled = true) ∧
        (n.val < variantCount s.straps.variant → t.role n = .none →
          (t.chan n).census = .unused ∧ (t.chan n).settled = true) ∧
        (n.val < variantCount s.straps.variant → t.role n ≠ .none →
          (t.chan n).census = .empty ∧ (t.chan n).settled = false)) ∧
      t.rooms = s.rooms ∧ t.awning = s.awning ∧ t.jacks = s.jacks ∧ t.jackSet = s.jackSet ∧
      (t.configured .awning = false → t.sliderState .awning = .closed ∧ t.positionKnown .awning = true) ∧
      t.wind.state = (if t.layout.wind.present then .calm else .unwatched))

/-- First accepted levels are handed over as initial levels: a conditioned line without an accepted level takes the one
the command names for it, and none of it starts a plan (R23). A home switch that first reads closed gives its motor or
jack count 0, and with nothing in motion the first level of PARK evaluates the alarm (R42, R65, R123). Every other line
keeps its own level, by inference (log 32). -/
def Obligations.InitialLevelsAreTaken : Prop :=
  ∀ (s : State) (levels : List (Line × Bool)),
    s.inReset = none → (Instr.initialAcceptedLevel levels).wellFormed = true →
    ∃ t, exec (.initialAcceptedLevel levels) s = .next t ∧
      (∀ l, (t.line l).samples = (s.line l).samples ∧
        (t.line l).accepted =
          if s.conditioned l && (s.line l).accepted.isNone then (levels.find? fun x => decide (x.1 = l)).map Prod.snd
          else (s.line l).accepted) ∧
      (s.planRunning = false → t.plan = s.plan ∧ t.nextOrder = s.nextOrder) ∧
      (∀ n, s.hasHome n = true → (s.line (.hom n)).accepted = none → (Line.hom n, true) ∈ levels →
        (∀ id m, s.motorChan id m = some n → (t.motor id m).count = some 0) ∧
        (∀ j, s.role n = .jack j → (t.jack j).count = some 0)) ∧
      (s.motions = [] → s.park.accepted = none → t.park.accepted ≠ none → (t.alarm = true ↔ t.road = .road ∧
        ((∃ k, t.configured (.room k) = true ∧ (t.rooms[k]).state ≠ .closed) ∨ t.jackSetState ≠ .stowed ∨
          t.sliderState .awning ≠ .closed))) ∧
      t.layout = s.layout ∧ t.pending = s.pending ∧ t.now = s.now

/-! ### Ports -/

/-- ACK removes the classes it names from the pending set of its own port, and its reply is ACCEPTED (R173). -/
def Obligations.AckRemovesClasses : Prop :=
  ∀ (s : State) (p : Port) (w : ClassWord), s.inReset = none → s.hasRoom p → w &&& 0xF000#16 = 0#16 →
    ∃ t, exec (.ack p w) s = .next t ∧
      t = (s.setPort p { s.port p with pending := (s.port p).pending &&& ~~~(w.setWidth 12) }).answered p .ack
        (.accepted false false false) ∧
      (∀ c : Notice, (t.port p).pending &&& c.bit =
        if w.setWidth 12 &&& c.bit = c.bit then 0#12 else (s.port p).pending &&& c.bit) ∧
      (∀ q, q ≠ p → t.port q = s.port q) ∧
      (t.attn p = true ↔ ∃ c : Notice, (t.port p).pending &&& c.bit = c.bit ∧ (s.port p).routeMask &&& c.bit = c.bit)

/-- ROUTE replaces the route mask of its own port, and its reply is ACCEPTED (R174). -/
def Obligations.RouteReplacesTheMask : Prop :=
  ∀ (s : State) (p : Port) (w : ClassWord), s.inReset = none → s.hasRoom p → w &&& 0xF000#16 = 0#16 →
    ∃ t, exec (.route p w) s = .next t ∧
      t = (s.setPort p { s.port p with routeMask := w.setWidth 12 }).answered p .route (.accepted false false false) ∧
      (t.port p).pending = (s.port p).pending ∧
      (∀ q, q ≠ p → t.port q = s.port q) ∧
      (t.attn p = true ↔ ∃ c : Notice, (s.port p).pending &&& c.bit = c.bit ∧ w.setWidth 12 &&& c.bit = c.bit)

/-- The discards of R163: a framing error, a marked character that is no request kind, a partial frame abandoned by a
marked character, a partial frame whose time runs out, a frame whose check fails, and a request that finds the reply
queue full. A marked character that is no request kind and abandons a partial frame makes two of them, one after the
other. -/
def Obligations.DiscardsAreCounted : Prop :=
  ∀ (s : State) (p : Port), s.inReset = none →
    (∀ b mark, ∃ t, exec (.linkCharacter p b mark false) s = .next t ∧ Discarded p s t ∧ (t.port p).frame = none) ∧
    (∀ b, kindOfByte b = none → (s.port p).frame = none →
      ∃ t, exec (.linkCharacter p b true true) s = .next t ∧ Discarded p s t ∧ (t.port p).frame = none) ∧
    (∀ b f, kindOfByte b = none → (s.port p).frame = some f →
      ∃ u t, exec (.linkCharacter p b true true) s = .next t ∧ Discarded p s u ∧ Discarded p u t ∧
        (t.port p).frame = none) ∧
    (∀ b k f, kindOfByte b = some k → (s.port p).frame = some f →
      ∃ t, exec (.linkCharacter p b true true) s = .next t ∧ Discarded p s t ∧
        (t.port p).frame = some { bytes := [b], first := s.now }) ∧
    (∀ b k, kindOfByte b = some k → (s.port p).frame = none →
      exec (.linkCharacter p b true true) s =
        .next (s.setPort p { s.port p with frame := some { bytes := [b], first := s.now } })) ∧
    (∀ b, (s.port p).frame = none → exec (.linkCharacter p b false true) s = .next s) ∧
    (∀ b k f, (s.port p).frame = some f → kindOfByte (f.bytes.headD 0) = some k → f.bytes.length + 1 < k.length →
      f.bytes ≠ [] → exec (.linkCharacter p b false true) s =
        .next (s.setPort p { s.port p with frame := some { f with bytes := f.bytes ++ [b] } })) ∧
    (∀ b k f, (s.port p).frame = some f → kindOfByte (f.bytes.headD 0) = some k → f.bytes.length + 1 = k.length →
      f.bytes ≠ [] → sumBytes (f.bytes ++ [b]) % 256 ≠ 0 →
      ∃ t, exec (.linkCharacter p b false true) s = .next t ∧ Discarded p s t ∧ (t.port p).frame = none) ∧
    (∀ f, (s.port p).frame = some f → f.first + ms 20 ≤ s.now →
      ∃ t, exec (.partialFrameTimeout p) s = .next t ∧ Discarded p s t ∧ (t.port p).frame = none) ∧
    (∀ c k f, requestOf c = some (p, k, f) → ¬ s.hasRoom p →
      ∃ t, exec c s = .next t ∧ Discarded p s t ∧ (t.port p).frame = (s.port p).frame)

/-- A field out of range is answered REFUSED with reason BAD_REQUEST, and the request goes no further (R164, R166). -/
def Obligations.BadFieldsAreRefused : Prop :=
  ∀ (s : State) (c : Instr) (p : Port) (k : RequestKind) (f : List Byte),
    s.inReset = none → requestOf c = some (p, k, f) → s.hasRoom p → c.wellFormed = false →
    exec c s = .next (s.queueReply p (frameOf 0x81 [k.code, 11, 0, 0]))

/-- A reply goes to the tail of its port's queue and begins to be sent when it is the head; its first byte is its reply
kind, its second the request kind, and its bytes sum to 0 (R164, R165, R170). The transmit line rests high; while the head
reply is sent it carries each character as a low start bit, eight data bits from the least significant, the mark bit, set
in the first character alone, and a high stop bit (R159). That no gap lies between the characters is read by inference
(log 29), and the place of the bits within a step of 25 µs is the model's choice (log 47). -/
def Obligations.RepliesJoinTheQueue : Prop :=
  ∀ (s : State) (p : Port) (k : RequestKind) (a : Answer),
    (((s.answered p k a).port p).replies = (s.port p).replies ++ [replyFrame k a]) ∧
    ((s.port p).replies = [] → ((s.answered p k a).port p).headSince = some s.now) ∧
    ((s.port p).replies ≠ [] → ((s.answered p k a).port p).headSince = (s.port p).headSince) ∧
    (∀ q, q ≠ p → (s.answered p k a).port q = s.port q) ∧
    { s.answered p k a with ports := s.ports } = s ∧
    sumBytes (replyFrame k a) % 256 = 0 ∧
    (∃ b rest, replyFrame k a = b :: k.code :: rest ∧
      b = (match a with
        | .accepted _ _ _ => 0x80
        | .refused _ _ _ => 0x81
        | .status _ => 0x82
        | .axis _ _ => 0x83
        | .segment _ _ => 0x84)) ∧
    (∀ phase, (s.port p).replies = [] → s.txOut p phase = true) ∧
    (∀ f rest start i b j phase, (s.port p).replies = f :: rest → (s.port p).headSince = some start → f[i]? = some b →
      j < 11 → (256 * (s.now - start) + phase) * (if s.straps.rate then 36 else 12) / 6400 = 11 * i + j →
      s.txOut p phase =
        (if j = 0 then false else if j ≤ 8 then b.getLsbD (j - 1) else if j = 9 then decide (i = 0) else true))

/-- STATUS, READ_AXIS and LAYOUT_READ answer from the state as it stands and change nothing else (R168, R169, R178). The
bytes of an axis record are the fields that R60, R93, R103, R109, R146 and R158 list, each in the form of R185; their order
where a list does not give it is log 25. For an axis that is configured on a channel that the part does not have, the
pace watch bytes are the model's choice (log 52). -/
def Obligations.ReadsChangeNothing : Prop :=
  ∀ (s : State) (p : Port), s.inReset = none → s.hasRoom p →
    exec (.status p) s = .next (s.queueReply p (frameOf 0x82 (0x20 ::
      [byteOf s.straps.variant.toNat, byteOf s.road.code, flagByte s.alarm, byteOf s.supply.band.code, byteOf s.budget,
        byteOf (unitsOf s.load)] ++
      (allGroups.map fun g => [byteOf (s.availability g), byteOf (s.groupStateCode g), claimByte (s.claim g)]).flatten ++
      [byteOf s.wind.state.code, byteOf s.plan.status.code, byteOf ((s.port p).pending.toNat / 256),
        byteOf (s.port p).pending.toNat, byteOf (s.port p).linkErrors]))) ∧
    (∀ number a, axisOfNumber number.toNat = some a →
      (∀ l, s.axisBytes a = some l →
        exec (.readAxis p number) s = .next (s.queueReply p (frameOf 0x83 (0x21 :: number :: byteOf l.length :: l)))) ∧
      (s.axisBytes a = none →
        exec (.readAxis p number) s = .next (s.answered p .readAxis (.refused .notConfigured 0 0))) ∧
      (s.axisBytes a = none ↔
        match a with
        | .room k => s.roleChan (.room k .a) = none
        | .jack j => s.roleChan (.jack j) = none
        | .awning => s.roleChan .awning = none
        | .level => ∀ j, s.roleChan (.jack j) = none
        | _ => False)) ∧
    (∀ k l, s.axisBytes (.room k) = some l → s.roleChan (.room k .b) = none → ∃ n, s.roleChan (.room k .a) = some n ∧
      l = [byteOf (s.rooms[k]).state.code, flagByte (s.rooms[k]).motorA.count.isSome] ++
        Machine.optional (s.rooms[k]).motorA.count ++ [0, 0, 0, byteOf (s.rooms[k]).motorA.phase.code, 0,
          codeOr FaultCode.code (s.rooms[k]).fault, codeOr MotionOutcome.code (s.rooms[k]).lastOutcome] ++
        twoBytes (min 65535 ((s.rooms[k]).runTime / 4000)) ++ [byteOf (s.rooms[k]).motorA.tally, 0] ++
        s.channelBytes n ++ s.paceBytes n) ∧
    (∀ k l na nb, s.axisBytes (.room k) = some l → s.roleChan (.room k .a) = some na →
      s.roleChan (.room k .b) = some nb →
      l = [byteOf (s.rooms[k]).state.code,
          flagByte ((s.rooms[k]).motorA.count.isSome && (s.rooms[k]).motorB.count.isSome)] ++
        Machine.optional (s.rooms[k]).motorA.count ++ Machine.optional (s.rooms[k]).motorB.count ++
        [byteOf (s.rooms[k]).motorA.phase.code, byteOf (s.rooms[k]).motorB.phase.code,
          codeOr FaultCode.code (s.rooms[k]).fault, codeOr MotionOutcome.code (s.rooms[k]).lastOutcome] ++
        twoBytes (min 65535 ((s.rooms[k]).runTime / 4000)) ++
        [byteOf (s.rooms[k]).motorA.tally, byteOf (s.rooms[k]).motorB.tally] ++
        s.channelBytes na ++ s.paceBytes na ++ s.channelBytes nb ++ s.paceBytes nb) ∧
    (∀ j l, s.axisBytes (.jack j) = some l → ∃ n, s.roleChan (.jack j) = some n ∧
      l = [byteOf (s.jackState j).code] ++ Machine.optional (s.jack j).count ++
        [flagByte (s.jack j).contact, byteOf (s.jack j).lossRun, flagByte (s.jack j).liftOff] ++
        twoBytes (s.jack j).pressure ++
        [flagByte (s.jack j).atStroke, codeOr FaultCode.code (s.jack j).fault, byteOf (s.jack j).phase.code,
          byteOf (s.jack j).dir.code, byteOf s.jackSetState.code, codeOr MotionOutcome.code s.jackSet.lastOutcome] ++
        s.channelBytes n ++ (match s.roleChan .pump with
          | some q => s.channelBytes q
          | none => List.replicate 7 0) ++ s.paceBytes n) ∧
    (∀ l, s.axisBytes .awning = some l → ∃ n, s.roleChan .awning = some n ∧
      l = [byteOf s.awning.state.code, flagByte s.awning.motorA.count.isSome] ++ Machine.optional s.awning.motorA.count ++
        [byteOf s.awning.motorA.phase.code] ++
        Machine.optional (s.awning.motorA.seatDeadline.map fun t => min 65535 ((t - s.now) / 40)) ++
        [codeOr FaultCode.code s.awning.fault, codeOr MotionOutcome.code s.awning.lastOutcome] ++
        twoBytes (min 65535 (s.awning.runTime / 4000)) ++ [byteOf s.awning.motorA.tally] ++
        s.channelBytes n ++ s.paceBytes n) ∧
    (∀ n, s.channelBytes n = [byteOf (s.chan n).census.code, byteOf (s.chan n).kindRead.code,
      byteOf (s.chan n).drive.code, flagByte (decide ((s.chan n).dir = .outward)), byteOf (s.chan n).outputDuty] ++
        twoBytes (s.chan n).scaled) ∧
    (∀ n, s.paceBytes n = twoBytes (s.paceRec n).counter ++ byteOf (s.paceRec n).ring.length ::
      (((s.paceRec n).ring ++ List.replicate (8 - (s.paceRec n).ring.length) 0).map twoBytes).flatten ++
        Machine.optional (s.pace? n) ++ twoBytes (s.maskLimit n) ++ twoBytes (s.stallLimit n) ++
        [byteOf (s.paceRec n).tally, flagByte (s.paceRec n).stallRaised]) ∧
    (s.axisBytes .wind = some (byteOf s.wind.state.code :: twoBytes s.wind.speed ++
      twoBytes (min 65535 (s.wind.timer / 4000)) ++
      Machine.optional (s.wind.deadline.map fun t => min 65535 ((t - s.now) / 4000)) ++ twoBytes s.layout.wind.gust ++
      twoBytes s.layout.wind.calm ++ twoBytes s.wind.counter ++ byteOf s.wind.ring.length ::
        ((s.wind.ring ++ List.replicate (8 - s.wind.ring.length) 0).map twoBytes).flatten ++
          Machine.optional (windPace s.wind))) ∧
    (∃ x y, s.axisBytes .supply = some (byteOf s.supply.samples.length :: Machine.optional s.supply.mean ++
        [byteOf s.supply.band.code, byteOf s.budget, byteOf (unitsOf s.load)] ++ x ++ y) ∧
      x = byteOf s.load.length :: (s.load.map fun e => [byteOf (groupCode e.group), byteOf e.owner.code,
        byteOf e.mode.code] ++ actionBytes e.action ++ [byteOf e.units]).flatten ∧
      y = byteOf s.paused.length :: (s.paused.map fun e => [byteOf (groupCode e.group), byteOf e.owner.code,
        byteOf e.mode.code] ++ actionBytes e.action ++ [byteOf e.units, byteOf e.state.code] ++
          twoBytes (min 65535 ((s.now - e.pausedSince.getD s.now) / 4000))).flatten) ∧
    (s.axisBytes .plan = some ([byteOf s.plan.status.code, codeOr PlanName.code s.plan.name,
      codeOr PlanOwner.code s.plan.owner, byteOf s.plan.stepCount, byteOf s.plan.stepIndex,
      setByte s.plan.reserved.toList] ++ byteOf s.plan.slots.length ::
        (s.plan.slots.map fun x => [byteOf (groupCode x.group), flagByte x.outcome.isSome,
          codeOr MotionOutcome.code x.outcome]).flatten ++ [flagByte s.plan.limited] ++ failureBytes s.plan.failure)) ∧
    (∀ l, s.axisBytes .level = some l → l = [byteOf s.level.status.code, byteOf s.level.phase.code,
      byteOf s.level.pass, byteOf s.level.returns] ++ twoBytes (min 65535 (s.level.phaseTime / 4000)) ++
      signedBytes s.level.pitch ++ signedBytes s.level.roll ++
      (allJacks.map fun j => if (s.roleChan (.jack j)).isSome then Machine.optional s.level.targets[j]
        else [0, 0, 0]).flatten ++
      (allJacks.map fun j => if (s.roleChan (.jack j)).isSome then twoBytes s.level.progress[j] else [0, 0]).flatten ++
      [setByte s.level.selected.toList, flagByte s.level.limited, codeOr MotionOutcome.code s.level.outcome] ++
      signedBytes s.tilt.pitch ++
      signedBytes s.tilt.roll) ∧
    (∀ segment : Byte, segment.toNat ≤ 31 →
      exec (.layoutRead p segment) s = .next (s.queueReply p (frameOf 0x84 (0x32 :: segment ::
        (List.range 16).map fun i => s.staging.read (16 * segment.toNat + i)))))

/-- LAYOUT_LOAD replaces its segment of the staging image and nothing else; in a store write it is refused
STORE_BUSY (R178). -/
def Obligations.LayoutLoadReplacesASegment : Prop :=
  ∀ (s : State) (p : Port) (segment : Byte) (data : Vector Byte 16),
    s.inReset = none → s.hasRoom p → segment.toNat ≤ 31 → s.staging.wf = true →
    (s.write = none → ∃ m : Image,
      exec (.layoutLoad p segment data) s =
        .next ({ s with staging := m }.answered p .layoutLoad (.accepted false false false)) ∧ m.wf = true ∧
      (∀ i : Fin 16, m.read (16 * segment.toNat + i.val) = data[i]) ∧
      (∀ a, a < 16 * segment.toNat ∨ 16 * segment.toNat + 16 ≤ a → m.read a = s.staging.read a)) ∧
    (s.write.isSome →
      exec (.layoutLoad p segment data) s = .next (s.answered p .layoutLoad (.refused .storeBusy 0 0)))

/-- LAYOUT_COMMIT: the checks of R179 in their order, and the acceptance that puts the check into bytes 510 and 511 and
begins the store write; the image then passes its check (R176, R179, R181). A commit is accepted only when the layout of
the staging image lies in its ranges and keeps the rules that tie its fields together, and the byte that a refusal names is
the lowest of the failures (R180); of a step with a bad count of groups it is by inference the count's (log 26). -/
def Obligations.CommitBeginsTheWrite : Prop :=
  ∀ (s : State) (p : Port), s.inReset = none → s.hasRoom p → s.staging.wf = true →
    (s.write.isSome → exec (.layoutCommit p) s = .next (s.answered p .layoutCommit (.refused .storeBusy 0 0))) ∧
    (s.write = none → s.road ≠ .parked →
      exec (.layoutCommit p) s = .next (s.answered p .layoutCommit (.refused .notPermitted 1 0))) ∧
    (∀ g c, s.write = none → s.road = .parked → s.claim g = some c →
      (∀ h, groupCode h < groupCode g → s.claim h = none) →
      exec (.layoutCommit p) s = .next (s.answered p .layoutCommit (.refused .held c.owner.code 0))) ∧
    (∀ a, s.write = none → s.road = .parked → (∀ g, s.claim g = none) →
      firstBadByte s.staging (variantCount s.straps.variant) = some a →
      exec (.layoutCommit p) s = .next (s.answered p .layoutCommit (.refused .layoutInvalid (a / 16) (a % 16)))) ∧
    (s.write = none → s.road = .parked → (∀ g, s.claim g = none) →
      firstBadByte s.staging (variantCount s.straps.variant) = none → ∃ m : Image,
      exec (.layoutCommit p) s = .next
        ({ s with staging := m, write := some s.now }.answered p .layoutCommit (.accepted false false false)) ∧
      m.wf = true ∧ (∀ a, a < 510 → m.read a = s.staging.read a) ∧
      m.read 510 = byteOf (s.staging.crc / 256) ∧ m.read 511 = byteOf s.staging.crc ∧ m.passes = true) ∧
    (∀ l : Layout, l = Layout.ofImage s.staging → firstBadByte s.staging (variantCount s.straps.variant) = none →
      (∀ n : Chan, variantCount s.straps.variant ≤ n.val → l.roles[n] = .none) ∧
      (∀ i n : Chan, i ≠ n → l.roles[i] = l.roles[n] → l.roles[i] = .none) ∧
      (∀ k, l.hasRole (.room k .b) = true → l.hasRole (.room k .a) = true) ∧
      (l.hasRole .pump = allJacks.any fun j => l.hasRole (.jack j)) ∧
      ((allJacks.filter fun j => l.hasRole (.jack j)).length ≠ 1 ∧
        (allJacks.filter fun j => l.hasRole (.jack j)).length ≠ 2) ∧
      (∀ k : RoomId, l.hasRole (.room k .a) = true →
        (l.rooms[k]).motorCount = (if l.hasRole (.room k .b) then 2 else 1) ∧
        1 ≤ (l.rooms[k]).travel ∧ (l.rooms[k]).travel ≤ 20000 ∧ 1 ≤ (l.rooms[k]).endWindow ∧
        (l.rooms[k]).endWindow ≤ 500 ∧ (l.rooms[k]).seatFraction ≤ 127 ∧
        1 ≤ (l.rooms[k]).syncWindow ∧ (l.rooms[k]).syncWindow < (l.rooms[k]).rackLimit ∧ (l.rooms[k]).rackLimit ≤ 200) ∧
      (l.hasRole .awning = true → 1 ≤ l.awning.travel ∧ l.awning.travel ≤ 20000 ∧ 1 ≤ l.awning.endWindow ∧
        l.awning.endWindow ≤ 500 ∧ l.awning.seatFraction ≤ 127 ∧ 10 ≤ l.awning.runTimeout ∧ l.awning.runTimeout ≤ 300) ∧
      (∀ j : JackId, l.hasRole (.jack j) = true → (l.jacks[j]).x.natAbs ≤ 1200 ∧ (l.jacks[j]).y.natAbs ≤ 1200 ∧
        (l.jacks[j]).strokeMax ≤ 4000 ∧ 1 ≤ (l.jacks[j]).spp ∧ (l.jacks[j]).spp ≤ 50 ∧
        1 ≤ (l.jacks[j]).contactThreshold ∧ (l.jacks[j]).contactThreshold ≤ 4095 ∧ (l.jacks[j]).hysteresis ≤ 1000) ∧
      100 ≤ l.reversalDwell ∧ l.reversalDwell ≤ 2000 ∧ 150 ≤ l.holdWindow ∧ l.holdWindow ≤ 1000 ∧
      10 ≤ l.pauseLimit ∧ l.pauseLimit ≤ 300 ∧ 10 ≤ l.roomTimeout ∧ l.roomTimeout ≤ 300 ∧
      10 ≤ l.jackTimeout ∧ l.jackTimeout ≤ 600 ∧ 128 ≤ l.supplyScale ∧ l.supplyScale ≤ 512 ∧
      (∀ kd, kd ≠ .jackValve → 1 ≤ (l.kindParams kd).runDuty ∧ (l.kindParams kd).startDuty ≤ (l.kindParams kd).runDuty) ∧
      l.wind.calm < l.wind.gust ∧
      (∀ n : PlanName, (l.planSteps n).length ≤ 8 ∧ ∀ st ∈ l.planSteps n, 1 ≤ st.length ∧ st.length ≤ 6 ∧
        (st.map Prod.fst).Nodup)) ∧
    (∀ first, first = firstBadByte s.staging (variantCount s.straps.variant) →
      (first = none ↔ ∀ b, ¬ Safety.FailsAt s.staging (variantCount s.straps.variant) b) ∧
      (∀ a, first = some a ↔ Safety.FailsAt s.staging (variantCount s.straps.variant) a ∧
        ∀ b, Safety.FailsAt s.staging (variantCount s.straps.variant) b → a ≤ b))

/-- A request that is answered REFUSED changes nothing but the reply queue of its port (R170). -/
def Obligations.RefusalsChangeNothing : Prop :=
  ∀ (s : State) (c : Instr) (p : Port) (k : RequestKind) (f : List Byte) (q : Request) (r : Reason) (x y : Nat),
    s.inReset = none → requestOf c = some (p, k, f) → s.hasRoom p → requestOfFields k f = some q →
    (s.decideRequest p q).2 = .refused r x y →
    exec c s = .next (s.queueReply p (frameOf 0x81 [k.code, byteOf r.code, byteOf x, byteOf y]))

/-- A request's frame, character by character, does what the request command does (R159, R160, R162, R164): its kind,
its fields and its check give back the request. -/
def Obligations.FramesActAsRequests : Prop :=
  ∀ (s : State) (c : Instr) (p : Port) (k : RequestKind) (f : List Byte),
    s.inReset = none → requestOf c = some (p, k, f) → (s.port p).frame = none →
    exec c s = .next (runAll (charactersOf p (frameOf k.code f)) s)

/-- A partial frame is discarded when its 20 ms run out, and a reply whose last character has been sent leaves its queue,
the next beginning at once (R161, R165). By the model's choice each moves the clock on to its moment, and does nothing
where an idle step has raised what is due now and the moment lies ahead (log 3); the time of a character is log 29. -/
def Obligations.LinkTimersRunOut : Prop :=
  ∀ (s : State) (p : Port), s.inReset = none →
    ((s.port p).frame = none → exec (.partialFrameTimeout p) s = .next s) ∧
    (∀ f due, (s.port p).frame = some f → due = f.first + ms 20 →
      (s.comes due = false → exec (.partialFrameTimeout p) s = .next s) ∧
      (s.comes due = true → ∃ t, exec (.partialFrameTimeout p) s = .next t ∧
        Discarded p (s.advanceTo due) t ∧ (t.port p).frame = none)) ∧
    ((s.port p).replies = [] → exec (.replySent p) s = .next s) ∧
    (∀ r rest start due u, (s.port p).replies = r :: rest → (s.port p).headSince = some start →
      due = start + sendTime s.straps.rate r.length → u = s.advanceTo due →
      (s.comes due = false → exec (.replySent p) s = .next s) ∧
      (s.comes due = true → exec (.replySent p) s = .next (u.setPort p
        { s.port p with replies := rest, headSince := if rest = [] then none else some u.now })))

/-! ### Claims -/

/-- The checks of R111 on a free group, in their order: the first that fails gives the refusal, and nothing changes. Check 8
reads the rows of the permit table: the first unmet of the rows of the motion's group and direction gives the cause
(R127). -/
def Obligations.MotionChecksAreInOrder : Prop :=
  (∀ (s : State) (p : Port) (m : Mode) (g : Group) (a : Action) (c : Instr) (r : Answer),
    s.inReset = none → s.hasRoom p → motionCommand p m g a = some c → s.claim g = none →
    (s.firstChecks g a = some r ∨ (s.firstChecks g a = none ∧ s.verdict m g a = some r)) →
    exec c s = .next (s.answered p (motionKind m a) r)) ∧
  (∀ (s : State) (a : Action),
    (∀ k, s.permitCause (.room k) a =
      if a.dir = .outward ∧ (s.layout.rooms[k]).needsSupport = true ∧ s.jackSetState ≠ .stabilised ∧
          s.jackSetState ≠ .levelled then some .needsSupport
      else if (s.layout.rooms[k]).awningClash = true ∧ s.sliderState .awning ≠ .closed then some .awningClash
      else none) ∧
    ((a = .toward .stowing ∨ ∃ j, a = .jack j .stowing) →
      ((∃ k, s.configured (.room k) = true ∧ (s.rooms[k]).state ≠ .closed) →
        s.permitCause .jacks a = some .roomsOut) ∧
      ((∀ k, s.configured (.room k) = true → (s.rooms[k]).state = .closed) →
        s.permitCause .jacks a = if s.sliderState .awning = .closed then none else some .awningOut)) ∧
    ((a = .toward .outward ∨ a = .level ∨ ∃ j, a = .jack j .outward) → s.permitCause .jacks a = none) ∧
    s.permitCause .awning a =
      if a.dir = .outward ∧ (s.wind.state = .gusty ∨ s.wind.state = .easing) then some .wind else none)

/-- A motion request that passes every check on a free group is accepted: the claim is made, the motion is given the next
admission order and placed, and the reply is ACCEPTED with the paused flag when it does not fit (R112, R136). A
group without a claim has no motion and stands in no running plan (R110, R149); then, while the motion lasts, the claim is
the port's, with its mode and action, and where the motion ends within the event a HOLD claim keeps its ended flag and an
AUTO claim is freed (R119, R120). -/
def Obligations.MotionIsAccepted : Prop :=
  ∀ (s : State) (p : Port) (m : Mode) (g : Group) (a : Action) (c : Instr) (b : Claim) (e : Entry),
    s.inReset = none → s.hasRoom p → motionCommand p m g a = some c → s.claim g = none →
    s.firstChecks g a = none → s.verdict m g a = none →
    b = { owner := .port p, mode := m, action := a
          deadline := if m = .hold then some (s.now + ms s.layout.holdWindow) else none, ended := false } →
    e = { group := g, owner := .port p, mode := m, action := a, units := s.motionUnits g a, order := s.nextOrder
          state := .running, pausedSince := none } →
    ∃ t, exec c s = .next t ∧
      (t.port p).replies = (s.port p).replies ++
        [frameOf 0x80 [(motionKind m a).code,
          if s.motionUnits g a + unitsOf s.load ≤ s.budget then 0 else 2]] ∧
      (m = .hold → ∃ x, t.claim g = some { b with ended := x }) ∧
      (∀ x, m = .auto → t.claim g = some x → x = b) ∧
      (e ∈ t.motions ∨ t.noticed .motionEnd = true) ∧
      (s.still g → s.unplanned g →
        (t.claim g = some b ∧ e ∈ t.motions) ∨
        (t.claim g = (if m = .hold then some { b with ended := true } else none) ∧ t.still g ∧
          t.noticed .motionEnd = true)) ∧
      (∀ h, h ≠ g → s.claim h = none → t.claim h = none) ∧
      (∀ id x, s.countKept t id x) ∧
      t.fixedPart = s.fixedPart

/-- A motion that starts from rest, with nothing else moving. A held motion of a one-motor room or of the awning, out or in,
is driven from its start duty and its state says which way it goes; a two-motor room drives both motors, the leader trimmed,
or ends RACKED where its counts stand W2 or more apart, in which event by the model's choice motor A has been started and
stopped and motor B has not been started (log 55); MOVE JACKS and MOVE_JACK drive the valve of each jack of the motion and
the pump with them. AUTO JACKS LEVEL sets the level run record; where it fits the budget its CONTACT phase begins, which
drives out the jacks without contact and passes at once to SETTLE where there is none; where it does not fit, it waits in
CONTACT with nothing driven. Nothing that the motion does not move changes (R8, R44, R50, R51, R68, R72, R83, R84, R97,
R134, R135, R136). -/
def Obligations.MoveOutDrivesTheMotor : Prop :=
  ∀ (s : State) (p : Port), s.inReset = none → s.hasRoom p → s.motions = [] → s.write = none → s.road = .parked →
    (∀ (id : Slider) (d : Dir) (n : Chan) (units : Nat),
      units = (match id with | .room _ => 3 | .awning => 2) → s.claim id.group = none →
      s.motorChan id .a = some n → s.motorChan id .b = none → s.groupChans id.group = [n] →
      (s.chan n).census = .seated →
      (d = .outward → (s.slider id).fault = none ∧ ∃ c, (s.motor id .a).count = some c ∧ c < s.travelLimit id) →
      (d = .stowing → s.motorHome id .a = false) →
      s.permitCause id.group (.toward d) = none → units ≤ s.budget →
      (s.chan n).drive = .off → (s.chan n).lastStop = none →
      ∃ t u, exec (.move p (byteOf (groupCode id.group)) (byteOf d.code)) s = .next t ∧
        t = u.answered p .move (.accepted false false false) ∧
        Placed s u
          { owner := .port p, mode := .hold, action := .toward d, deadline := some (s.now + ms s.layout.holdWindow)
            ended := false }
          { group := id.group, owner := .port p, mode := .hold, action := .toward d, units := units
            order := s.nextOrder, state := .running, pausedSince := none } [n] ∧
        DriveStarted s u n d none ∧ u.enOut n = true ∧ u.lamp = true ∧
        u.slider id = { s.slider id with
          state := (match d with | .outward => .opening | .stowing => .closing), runTime := 0
          motorA := { s.motor id .a with phase := .travel, seatDeadline := none, tally := 0 } }) ∧
    (∀ (k : RoomId) (d : Dir) (na nb : Chan) (b : Claim), s.claim (.room k) = none →
      s.roleChan (.room k .a) = some na → s.roleChan (.room k .b) = some nb →
      (∀ x, x ∈ s.groupChans (.room k) ↔ x = na ∨ x = nb) →
      (∀ x, x = na ∨ x = nb → (s.chan x).census = .seated ∧ (s.chan x).drive = .off ∧ (s.chan x).lastStop = none) →
      (d = .outward → (s.rooms[k]).fault = none ∧
        ∀ m, ∃ c, (s.motor (.room k) m).count = some c ∧ c < s.travelLimit (.room k)) →
      (d = .stowing → ∀ m, s.motorHome (.room k) m = false) →
      s.permitCause (.room k) (.toward d) = none → 6 ≤ s.budget →
      b = { owner := .port p, mode := .hold, action := .toward d, deadline := some (s.now + ms s.layout.holdWindow)
            ended := false } →
      ∃ t u, exec (.move p (byteOf (k.val + 1)) (byteOf d.code)) s = .next t ∧
        t = u.answered p .move (.accepted false false false) ∧
        (∀ x y, (s.rooms[k]).motorA.count = some x → (s.rooms[k]).motorB.count = some y →
          (s.layout.rooms[k]).rackLimit ≤ max x y - min x y →
          Ended (.room k) .fault s u ∧ (u.rooms[k]).fault = some ((s.rooms[k]).fault.getD .racked) ∧
          (u.rooms[k]).state = (if s.allHome (.room k) then .closed else .midway) ∧
          u.enOut na = false ∧ (u.chan na).drive = .stopping ∧ (u.chan na).lastStop = some { time := s.now, dir := d } ∧
          u.paceRec na = { counter := 0, ring := [], tally := 0, stallRaised := false } ∧
          u.chan nb = { s.chan nb with trimmed := none } ∧ u.paceRec nb = s.paceRec nb ∧
          (∀ n, n ≠ na → n ≠ nb → u.chan n = s.chan n ∧ u.paceRec n = s.paceRec n) ∧
          u.load = [] ∧ u.paused = [] ∧ u.nextOrder = s.nextOrder + 1 ∧ u.plan = s.plan ∧
          u.claim (.room k) = some { b with ended := true } ∧
          ∀ h, h ≠ .room k → u.claim h = s.claim h ∧ axisRecords u h = axisRecords s h) ∧
        ((∀ x y, (s.rooms[k]).motorA.count = some x → (s.rooms[k]).motorB.count = some y →
            max x y - min x y < (s.layout.rooms[k]).rackLimit) →
          Placed s u b
            { group := .room k, owner := .port p, mode := .hold, action := .toward d, units := 6
              order := s.nextOrder, state := .running, pausedSince := none } [na, nb] ∧
          DriveStarted s u na d (trimFor d (s.layout.rooms[k]).syncWindow (s.kindParams na).startDuty
            (s.rooms[k]).motorA.count (s.rooms[k]).motorB.count) ∧
          DriveStarted s u nb d (trimFor d (s.layout.rooms[k]).syncWindow (s.kindParams nb).startDuty
            (s.rooms[k]).motorB.count (s.rooms[k]).motorA.count) ∧
          u.enOut na = true ∧ u.enOut nb = true ∧
          u.rooms[k] = { s.rooms[k] with
            state := (match d with | .outward => .opening | .stowing => .closing), runTime := 0
            motorA := { (s.rooms[k]).motorA with phase := .travel, seatDeadline := none, tally := 0 }
            motorB := { (s.rooms[k]).motorB with phase := .travel, seatDeadline := none, tally := 0 } })) ∧
    (∀ (a : Action) (c : Instr) (q : Chan), motionCommand p .hold .jacks a = some c → s.claim .jacks = none →
      s.roleChan .pump = some q → (s.chan q).drive = .off → (s.chan q).lastStop = none →
      (∀ x ∈ s.groupChans .jacks, (s.chan x).census = .seated) → s.jacksOf a ≠ [] →
      (∀ j ∈ s.jacksOf a,
        (∃ n, s.roleChan (.jack j) = some n ∧ (s.chan n).drive = .off ∧ (s.chan n).lastStop = none) ∧
        (a = .toward .outward → (s.jack j).contact = false) ∧ (a.dir = .stowing → s.jackHome j = false) ∧
        (a = .jack j .outward → 0 < (s.jackParams j).strokeMax →
          (s.jack j).count ≠ some (s.jackParams j).strokeMax)) →
      (a.dir = .outward → s.groupFaulted .jacks = false) → s.permitCause .jacks a = none →
      s.motionUnits .jacks a ≤ s.budget →
      ∃ t u, exec c s = .next t ∧ t = u.answered p (motionKind .hold a) (.accepted false false false) ∧
        Placed s u
          { owner := .port p, mode := .hold, action := a, deadline := some (s.now + ms s.layout.holdWindow), ended := false }
          { group := .jacks, owner := .port p, mode := .hold, action := a, units := s.motionUnits .jacks a
            order := s.nextOrder, state := .running, pausedSince := none }
          (q :: (s.jacksOf a).filterMap fun j => s.roleChan (.jack j)) ∧
        (∀ j ∈ s.jacksOf a, u.jack j =
            (match a.dir with
            | .outward => { s.jack j with phase := .active, dir := .outward, atStroke := false }
            | .stowing => { s.jack j with phase := .active, dir := .stowing, liftOff := false }) ∧
          ∀ n, s.roleChan (.jack j) = some n →
            DriveStarted s u n a.dir none ∧ u.enOut n = true ∧ (u.chan n).ramped = 255) ∧
        DriveStarted s u q .outward none ∧ u.enOut q = true ∧
        u.jackSet = { s.jackSet with levelMark := false, runTime := 0 } ∧ u.level = s.level ∧
        ∀ j, j ∉ s.jacksOf a → u.jack j = s.jack j) ∧
    (∀ (q : Chan) (fits planted : Bool), s.claim .jacks = none → s.configuredJacks ≠ [] →
      s.roleChan .pump = some q → (s.chan q).drive = .off → (s.chan q).lastStop = none →
      (∀ x ∈ s.groupChans .jacks, (s.chan x).census = .seated) →
      (∀ j ∈ s.configuredJacks,
        ∃ n, s.roleChan (.jack j) = some n ∧ (s.chan n).drive = .off ∧ (s.chan n).lastStop = none) →
      s.groupFaulted .jacks = false → s.tilt.pitch.natAbs ≤ s.layout.level.steepLimit →
      s.tilt.roll.natAbs ≤ s.layout.level.steepLimit → fits = decide (s.motionUnits .jacks .level ≤ s.budget) →
      (planted = true ↔ ∀ j ∈ s.configuredJacks, (s.jack j).contact = true) →
      ∃ t u, exec (.auto p 5 3) s = .next t ∧ t = u.answered p .auto (.accepted false (!fits) false) ∧
        Placed s u { owner := .port p, mode := .auto, action := .level, deadline := none, ended := false }
          { group := .jacks, owner := .port p, mode := .auto, action := .level, units := s.motionUnits .jacks .level
            order := s.nextOrder, state := if fits then .running else .waiting
            pausedSince := if fits then none else some s.now }
          (if fits && !planted then
            q :: (s.configuredJacks.filter fun j => !(s.jack j).contact).filterMap fun j => s.roleChan (.jack j)
          else []) ∧
        u.level =
          { status := .active, phase := if fits && planted then .settle else .contact, pass := 0, returns := 0
            phaseTime := 0, pitch := s.level.pitch, roll := s.level.roll, targets := Vector.replicate 6 none
            progress := Vector.replicate 6 0, selected := Vector.replicate 6 false, limited := false, outcome := none } ∧
        u.jackSet = { s.jackSet with levelMark := false, runTime := 0 } ∧
        (∀ j ∈ s.configuredJacks, u.jack j =
            (if fits && !(s.jack j).contact then { s.jack j with atStroke := false, phase := .active, dir := .outward }
            else { s.jack j with atStroke := false, phase := .done }) ∧
          ∀ n, s.roleChan (.jack j) = some n → fits = true → (s.jack j).contact = false →
            DriveStarted s u n .outward none ∧ u.enOut n = true ∧ (u.chan n).ramped = 255) ∧
        (fits = true → planted = false → DriveStarted s u q .outward none ∧ u.enOut q = true) ∧
        ∀ j, j ∉ s.configuredJacks → u.jack j = s.jack j)

/-- A renewal sets the hold deadline to its arrival plus the hold window and changes nothing else; its reply is ACCEPTED
with the renewed flag, the paused flag while the motion is in the pause list, and the ended flag (R114). -/
def Obligations.RenewalMovesTheDeadline : Prop :=
  ∀ (s : State) (p : Port) (g : Group) (a : Action) (c : Instr) (b : Claim),
    s.inReset = none → s.hasRoom p → motionCommand p .hold g a = some c → s.claim g = some b →
    b.owner = .port p → b.mode = .hold → b.action = a →
    exec c s = .next
      ((s.setClaim g (some { b with deadline := some (s.now + ms s.layout.holdWindow) })).answered p (motionKind .hold a)
        (.accepted true (s.paused.any fun e => decide (e.group = g)) b.ended))

/-- A motion request on a group that the port does not hold, and an AUTO on a group it does hold, are refused HELD with the
owner's code once checks 1 to 3 pass; before that the first of those that fails gives the refusal (R111, R113, R120). -/
def Obligations.HeldGroupsAreRefused : Prop :=
  ∀ (s : State) (p : Port) (m : Mode) (g : Group) (a : Action) (c : Instr) (b : Claim),
    s.inReset = none → s.hasRoom p → motionCommand p m g a = some c → s.claim g = some b →
    ¬(m = .hold ∧ b.mode = .hold ∧ b.owner = .port p) →
    exec c s = .next (s.answered p (motionKind m a) ((s.firstChecks g a).getD (.refused .held b.owner.code 0)))

/-- The holder of a HOLD claim may turn its motion: another action replaces the motion, which ends RELEASED, the claim takes
the new action and deadline, and the new motion stands in the load list, or is over where it ends at once; another jack
takes over a MOVE_JACK motion as it stands, budget or not, and the motion ends only where that jack stands at
home or at its stroke max already, in a state whose rooms and awning read as they move (an invariant, O59); a check that fails leaves all as it was (R115, R116). -/
def Obligations.HolderTurnsTheMotion : Prop :=
  ∀ (s : State) (p : Port) (g : Group) (a : Action) (c : Instr) (b new : Claim) (x : Entry),
    s.inReset = none → s.hasRoom p → motionCommand p .hold g a = some c → s.claim g = some b →
    b.owner = .port p → b.mode = .hold → b.action ≠ a →
    new = { owner := .port p, mode := .hold, action := a, deadline := some (s.now + ms s.layout.holdWindow)
            ended := false } →
    x = { group := g, owner := .port p, mode := .hold, action := a, units := s.motionUnits g a, order := s.nextOrder
          state := .running, pausedSince := none } →
    (∀ r, s.firstChecks g a = some r → exec c s = .next (s.answered p (motionKind .hold a) r)) ∧
    ((∀ i d j e, b.action = .jack i d → a = .jack j e → i ≠ j → b.ended = true) → s.firstChecks g a = none →
      (∀ r, s.verdict .hold g a = some r → exec c s = .next (s.answered p (motionKind .hold a) r)) ∧
      (s.verdict .hold g a = none → ∃ t, exec c s = .next t ∧
        (t.port p).replies = (s.port p).replies ++ [frameOf 0x80 [(motionKind .hold a).code, 0]] ∧
        (∃ y, t.claim g = some { new with ended := y }) ∧
        (∀ e ∈ t.motions, e.group = g → s.nextOrder ≤ e.order) ∧
        (¬ s.still g → t.noticed .motionEnd = true) ∧
        (s.unplanned g →
          (t.claim g = some new ∧ x ∈ t.load ∧ (¬ s.still g → t.outcomeOf g = some .released)) ∨
          (t.claim g = some { new with ended := true } ∧ t.still g ∧ t.noticed .motionEnd = true)) ∧
        t.fixedPart = s.fixedPart)) ∧
    (∀ i d j e, b.action = .jack i d → a = .jack j e → i ≠ j → b.ended = false → s.firstChecks g a = none →
      (∀ r, r ≠ Answer.refused .budget 0 0 → s.verdict .hold g a = some r →
        exec c s = .next (s.answered p .moveJack r)) ∧
      ((s.verdict .hold g a = none ∨ s.verdict .hold g a = some (.refused .budget 0 0)) → ∃ t, exec c s = .next t ∧
        (t.port p).replies = (s.port p).replies ++
          [frameOf 0x80 [0x13, if (s.paused.any fun y => decide (y.group = .jacks)) then 2 else 0]] ∧
        (∃ y, t.claim .jacks = some { new with ended := y }) ∧
        (∀ y, s.unplanned .jacks → s.showsMotions → s.entryOf .jacks = some y → (∀ z ∈ s.load ++ s.paused, z.group = .jacks → z = y) →
          (¬(if e = .stowing then s.jackHome j = true
              else 0 < (s.jackParams j).strokeMax ∧ (s.jack j).count = some (s.jackParams j).strokeMax) →
            (y ∈ s.load → { y with action := a } ∈ t.load) ∧ { y.motion with action := a } ∈ t.motions ∧
            t.claim .jacks = some new) ∧
          ((if e = .stowing then s.jackHome j = true
              else 0 < (s.jackParams j).strokeMax ∧ (s.jack j).count = some (s.jackParams j).strokeMax) →
            t.claim .jacks = some { new with ended := true } ∧ t.still .jacks ∧ t.noticed .motionEnd = true ∧
            t.outcomeOf .jacks = some (if e = .stowing then .homeReached else .endReached))) ∧
        t.fixedPart = s.fixedPart))

/-- RELEASE, by whose the claim is (R117): a motion ends RELEASED, which stands on record here while no plan runs; a running
plan could move the group again in the same event. -/
def Obligations.ReleaseFreesTheClaim : Prop :=
  ∀ (s : State) (p : Port) (g : Group), s.inReset = none → s.hasRoom p →
    (s.claim g = none → exec (.release p (byteOf (groupCode g))) s =
      .next (s.answered p .release (.accepted false false false))) ∧
    (∀ b, s.claim g = some b → b.owner ≠ .port p → exec (.release p (byteOf (groupCode g))) s =
      .next (s.answered p .release (.refused .held b.owner.code 0))) ∧
    (∀ b, s.claim g = some b → b.owner = .port p → s.still g → exec (.release p (byteOf (groupCode g))) s =
      .next ((s.setClaim g none).answered p .release (.accepted false false false))) ∧
    (∀ b, s.claim g = some b → b.owner = .port p → ¬ s.still g → ∃ t u,
      exec (.release p (byteOf (groupCode g))) s = .next t ∧ t = u.answered p .release (.accepted false false false) ∧
      u.claim g = none ∧ Ended g .released s u)

/-- The hold deadline of a claim ends its motion HOLD_LAPSED and frees the claim; the pause limit of an AUTO entry of the
pause list ends its motion SUPPLY_LOW and frees the claim of a port or of WIND (R118, R143, R120). By the model's choice
each moves the clock on to its moment, and does nothing where an idle step has raised what is due now and the moment lies
ahead (log 3). -/
def Obligations.DeadlinesEndMotions : Prop :=
  ∀ (s : State) (g : Group), s.inReset = none →
    (∀ b due, s.claim g = some b → b.mode = .hold → b.deadline = some due →
      (s.comes due = false → exec (.holdDeadline g) s = .next s) ∧
      (s.comes due = true → ∃ t, exec (.holdDeadline g) s = .next t ∧ t.claim g = none ∧
        (s.still g → t = (s.advanceTo due).setClaim g none) ∧
        (¬ s.still g → Ended g .holdLapsed (s.advanceTo due) t))) ∧
    ((∀ b, s.claim g = some b → b.mode = .hold → b.deadline = none) → exec (.holdDeadline g) s = .next s) ∧
    (∀ e since due, s.paused.find? (fun x => decide (x.group = g)) = some e → e.mode = .auto →
      e.pausedSince = some since → due = since + seconds s.layout.pauseLimit →
      (s.comes due = false → exec (.pauseLimit g) s = .next s) ∧
      (s.comes due = true → ∃ t, exec (.pauseLimit g) s = .next t ∧ Ended g .supplyLow (s.advanceTo due) t ∧
        ∀ b, s.claim g = some b → b.mode = .auto → b.owner ≠ .sequencer → t.claim g = none)) ∧
    ((∀ e, s.paused.find? (fun x => decide (x.group = g)) = some e → e.mode = .hold) →
      exec (.pauseLimit g) s = .next s)

/-- STOP ends every motion, stops the running plan and frees every claim (R121, R155). -/
def Obligations.StopEndsEverything : Prop :=
  ∀ (s : State) (p : Port), s.inReset = none → s.hasRoom p →
    ∃ t u, exec (.stop p) s = .next t ∧ t = u.answered p .stop (.accepted false false false) ∧
      u.load = [] ∧ u.paused = [] ∧ (∀ g, u.claim g = none) ∧
      (∀ g, ¬ s.still g → u.outcomeOf g = some .stopped ∧ u.noticed .motionEnd = true) ∧
      (∀ g, s.still g → axisRecords u g = axisRecords s g) ∧
      (∀ id m, ¬ s.still id.group → m ∈ s.motors id → u.motorDriven id m = false) ∧
      (s.planRunning = true → u.plan = { s.plan with status := .stopped } ∧ u.noticed .plan = true) ∧
      (s.planRunning = false → u.plan = s.plan) ∧
      (∀ id m, (u.motor id m).count = (s.motor id m).count) ∧ u.lamp = false ∧ u.fixedPart = s.fixedPart

/-- The change to ROAD acts as STOP with outcome ROAD, and the drive-away alarm is evaluated; the change to PARKED starts
and ends no motion and ends the alarm (R123, R124, R125). This is said of a line that stands at that level already too, as
the model reads the command (log 33). -/
def Obligations.ParkLineSetsTheRoadState : Prop :=
  ∀ (s : State), s.inReset = none →
    (∃ t, exec .parkReleased s = .next t ∧ t.road = .road ∧ t.load = [] ∧ t.paused = [] ∧ (∀ g, t.claim g = none) ∧
      (∀ g, ¬ s.still g → t.outcomeOf g = some .road ∧ t.noticed .motionEnd = true) ∧
      (s.planRunning = true → t.plan = { s.plan with status := .stopped } ∧ t.noticed .plan = true) ∧
      (s.planRunning = false → t.plan = s.plan) ∧
      (t.alarm = true ↔
        (∃ k, t.configured (.room k) = true ∧ (t.rooms[k]).state ≠ .closed) ∨ t.jackSetState ≠ .stowed ∨
          t.sliderState .awning ≠ .closed) ∧
      (s.alarm = false → t.alarm = true → t.noticed .road = true ∧ t.faultPattern = none ∧ t.faultCount = 0) ∧
      (∀ id m, (t.motor id m).count = (s.motor id m).count) ∧ t.layout = s.layout ∧ t.write = s.write) ∧
    (∃ t, exec .parkSet s = .next t ∧ t.road = .parked ∧ t.alarm = false ∧
      ({ s with park := t.park } : State).butAlarm t ∧ t.ports = s.ports)

/-- CLEAR_FAULT: the checks of R122 in their order, and the removal of the fault by the group's controller
(R56, R81, R102, R122). -/
def Obligations.ClearFaultRemovesTheFault : Prop :=
  ∀ (s : State) (p : Port) (g : Group), s.inReset = none → s.hasRoom p →
    (s.configured g = false → exec (.clearFault p (byteOf (groupCode g))) s =
      .next (s.answered p .clearFault (.refused .notConfigured 0 0))) ∧
    (∀ b, s.configured g = true → s.claim g = some b → exec (.clearFault p (byteOf (groupCode g))) s =
      .next (s.answered p .clearFault (.refused .held b.owner.code 0))) ∧
    (s.configured g = true → s.claim g = none → (s.clearFaultOf g).fallenPermit = none → ∃ t u,
      exec (.clearFault p (byteOf (groupCode g))) s = .next t ∧
      t = u.answered p .clearFault (.accepted false false false) ∧ u.groupFaulted g = false ∧
      (∀ h, h ≠ g → axisRecords u h = axisRecords s h) ∧
      (∀ id, id.group = g → s.racked id = false → (u.slider id) = { s.slider id with fault := none }) ∧
      (∀ id, id.group = g → s.racked id = true → (u.motor id .a).count = none ∧ (u.motor id .b).count = none ∧
        ((u.slider id).state = .unknown ∨ s.allHome id = true)) ∧
      (∀ j, u.jack j = { s.jack j with fault := (u.jack j).fault }) ∧
      u.channels = s.channels ∧ u.load = s.load ∧ u.paused = s.paused ∧ u.claims = s.claims ∧ u.plan = s.plan ∧
      u.fixedPart = s.fixedPart)

/-! ### Plans -/

/-- RUN_PLAN: the checks of R149 in their order, and the acceptance that sets the plan record (R149, R150). Its first step
begins in the same event: its groups are tested in listed order, and the first that fails ends the plan FAILED with its
group and reason and frees its claims (R151, R154); a step of one group that passes is placed as an AUTO motion of the
SEQUENCER claim, with its slot ACTIVE (R152). That a step which fails a test shows no slots is the model's choice
(log 51). -/
def Obligations.RunPlanIsAccepted : Prop :=
  ∀ (s : State) (p : Port) (n : PlanName), s.inReset = none → s.hasRoom p →
    (s.write.isSome → exec (.runPlan p (byteOf n.code)) s =
      .next (s.answered p .runPlan (.refused .storeBusy 0 0))) ∧
    (s.write = none → s.road ≠ .parked → exec (.runPlan p (byteOf n.code)) s =
      .next (s.answered p .runPlan (.refused .notPermitted 1 0))) ∧
    (s.write = none → s.road = .parked → s.layout.planSteps n = [] → exec (.runPlan p (byteOf n.code)) s =
      .next (s.answered p .runPlan (.refused .badRequest 0 0))) ∧
    (s.write = none → s.road = .parked → s.layout.planSteps n ≠ [] → s.plan.status = .running →
      exec (.runPlan p (byteOf n.code)) s = .next (s.answered p .runPlan (.refused .planActive 0 0))) ∧
    (∀ g b, s.write = none → s.road = .parked → s.layout.planSteps n ≠ [] → s.plan.status ≠ .running →
      g ∈ planGroups (s.layout.planSteps n) → s.claim g = some b →
      (∀ h ∈ planGroups (s.layout.planSteps n), groupCode h < groupCode g → s.claim h = none) →
      exec (.runPlan p (byteOf n.code)) s = .next (s.answered p .runPlan (.refused .held b.owner.code 0))) ∧
    (s.write = none → s.road = .parked → s.layout.planSteps n ≠ [] → s.plan.status ≠ .running →
      (∀ g ∈ planGroups (s.layout.planSteps n), s.claim g = none) → ∃ t,
      exec (.runPlan p (byteOf n.code)) s = .next t ∧
      (t.port p).replies = (s.port p).replies ++ [frameOf 0x80 [0x14, 0]] ∧
      t.plan.name = some n ∧ t.plan.owner = some (.port p) ∧ t.plan.stepCount = (s.layout.planSteps n).length ∧
      (∀ g, t.plan.reserved[groupIndex g] = (planGroups (s.layout.planSteps n)).contains g) ∧
      t.noticed .plan = true ∧
      (∀ g b, g ∉ planGroups (s.layout.planSteps n) → s.claim g = some b → b.mode = .hold → b.owner ≠ .sequencer →
        t.claim g = some b ∨ t.claim g = some { b with ended := true }) ∧
      (∀ g, g ∉ planGroups (s.layout.planSteps n) → s.claim g = none → t.claim g = none) ∧
      (∀ step rest, s.layout.planSteps n = step :: rest → (∀ e ∈ s.motions, e.owner ≠ .sequencer) →
        (∀ pre g a post r x, step = pre ++ (g, a) :: post → (∀ y ∈ pre, s.stepTest y.1 y.2 = none) →
          some (r, x) =
            (if s.configured g = false then some (.notConfigured, none)
            else if ∃ i ∈ s.groupChans g, (s.chan i).census ≠ .seated then some (.unavailable, none)
            else if s.groupFaulted g = true then some (.faulted, none)
            else if s.homeFirst g a = true then some (.homeFirst, none)
            else if s.permitCause g a ≠ none then some (.notPermitted, s.permitCause g a)
            else if a = .level ∧ (s.layout.level.steepLimit < s.tilt.pitch.natAbs ∨
              s.layout.level.steepLimit < s.tilt.roll.natAbs) then some (.tooSteep, none)
            else none) →
          t.plan.status = .failed ∧ t.plan.stepIndex = 1 ∧ t.plan.slots = [] ∧
          t.plan.failure = some { step := 1, group := g, reason := some r, cause := x, outcome := none, fault := none } ∧
          t.motions = s.motions ∧ ∀ h ∈ planGroups (s.layout.planSteps n), t.claim h = none) ∧
        (∀ g a e, step = [(g, a)] → s.stepTest g a = none → s.still g →
          e = { group := g, owner := .sequencer, mode := .auto, action := a, units := s.motionUnits g a
                order := s.nextOrder, state := .running, pausedSince := none } →
          (e ∈ t.motions ∧ t.plan.status = .running ∧ t.plan.stepIndex = 1 ∧ t.plan.slots = [⟨g, none⟩] ∧
            t.claim g = some { owner := .sequencer, mode := .auto, action := a, deadline := none, ended := false }) ∨
          (e ∉ t.motions ∧ t.noticed .motionEnd = true))) ∧
      t.fixedPart = s.fixedPart)

/-- A rise of IGN: the STOW plan with owner IGNITION when auto-stow is set, the road state is PARKED and nothing stands in
its way; notice PLAN when something does; else nothing (R126). This is said of a line that stands high already too, as the
model reads the command (log 33). -/
def Obligations.IgnitionStows : Prop :=
  ∀ (s u : State), s.inReset = none → u = { s with ign := { s.ign with accepted := some true } } →
    ((s.layout.autoStow = false ∨ s.road ≠ .parked) → exec .ignRise s = .next u) ∧
    (s.layout.autoStow = true → s.road = .parked →
      ((∃ g, s.claim g ≠ none) ∨ s.write ≠ none ∨ s.layout.stow = []) → exec .ignRise s = .next (u.raise .plan)) ∧
    (s.layout.autoStow = true → s.road = .parked → (∀ g, s.claim g = none) → s.write = none → s.layout.stow ≠ [] →
      ∃ t, exec .ignRise s = .next t ∧ t.plan.name = some .stow ∧ t.plan.owner = some .ignition ∧
        t.plan.stepCount = s.layout.stow.length ∧ t.noticed .plan = true ∧
        (∀ g, g ∉ planGroups s.layout.stow → t.claim g = none) ∧ t.fixedPart = u.fixedPart)

/-! ### The layout store and the census -/

/-- The completion of a store write puts the written image in force on every block; without a write in flight nothing
completes (R182, R3, R59, R92, R148). A motor or a jack at home has count 0, by inference (log 43). With nothing in motion
and no gust missed the alarm is evaluated with the axes that are configured now (R125). The layout holds the items at the
bytes of section 11.3; what it holds where a byte lies outside its range, such as a count of steps above 8, a flag above 1
or a scale code of 7, is the model's choice (log 27). -/
def Obligations.StoreWritePutsTheLayoutInForce : Prop :=
  (∀ (s : State), s.inReset = none →
    (s.write = none → exec .storeWriteComplete s = .next s) ∧
    (s.write.isSome → ∃ t, exec .storeWriteComplete s = .next t ∧ t.write = none ∧
      t.layout = Layout.ofImage s.staging ∧ t.staging = s.staging ∧ t.stored = .record s.staging ∧
      t.noticed .layout = true ∧ t.plan = freshPlan ∧ t.park = s.park ∧ t.ign = s.ign ∧ t.now = s.now ∧
      t.supply = s.supply ∧ t.censusStart = s.now ∧
      (∀ n, (t.chan n).pendingRead = none ∧ (t.chan n).pendingAt = none ∧ (t.chan n).settledLevels = none ∧
        (variantCount s.straps.variant ≤ n.val →
          (t.chan n).census = .absent ∧ (t.chan n).settled = true ∧ (t.chan n).scaled = 0) ∧
        (n.val < variantCount s.straps.variant → t.role n = .none →
          (t.chan n).census = .unused ∧ (t.chan n).settled = true ∧ (t.chan n).scaled = 0) ∧
        (n.val < variantCount s.straps.variant → t.role n ≠ .none →
          (t.chan n).census = .empty ∧ (t.chan n).settled = false ∧ (t.chan n).kindRead = .slideMotor)) ∧
      ((∃ n, (t.chan n).census ≠ (s.chan n).census) → t.noticed .census = true) ∧
      (∀ id m, s.configured id.group = true → t.configured id.group = true →
        (t.motor id m).count = if t.motorHome id m then some 0 else none) ∧
      (∀ j, s.jackConfigured j = true → t.jackConfigured j = true →
        (t.jack j).count = if t.jackHome j then some 0 else none) ∧
      (s.motions = [] → s.wind.gustMissed = false → (t.alarm = true ↔ t.road = .road ∧
        ((∃ k, t.configured (.room k) = true ∧ (t.rooms[k]).state ≠ .closed) ∨ t.jackSetState ≠ .stowed ∨
          t.sliderState .awning ≠ .closed))) ∧
      (∀ g, s.claim g = none → g ≠ .awning → t.claim g = none) ∧
      (∀ p, (t.port p).link = (s.port p).link))) ∧
  (∀ (m : Image) (l : Layout), l = Layout.ofImage m →
    (∀ a, m.u8 a = (m.read a).toNat ∧ m.u16 a = 256 * (m.read a).toNat + (m.read (a + 1)).toNat) ∧
    (∀ n : Chan, (m.u8 (2 * n.val) = 0 → l.roles[n] = .none) ∧
      (∀ k : RoomId, (m.u8 (2 * n.val) = 2 * k.val + 1 → l.roles[n] = .room k .a) ∧
        (m.u8 (2 * n.val) = 2 * k.val + 2 → l.roles[n] = .room k .b)) ∧
      (∀ j : JackId, m.u8 (2 * n.val) = 9 + j.val → l.roles[n] = .jack j) ∧
      (m.u8 (2 * n.val) = 15 → l.roles[n] = .pump) ∧ (m.u8 (2 * n.val) = 16 → l.roles[n] = .awning) ∧
      (l.dirFlags[n] = true ↔ 128 ≤ m.u8 (2 * n.val + 1)) ∧
      l.scales[n] = ((m.u8 (2 * n.val + 1) % 8 : Nat) : Int) - 3) ∧
    (∀ q b, (q = l.slide ∧ b = 32) ∨ (q = l.pump ∧ b = 48) ∨ (q = l.awningMotor ∧ b = 64) →
      q.startDuty = m.u8 b ∧ q.runDuty = m.u8 (b + 1) ∧ q.rampStep = m.u8 (b + 2) ∧ q.currentLimit = m.u16 (b + 3) ∧
      q.startBlank = m.u16 (b + 5)) ∧
    (∀ q b, (q = l.slide ∧ b = 32) ∨ (q = l.awningMotor ∧ b = 64) ∨ (q = l.valve ∧ b = 80) →
      q.depth = m.u8 (b + 7) ∧ q.maskFraction = m.u8 (b + 8) ∧ q.stallFactor = m.u8 (b + 9) ∧
      q.stallFloor = m.u16 (b + 10) ∧ q.startLimit = m.u16 (b + 12) ∧ q.filter = m.u8 (b + 14)) ∧
    l.reversalDwell = m.u16 96 ∧ l.holdWindow = m.u16 98 ∧ l.pauseLimit = m.u16 100 ∧ l.roomTimeout = m.u16 102 ∧
    l.jackTimeout = m.u16 104 ∧ l.supplyScale = m.u16 106 ∧ (l.autoStow = true ↔ m.u8 108 ≠ 0) ∧
    (∀ (k : RoomId) (r : RoomParams), r = l.rooms[k] →
      r.motorCount = m.u8 (112 + 16 * k.val) ∧ r.travel = m.u16 (113 + 16 * k.val) ∧
      r.endWindow = m.u16 (115 + 16 * k.val) ∧ r.seatFraction = m.u8 (117 + 16 * k.val) ∧
      r.syncWindow = m.u8 (118 + 16 * k.val) ∧ r.rackLimit = m.u8 (119 + 16 * k.val) ∧
      (r.needsSupport = true ↔ m.u8 (120 + 16 * k.val) ≠ 0) ∧ (r.awningClash = true ↔ m.u8 (121 + 16 * k.val) ≠ 0)) ∧
    l.awning = { travel := m.u16 176, endWindow := m.u16 178, seatFraction := m.u8 180, runTimeout := m.u16 181 } ∧
    (∀ j : JackId, l.jacks[j] =
      { x := m.s16 (192 + 16 * j.val), y := m.s16 (194 + 16 * j.val), strokeMax := m.u16 (196 + 16 * j.val)
        spp := m.u8 (198 + 16 * j.val), contactThreshold := m.u16 (199 + 16 * j.val)
        hysteresis := m.u16 (201 + 16 * j.val) }) ∧
    l.level = { zeroX := m.u16 288, zeroY := m.u16 290, perDegree := m.u16 292, tolerance := m.u8 294
                passLimit := m.u8 295, steepLimit := m.u16 296, settleTime := m.u16 298, passTimeout := m.u16 300
                deadband := m.u8 302 } ∧
    (l.wind.present = true ↔ m.u8 432 ≠ 0) ∧ l.wind.constantK = 65536 * m.u8 433 + m.u16 434 ∧
    l.wind.filter = m.u8 436 ∧ l.wind.gust = m.u16 437 ∧ l.wind.calm = m.u16 439 ∧
    l.wind.gustHold = m.u8 441 ∧ l.wind.calmHold = m.u16 442 ∧
    (∀ n p, (n = .setup ∧ p = 304) ∨ (n = .stow ∧ p = 368) →
      (l.planSteps n).length = min 8 (m.u8 p) ∧
      ∀ (i b : Nat) (st : PlanStep), (l.planSteps n)[i]? = some st → b = p + 1 + 7 * i → m.u8 b ≤ 6 →
        (∀ e, e < m.u8 b → ∃ g, groupCode g = m.u8 (b + 1 + e) / 16 ∧
          (m.u8 (b + 1 + e) % 16 = 1 ∨ m.u8 (b + 1 + e) % 16 = 2 ∨ (m.u8 (b + 1 + e) % 16 = 3 ∧ g = .jacks))) →
        st.length = m.u8 b ∧
        ∀ (e : Nat) (g : Group) (x : Action), st[e]? = some (g, x) → groupCode g = m.u8 (b + 1 + e) / 16 ∧
          (m.u8 (b + 1 + e) % 16 = 1 → x = .toward .outward) ∧ (m.u8 (b + 1 + e) % 16 = 2 → x = .toward .stowing) ∧
          (m.u8 (b + 1 + e) % 16 = 3 → x = .level)))

/-- The start-up reads and the confirming reads of a channel: the first start-up read is taken 20 ms after the start-up
census begins, and each later read 20 ms after the one that waits; two successive reads that agree settle it; a read that
does not agree waits for the next (R2, R3, R4, R5, R7). By the model's choice a start-up read waits in the pending read
(log 20), and a read that is commanded before its moment moves the clock on to it, or is not taken where an idle step has
raised what is due now (log 3), as it raises the reads themselves (log 2, 4). -/
def Obligations.ReadsThatAgreeSettleAChannel : Prop :=
  (∀ (s : State) (c : Instr) (n : Chan) (r : Levels), s.inReset = none →
    (c = .censusRead n r ∨ c = .confirmingRead n r) →
    (((s.present n = false ∨ s.role n = .none) ∨
        (c = .censusRead n r ∧ (s.chan n).settled = true) ∨
        (c = .confirmingRead n r ∧ ((s.chan n).settled = false ∨ (s.chan n).pendingRead = none))) →
      exec c s = .next s) ∧
    (s.present n = true → s.role n ≠ .none →
      ((c = .censusRead n r ∧ (s.chan n).settled = false) ∨
        (c = .confirmingRead n r ∧ (s.chan n).settled = true ∧ (s.chan n).pendingRead ≠ none)) →
      ∀ (moment : Time) (u : State), moment = ((s.chan n).pendingAt.getD s.censusStart) + ms 20 → u = s.advanceTo moment →
        (s.now < moment → s.tickedAt = some s.now → exec c s = .next s) ∧
        ((moment ≤ s.now ∨ s.tickedAt ≠ some s.now) →
          ((s.chan n).pendingRead ≠ some r →
            exec c s = .next (u.setChan n { u.chan n with pendingRead := some r, pendingAt := some u.now })) ∧
          ((s.chan n).pendingRead = some r → ∃ t, exec c s = .next t ∧
            (t.chan n).settled = true ∧ (t.chan n).pendingRead = none ∧ (t.chan n).pendingAt = none ∧
            (t.chan n).settledLevels = some r ∧ (t.chan n).kindRead = kindOfLines r.knd1 r.knd0 ∧
            (t.chan n).census =
              (if r.sea = true ∧ r.seb = true then
                if some (kindOfLines r.knd1 r.knd0) = (s.role n).kind then .seated else .mismatch
              else if r.sea = true ∨ r.seb = true then .loose
              else .empty) ∧
            ((t.chan n).census ≠ (s.chan n).census → t.noticed .census = true) ∧
            (s.motionOfChan n = none → t = { u with channels := t.channels, ports := t.ports } ∧
              (∀ x, x ≠ n → t.chan x = u.chan x) ∧ (t.chan n).drive = (s.chan n).drive) ∧
            (∀ g e, (s.role n).group = some g → s.entryOf g = some e → n ∈ s.motionChans e →
              (s.chan n).census = .seated → (t.chan n).census ≠ .seated → Ended g .fault u t ∧
              ∀ id, id.group = g → (t.slider id).fault = some ((s.slider id).fault.getD
                (if (t.chan n).census = .mismatch then .mismatch else .unseated))))))) ∧
  (∀ (s : State), s.pending = [] → s.inReset = none → ∃ t, step s = .next t ∧ ∀ (n : Chan) (r : Levels) (moment : Time),
    moment = ((s.chan n).pendingAt.getD s.censusStart) + ms 20 →
    (.censusRead n r ∈ t.pending ↔ s.present n = true ∧ s.role n ≠ .none ∧ (s.chan n).settled = false ∧
      moment ≤ t.now ∧ r = t.readLevels n) ∧
    (.confirmingRead n r ∈ t.pending ↔ s.present n = true ∧ s.role n ≠ .none ∧ (s.chan n).settled = true ∧
      (s.chan n).pendingRead ≠ none ∧ moment ≤ t.now ∧ r = t.readLevels n))

/-- A re-census pass reads every settled channel that needs reads and has no pending read: a read that differs from the
settled levels becomes the pending read, and nothing else changes (R4). -/
def Obligations.RecensusPassHoldsNewReads : Prop :=
  ∀ (s : State) (reads : Vector Levels 16), s.inReset = none → ∃ t, exec (.recensusPass reads) s = .next t ∧
    t = { s with channels := t.channels } ∧
    ∀ n, t.chan n =
      if s.present n = true ∧ s.role n ≠ .none ∧ (s.chan n).settled = true ∧ (s.chan n).pendingRead = none ∧
          (s.chan n).settledLevels ≠ some reads[n] then
        { s.chan n with pendingRead := some reads[n], pendingAt := some s.now }
      else s.chan n

/-! ### Driven channels -/

/-- The 50 ms after a stop end in OFF; a reversal dwell ends in a drive start while the channel is SEATED in a RUNNING
motion, and in nothing otherwise; a drive start of a two-motor room whose counts stand W2 or more apart ends its motion
RACKED, by inference also where a motor stands at its travel limit (log 17); a ramp step raises the duty by the kind's step,
up to its run duty (R8, R11, R13, R14, R50). In a two-motor room it sets both trims anew: the leader's from its ramped duty,
while both motors are driven and the lead is above W1, and none else; every other channel stays as it is (R51). DIRn and DRVn
follow the drive state (R9, R10); by inference DIRn goes by the direction flag in force also in the 50 ms after a stop (log
48), and DRVn by the duty taken at every second step of 25 µs (log 30). By the model's choice
each moves the clock on to its moment, and does nothing where an idle step has raised what is due now and the moment lies
ahead (log 3). -/
def Obligations.ChannelTimersRunOut : Prop :=
  ∀ (s : State) (n : Chan), s.inReset = none →
    (∀ l due u, (s.chan n).drive = .stopping → (s.chan n).lastStop = some l → due = l.time + ms 50 →
      u = s.advanceTo due →
      (s.comes due = false → exec (.stoppingEnd n) s = .next s) ∧
      (s.comes due = true → exec (.stoppingEnd n) s = .next (u.setChan n { u.chan n with drive := .off }))) ∧
    ((s.chan n).drive ≠ .stopping → exec (.stoppingEnd n) s = .next s) ∧
    (∀ l due u, (s.chan n).drive = .dwelling → (s.chan n).lastStop = some l →
      due = l.time + ms s.layout.reversalDwell → u = s.advanceTo due →
      (s.comes due = false → exec (.dwellEnd n) s = .next s) ∧
      (s.comes due = true → u.mayDrive n = false → exec (.dwellEnd n) s = .next u) ∧
      (∀ id m, s.comes due = true → u.mayDrive n = true → s.motorChan id m = some n → u.racked id = false →
        (s.slideDir id = some .outward → ∀ x, (s.motor id m).count = some x → x < s.travelLimit id) →
        (s.slideDir id = some .stowing → s.motorHome id m = false) →
        ∃ t, exec (.dwellEnd n) s = .next t ∧
          (t.chan n).drive = (if (s.kindParams n).runDuty ≤ (s.kindParams n).startDuty then .atSpeed else .ramping) ∧
          (t.chan n).dir = (s.chan n).dir ∧ (t.chan n).ramped = (s.kindParams n).startDuty ∧
          (t.chan n).driveStart = some u.now ∧
          t.paceRec n = { counter := 0, ring := [], tally := 0, stallRaised := false } ∧
          t.fixedPart = u.fixedPart ∧ t.load = s.load ∧ t.claims = s.claims) ∧
      (∀ k m a b, s.comes due = true → u.mayDrive n = true → s.role n = .room k m → s.motorChan (.room k) m = some n →
        s.roleChan (.room k .b) ≠ none → (s.rooms[k]).motorA.count = some a → (s.rooms[k]).motorB.count = some b →
        (s.layout.rooms[k]).rackLimit ≤ max a b - min a b →
        ∃ t, exec (.dwellEnd n) s = .next t ∧ Ended (.room k) .fault u t ∧ t.enOut n = false ∧
          (t.rooms[k]).fault = some ((s.rooms[k]).fault.getD .racked)) ∧
      (∀ j, s.comes due = true → u.mayDrive n = true → s.role n = .jack j → s.jackSet.levelMark = false →
        ∃ t, exec (.dwellEnd n) s = .next t ∧
          (t.chan n).drive = .atSpeed ∧ (t.chan n).dir = (s.chan n).dir ∧ (t.chan n).ramped = 255 ∧
          t.fixedPart = u.fixedPart ∧ t.load = s.load ∧ t.claims = s.claims)) ∧
    ((s.chan n).drive ≠ .dwelling → exec (.dwellEnd n) s = .next s) ∧
    (∀ start due u, (s.chan n).drive = .ramping → (s.chan n).driveStart = some start →
      due = start + ms (10 * ((s.chan n).rampCount + 1)) → u = s.advanceTo due →
      (s.comes due = false → exec (.rampStep n) s = .next s) ∧
      (s.comes due = true → ∃ t, exec (.rampStep n) s = .next t ∧
        (t.chan n).ramped = min (s.kindParams n).runDuty ((s.chan n).ramped + (s.kindParams n).rampStep) ∧
        (t.chan n).drive = (if (s.kindParams n).runDuty ≤ (s.chan n).ramped + (s.kindParams n).rampStep then .atSpeed
          else .ramping) ∧
        (t.chan n).rampCount = (s.chan n).rampCount + 1 ∧ (t.chan n).dir = (s.chan n).dir ∧
        t = { u with channels := t.channels } ∧
        t.chan n = { u.chan n with
          drive := (t.chan n).drive, ramped := (t.chan n).ramped, rampCount := (t.chan n).rampCount
          trimmed := (t.chan n).trimmed } ∧
        (∀ x, x ≠ n → t.chan x = { u.chan x with trimmed := (t.chan x).trimmed }) ∧
        (∀ x, (∀ k m y, s.role n = .room k m → s.roleChan (.room k .b) ≠ none → s.roleChan (.room k y) ≠ some x) →
          (t.chan x).trimmed = (s.chan x).trimmed) ∧
        (∀ k m y x, s.role n = .room k m → s.roleChan (.room k .b) ≠ none → s.roleChan (.room k y) = some x →
          (t.chan x).trimmed =
            if s.motorDriven (.room k) .a = true ∧ s.motorDriven (.room k) .b = true then
              (s.entryOf (.room k)).bind fun e =>
                trimFor e.action.dir (s.layout.rooms[k]).syncWindow (t.chan x).ramped (s.motor (.room k) y).count
                  (s.motor (.room k) (match y with | .a => .b | .b => .a)).count
            else none))) ∧
    ((s.chan n).drive ≠ .ramping → exec (.rampStep n) s = .next s) ∧
    (∀ level : Dir → Bool, (∀ d, level d = if d = .outward then !s.layout.dirFlags[n] else s.layout.dirFlags[n]) →
      ((s.chan n).drive = .off → s.dirOut n = false) ∧
      ((s.chan n).driven = true → s.dirOut n = level (s.chan n).dir) ∧
      (∀ l, (s.chan n).lastStop = some l →
        ((s.chan n).drive = .stopping → s.dirOut n = level l.dir) ∧
        ((s.chan n).drive = .dwelling → s.dirOut n = if s.now < l.time + ms 50 then level l.dir else false))) ∧
    ((s.chan n).driven = false → ∀ phase, s.drvOut n phase = false) ∧
    ((s.chan n).driven = true → ∀ phase, phase < 256 →
      (s.drvOut n phase = true ↔ (s.chan n).waveDuty = 255 ∨ phase < (s.chan n).waveDuty)) ∧
    (∀ span, ((s.elapse span).chan n).waveDuty =
      if s.now / 2 < (s.now + span) / 2 then
        (if (s.chan n).driven then min (s.chan n).ramped ((s.chan n).trimmed.getD (s.chan n).ramped) else 0)
      else (s.chan n).waveDuty)

/-- A sample of a channel is scaled by its scale code; on a motor channel it counts for the overcurrent watch, on a valve
channel it is the jack's pressure and makes or breaks its contact (R16, R17, R66). An ACTIVE extending jack of an all-jack
extend or of a CONTACT phase that gains contact stops and is DONE; the last of them ends the extend STABILISED or LIMITED, or
lets a RUNNING level run pass on to SETTLE, and a paused one waits for its resumption (R74, R80, R84, R88). In every other
case the contact stops nothing (R71, R87). That a WAITING level run takes it as a paused one is read by inference (log 58);
that an extend which ends with a jack out of contact is LIMITED, also where none stands at its stroke, is the model's choice
(log 42). The third sample below the loss level acts as CONTACT_LOST. -/
def Obligations.SamplesAreScaledAndWatched : Prop :=
  ∀ (s : State) (n : Chan) (raw : Sample) (v : Nat), s.inReset = none →
    v = (if 0 ≤ s.layout.scales[n] then min 4095 (raw.toNat * 2 ^ s.layout.scales[n].toNat)
      else raw.toNat / 2 ^ (-s.layout.scales[n]).toNat) →
    ((s.present n = false ∨ s.role n = .none) → exec (.analogSample n raw) s = .next s) ∧
    (s.present n = true → s.role n ≠ .none → ∃ t, exec (.analogSample n raw) s = .next t ∧ (t.chan n).scaled = v) ∧
    (s.present n = true → (s.role n).isMotor = true →
      (s.countsCurrent n = false →
        exec (.analogSample n raw) s = .next (s.setChan n { s.chan n with scaled := v })) ∧
      (s.countsCurrent n = true → v < (s.kindParams n).currentLimit →
        exec (.analogSample n raw) s = .next (s.setChan n { s.chan n with scaled := v, overRun := 0 })) ∧
      (s.countsCurrent n = true → (s.kindParams n).currentLimit ≤ v → (s.chan n).overRun < 2 →
        exec (.analogSample n raw) s =
          .next (s.setChan n { s.chan n with scaled := v, overRun := (s.chan n).overRun + 1 })) ∧
      (∀ id m e, s.countsCurrent n = true → (s.kindParams n).currentLimit ≤ v → 2 ≤ (s.chan n).overRun →
        s.motorChan id m = some n → s.entryOf id.group = some e → ∃ t, exec (.analogSample n raw) s = .next t ∧
          Ended id.group .fault s t ∧
          (t.slider id).fault = some ((s.slider id).fault.getD .overcurrent))) ∧
    (∀ j, s.present n = true → s.role n = .jack j → ∃ t, exec (.analogSample n raw) s = .next t ∧
      (t.jack j).pressure = v ∧ (t.jack j).count = (s.jack j).count ∧
      ((s.jack j).contact = false → (s.jackParams j).contactThreshold ≤ v →
        (t.jack j).contact = true ∧ (t.jack j).lossRun = 0) ∧
      ((s.jack j).contact = false → v < (s.jackParams j).contactThreshold →
        (t.jack j).contact = false ∧ (t.jack j).lossRun = (s.jack j).lossRun) ∧
      ((s.jack j).contact = true → (s.jackParams j).contactThreshold ≤ v + (s.jackParams j).hysteresis →
        (t.jack j).contact = true ∧ (t.jack j).lossRun = 0) ∧
      ((s.jack j).contact = true → v + (s.jackParams j).hysteresis < (s.jackParams j).contactThreshold →
        (s.jack j).lossRun < 2 → (t.jack j).contact = true ∧ (t.jack j).lossRun = (s.jack j).lossRun + 1) ∧
      ((s.jack j).contact = true → v + (s.jackParams j).hysteresis < (s.jackParams j).contactThreshold →
        2 ≤ (s.jack j).lossRun → (t.jack j).contact = false ∧ (t.jack j).lossRun = 0 ∧
          exec (.contactLost j) ((s.setChan n { s.chan n with scaled := v }).setJack j { s.jack j with pressure := v }) =
            .next t)) ∧
    (∀ j w, s.present n = true → s.role n = .jack j → (s.jack j).contact = false →
      (s.jackParams j).contactThreshold ≤ v →
      w = (s.setChan n { s.chan n with scaled := v }).setJack j
        { s.jack j with pressure := v, contact := true, lossRun := 0, liftOff := false } →
      (w.fallenPermit = none →
        (∀ e, s.lowers e → ¬((s.jack j).phase = .active ∧ (s.jack j).dir = .outward)) →
        ∃ t, exec (.analogSample n raw) s = .next t ∧ w.butAlarm t) ∧
      (∀ e u, s.lowers e → (s.jack j).phase = .active → (s.jack j).dir = .outward →
        u = w.setJack j { w.jack j with phase := .done } → u.fallenPermit = none →
        ∃ t, exec (.analogSample n raw) s = .next t ∧ JackStops u t e j))

/-- The third counting sample at or above the current limit, and the sixty-fourth rejected pulse, end the motion of the
channel with outcome FAULT (R17, R34). That the commands of the two watches act at a count of 2 and of 63, and find nothing
to do below it, is read by inference (log 12). -/
def Obligations.ChannelFaultsEndTheMotion : Prop :=
  ∀ (s : State) (n : Chan) (g : Group) (e : Entry), s.inReset = none → (s.role n).group = some g →
    s.entryOf g = some e →
    (((s.role n).isMotor = true ∧ s.countsCurrent n = true ∧ 2 ≤ (s.chan n).overRun) →
      ∃ t, exec (.overcurrent n) s = .next t ∧ Ended g .fault s t ∧
        (∀ id, id.group = g → (t.slider id).fault = some ((s.slider id).fault.getD .overcurrent)) ∧
        (g = .jacks → ∀ j ∈ s.jacksOf e.action, (t.jack j).fault = some ((s.jack j).fault.getD .overcurrent))) ∧
    (¬((s.role n).isMotor = true ∧ s.countsCurrent n = true ∧ 2 ≤ (s.chan n).overRun) →
      exec (.overcurrent n) s = .next s) ∧
    ((s.hasPulses n = true ∧ (s.chan n).driven = true ∧ 63 ≤ (s.paceRec n).tally) →
      ∃ t, exec (.pulseNoise n) s = .next t ∧ Ended g .fault s t ∧
        (∀ id, id.group = g → (t.slider id).fault = some ((s.slider id).fault.getD .pulseNoise)) ∧
        (∀ j, s.role n = .jack j → (t.jack j).fault = some ((s.jack j).fault.getD .pulseNoise))) ∧
    (¬(s.hasPulses n = true ∧ (s.chan n).driven = true ∧ 63 ≤ (s.paceRec n).tally) →
      exec (.pulseNoise n) s = .next s)

/-- The third sample in succession below the loss level takes a jack's contact; it is a lift-off, with notice LEVEL, unless
the jack is RETRACTING or at home (R66, R67). It takes the support from under a room on its way OUT, whose motion ends
INTERLOCK (R128). In an all-jack extend and in a CONTACT phase a DONE jack with at-stroke no that lifts off becomes ACTIVE in
EXTEND again: its valve is started, and the pump with it, while the motion is RUNNING, and nothing is driven while it stands
in the pause list (R74, R80, R84, R88), by inference also while a level run is WAITING there (log 58). Every other lift-off
stops and starts nothing (R84, R85, R87). That CONTACT_LOST acts at a loss run of 2, and finds nothing to do below it, is
read by inference (log 12). -/
def Obligations.ContactIsLost : Prop :=
  ∀ (s : State) (j : JackId), s.inReset = none →
    ((s.jack j).contact = true → 2 ≤ (s.jack j).lossRun → s.jackConfigured j = true →
      ∃ t, exec (.contactLost j) s = .next t ∧ (t.jack j).contact = false ∧ (t.jack j).lossRun = 0 ∧
        (t.jack j).count = (s.jack j).count ∧
        (s.jackState j ≠ .retracting → s.jackHome j = false → t.noticed .level = true) ∧
        (s.motions = [] →
          (s.jackState j ≠ .retracting → s.jackHome j = false →
            (t.jack j).liftOff = true ∧ t.jackSet.levelMark = false) ∧
          ((s.jackState j = .retracting ∨ s.jackHome j = true) →
            (t.jack j).liftOff = (s.jack j).liftOff ∧ t.jackSet = s.jackSet) ∧
          t.load = [] ∧ t.paused = [] ∧ t.channels = s.channels ∧ t.claims = s.claims) ∧
        (∀ k e u, s.load = [e] → s.paused = [] → e.group = .room k → e.action = .toward .outward →
          (s.layout.rooms[k]).needsSupport = true → (s.jackSetState = .stabilised ∨ s.jackSetState = .levelled) →
          s.jackState j ≠ .retracting → s.jackHome j = false →
          u = s.setJack j { s.jack j with contact := false, lossRun := 0, liftOff := true } →
          Ended (.room k) .interlock u t ∧ ∀ m ∈ s.motors (.room k), t.motorDriven (.room k) m = false) ∧
        (∀ w, (s.jackState j = .retracting ∨ s.jackHome j = true) →
          w = s.setJack j { s.jack j with contact := false, lossRun := 0 } → w.fallenPermit = none → w.butAlarm t) ∧
        (∀ w, s.jackState j ≠ .retracting → s.jackHome j = false →
          (∀ e, s.lowers e → ¬((s.jack j).phase = .done ∧ (s.jack j).atStroke = false)) →
          w = { s.setJack j { s.jack j with contact := false, lossRun := 0, liftOff := true } with
            jackSet := { s.jackSet with levelMark := false } } →
          w.fallenPermit = none → w.butAlarm t) ∧
        (∀ e w, s.jackState j ≠ .retracting → s.jackHome j = false → s.lowers e → (s.jack j).phase = .done →
          (s.jack j).atStroke = false →
          w = { s.setJack j
              { s.jack j with contact := false, lossRun := 0, liftOff := true, phase := .active, dir := .outward } with
            jackSet := { s.jackSet with levelMark := false } } →
          w.fallenPermit = none →
          t.jacks = w.jacks ∧ t.jackSet = w.jackSet ∧ t.level = s.level ∧ t.load = s.load ∧ t.paused = s.paused ∧
            t.claims = s.claims ∧ t.rooms = s.rooms ∧ t.awning = s.awning ∧
            (∀ x, s.role x ≠ .pump → s.role x ≠ .jack j → t.chan x = s.chan x) ∧
            (s.running .jacks = true → ValvesStarted s t [j] fun _ => .outward) ∧
            (s.running .jacks = false → (∀ x, s.role x ≠ .pump → t.chan x = s.chan x) ∧
              ((∀ i ∈ s.jacksOf e.action, s.valveDriven i = false) → ∀ x, t.enOut x = true → s.enOut x = true))) ∧
        t.fixedPart = s.fixedPart) ∧
    (((s.jack j).contact = false ∨ (s.jack j).lossRun < 2 ∨ s.jackConfigured j = false) →
      exec (.contactLost j) s = .next s)

/-- Where a pulse on PLSn goes: a driven pulse is tested against the mask, rejected below it, the sixty-fourth with fault
PULSE_NOISE (R34), and captured at or above it; a pulse within 50 ms of the last stop is a coast step; any other is
discarded (R25, R32, R33, R36). A driven step that brings a motion OUT to its travel limit ends it OVERTRAVEL (R49, R99),
by inference before a rack check (log 17). In a two-motor room a lead of W2 or more ends the motion RACKED (R50); a lead
above W1 trims the leading motor, and any other clears both trims (R51). A step of a jack, driven or coasting, moves its count
between 0 and the ceiling (R64), and in LIFT an outward one adds 1 to the progress of a selected jack, up to 65535 (R87). A
driven step that brings the count of an ACTIVE extending jack to its stroke max, by inference also one that finds it there
(log 44), makes the jack DONE and at stroke, in a level run with the limited flag (R76, R84, R87); else, by inference (log
18), a step that leaves the progress at or above the target makes it DONE (R87, R88). The last jack ends the motion, or lets
a RUNNING level run pass on to SETTLE, out of LIFT with one pass more (R74, R76, R84, R87); an extend that ends with a jack
out of contact is LIMITED, also where none stands at its stroke, by the model's choice (log 42). -/
def Obligations.PulsesAreSorted : Prop :=
  ∀ (s : State) (n : Chan), s.inReset = none →
    ((s.present n = false ∨ (s.role n).hasPulses = false) → exec (.plsPulse n) s = .next s) ∧
    (s.present n = true → (s.role n).hasPulses = true →
      ((s.chan n).driven = true → (s.paceRec n).counter < s.maskLimit n → (s.paceRec n).tally ≠ 63 →
        ∃ t, exec (.plsPulse n) s = .next t ∧
          t.paceRec n = { s.paceRec n with tally := min 255 ((s.paceRec n).tally + 1) } ∧
          (∀ id m, (t.motor id m).count = (s.motor id m).count) ∧ t.jacks = s.jacks ∧ t.channels = s.channels ∧
          t.load = s.load ∧ t.fixedPart = s.fixedPart) ∧
      (∀ g e, (s.chan n).driven = true → (s.paceRec n).counter < s.maskLimit n → (s.paceRec n).tally = 63 →
        (s.role n).group = some g → s.entryOf g = some e →
        ∃ t, exec (.plsPulse n) s = .next t ∧ Ended g .fault s t ∧
          (s.planRunning = false → (t.paceRec n).tally = 64 ∧ t.enOut n = false) ∧
          (∀ id, id.group = g → (t.slider id).fault = some ((s.slider id).fault.getD .pulseNoise)) ∧
          (∀ j, s.role n = .jack j → (t.jack j).fault = some ((s.jack j).fault.getD .pulseNoise))) ∧
      (∀ id m d v, (s.chan n).driven = true → s.maskLimit n ≤ (s.paceRec n).counter → s.motorChan id m = some n →
        (s.motor id m).phase ≠ .seat → (s.motor id m).phase ≠ .finished → d = (s.chan n).dir →
        v = (s.setPace n
          { s.paceRec n with
            ring := (if (s.paceRec n).ring.length < 8 then (s.paceRec n).ring
              else (s.paceRec n).ring.drop ((s.paceRec n).ring.length - 7)) ++ [(s.paceRec n).counter]
            counter := 0, stallRaised := false }).setMotor id m
          { s.motor id m with count := (s.motor id m).count.map fun c =>
              match d with
              | .outward => min (c + 1) (s.travelLimit id)
              | .stowing => c - 1 } →
        (s.motorChan id .b = none →
          (∀ c, (s.motor id m).count = some c → d = .outward → s.slideDir id = some .outward →
            c + 1 < s.travelLimit id) →
          exec (.plsPulse n) s = .next v) ∧
        (∀ c e, (s.motor id m).count = some c → s.entryOf id.group = some e → e.action.dir = .outward → d = .outward →
          s.travelLimit id ≤ c + 1 → ∃ t, exec (.plsPulse n) s = .next t ∧ Ended id.group .fault v t ∧
            (t.slider id).fault = some ((s.slider id).fault.getD .overtravel) ∧
            (s.planRunning = false → (t.slider id).state = .opened)) ∧
        (∀ k e a b lead, id = .room k → s.motorChan id .b ≠ none → s.entryOf id.group = some e →
          (v.motor id .a).count = some a → (v.motor id .b).count = some b → lead = max a b - min a b →
          (∀ c, (s.motor id m).count = some c → d = .outward → e.action.dir = .outward → c + 1 < s.travelLimit id) →
          ((s.layout.rooms[k]).rackLimit ≤ lead → ∃ t, exec (.plsPulse n) s = .next t ∧ Ended id.group .fault v t ∧
            (t.slider id).fault = some ((s.slider id).fault.getD .racked)) ∧
          (lead < (s.layout.rooms[k]).rackLimit → ∃ t, exec (.plsPulse n) s = .next t ∧
            t = { v with channels := t.channels } ∧
            (∀ x, (∀ y, s.motorChan id y ≠ some x) → t.chan x = s.chan x) ∧
            ∀ y x, s.motorChan id y = some x → t.chan x = { s.chan x with
              trimmed := if s.motorDriven id .a = true ∧ s.motorDriven id .b = true ∧
                  (s.layout.rooms[k]).syncWindow < lead ∧
                  ((y = .a ∧ (if e.action.dir = .outward then b < a else a < b)) ∨
                    (y = .b ∧ (if e.action.dir = .outward then a < b else b < a))) then
                some (max 64 ((s.chan x).ramped - 32 * (lead - (s.layout.rooms[k]).syncWindow)))
              else none }))) ∧
      (∀ j d v r (driven fed stroke target : Bool) (p : Vector Nat 6), s.role n = .jack j →
        ((driven = true ∧ (s.chan n).driven = true ∧ s.maskLimit n ≤ (s.paceRec n).counter ∧ d = (s.chan n).dir ∧
            v = s.setPace n
              { s.paceRec n with
                ring := (if (s.paceRec n).ring.length < 8 then (s.paceRec n).ring
                  else (s.paceRec n).ring.drop ((s.paceRec n).ring.length - 7)) ++ [(s.paceRec n).counter]
                counter := 0, stallRaised := false }) ∨
          (driven = false ∧ (s.chan n).driven = false ∧ v = s ∧
            ∃ l, (s.chan n).lastStop = some l ∧ s.now < l.time + ms 50 ∧ d = l.dir)) →
        r = { s.jack j with count := (s.jack j).count.map fun c =>
          match d with
          | .outward => min (c + 1) (if 0 < (s.jackParams j).strokeMax then (s.jackParams j).strokeMax else 65535)
          | .stowing => c - 1 } →
        fed = decide (s.level.status = .active ∧ s.level.phase = .lift ∧ s.level.selected[j] = true ∧ d = .outward) →
        (∀ i : JackId, p[i] = if fed = true ∧ i = j then min 65535 (s.level.progress[i] + 1) else s.level.progress[i]) →
        stroke = decide (driven = true ∧ d = .outward ∧ (s.jack j).phase = .active ∧ (s.jack j).dir = .outward ∧
          0 < (s.jackParams j).strokeMax ∧ r.count = some (s.jackParams j).strokeMax) →
        target = decide (fed = true ∧ (s.jack j).phase = .active ∧ (s.jack j).dir = .outward ∧
          ∃ x ∈ s.level.targets[j], x ≤ p[j]) →
        (∃ t, exec (.plsPulse n) s = .next t ∧ (t.jack j).count = r.count ∧ t.fixedPart = s.fixedPart) ∧
        (stroke = false → target = false →
          exec (.plsPulse n) s = .next { v.setJack j r with level := { s.level with progress := p } }) ∧
        (∀ e w, (stroke = true ∨ target = true) → s.entryOf .jacks = some e → j ∈ s.jacksOf e.action →
          w = { v.setJack j { r with phase := .done, atStroke := stroke || r.atStroke } with
            level := { s.level with
              progress := p, limited := s.level.limited || (stroke && decide (s.level.status = .active)) } } →
          w.fallenPermit = none → ∃ t, exec (.plsPulse n) s = .next t ∧ JackStops w t e j)) ∧
      (∀ id m l, (s.chan n).driven = false → (s.chan n).lastStop = some l → s.now < l.time + ms 50 →
        s.motorChan id m = some n → ∃ t, exec (.plsPulse n) s = .next t ∧
          (t.motor id m).count = (if (s.motor id m).phase = .seat ∨ (s.motor id m).phase = .finished then
              (s.motor id m).count
            else (s.motor id m).count.map fun c =>
              match l.dir with
              | .outward => min (c + 1) (s.travelLimit id)
              | .stowing => c - 1) ∧
          t.fixedPart = s.fixedPart) ∧
      ((s.chan n).driven = false → (∀ l, (s.chan n).lastStop = some l → l.time + ms 50 ≤ s.now) →
        exec (.plsPulse n) s = .next s))

/-- A stall of a room's or the awning's motor: on the way out the end of travel or an obstruction by the counts; on the way
in the end of a seat, or an obstruction in TRAVEL. A retracting jack's stall is an obstruction; an extending jack's is the
end of its stroke: the jack is DONE and at stroke, in a level run with the limited flag, which ends a MOVE_JACK END_REACHED;
the last jack ends an all-jack extend, STABILISED or LIMITED (the model's choice where a jack is out of contact and none stands
at its stroke without it, log 42), or lets a RUNNING level run pass on to SETTLE (R35, R46, R48, R49, R74, R76, R84, R87, R98,
R99). By the model's choice the clock
moves on until the counter reaches the limit, and nothing happens where an idle step has raised what is due now and the
counter is below it (log 3). -/
def Obligations.StallsEndTravel : Prop :=
  ∀ (s : State) (n : Chan) (u : State), s.inReset = none → u = s.advanceCounter n (s.stallLimit n) →
    ((s.mayStall n = false ∨ s.mayReach (s.paceRec n).counter (s.stallLimit n) = false) →
      exec (.stall n) s = .next s) ∧
    (s.mayStall n = true → s.mayReach (s.paceRec n).counter (s.stallLimit n) = true →
      (∀ id m e, s.motorChan id m = some n → s.entryOf id.group = some e →
        (e.action.dir = .outward →
          (∀ x ∈ s.motors id, ∃ c, (s.motor id x).count = some c ∧ s.travel id - s.endWindow id ≤ c) →
          ∃ t, exec (.stall n) s = .next t ∧ Ended id.group .endReached u t ∧
            (s.planRunning = false → (t.slider id).state = .opened ∧ (t.slider id).fault = (s.slider id).fault)) ∧
        (e.action.dir = .outward →
          (∃ x ∈ s.motors id, ∀ c, (s.motor id x).count = some c → c < s.travel id - s.endWindow id) →
          ∃ t, exec (.stall n) s = .next t ∧ Ended id.group .fault u t ∧
            (t.slider id).fault = some ((s.slider id).fault.getD .obstructed)) ∧
        (e.action.dir = .stowing → (s.motor id m).phase = .travel →
          ∃ t, exec (.stall n) s = .next t ∧ Ended id.group .fault u t ∧
            (t.slider id).fault = some ((s.slider id).fault.getD .obstructed)) ∧
        (e.action.dir = .stowing → (s.motor id m).phase = .seat →
          (∀ x ∈ s.motors id, x ≠ m → (s.motor id x).phase = .finished) →
          ∃ t, exec (.stall n) s = .next t ∧ Ended id.group .homeReached u t ∧
            (s.planRunning = false → (t.slider id).state = .closed))) ∧
      (∀ j e, s.role n = .jack j → s.entryOf .jacks = some e → (s.jack j).phase = .active →
        ((s.jack j).dir = .stowing → ∃ t, exec (.stall n) s = .next t ∧ Ended .jacks .fault u t ∧
          (t.jack j).fault = some ((s.jack j).fault.getD .obstructed)) ∧
        ((s.jack j).dir = .outward → ∃ t, exec (.stall n) s = .next t ∧
          (t.jack j).fault = (s.jack j).fault ∧
          (s.planRunning = false → (t.jack j).atStroke = true ∧ (t.jack j).phase ≠ .active ∧
            t.valveDriven j = false) ∧
          (e.action = .jack j .outward → Ended .jacks .endReached u t) ∧
          ∀ w, j ∈ s.jacksOf e.action →
            w = { (u.setPace n { u.paceRec n with stallRaised := true }).setJack j
                { u.jack j with phase := .done, atStroke := true } with
              level := { u.level with limited := u.level.limited || decide (u.level.status = .active) } } →
            w.fallenPermit = none → JackStops w t e j)))

/-! ### Wind -/

/-- The wind speed computed at a WND pulse and at the 100 ms step, and what the wind watch does with it (R38, R39, R40,
R104). A speed that leads from EASING back to GUSTY is an entry into GUSTY: the wind watch takes the AWNING claim and
places its retract as at a gust hold's end (R107); in a store write it leaves that check for the completion (log 22). -/
def Obligations.WindSpeedIsHandedOver : Prop :=
  ∀ (s : State) (c : Instr) (w : Wind), s.inReset = none →
    ((c = .windSpeedTick ∧ w = s.wind) ∨
      (c = .wndPulse ∧ w = { s.wind with
        counter := 0
        ring := (if s.wind.ring.length < 8 then s.wind.ring else s.wind.ring.drop (s.wind.ring.length - 7)) ++
          [s.wind.counter] })) →
    (s.layout.wind.present = false → exec c s = .next s) ∧
    (s.layout.wind.present = true → ∃ t v, exec c s = .next t ∧
      v = (if w.ring.length < 4 ∨ w.counter = 65535 then 0
        else
          let divisor := max ((w.ring.drop (w.ring.length - 4)).sum / 4) w.counter
          if divisor = 0 then 999 else min 999 (s.layout.wind.constantK / divisor)) ∧
      { t.wind with gustMissed := w.gustMissed } = (match w.state with
        | .unwatched => w
        | .calm =>
          if s.layout.wind.gust ≤ v then
            { w with
              speed := v, state := .rising, deadline := some (s.now + seconds s.layout.wind.gustHold), timer := 0 }
          else { w with speed := v }
        | .rising =>
          if v < s.layout.wind.gust then { w with speed := v, state := .calm, deadline := none, timer := 0 }
          else { w with speed := v }
        | .gusty =>
          if v < s.layout.wind.calm then
            { w with
              speed := v, state := .easing, deadline := some (s.now + seconds s.layout.wind.calmHold), timer := 0 }
          else { w with speed := v }
        | .easing =>
          if s.layout.wind.calm ≤ v then { w with speed := v, state := .gusty, deadline := none, timer := 0 }
          else { w with speed := v }) ∧
      (t.wind.state = s.wind.state → t = { s with wind := t.wind }) ∧
      (w.state = .easing → s.layout.wind.calm ≤ v → Safety.WindTakesTheAwning s s t) ∧
      { t.fixedPart with wind := s.wind } = s.fixedPart)

/-- The gust hold ends in GUSTY and the calm hold in CALM, with notice WIND. At the entry into GUSTY the wind watch takes
the AWNING claim when the awning is not STOWED, the road state is PARKED and the group is available: an awning motion of
another owner ends INTERLOCK on its way out and PREEMPTED on its way in, a claim of another owner is displaced with notice
PREEMPT, and the claim becomes WIND's with the wind retract placed by the budget, or is free again where that ends at
once; a running plan that loses the claim ends PREEMPTED (R105, R107, R120, R139, R157). By the model's choice the clock
moves on to the hold's moment, and nothing happens where an idle step has raised what is due now and the moment lies ahead
(log 3); an entry into GUSTY in a store write leaves its check for the write's completion (log 22). -/
def Obligations.WindHoldsAreReached : Prop :=
  ∀ (s : State) (due : Time) (u : State), s.inReset = none → u = s.advanceTo due →
    (s.wind.state = .rising → s.wind.deadline = some due →
      (s.comes due = false → exec .gustHoldReached s = .next s) ∧
      (s.comes due = true → ∃ t, exec .gustHoldReached s = .next t ∧
        t.wind.state = .gusty ∧ t.wind.deadline = none ∧ t.wind.timer = 0 ∧ t.wind.speed = s.wind.speed ∧
        t.noticed .wind = true ∧
        Safety.WindTakesTheAwning s u t ∧
        { t.fixedPart with wind := s.wind } = { u.fixedPart with wind := s.wind })) ∧
    (s.wind.state ≠ .rising → exec .gustHoldReached s = .next s) ∧
    (s.wind.state = .easing → s.wind.deadline = some due →
      (s.comes due = false → exec .calmHoldReached s = .next s) ∧
      (s.comes due = true → ∃ t, exec .calmHoldReached s = .next t ∧
        t.wind.state = .calm ∧ t.wind.deadline = none ∧ t.wind.timer = 0 ∧ t.wind.speed = s.wind.speed ∧
        t.noticed .wind = true ∧ (∀ g, s.claim g = none → t.claim g = none) ∧
        { t.fixedPart with wind := s.wind } = { u.fixedPart with wind := s.wind })) ∧
    (s.wind.state ≠ .easing → exec .calmHoldReached s = .next s)

/-! ### Rooms and the awning -/

/-- The home switches of a room or the awning: a closure zeroes the motor's count; at rest the state follows the switches,
and on the way in a driven motor enters its seat (R42, R43, R46, R96, R98). A room that opens from CLOSED at rest takes the
permit of a jack retraction, which ends INTERLOCK with its valves stopped (R127, R128). A closure that leaves the counts of
a driven two-motor room W2 or more apart ends its motion RACKED, by the law of R50 (log 40); short of that a driven motor on
the way in enters its seat here too, and one on the way out drives on. This is said of a switch that reads so already too,
as the model reads the command (log 33). -/
def Obligations.HomeSwitchesZeroTheCount : Prop :=
  ∀ (s : State) (id : Slider) (m : Motor) (n : Chan) (u : State), s.inReset = none →
    s.motorChan id m = some n → s.present n = true →
    (∃ t, exec (homeCommand id m true) s = .next t ∧ (t.motor id m).count = some 0 ∧
      (∀ i x, (i, x) ≠ (id, m) → s.countKept t i x) ∧
      (t.line (.hom n)).accepted = some true ∧
      (s.motions = [] → u = s.accept (.hom n) true →
        ((u.setMotor id m { s.motor id m with count := some 0 }).setSlider id
          { (u.setMotor id m { s.motor id m with count := some 0 }).slider id with
            state := if u.allHome id = true then .closed
              else if ∀ x ∈ s.motors id, x = m ∨ (s.motor id x).count ≠ none then .midway
              else (s.slider id).state }).butAlarm t) ∧
      (∀ e p, s.entryOf id.group = some e → e.action.dir = .stowing → (s.motor id m).phase = .travel →
        s.motorDriven id m = true → s.twoMotors id = false → s.pace? n = some p → 128 ≤ p * s.seatFraction id →
        t = (s.accept (.hom n) true).setMotor id m
          { s.motor id m with
            count := some 0, phase := .seat, seatDeadline := some (s.now + 4 * (p * s.seatFraction id / 128)) }) ∧
      (∀ k x c d, id = .room k → s.twoMotors id = true → x ≠ m → (s.motor id x).count = some c → s.slideDir id = some d →
        (∃ y, s.motorDriven id y = true) →
        ((s.layout.rooms[k]).rackLimit ≤ c →
          Ended (.room k) .fault ((s.accept (.hom n) true).setMotor id m { s.motor id m with count := some 0 }) t ∧
          (t.rooms[k]).fault = some ((s.rooms[k]).fault.getD .racked) ∧
          (s.planRunning = false → ∀ y, t.motorDriven id y = false)) ∧
        (c < (s.layout.rooms[k]).rackLimit → s.motorDriven id m = true → d = .outward →
          (t.motor id m) = { s.motor id m with count := some 0 } ∧ t.load = s.load ∧ t.paused = s.paused ∧
          ∀ y, t.motorDriven id y = s.motorDriven id y) ∧
        (∀ p, c < (s.layout.rooms[k]).rackLimit → s.motorDriven id m = true → d = .stowing → (s.motor id m).phase = .travel →
          s.pace? n = some p → 128 ≤ p * s.seatFraction id →
          (t.motor id m) = { s.motor id m with
            count := some 0, phase := .seat, seatDeadline := some (s.now + 4 * (p * s.seatFraction id / 128)) } ∧
          t.load = s.load ∧ t.paused = s.paused ∧ ∀ y, t.motorDriven id y = s.motorDriven id y))) ∧
    (∃ t, exec (homeCommand id m false) s = .next t ∧ (t.line (.hom n)).accepted = some false ∧
      (∀ i x, (s.accept (.hom n) false).countKept t i x) ∧
      (s.motions = [] → ((s.accept (.hom n) false).setSlider id
        { s.slider id with
          state := if (s.slider id).state = .closed then .midway else (s.slider id).state }).butAlarm t) ∧
      (∀ e, s.load = [e] → s.paused = [] → e.group = .jacks →
        (e.action = .toward .stowing ∨ ∃ j, e.action = .jack j .stowing) → s.configured id.group = true →
        (s.slider id).state = .closed →
        Ended .jacks .interlock (s.accept (.hom n) false) t ∧
          ∀ j ∈ s.jacksOf e.action, t.valveDriven j = false))

/-- A seat deadline finishes its motor, and the room or the awning with its last one, HOME_REACHED and CLOSED; the run
timeout ends the motion with fault RUN_TIMEOUT, from whichever list holds it when its time stands at the timeout (R45, R46,
R47, R97, R98, R144). Where the motion is the only one of a running
plan's step, the success completes the step, and the plan goes on to its next step or ends DONE with its claims freed; the
timeout ends it FAILED with the stored fault (R153, R154). By the model's choice the clock moves on to the moment, and
nothing happens where an idle step has raised what is due now and the moment lies ahead (log 3); a run time stops at its
timeout (log 35). -/
def Obligations.SlideDeadlinesEndTheMotion : Prop :=
  ∀ (s : State) (id : Slider) (m : Motor), s.inReset = none → (id = .awning → m = .a) →
    (∀ due u, (s.motor id m).phase = .seat → (s.motor id m).seatDeadline = some due → u = s.advanceTo due →
      (s.comes due = false → exec (seatCommand id m) s = .next s) ∧
      (s.comes due = true → (∀ x ∈ s.motors id, x ≠ m → (s.motor id x).phase = .finished) → ¬ s.still id.group →
        ∃ t, exec (seatCommand id m) s = .next t ∧ Ended id.group .homeReached u t ∧
          (s.planRunning = false → (t.slider id).state = .closed ∧ (t.slider id).fault = (s.slider id).fault) ∧
          (∀ e, s.planRunning = true → s.load = [e] → s.paused = [] → e.group = id.group → e.owner = .sequencer →
            s.plan.slots.length = s.presentStep.length →
            (∀ x ∈ s.plan.slots, x.group = id.group ∨ x.outcome.isSome) →
            t.noticed .plan = true ∧
            (s.plan.stepIndex < s.plan.stepCount → s.plan.stepIndex + 1 ≤ t.plan.stepIndex) ∧
            (s.plan.stepCount ≤ s.plan.stepIndex → t.plan.status = .done ∧ t.plan.failure = none ∧
              t.plan.stepIndex = s.plan.stepIndex ∧
              ∀ g b, s.claim g = some b → b.owner = .sequencer → t.claim g = none))) ∧
      (s.comes due = true → (∃ x ∈ s.motors id, x ≠ m ∧ (s.motor id x).phase ≠ .finished) →
        ∃ t, exec (seatCommand id m) s = .next t ∧ (t.motor id m).phase = .finished ∧
          (t.motor id m).seatDeadline = none ∧ (t.motor id m).count = (s.motor id m).count ∧
          t.motorDriven id m = false ∧ t.load = s.load ∧ t.paused = s.paused ∧ t.claims = s.claims ∧
          t.fixedPart = u.fixedPart)) ∧
    (((s.motor id m).phase ≠ .seat ∨ (s.motor id m).seatDeadline = none) → exec (seatCommand id m) s = .next s) ∧
    ((s.running id.group = true ∧ s.mayReach (s.slider id).runTime (s.sliderTimeout id) = true) ∨
        (¬ s.still id.group ∧ s.sliderTimeout id ≤ (s.slider id).runTime) →
      ∃ t u, exec (runTimeoutCommand id) s = .next t ∧
        u = s.advanceRun (s.slider id).runTime (s.sliderTimeout id) ∧
        Ended id.group .fault u t ∧ (t.slider id).fault = some ((s.slider id).fault.getD .runTimeout) ∧
        (∀ e, s.planRunning = true → s.load ++ s.paused = [e] → e.owner = .sequencer →
          t.noticed .plan = true ∧
          t.plan = { s.plan with
            status := .failed
            failure := some { step := s.plan.stepIndex, group := id.group, reason := none, cause := none
                              outcome := some .fault, fault := some ((s.slider id).fault.getD .runTimeout) } } ∧
          ∀ g b, s.claim g = some b → b.owner = .sequencer → t.claim g = none)) ∧
    (s.mayReach (s.slider id).runTime (s.sliderTimeout id) = false ∨ s.still id.group ∨
        (s.running id.group = false ∧ (s.slider id).runTime < s.sliderTimeout id) →
      exec (runTimeoutCommand id) s = .next s)

/-! ### Jacks -/

/-- The home switch of a jack: a closure zeroes its count, ends its at-stroke and its lift-off mark; an opening keeps the
count (R65). A retracting jack that comes home is stopped and DONE, the pump goes on while another valve is driven, and the
motion ends HOME_REACHED with its last one (R68, R72, R75). This is said of a switch that reads so already too, as the model
reads the command (log 33). -/
def Obligations.JackHomeZeroesTheCount : Prop :=
  ∀ (s : State) (j : JackId) (n : Chan), s.inReset = none → s.roleChan (.jack j) = some n → s.present n = true →
    (∃ t, exec (.jackHomeClosed j) s = .next t ∧ (t.jack j).count = some 0 ∧ (t.line (.hom n)).accepted = some true ∧
      (∀ i, i ≠ j → (t.jack i).count = (s.jack i).count) ∧
      (s.motions = [] → (s.jack j).phase = .idle → ((s.accept (.hom n) true).setJack j
        { s.jack j with count := some 0, atStroke := false, liftOff := false }).butAlarm t) ∧
      (∀ e, s.entryOf .jacks = some e → (e.action = .toward .stowing ∨ e.action = .jack j .stowing) →
        s.fallenPermit = none → s.jackConfigured j = true → (s.jack j).phase = .active → (s.jack j).dir = .stowing →
        ((∀ i ∈ s.jacksOf e.action, i ≠ j → (s.jack i).phase ≠ .active) →
          Ended .jacks .homeReached ((s.accept (.hom n) true).setJack j { s.jack j with count := some 0 }) t) ∧
        (∀ i q, i ∈ s.jacksOf e.action → i ≠ j → (s.jack i).phase = .active → s.valveDriven i = true →
          s.roleChan .pump = some q → (s.chan q).driven = true → s.motions = [e.motion] →
          (t.jack j).phase = .done ∧ t.valveDriven j = false ∧ t.valveDriven i = true ∧ t.enOut q = true ∧
            t.load = s.load ∧ t.paused = s.paused))) ∧
    (∃ t, exec (.jackHomeOpened j) s = .next t ∧ (t.line (.hom n)).accepted = some false ∧
      (∀ i, (t.jack i).reading = (s.jack i).reading) ∧
      (s.motions = [] → (s.accept (.hom n) false).butAlarm t))

/-- The run timeout of a jack motion, the timeout of a CONTACT phase and that of a LIFT phase end the motion FAULT, with
the fault in every ACTIVE jack, from whichever list holds it when its time stands at the limit (R144); in another phase of
the run, or without one, each of them finds nothing to do, and so does the end of SETTLE (R77, R84, R85, R87). By the
model's choice the time moves on to the limit, and nothing happens where an idle step has raised what is due now and the
limit lies ahead (log 3); an end of SETTLE that is taken after the shedding of its run finds nothing, by inference (log
46). -/
def Obligations.JackTimeoutsEndTheMotion : Prop :=
  (∀ (s : State) (c : Instr) (limit : Time) (run : Time) (f : FaultCode) (e : Entry), s.inReset = none →
    ((c = .jackRunTimeout ∧ s.level.status ≠ .active ∧ limit = seconds s.layout.jackTimeout ∧ run = s.jackSet.runTime ∧
        f = .runTimeout) ∨
      (c = .contactPhaseTimeout ∧ s.level.status = .active ∧ s.level.phase = .contact ∧
        limit = seconds s.layout.jackTimeout ∧ run = s.level.phaseTime ∧ f = .runTimeout) ∨
      (c = .passTimeout ∧ s.level.status = .active ∧ s.level.phase = .lift ∧
        limit = seconds s.layout.level.passTimeout ∧ run = s.level.phaseTime ∧ f = .passTimeout)) →
    (s.mayReach run limit = false ∨ s.still .jacks ∨ (s.running .jacks = false ∧ run < limit) → exec c s = .next s) ∧
    ((s.running .jacks = true ∧ s.mayReach run limit = true) ∨ limit ≤ run → s.entryOf .jacks = some e →
      ∃ t u, exec c s = .next t ∧ u = s.advanceRun run limit ∧ Ended .jacks .fault u t ∧
      ∀ j ∈ s.jacksOf e.action, (s.jack j).phase = .active → (t.jack j).fault = some ((s.jack j).fault.getD f))) ∧
  (∀ s : State, s.inReset = none →
    (s.level.status = .active → exec .jackRunTimeout s = .next s) ∧
    ((s.level.status ≠ .active ∨ s.level.phase ≠ .contact) → exec .contactPhaseTimeout s = .next s) ∧
    ((s.level.status ≠ .active ∨ s.level.phase ≠ .settle ∨ s.running .jacks = false ∨
      s.mayReach s.level.phaseTime (ms s.layout.level.settleTime) = false) → exec .settleEnd s = .next s) ∧
    ((s.level.status ≠ .active ∨ s.level.phase ≠ .lift) → exec .passTimeout s = .next s))

/-- A tilt sample keeps the last 100 raw samples of both axes and gives pitch and roll as their mean in 0.01 degree,
rounded half away from zero and held within 1500 (R82). That nothing is sampled while J is 0 is read by inference
(log 38). -/
def Obligations.TiltIsAveraged : Prop :=
  ∀ (s : State) (x y : Sample), s.inReset = none →
    (s.jackCount = 0 → exec (.tiltSample x y) s = .next s) ∧
    (0 < s.jackCount → ∃ t, exec (.tiltSample x y) s = .next t ∧ t = { s with tilt := t.tilt } ∧
      t.tilt.samplesX = (s.tilt.samplesX ++ [x.toNat]).drop (s.tilt.samplesX.length + 1 - 100) ∧
      t.tilt.samplesY = (s.tilt.samplesY ++ [y.toNat]).drop (s.tilt.samplesY.length + 1 - 100) ∧
      (t.tilt.roll.natAbs ≤ 1500 ∧ t.tilt.pitch.natAbs ≤ 1500) ∧
      (∀ n d : Nat, ∀ v : Int, n = t.tilt.samplesX.length → d = n * s.layout.level.perDegree → 0 < d →
        v = ((t.tilt.samplesX.sum : Int) - n * s.layout.level.zeroX) * 100 →
        ((t.tilt.roll.natAbs = 1500 ∧ 3000 * d ≤ 2 * v.natAbs + d) ∨ (2 * (v - t.tilt.roll * d).natAbs ≤ d ∧
          (2 * (v - t.tilt.roll * d).natAbs = d → v.natAbs < (t.tilt.roll * d).natAbs))) ∧ 0 ≤ t.tilt.roll * v) ∧
      (∀ n d : Nat, ∀ v : Int, n = t.tilt.samplesY.length → d = n * s.layout.level.perDegree → 0 < d →
        v = ((t.tilt.samplesY.sum : Int) - n * s.layout.level.zeroY) * 100 →
        ((t.tilt.pitch.natAbs = 1500 ∧ 3000 * d ≤ 2 * v.natAbs + d) ∨ (2 * (v - t.tilt.pitch * d).natAbs ≤ d ∧
          (2 * (v - t.tilt.pitch * d).natAbs = d → v.natAbs < (t.tilt.pitch * d).natAbs))) ∧ 0 ≤ t.tilt.pitch * v))

/-- The corner lifts: the heights of the corners in 0.1 mm are rounded halves away from zero, the target of a jack is the
quotient of its lift by its travel per pulse, at most 4000 and within the stroke it has left, and 0 at stroke; the
selected set are the jacks whose target is at least the deadband. The limited flag stands where it stood before, or where
some jack's target is above 4000 or its count with that target is above the stroke max of a jack not at stroke; nothing else
sets it (R86). -/
def Obligations.CornerLiftsAreSolved : Prop :=
  ∀ (s : State), ∃ (v : Vector (Option Nat) 6) (sel : Vector Bool 6) (limited : Bool) (h : JackId → Int)
    (raw : JackId → Nat),
    s.solveLifts = { s with level := { s.level with targets := v, selected := sel, limited := limited } } ∧
    (∀ j, 2 * (h j * 1000000 - ((s.jackParams j).x * s.level.pitch + (s.jackParams j).y * s.level.roll) * 17453).natAbs
      ≤ 1000000) ∧
    (∀ j, 2 * (h j * 1000000 - ((s.jackParams j).x * s.level.pitch + (s.jackParams j).y * s.level.roll) * 17453).natAbs
      = 1000000 → (((s.jackParams j).x * s.level.pitch + (s.jackParams j).y * s.level.roll) * 17453).natAbs <
        (h j * 1000000).natAbs) ∧
    (∀ j, 0 ≤ h j * ((s.jackParams j).x * s.level.pitch + (s.jackParams j).y * s.level.roll)) ∧
    (∀ j : JackId, s.jackConfigured j = false → v[j] = none ∧ sel[j] = false) ∧
    (∀ j : JackId, s.jackConfigured j = true → ∃ (top : Int) (lift most t : Nat),
      (∀ i, s.jackConfigured i = true → h i ≤ top) ∧ (∃ i, s.jackConfigured i = true ∧ h i = top) ∧
      (lift : Int) = top - h j ∧ raw j = lift / (s.jackParams j).spp ∧ most = min (raw j) 4000 ∧
      t = (if (s.jack j).atStroke = true then 0
        else match (s.jack j).count with
          | some c => if 0 < (s.jackParams j).strokeMax then min most ((s.jackParams j).strokeMax - c) else most
          | none => most) ∧
      v[j] = some t ∧ sel[j] = decide (s.layout.level.deadband ≤ t)) ∧
    (limited = true ↔ s.level.limited = true ∨ ∃ j, s.jackConfigured j = true ∧
      (4000 < raw j ∨ ((s.jack j).atStroke = false ∧ ∃ c, (s.jack j).count = some c ∧ 0 < (s.jackParams j).strokeMax ∧
        (s.jackParams j).strokeMax < c + min (raw j) 4000)))

/-- The end of SETTLE takes the tilt and decides the run's course by the first test of R85 that applies; the last of them
solves the corner lifts and begins the LIFT phase, in which the jacks of the selected set extend, or ends the run
LIMITED when none is selected (R85, R86, R87). Where a jack is LIFTED and returns are left the CONTACT phase begins again:
its phase time is 0, the jacks without contact and not at stroke are ACTIVE in EXTEND and started, and with none such SETTLE
begins anew (R84, R85). By the model's choice the phase time moves on to the settle time, where no
idle step has raised what is due now (log 3). -/
def Obligations.SettleDecidesTheCourse : Prop :=
  ∀ (s u v : State) (e : Entry) (lifted level steep : Bool), s.inReset = none → s.level.status = .active →
    s.level.phase = .settle → s.running .jacks = true → s.entryOf .jacks = some e →
    s.mayReach s.level.phaseTime (ms s.layout.level.settleTime) = true →
    u = s.advanceRun s.level.phaseTime (ms s.layout.level.settleTime) →
    v = { s with level := { s.level with pitch := s.tilt.pitch, roll := s.tilt.roll } }.solveLifts →
    lifted = (s.configuredJacks.any fun j => s.jackState j == .lifted) →
    level = (decide (s.tilt.pitch.natAbs ≤ s.layout.level.tolerance) &&
      decide (s.tilt.roll.natAbs ≤ s.layout.level.tolerance)) →
    steep = (decide (s.layout.level.steepLimit < s.tilt.pitch.natAbs) ||
      decide (s.layout.level.steepLimit < s.tilt.roll.natAbs)) →
    ∃ t, exec .settleEnd s = .next t ∧ t.level.pitch = s.tilt.pitch ∧ t.level.roll = s.tilt.roll ∧
      (lifted = true → s.layout.level.passLimit ≤ s.level.returns → Ended .jacks .limited u t) ∧
      (lifted = true → s.level.returns < s.layout.level.passLimit → t.level.returns = s.level.returns + 1 ∧
        t.level.pass = s.level.pass ∧
        (e.action = .level →
          ContactBegun { u with level := { u.level with
            pitch := s.tilt.pitch, roll := s.tilt.roll, returns := s.level.returns + 1 } } t ∧
          t.load = s.load ∧ t.paused = s.paused ∧ t.claims = s.claims ∧ t.fixedPart = u.fixedPart)) ∧
      (lifted = false → level = true → Ended .jacks (if s.level.limited then .limited else .levelled) u t) ∧
      (lifted = false → level = false → steep = true → Ended .jacks .tooSteep u t) ∧
      (lifted = false → level = false → steep = false → s.layout.level.passLimit ≤ s.level.pass →
        Ended .jacks .limited u t) ∧
      (lifted = false → level = false → steep = false → s.level.pass < s.layout.level.passLimit →
        (∀ j : JackId, v.level.selected[j] = false) → Ended .jacks .limited u t ∧
          (s.planRunning = false → s.load = [e] → s.paused = [] → e.action = .level → t.level = { v.level with
            status := .ended, phaseTime := u.level.phaseTime, limited := true, outcome := some .limited })) ∧
      (lifted = false → level = false → steep = false → s.level.pass < s.layout.level.passLimit →
        (∃ j : JackId, v.level.selected[j] = true) → s.load = [e] → s.paused = [] → e.action = .level →
          t.level = { v.level with phase := .lift, phaseTime := 0, progress := Vector.replicate 6 0 } ∧
          t.load = s.load ∧ t.paused = [] ∧ t.claims = s.claims ∧ t.fixedPart = u.fixedPart ∧
          (∀ j : JackId, v.level.selected[j] = true → t.jack j = { s.jack j with phase := .active, dir := .outward }) ∧
          ValvesStarted u t (allJacks.filter fun j => v.level.selected[j]) (fun _ => .outward) ∧
          (∀ j : JackId, v.level.selected[j] = false → t.jack j = s.jack j))

/-! ### BUZZ and the supply -/

/-- LAMP is on exactly while the load list holds an entry (R129). BUZZ sounds without a break while the alarm is active, else
in a fault pattern, else for the first 100 ms of a motion period, and the motion periods run while the load list is not empty.
An ending with outcome FAULT, here one by an overcurrent or by a run timeout after which no motion of the pause list is taken
up, adds 1 to the fault count, up to 4, and where none plays and the alarm is inactive a fault pattern starts and takes 1 from
the count; a fault pattern ends, and the next follows at once while the count is above 0 and the alarm inactive; a motion
period begins and sounds (R130). By the model's choice the
clock moves on to the moment, and nothing happens where an idle step has raised what is due now and the moment lies ahead
(log 3); that the motion pulse stays silent for the rest of the period in which a fault pattern ends is read by inference
(log 34). -/
def Obligations.BuzzerFollowsItsPatterns : Prop :=
  ∀ (s : State), s.inReset = none →
    (∀ start due u, s.faultPattern = some start → due = start + ms 1000 → u = s.advanceTo due →
      (s.comes due = false → exec .faultPatternEnd s = .next s) ∧
      (s.comes due = true → exec .faultPatternEnd s = .next { u with
        motionPulse := false
        faultCount := if s.alarm = false then s.faultCount - 1 else s.faultCount
        faultPattern := if 0 < s.faultCount ∧ s.alarm = false then some u.now else none })) ∧
    (s.faultPattern = none → exec .faultPatternEnd s = .next s) ∧
    (∀ start due u, s.motionPeriod = some start → due = start + seconds 1 → u = s.advanceTo due →
      (s.comes due = false → exec .motionPeriod s = .next s) ∧
      (s.comes due = true →
        exec .motionPeriod s = .next { u with motionPeriod := some due, motionPulse := true })) ∧
    (s.motionPeriod = none → exec .motionPeriod s = .next s) ∧
    (s.lamp = true ↔ s.load ≠ []) ∧
    (∀ c, s.alarm = false → s.road ≠ .road → (s.load = [] ∨ s.paused = []) →
      ((∃ n g, c = .overcurrent n ∧ (s.role n).isMotor = true ∧ s.countsCurrent n = true ∧ 2 ≤ (s.chan n).overRun ∧
          (s.role n).group = some g ∧ ¬s.still g) ∨
        (∃ id, c = runTimeoutCommand id ∧ ¬s.still id.group ∧ s.sliderTimeout id ≤ (s.slider id).runTime) ∨
        (c = .jackRunTimeout ∧ s.level.status ≠ .active ∧ ¬s.still .jacks ∧
          seconds s.layout.jackTimeout ≤ s.jackSet.runTime)) →
      ∃ t, exec c s = .next t ∧ t.faultPattern = some (s.faultPattern.getD s.now) ∧
        t.faultCount = min 4 (s.faultCount + 1) - if s.faultPattern = none then 1 else 0) ∧
    (s.alarm = true → s.buzz = true) ∧
    (∀ start past, s.alarm = false → s.faultPattern = some start → past = s.now - start →
      (s.buzz = true ↔ past < ms 100 ∨ (ms 200 ≤ past ∧ past < ms 300) ∨ (ms 400 ≤ past ∧ past < ms 500))) ∧
    (∀ start, s.alarm = false → s.faultPattern = none → s.motionPeriod = some start →
      (s.buzz = true ↔ s.motionPulse = true ∧ s.now - start < ms 100)) ∧
    (s.alarm = false → s.faultPattern = none → s.motionPeriod = none → s.buzz = false) ∧
    (∀ t, (s.load = [] ↔ s.motionPeriod = none) → step s = .next t → (t.load = [] ↔ t.motionPeriod = none))

/-- A supply sample joins the last 25; with 25 held the mean is taken and the band tested: a fall to the band that holds
the mean, a rise to the highest band whose entry edge it meets, the first mean directly. A change of band raises SUPPLY,
and after it the held units are within the budget; the bands budget 12, 8, 5 and 0 units (R132, R133). A fall sheds from
the tail of the load list just as many entries as bring the held units down to the budget, WIND's last, and each becomes
PAUSED with its channels stopped (R137, R138). At a rise the first entry of the pause list that fits, WIND's before the
others and these in admission order, enters the load list; where none fits both lists stay (R140). The controller of the
entry that moves takes it up again: the motors in TRAVEL and the valves of ACTIVE jacks make their drive starts, a motor that
was seating and stands at home finishes, a jack that is DONE, such as one at its target, is not started, a level run shed in
SETTLE settles for a full settle time, one with no jack left ACTIVE passes on to SETTLE, and one that was WAITING begins its
CONTACT phase (R54, R80, R83, R84, R88, R101, R141). -/
def Obligations.SupplyBandFollowsTheMean : Prop :=
  ∀ (s : State) (raw : Sample) (samples : List Nat), s.inReset = none →
    samples = (s.supply.samples ++ [raw.toNat]).drop (s.supply.samples.length + 1 - 25) →
    ∃ t, exec (.supplySample raw) s = .next t ∧ t.supply.samples = samples ∧
      t.budget = (match t.supply.band with | .a => 12 | .b => 8 | .c => 5 | .d => 0) ∧
      (samples.length ≠ 25 → t = { s with supply := { s.supply with samples := samples } }) ∧
      (∀ mean, samples.length = 25 → mean = (samples.map fun x => x * s.layout.supplyScale / 256).sum / 25 →
        t.supply.mean = some mean ∧
        (s.supply.mean = none → t.supply.band =
          (if 1240 ≤ mean then .a else if 1180 ≤ mean then .b else if 1100 ≤ mean then .c else .d)) ∧
        (s.supply.mean ≠ none →
          (mean < (match s.supply.band with | .a => 1240 | .b => 1180 | .c => 1100 | .d => 0) → t.supply.band =
            (if 1240 ≤ mean then .a else if 1180 ≤ mean then .b else if 1100 ≤ mean then .c else .d)) ∧
          ((match s.supply.band with | .a => 1240 | .b => 1180 | .c => 1100 | .d => 0) ≤ mean → t.supply.band =
            (match s.supply.band with
              | .a => .a
              | .b => if 1255 ≤ mean then .a else .b
              | .c => if 1255 ≤ mean then .a else if 1195 ≤ mean then .b else .c
              | .d => if 1255 ≤ mean then .a else if 1195 ≤ mean then .b else if 1115 ≤ mean then .c else .d))) ∧
        (t.supply.band = s.supply.band →
          t = { s with supply := { samples := samples, mean := some mean, band := s.supply.band } }) ∧
        (t.supply.band ≠ s.supply.band → t.noticed .supply = true ∧
          (unitsOf s.load ≤ s.budget → unitsOf t.load ≤ t.budget) ∧
          (t.budget < s.budget → s.load.Nodup →
            (∀ e ∈ s.load, e.owner = .wind → (∀ x ∈ s.load, x.owner = .wind → x = e) → e.units ≤ t.budget →
              e ∈ t.load) ∧
            ((∀ e ∈ s.load, e.owner ≠ .wind) → ∃ k, t.load = s.load.take k ∧ unitsOf (s.load.take k) ≤ t.budget ∧
              (k < s.load.length → t.budget < unitsOf (s.load.take (k + 1))) ∧
              ∀ e ∈ s.load.drop k, { e with state := .paused, pausedSince := some s.now } ∈ t.paused ∧
                ∀ n ∈ s.motionChans e, t.enOut n = false)) ∧
          (s.budget < t.budget →
            (∀ pre e post, (s.paused.filter fun x => decide (x.owner = .wind)) ++
                (s.paused.filter fun x => decide (x.owner ≠ .wind)) = pre ++ e :: post →
              (∀ x ∈ pre, t.budget < x.units + unitsOf s.load) → e.units + unitsOf s.load ≤ t.budget →
              ((∃ x ∈ t.load, x.motion = e.motion) ∨ t.noticed .motionEnd = true) ∧
              ((∀ x ∈ post, t.budget < x.units + unitsOf s.load) → (∀ x ∈ s.load ++ s.paused, x.group = e.group → x = e) →
                s.fallenPermit = none → Resumed s t e)) ∧
            ((∀ x ∈ s.paused, t.budget < x.units + unitsOf s.load) → t.load = s.load ∧ t.paused = s.paused)) ∧
          { t.fixedPart with supply := s.supply } = s.fixedPart))

/-- The pace, the mask limit and the stall limit of a channel, as R29, R30 and R31 give them; a stall limit is never below
its floor, and a mask limit lies below a pace above 0. -/
def Obligations.PaceLimitsFollowTheRing : Prop :=
  ∀ (s : State) (n : Chan) (q : KindParams) (r : PaceRecord), q = s.kindParams n → r = s.paceRec n → 0 < q.depth →
    q.maskFraction ≤ 127 →
    (r.ring.length < q.depth → s.pace? n = none ∧ s.maskLimit n = 0 ∧
      s.stallLimit n = max q.stallFloor (q.startLimit * 10)) ∧
    (q.depth ≤ r.ring.length → ∃ p, s.pace? n = some p ∧
      p = ((r.ring.reverse.take q.depth).sum) / q.depth ∧
      s.maskLimit n = p * q.maskFraction / 128 ∧ (0 < p → s.maskLimit n < p) ∧
      s.stallLimit n = max q.stallFloor (min 65535 (p * q.stallFactor / 16))) ∧
    q.stallFloor ≤ s.stallLimit n

/-! ### Laws of the device -/

/-- The canonical form of the two buffers: addresses rising below 512, no cell that reads as an unlisted one. That form,
and what an unlisted byte reads as, is the model's choice (log 7). -/
def Obligations.BuffersStayCanonical : Prop :=
  ∀ (s t : State),
    s.staging.wf = true → (∀ m, s.stored = .record m → m.wf = true) → step s = .next t →
    t.staging.wf = true ∧ ∀ m, t.stored = .record m → m.wf = true

/-- The units of the load list never exceed the budget of the present band (R135). -/
def Obligations.BudgetIsNeverExceeded : Prop :=
  ∀ (s t : State), unitsOf s.load ≤ s.supply.band.budget → step s = .next t → unitsOf t.load ≤ t.supply.band.budget

/-- The claim table stays free for the whole of a store write (R181). -/
def Obligations.WriteFindsNoClaim : Prop :=
  ∀ (s t : State), (s.write.isSome → ∀ g, s.claim g = none) → step s = .next t →
    t.write.isSome → ∀ g, t.claim g = none

/-- While the road state is not PARKED, both lists are empty and no plan is RUNNING (R123). -/
def Obligations.RoadListsStayEmpty : Prop :=
  ∀ (s t : State), (s.road ≠ .parked → s.load = [] ∧ s.paused = [] ∧ s.plan.status ≠ .running) → step s = .next t →
    t.road ≠ .parked → t.load = [] ∧ t.paused = [] ∧ t.plan.status ≠ .running

/-- A port holds at most 4 replies and counts at most 255 link errors (R163, R165). -/
def Obligations.PortLimitsHold : Prop :=
  ∀ (s t : State), (∀ p, (s.port p).replies.length ≤ 4 ∧ (s.port p).linkErrors ≤ 255) → step s = .next t →
    ∀ p, (t.port p).replies.length ≤ 4 ∧ (t.port p).linkErrors ≤ 255

/-- The laws of the device that a step keeps. No step drives a channel that was not driven before unless its census state
is SEATED (R8, R9); the counts stay within the travel limit and the count ceiling (R41, R64, R95). From a regular state,
in which rooms and awning read as they move, with or without a running plan, every step leaves a regular state while the
layout stands and no reset is taken, and keeps the laws that no channel is driven outside a RUNNING motion (R9), the counts
of a driven two-motor room stand less than the rack limit apart where they did (R50, by log 40 at a home closure too), no
jack is driven in while a level run exists (R83), the awning is not driven out in the wind (R105), no jack is driven in with
a room or the awning out and no room that needs support is driven OUT without it (R127), no group has two motions (R135),
and every motion belongs to its claim (R110). -/
def Obligations.OnlySeatedChannelsStart : Prop :=
  (∀ (s t : State) (n : Chan), step s = .next t → s.enOut n = false → t.enOut n = true →
    (t.chan n).census = .seated) ∧
  (∀ s t : State, s.inReset = none → step s = .next t → Safety.countLaw s = true → Safety.countLaw t = true) ∧
  (∀ s t : State, s.inReset = none → step s = .next t → Safety.strokeLaw s = true → Safety.strokeLaw t = true) ∧
  (∀ s t : State, Safety.Regular s → step s = .next t →
    (t.inReset = none → t.layout = s.layout → Safety.Regular t) ∧
    Safety.enableLaw t = true ∧ (Safety.rackLaw s = true → Safety.rackLaw t = true) ∧
    Safety.levelLaw t = true ∧ Safety.windLaw t = true ∧ Safety.retractLaw t = true ∧
    Safety.supportLaw t = true ∧ Safety.listLaw t = true ∧ Safety.claimLaw t = true)

/-- The state after reset meets the invariants. What the spec leaves open of that state (the blank store, the straps, the
input lines) is the model's choice (log 5), and so is the canonical form of the buffers (log 7). -/
def Obligations.ResetMeetsTheInvariants : Prop :=
  State.reset.staging.wf = true ∧ (∀ m, State.reset.stored = .record m → m.wf = true) ∧
    unitsOf State.reset.load ≤ State.reset.supply.band.budget ∧
    (State.reset.write.isSome → ∀ g, State.reset.claim g = none) ∧
    (State.reset.road ≠ .parked →
      State.reset.load = [] ∧ State.reset.paused = [] ∧ State.reset.plan.status ≠ .running) ∧
    (∀ p, (State.reset.port p).replies.length ≤ 4 ∧ (State.reset.port p).linkErrors ≤ 255) ∧
    Safety.lawful State.reset = true ∧ Safety.Regular State.reset ∧ State.reset.planRunning = false
end

