-- ==== Sys2Proof/Laws/State.lean ====
section
/-! SUPPORT. One lemma per field per update of the state: what the named updates leave as it was. -/

namespace Sys2Proof.Machine

variable (s : State)

/-! ### setPort -/

@[simp] theorem State.setPort_pending (p : Port) (r : PortRec) : (s.setPort p r).pending = s.pending := rfl
@[simp] theorem State.setPort_now (p : Port) (r : PortRec) : (s.setPort p r).now = s.now := rfl
@[simp] theorem State.setPort_tickedAt (p : Port) (r : PortRec) : (s.setPort p r).tickedAt = s.tickedAt := rfl
@[simp] theorem State.setPort_inReset (p : Port) (r : PortRec) : (s.setPort p r).inReset = s.inReset := rfl
@[simp] theorem State.setPort_resetLow (p : Port) (r : PortRec) : (s.setPort p r).resetLow = s.resetLow := rfl
@[simp] theorem State.setPort_pins (p : Port) (r : PortRec) : (s.setPort p r).pins = s.pins := rfl
@[simp] theorem State.setPort_straps (p : Port) (r : PortRec) : (s.setPort p r).straps = s.straps := rfl
@[simp] theorem State.setPort_layout (p : Port) (r : PortRec) : (s.setPort p r).layout = s.layout := rfl
@[simp] theorem State.setPort_staging (p : Port) (r : PortRec) : (s.setPort p r).staging = s.staging := rfl
@[simp] theorem State.setPort_stored (p : Port) (r : PortRec) : (s.setPort p r).stored = s.stored := rfl
@[simp] theorem State.setPort_write (p : Port) (r : PortRec) : (s.setPort p r).write = s.write := rfl
@[simp] theorem State.setPort_channels (p : Port) (r : PortRec) : (s.setPort p r).channels = s.channels := rfl
@[simp] theorem State.setPort_lines (p : Port) (r : PortRec) : (s.setPort p r).lines = s.lines := rfl
@[simp] theorem State.setPort_lineStart (p : Port) (r : PortRec) : (s.setPort p r).lineStart = s.lineStart := rfl
@[simp] theorem State.setPort_park (p : Port) (r : PortRec) : (s.setPort p r).park = s.park := rfl
@[simp] theorem State.setPort_ign (p : Port) (r : PortRec) : (s.setPort p r).ign = s.ign := rfl
@[simp] theorem State.setPort_wndLine (p : Port) (r : PortRec) : (s.setPort p r).wndLine = s.wndLine := rfl
@[simp] theorem State.setPort_censusStart (p : Port) (r : PortRec) : (s.setPort p r).censusStart = s.censusStart := rfl
@[simp] theorem State.setPort_pace (p : Port) (r : PortRec) : (s.setPort p r).pace = s.pace := rfl
@[simp] theorem State.setPort_rooms (p : Port) (r : PortRec) : (s.setPort p r).rooms = s.rooms := rfl
@[simp] theorem State.setPort_awning (p : Port) (r : PortRec) : (s.setPort p r).awning = s.awning := rfl
@[simp] theorem State.setPort_jacks (p : Port) (r : PortRec) : (s.setPort p r).jacks = s.jacks := rfl
@[simp] theorem State.setPort_jackSet (p : Port) (r : PortRec) : (s.setPort p r).jackSet = s.jackSet := rfl
@[simp] theorem State.setPort_level (p : Port) (r : PortRec) : (s.setPort p r).level = s.level := rfl
@[simp] theorem State.setPort_tilt (p : Port) (r : PortRec) : (s.setPort p r).tilt = s.tilt := rfl
@[simp] theorem State.setPort_wind (p : Port) (r : PortRec) : (s.setPort p r).wind = s.wind := rfl
@[simp] theorem State.setPort_claims (p : Port) (r : PortRec) : (s.setPort p r).claims = s.claims := rfl
@[simp] theorem State.setPort_alarm (p : Port) (r : PortRec) : (s.setPort p r).alarm = s.alarm := rfl
@[simp] theorem State.setPort_faultCount (p : Port) (r : PortRec) : (s.setPort p r).faultCount = s.faultCount := rfl
@[simp] theorem State.setPort_faultPattern (p : Port) (r : PortRec) : (s.setPort p r).faultPattern = s.faultPattern := rfl
@[simp] theorem State.setPort_motionPeriod (p : Port) (r : PortRec) : (s.setPort p r).motionPeriod = s.motionPeriod := rfl
@[simp] theorem State.setPort_motionPulse (p : Port) (r : PortRec) : (s.setPort p r).motionPulse = s.motionPulse := rfl
@[simp] theorem State.setPort_supply (p : Port) (r : PortRec) : (s.setPort p r).supply = s.supply := rfl
@[simp] theorem State.setPort_load (p : Port) (r : PortRec) : (s.setPort p r).load = s.load := rfl
@[simp] theorem State.setPort_paused (p : Port) (r : PortRec) : (s.setPort p r).paused = s.paused := rfl
@[simp] theorem State.setPort_nextOrder (p : Port) (r : PortRec) : (s.setPort p r).nextOrder = s.nextOrder := rfl
@[simp] theorem State.setPort_plan (p : Port) (r : PortRec) : (s.setPort p r).plan = s.plan := rfl

/-! ### raise -/

@[simp] theorem State.raise_pending (c : Notice) : (s.raise c).pending = s.pending := rfl
@[simp] theorem State.raise_now (c : Notice) : (s.raise c).now = s.now := rfl
@[simp] theorem State.raise_tickedAt (c : Notice) : (s.raise c).tickedAt = s.tickedAt := rfl
@[simp] theorem State.raise_inReset (c : Notice) : (s.raise c).inReset = s.inReset := rfl
@[simp] theorem State.raise_resetLow (c : Notice) : (s.raise c).resetLow = s.resetLow := rfl
@[simp] theorem State.raise_pins (c : Notice) : (s.raise c).pins = s.pins := rfl
@[simp] theorem State.raise_straps (c : Notice) : (s.raise c).straps = s.straps := rfl
@[simp] theorem State.raise_layout (c : Notice) : (s.raise c).layout = s.layout := rfl
@[simp] theorem State.raise_staging (c : Notice) : (s.raise c).staging = s.staging := rfl
@[simp] theorem State.raise_stored (c : Notice) : (s.raise c).stored = s.stored := rfl
@[simp] theorem State.raise_write (c : Notice) : (s.raise c).write = s.write := rfl
@[simp] theorem State.raise_channels (c : Notice) : (s.raise c).channels = s.channels := rfl
@[simp] theorem State.raise_lines (c : Notice) : (s.raise c).lines = s.lines := rfl
@[simp] theorem State.raise_lineStart (c : Notice) : (s.raise c).lineStart = s.lineStart := rfl
@[simp] theorem State.raise_park (c : Notice) : (s.raise c).park = s.park := rfl
@[simp] theorem State.raise_ign (c : Notice) : (s.raise c).ign = s.ign := rfl
@[simp] theorem State.raise_wndLine (c : Notice) : (s.raise c).wndLine = s.wndLine := rfl
@[simp] theorem State.raise_censusStart (c : Notice) : (s.raise c).censusStart = s.censusStart := rfl
@[simp] theorem State.raise_pace (c : Notice) : (s.raise c).pace = s.pace := rfl
@[simp] theorem State.raise_rooms (c : Notice) : (s.raise c).rooms = s.rooms := rfl
@[simp] theorem State.raise_awning (c : Notice) : (s.raise c).awning = s.awning := rfl
@[simp] theorem State.raise_jacks (c : Notice) : (s.raise c).jacks = s.jacks := rfl
@[simp] theorem State.raise_jackSet (c : Notice) : (s.raise c).jackSet = s.jackSet := rfl
@[simp] theorem State.raise_level (c : Notice) : (s.raise c).level = s.level := rfl
@[simp] theorem State.raise_tilt (c : Notice) : (s.raise c).tilt = s.tilt := rfl
@[simp] theorem State.raise_wind (c : Notice) : (s.raise c).wind = s.wind := rfl
@[simp] theorem State.raise_claims (c : Notice) : (s.raise c).claims = s.claims := rfl
@[simp] theorem State.raise_alarm (c : Notice) : (s.raise c).alarm = s.alarm := rfl
@[simp] theorem State.raise_faultCount (c : Notice) : (s.raise c).faultCount = s.faultCount := rfl
@[simp] theorem State.raise_faultPattern (c : Notice) : (s.raise c).faultPattern = s.faultPattern := rfl
@[simp] theorem State.raise_motionPeriod (c : Notice) : (s.raise c).motionPeriod = s.motionPeriod := rfl
@[simp] theorem State.raise_motionPulse (c : Notice) : (s.raise c).motionPulse = s.motionPulse := rfl
@[simp] theorem State.raise_supply (c : Notice) : (s.raise c).supply = s.supply := rfl
@[simp] theorem State.raise_load (c : Notice) : (s.raise c).load = s.load := rfl
@[simp] theorem State.raise_paused (c : Notice) : (s.raise c).paused = s.paused := rfl
@[simp] theorem State.raise_nextOrder (c : Notice) : (s.raise c).nextOrder = s.nextOrder := rfl
@[simp] theorem State.raise_plan (c : Notice) : (s.raise c).plan = s.plan := rfl

/-! ### setChan -/

@[simp] theorem State.setChan_pending (n : Chan) (c : Channel) : (s.setChan n c).pending = s.pending := rfl
@[simp] theorem State.setChan_now (n : Chan) (c : Channel) : (s.setChan n c).now = s.now := rfl
@[simp] theorem State.setChan_tickedAt (n : Chan) (c : Channel) : (s.setChan n c).tickedAt = s.tickedAt := rfl
@[simp] theorem State.setChan_inReset (n : Chan) (c : Channel) : (s.setChan n c).inReset = s.inReset := rfl
@[simp] theorem State.setChan_resetLow (n : Chan) (c : Channel) : (s.setChan n c).resetLow = s.resetLow := rfl
@[simp] theorem State.setChan_pins (n : Chan) (c : Channel) : (s.setChan n c).pins = s.pins := rfl
@[simp] theorem State.setChan_straps (n : Chan) (c : Channel) : (s.setChan n c).straps = s.straps := rfl
@[simp] theorem State.setChan_layout (n : Chan) (c : Channel) : (s.setChan n c).layout = s.layout := rfl
@[simp] theorem State.setChan_staging (n : Chan) (c : Channel) : (s.setChan n c).staging = s.staging := rfl
@[simp] theorem State.setChan_stored (n : Chan) (c : Channel) : (s.setChan n c).stored = s.stored := rfl
@[simp] theorem State.setChan_write (n : Chan) (c : Channel) : (s.setChan n c).write = s.write := rfl
@[simp] theorem State.setChan_lines (n : Chan) (c : Channel) : (s.setChan n c).lines = s.lines := rfl
@[simp] theorem State.setChan_lineStart (n : Chan) (c : Channel) : (s.setChan n c).lineStart = s.lineStart := rfl
@[simp] theorem State.setChan_park (n : Chan) (c : Channel) : (s.setChan n c).park = s.park := rfl
@[simp] theorem State.setChan_ign (n : Chan) (c : Channel) : (s.setChan n c).ign = s.ign := rfl
@[simp] theorem State.setChan_wndLine (n : Chan) (c : Channel) : (s.setChan n c).wndLine = s.wndLine := rfl
@[simp] theorem State.setChan_censusStart (n : Chan) (c : Channel) : (s.setChan n c).censusStart = s.censusStart := rfl
@[simp] theorem State.setChan_pace (n : Chan) (c : Channel) : (s.setChan n c).pace = s.pace := rfl
@[simp] theorem State.setChan_rooms (n : Chan) (c : Channel) : (s.setChan n c).rooms = s.rooms := rfl
@[simp] theorem State.setChan_awning (n : Chan) (c : Channel) : (s.setChan n c).awning = s.awning := rfl
@[simp] theorem State.setChan_jacks (n : Chan) (c : Channel) : (s.setChan n c).jacks = s.jacks := rfl
@[simp] theorem State.setChan_jackSet (n : Chan) (c : Channel) : (s.setChan n c).jackSet = s.jackSet := rfl
@[simp] theorem State.setChan_level (n : Chan) (c : Channel) : (s.setChan n c).level = s.level := rfl
@[simp] theorem State.setChan_tilt (n : Chan) (c : Channel) : (s.setChan n c).tilt = s.tilt := rfl
@[simp] theorem State.setChan_wind (n : Chan) (c : Channel) : (s.setChan n c).wind = s.wind := rfl
@[simp] theorem State.setChan_claims (n : Chan) (c : Channel) : (s.setChan n c).claims = s.claims := rfl
@[simp] theorem State.setChan_alarm (n : Chan) (c : Channel) : (s.setChan n c).alarm = s.alarm := rfl
@[simp] theorem State.setChan_faultCount (n : Chan) (c : Channel) : (s.setChan n c).faultCount = s.faultCount := rfl
@[simp] theorem State.setChan_faultPattern (n : Chan) (c : Channel) : (s.setChan n c).faultPattern = s.faultPattern := rfl
@[simp] theorem State.setChan_motionPeriod (n : Chan) (c : Channel) : (s.setChan n c).motionPeriod = s.motionPeriod := rfl
@[simp] theorem State.setChan_motionPulse (n : Chan) (c : Channel) : (s.setChan n c).motionPulse = s.motionPulse := rfl
@[simp] theorem State.setChan_supply (n : Chan) (c : Channel) : (s.setChan n c).supply = s.supply := rfl
@[simp] theorem State.setChan_load (n : Chan) (c : Channel) : (s.setChan n c).load = s.load := rfl
@[simp] theorem State.setChan_paused (n : Chan) (c : Channel) : (s.setChan n c).paused = s.paused := rfl
@[simp] theorem State.setChan_nextOrder (n : Chan) (c : Channel) : (s.setChan n c).nextOrder = s.nextOrder := rfl
@[simp] theorem State.setChan_plan (n : Chan) (c : Channel) : (s.setChan n c).plan = s.plan := rfl
@[simp] theorem State.setChan_ports (n : Chan) (c : Channel) : (s.setChan n c).ports = s.ports := rfl

/-! ### setPace -/

@[simp] theorem State.setPace_pending (n : Chan) (r : PaceRecord) : (s.setPace n r).pending = s.pending := rfl
@[simp] theorem State.setPace_now (n : Chan) (r : PaceRecord) : (s.setPace n r).now = s.now := rfl
@[simp] theorem State.setPace_tickedAt (n : Chan) (r : PaceRecord) : (s.setPace n r).tickedAt = s.tickedAt := rfl
@[simp] theorem State.setPace_inReset (n : Chan) (r : PaceRecord) : (s.setPace n r).inReset = s.inReset := rfl
@[simp] theorem State.setPace_resetLow (n : Chan) (r : PaceRecord) : (s.setPace n r).resetLow = s.resetLow := rfl
@[simp] theorem State.setPace_pins (n : Chan) (r : PaceRecord) : (s.setPace n r).pins = s.pins := rfl
@[simp] theorem State.setPace_straps (n : Chan) (r : PaceRecord) : (s.setPace n r).straps = s.straps := rfl
@[simp] theorem State.setPace_layout (n : Chan) (r : PaceRecord) : (s.setPace n r).layout = s.layout := rfl
@[simp] theorem State.setPace_staging (n : Chan) (r : PaceRecord) : (s.setPace n r).staging = s.staging := rfl
@[simp] theorem State.setPace_stored (n : Chan) (r : PaceRecord) : (s.setPace n r).stored = s.stored := rfl
@[simp] theorem State.setPace_write (n : Chan) (r : PaceRecord) : (s.setPace n r).write = s.write := rfl
@[simp] theorem State.setPace_channels (n : Chan) (r : PaceRecord) : (s.setPace n r).channels = s.channels := rfl
@[simp] theorem State.setPace_lines (n : Chan) (r : PaceRecord) : (s.setPace n r).lines = s.lines := rfl
@[simp] theorem State.setPace_lineStart (n : Chan) (r : PaceRecord) : (s.setPace n r).lineStart = s.lineStart := rfl
@[simp] theorem State.setPace_park (n : Chan) (r : PaceRecord) : (s.setPace n r).park = s.park := rfl
@[simp] theorem State.setPace_ign (n : Chan) (r : PaceRecord) : (s.setPace n r).ign = s.ign := rfl
@[simp] theorem State.setPace_wndLine (n : Chan) (r : PaceRecord) : (s.setPace n r).wndLine = s.wndLine := rfl
@[simp] theorem State.setPace_censusStart (n : Chan) (r : PaceRecord) : (s.setPace n r).censusStart = s.censusStart := rfl
@[simp] theorem State.setPace_rooms (n : Chan) (r : PaceRecord) : (s.setPace n r).rooms = s.rooms := rfl
@[simp] theorem State.setPace_awning (n : Chan) (r : PaceRecord) : (s.setPace n r).awning = s.awning := rfl
@[simp] theorem State.setPace_jacks (n : Chan) (r : PaceRecord) : (s.setPace n r).jacks = s.jacks := rfl
@[simp] theorem State.setPace_jackSet (n : Chan) (r : PaceRecord) : (s.setPace n r).jackSet = s.jackSet := rfl
@[simp] theorem State.setPace_level (n : Chan) (r : PaceRecord) : (s.setPace n r).level = s.level := rfl
@[simp] theorem State.setPace_tilt (n : Chan) (r : PaceRecord) : (s.setPace n r).tilt = s.tilt := rfl
@[simp] theorem State.setPace_wind (n : Chan) (r : PaceRecord) : (s.setPace n r).wind = s.wind := rfl
@[simp] theorem State.setPace_claims (n : Chan) (r : PaceRecord) : (s.setPace n r).claims = s.claims := rfl
@[simp] theorem State.setPace_alarm (n : Chan) (r : PaceRecord) : (s.setPace n r).alarm = s.alarm := rfl
@[simp] theorem State.setPace_faultCount (n : Chan) (r : PaceRecord) : (s.setPace n r).faultCount = s.faultCount := rfl
@[simp] theorem State.setPace_faultPattern (n : Chan) (r : PaceRecord) : (s.setPace n r).faultPattern = s.faultPattern := rfl
@[simp] theorem State.setPace_motionPeriod (n : Chan) (r : PaceRecord) : (s.setPace n r).motionPeriod = s.motionPeriod := rfl
@[simp] theorem State.setPace_motionPulse (n : Chan) (r : PaceRecord) : (s.setPace n r).motionPulse = s.motionPulse := rfl
@[simp] theorem State.setPace_supply (n : Chan) (r : PaceRecord) : (s.setPace n r).supply = s.supply := rfl
@[simp] theorem State.setPace_load (n : Chan) (r : PaceRecord) : (s.setPace n r).load = s.load := rfl
@[simp] theorem State.setPace_paused (n : Chan) (r : PaceRecord) : (s.setPace n r).paused = s.paused := rfl
@[simp] theorem State.setPace_nextOrder (n : Chan) (r : PaceRecord) : (s.setPace n r).nextOrder = s.nextOrder := rfl
@[simp] theorem State.setPace_plan (n : Chan) (r : PaceRecord) : (s.setPace n r).plan = s.plan := rfl
@[simp] theorem State.setPace_ports (n : Chan) (r : PaceRecord) : (s.setPace n r).ports = s.ports := rfl

/-! ### setTrim -/

@[simp] theorem State.setTrim_pending (n : Chan) (t : Option Nat) : (s.setTrim n t).pending = s.pending := rfl
@[simp] theorem State.setTrim_now (n : Chan) (t : Option Nat) : (s.setTrim n t).now = s.now := rfl
@[simp] theorem State.setTrim_tickedAt (n : Chan) (t : Option Nat) : (s.setTrim n t).tickedAt = s.tickedAt := rfl
@[simp] theorem State.setTrim_inReset (n : Chan) (t : Option Nat) : (s.setTrim n t).inReset = s.inReset := rfl
@[simp] theorem State.setTrim_resetLow (n : Chan) (t : Option Nat) : (s.setTrim n t).resetLow = s.resetLow := rfl
@[simp] theorem State.setTrim_pins (n : Chan) (t : Option Nat) : (s.setTrim n t).pins = s.pins := rfl
@[simp] theorem State.setTrim_straps (n : Chan) (t : Option Nat) : (s.setTrim n t).straps = s.straps := rfl
@[simp] theorem State.setTrim_layout (n : Chan) (t : Option Nat) : (s.setTrim n t).layout = s.layout := rfl
@[simp] theorem State.setTrim_staging (n : Chan) (t : Option Nat) : (s.setTrim n t).staging = s.staging := rfl
@[simp] theorem State.setTrim_stored (n : Chan) (t : Option Nat) : (s.setTrim n t).stored = s.stored := rfl
@[simp] theorem State.setTrim_write (n : Chan) (t : Option Nat) : (s.setTrim n t).write = s.write := rfl
@[simp] theorem State.setTrim_lines (n : Chan) (t : Option Nat) : (s.setTrim n t).lines = s.lines := rfl
@[simp] theorem State.setTrim_lineStart (n : Chan) (t : Option Nat) : (s.setTrim n t).lineStart = s.lineStart := rfl
@[simp] theorem State.setTrim_park (n : Chan) (t : Option Nat) : (s.setTrim n t).park = s.park := rfl
@[simp] theorem State.setTrim_ign (n : Chan) (t : Option Nat) : (s.setTrim n t).ign = s.ign := rfl
@[simp] theorem State.setTrim_wndLine (n : Chan) (t : Option Nat) : (s.setTrim n t).wndLine = s.wndLine := rfl
@[simp] theorem State.setTrim_censusStart (n : Chan) (t : Option Nat) : (s.setTrim n t).censusStart = s.censusStart := rfl
@[simp] theorem State.setTrim_pace (n : Chan) (t : Option Nat) : (s.setTrim n t).pace = s.pace := rfl
@[simp] theorem State.setTrim_rooms (n : Chan) (t : Option Nat) : (s.setTrim n t).rooms = s.rooms := rfl
@[simp] theorem State.setTrim_awning (n : Chan) (t : Option Nat) : (s.setTrim n t).awning = s.awning := rfl
@[simp] theorem State.setTrim_jacks (n : Chan) (t : Option Nat) : (s.setTrim n t).jacks = s.jacks := rfl
@[simp] theorem State.setTrim_jackSet (n : Chan) (t : Option Nat) : (s.setTrim n t).jackSet = s.jackSet := rfl
@[simp] theorem State.setTrim_level (n : Chan) (t : Option Nat) : (s.setTrim n t).level = s.level := rfl
@[simp] theorem State.setTrim_tilt (n : Chan) (t : Option Nat) : (s.setTrim n t).tilt = s.tilt := rfl
@[simp] theorem State.setTrim_wind (n : Chan) (t : Option Nat) : (s.setTrim n t).wind = s.wind := rfl
@[simp] theorem State.setTrim_claims (n : Chan) (t : Option Nat) : (s.setTrim n t).claims = s.claims := rfl
@[simp] theorem State.setTrim_alarm (n : Chan) (t : Option Nat) : (s.setTrim n t).alarm = s.alarm := rfl
@[simp] theorem State.setTrim_faultCount (n : Chan) (t : Option Nat) : (s.setTrim n t).faultCount = s.faultCount := rfl
@[simp] theorem State.setTrim_faultPattern (n : Chan) (t : Option Nat) : (s.setTrim n t).faultPattern = s.faultPattern := rfl
@[simp] theorem State.setTrim_motionPeriod (n : Chan) (t : Option Nat) : (s.setTrim n t).motionPeriod = s.motionPeriod := rfl
@[simp] theorem State.setTrim_motionPulse (n : Chan) (t : Option Nat) : (s.setTrim n t).motionPulse = s.motionPulse := rfl
@[simp] theorem State.setTrim_supply (n : Chan) (t : Option Nat) : (s.setTrim n t).supply = s.supply := rfl
@[simp] theorem State.setTrim_load (n : Chan) (t : Option Nat) : (s.setTrim n t).load = s.load := rfl
@[simp] theorem State.setTrim_paused (n : Chan) (t : Option Nat) : (s.setTrim n t).paused = s.paused := rfl
@[simp] theorem State.setTrim_nextOrder (n : Chan) (t : Option Nat) : (s.setTrim n t).nextOrder = s.nextOrder := rfl
@[simp] theorem State.setTrim_plan (n : Chan) (t : Option Nat) : (s.setTrim n t).plan = s.plan := rfl
@[simp] theorem State.setTrim_ports (n : Chan) (t : Option Nat) : (s.setTrim n t).ports = s.ports := rfl

/-! ### setClaim -/

@[simp] theorem State.setClaim_pending (g : Group) (c : Option Claim) : (s.setClaim g c).pending = s.pending := rfl
@[simp] theorem State.setClaim_now (g : Group) (c : Option Claim) : (s.setClaim g c).now = s.now := rfl
@[simp] theorem State.setClaim_tickedAt (g : Group) (c : Option Claim) : (s.setClaim g c).tickedAt = s.tickedAt := rfl
@[simp] theorem State.setClaim_inReset (g : Group) (c : Option Claim) : (s.setClaim g c).inReset = s.inReset := rfl
@[simp] theorem State.setClaim_resetLow (g : Group) (c : Option Claim) : (s.setClaim g c).resetLow = s.resetLow := rfl
@[simp] theorem State.setClaim_pins (g : Group) (c : Option Claim) : (s.setClaim g c).pins = s.pins := rfl
@[simp] theorem State.setClaim_straps (g : Group) (c : Option Claim) : (s.setClaim g c).straps = s.straps := rfl
@[simp] theorem State.setClaim_layout (g : Group) (c : Option Claim) : (s.setClaim g c).layout = s.layout := rfl
@[simp] theorem State.setClaim_staging (g : Group) (c : Option Claim) : (s.setClaim g c).staging = s.staging := rfl
@[simp] theorem State.setClaim_stored (g : Group) (c : Option Claim) : (s.setClaim g c).stored = s.stored := rfl
@[simp] theorem State.setClaim_write (g : Group) (c : Option Claim) : (s.setClaim g c).write = s.write := rfl
@[simp] theorem State.setClaim_channels (g : Group) (c : Option Claim) : (s.setClaim g c).channels = s.channels := rfl
@[simp] theorem State.setClaim_lines (g : Group) (c : Option Claim) : (s.setClaim g c).lines = s.lines := rfl
@[simp] theorem State.setClaim_lineStart (g : Group) (c : Option Claim) : (s.setClaim g c).lineStart = s.lineStart := rfl
@[simp] theorem State.setClaim_park (g : Group) (c : Option Claim) : (s.setClaim g c).park = s.park := rfl
@[simp] theorem State.setClaim_ign (g : Group) (c : Option Claim) : (s.setClaim g c).ign = s.ign := rfl
@[simp] theorem State.setClaim_wndLine (g : Group) (c : Option Claim) : (s.setClaim g c).wndLine = s.wndLine := rfl
@[simp] theorem State.setClaim_censusStart (g : Group) (c : Option Claim) : (s.setClaim g c).censusStart = s.censusStart := rfl
@[simp] theorem State.setClaim_pace (g : Group) (c : Option Claim) : (s.setClaim g c).pace = s.pace := rfl
@[simp] theorem State.setClaim_rooms (g : Group) (c : Option Claim) : (s.setClaim g c).rooms = s.rooms := rfl
@[simp] theorem State.setClaim_awning (g : Group) (c : Option Claim) : (s.setClaim g c).awning = s.awning := rfl
@[simp] theorem State.setClaim_jacks (g : Group) (c : Option Claim) : (s.setClaim g c).jacks = s.jacks := rfl
@[simp] theorem State.setClaim_jackSet (g : Group) (c : Option Claim) : (s.setClaim g c).jackSet = s.jackSet := rfl
@[simp] theorem State.setClaim_level (g : Group) (c : Option Claim) : (s.setClaim g c).level = s.level := rfl
@[simp] theorem State.setClaim_tilt (g : Group) (c : Option Claim) : (s.setClaim g c).tilt = s.tilt := rfl
@[simp] theorem State.setClaim_wind (g : Group) (c : Option Claim) : (s.setClaim g c).wind = s.wind := rfl
@[simp] theorem State.setClaim_alarm (g : Group) (c : Option Claim) : (s.setClaim g c).alarm = s.alarm := rfl
@[simp] theorem State.setClaim_faultCount (g : Group) (c : Option Claim) : (s.setClaim g c).faultCount = s.faultCount := rfl
@[simp] theorem State.setClaim_faultPattern (g : Group) (c : Option Claim) : (s.setClaim g c).faultPattern = s.faultPattern := rfl
@[simp] theorem State.setClaim_motionPeriod (g : Group) (c : Option Claim) : (s.setClaim g c).motionPeriod = s.motionPeriod := rfl
@[simp] theorem State.setClaim_motionPulse (g : Group) (c : Option Claim) : (s.setClaim g c).motionPulse = s.motionPulse := rfl
@[simp] theorem State.setClaim_supply (g : Group) (c : Option Claim) : (s.setClaim g c).supply = s.supply := rfl
@[simp] theorem State.setClaim_load (g : Group) (c : Option Claim) : (s.setClaim g c).load = s.load := rfl
@[simp] theorem State.setClaim_paused (g : Group) (c : Option Claim) : (s.setClaim g c).paused = s.paused := rfl
@[simp] theorem State.setClaim_nextOrder (g : Group) (c : Option Claim) : (s.setClaim g c).nextOrder = s.nextOrder := rfl
@[simp] theorem State.setClaim_plan (g : Group) (c : Option Claim) : (s.setClaim g c).plan = s.plan := rfl
@[simp] theorem State.setClaim_ports (g : Group) (c : Option Claim) : (s.setClaim g c).ports = s.ports := rfl

/-! ### freeAllClaims -/

@[simp] theorem State.freeAllClaims_pending : (s.freeAllClaims).pending = s.pending := rfl
@[simp] theorem State.freeAllClaims_now : (s.freeAllClaims).now = s.now := rfl
@[simp] theorem State.freeAllClaims_tickedAt : (s.freeAllClaims).tickedAt = s.tickedAt := rfl
@[simp] theorem State.freeAllClaims_inReset : (s.freeAllClaims).inReset = s.inReset := rfl
@[simp] theorem State.freeAllClaims_resetLow : (s.freeAllClaims).resetLow = s.resetLow := rfl
@[simp] theorem State.freeAllClaims_pins : (s.freeAllClaims).pins = s.pins := rfl
@[simp] theorem State.freeAllClaims_straps : (s.freeAllClaims).straps = s.straps := rfl
@[simp] theorem State.freeAllClaims_layout : (s.freeAllClaims).layout = s.layout := rfl
@[simp] theorem State.freeAllClaims_staging : (s.freeAllClaims).staging = s.staging := rfl
@[simp] theorem State.freeAllClaims_stored : (s.freeAllClaims).stored = s.stored := rfl
@[simp] theorem State.freeAllClaims_write : (s.freeAllClaims).write = s.write := rfl
@[simp] theorem State.freeAllClaims_channels : (s.freeAllClaims).channels = s.channels := rfl
@[simp] theorem State.freeAllClaims_lines : (s.freeAllClaims).lines = s.lines := rfl
@[simp] theorem State.freeAllClaims_lineStart : (s.freeAllClaims).lineStart = s.lineStart := rfl
@[simp] theorem State.freeAllClaims_park : (s.freeAllClaims).park = s.park := rfl
@[simp] theorem State.freeAllClaims_ign : (s.freeAllClaims).ign = s.ign := rfl
@[simp] theorem State.freeAllClaims_wndLine : (s.freeAllClaims).wndLine = s.wndLine := rfl
@[simp] theorem State.freeAllClaims_censusStart : (s.freeAllClaims).censusStart = s.censusStart := rfl
@[simp] theorem State.freeAllClaims_pace : (s.freeAllClaims).pace = s.pace := rfl
@[simp] theorem State.freeAllClaims_rooms : (s.freeAllClaims).rooms = s.rooms := rfl
@[simp] theorem State.freeAllClaims_awning : (s.freeAllClaims).awning = s.awning := rfl
@[simp] theorem State.freeAllClaims_jacks : (s.freeAllClaims).jacks = s.jacks := rfl
@[simp] theorem State.freeAllClaims_jackSet : (s.freeAllClaims).jackSet = s.jackSet := rfl
@[simp] theorem State.freeAllClaims_level : (s.freeAllClaims).level = s.level := rfl
@[simp] theorem State.freeAllClaims_tilt : (s.freeAllClaims).tilt = s.tilt := rfl
@[simp] theorem State.freeAllClaims_wind : (s.freeAllClaims).wind = s.wind := rfl
@[simp] theorem State.freeAllClaims_alarm : (s.freeAllClaims).alarm = s.alarm := rfl
@[simp] theorem State.freeAllClaims_faultCount : (s.freeAllClaims).faultCount = s.faultCount := rfl
@[simp] theorem State.freeAllClaims_faultPattern : (s.freeAllClaims).faultPattern = s.faultPattern := rfl
@[simp] theorem State.freeAllClaims_motionPeriod : (s.freeAllClaims).motionPeriod = s.motionPeriod := rfl
@[simp] theorem State.freeAllClaims_motionPulse : (s.freeAllClaims).motionPulse = s.motionPulse := rfl
@[simp] theorem State.freeAllClaims_supply : (s.freeAllClaims).supply = s.supply := rfl
@[simp] theorem State.freeAllClaims_load : (s.freeAllClaims).load = s.load := rfl
@[simp] theorem State.freeAllClaims_paused : (s.freeAllClaims).paused = s.paused := rfl
@[simp] theorem State.freeAllClaims_nextOrder : (s.freeAllClaims).nextOrder = s.nextOrder := rfl
@[simp] theorem State.freeAllClaims_plan : (s.freeAllClaims).plan = s.plan := rfl
@[simp] theorem State.freeAllClaims_ports : (s.freeAllClaims).ports = s.ports := rfl

/-! ### setLoad -/

@[simp] theorem State.setLoad_pending (l : List Entry) : (s.setLoad l).pending = s.pending := rfl
@[simp] theorem State.setLoad_now (l : List Entry) : (s.setLoad l).now = s.now := rfl
@[simp] theorem State.setLoad_tickedAt (l : List Entry) : (s.setLoad l).tickedAt = s.tickedAt := rfl
@[simp] theorem State.setLoad_inReset (l : List Entry) : (s.setLoad l).inReset = s.inReset := rfl
@[simp] theorem State.setLoad_resetLow (l : List Entry) : (s.setLoad l).resetLow = s.resetLow := rfl
@[simp] theorem State.setLoad_pins (l : List Entry) : (s.setLoad l).pins = s.pins := rfl
@[simp] theorem State.setLoad_straps (l : List Entry) : (s.setLoad l).straps = s.straps := rfl
@[simp] theorem State.setLoad_layout (l : List Entry) : (s.setLoad l).layout = s.layout := rfl
@[simp] theorem State.setLoad_staging (l : List Entry) : (s.setLoad l).staging = s.staging := rfl
@[simp] theorem State.setLoad_stored (l : List Entry) : (s.setLoad l).stored = s.stored := rfl
@[simp] theorem State.setLoad_write (l : List Entry) : (s.setLoad l).write = s.write := rfl
@[simp] theorem State.setLoad_channels (l : List Entry) : (s.setLoad l).channels = s.channels := rfl
@[simp] theorem State.setLoad_lines (l : List Entry) : (s.setLoad l).lines = s.lines := rfl
@[simp] theorem State.setLoad_lineStart (l : List Entry) : (s.setLoad l).lineStart = s.lineStart := rfl
@[simp] theorem State.setLoad_park (l : List Entry) : (s.setLoad l).park = s.park := rfl
@[simp] theorem State.setLoad_ign (l : List Entry) : (s.setLoad l).ign = s.ign := rfl
@[simp] theorem State.setLoad_wndLine (l : List Entry) : (s.setLoad l).wndLine = s.wndLine := rfl
@[simp] theorem State.setLoad_censusStart (l : List Entry) : (s.setLoad l).censusStart = s.censusStart := rfl
@[simp] theorem State.setLoad_pace (l : List Entry) : (s.setLoad l).pace = s.pace := rfl
@[simp] theorem State.setLoad_rooms (l : List Entry) : (s.setLoad l).rooms = s.rooms := rfl
@[simp] theorem State.setLoad_awning (l : List Entry) : (s.setLoad l).awning = s.awning := rfl
@[simp] theorem State.setLoad_jacks (l : List Entry) : (s.setLoad l).jacks = s.jacks := rfl
@[simp] theorem State.setLoad_jackSet (l : List Entry) : (s.setLoad l).jackSet = s.jackSet := rfl
@[simp] theorem State.setLoad_level (l : List Entry) : (s.setLoad l).level = s.level := rfl
@[simp] theorem State.setLoad_tilt (l : List Entry) : (s.setLoad l).tilt = s.tilt := rfl
@[simp] theorem State.setLoad_wind (l : List Entry) : (s.setLoad l).wind = s.wind := rfl
@[simp] theorem State.setLoad_claims (l : List Entry) : (s.setLoad l).claims = s.claims := rfl
@[simp] theorem State.setLoad_alarm (l : List Entry) : (s.setLoad l).alarm = s.alarm := rfl
@[simp] theorem State.setLoad_faultCount (l : List Entry) : (s.setLoad l).faultCount = s.faultCount := rfl
@[simp] theorem State.setLoad_faultPattern (l : List Entry) : (s.setLoad l).faultPattern = s.faultPattern := rfl
@[simp] theorem State.setLoad_supply (l : List Entry) : (s.setLoad l).supply = s.supply := rfl
@[simp] theorem State.setLoad_paused (l : List Entry) : (s.setLoad l).paused = s.paused := rfl
@[simp] theorem State.setLoad_nextOrder (l : List Entry) : (s.setLoad l).nextOrder = s.nextOrder := rfl
@[simp] theorem State.setLoad_plan (l : List Entry) : (s.setLoad l).plan = s.plan := rfl
@[simp] theorem State.setLoad_ports (l : List Entry) : (s.setLoad l).ports = s.ports := rfl

/-! ### removeEntry -/

@[simp] theorem State.removeEntry_pending (g : Group) : (s.removeEntry g).pending = s.pending := rfl
@[simp] theorem State.removeEntry_now (g : Group) : (s.removeEntry g).now = s.now := rfl
@[simp] theorem State.removeEntry_tickedAt (g : Group) : (s.removeEntry g).tickedAt = s.tickedAt := rfl
@[simp] theorem State.removeEntry_inReset (g : Group) : (s.removeEntry g).inReset = s.inReset := rfl
@[simp] theorem State.removeEntry_resetLow (g : Group) : (s.removeEntry g).resetLow = s.resetLow := rfl
@[simp] theorem State.removeEntry_pins (g : Group) : (s.removeEntry g).pins = s.pins := rfl
@[simp] theorem State.removeEntry_straps (g : Group) : (s.removeEntry g).straps = s.straps := rfl
@[simp] theorem State.removeEntry_layout (g : Group) : (s.removeEntry g).layout = s.layout := rfl
@[simp] theorem State.removeEntry_staging (g : Group) : (s.removeEntry g).staging = s.staging := rfl
@[simp] theorem State.removeEntry_stored (g : Group) : (s.removeEntry g).stored = s.stored := rfl
@[simp] theorem State.removeEntry_write (g : Group) : (s.removeEntry g).write = s.write := rfl
@[simp] theorem State.removeEntry_channels (g : Group) : (s.removeEntry g).channels = s.channels := rfl
@[simp] theorem State.removeEntry_lines (g : Group) : (s.removeEntry g).lines = s.lines := rfl
@[simp] theorem State.removeEntry_lineStart (g : Group) : (s.removeEntry g).lineStart = s.lineStart := rfl
@[simp] theorem State.removeEntry_park (g : Group) : (s.removeEntry g).park = s.park := rfl
@[simp] theorem State.removeEntry_ign (g : Group) : (s.removeEntry g).ign = s.ign := rfl
@[simp] theorem State.removeEntry_wndLine (g : Group) : (s.removeEntry g).wndLine = s.wndLine := rfl
@[simp] theorem State.removeEntry_censusStart (g : Group) : (s.removeEntry g).censusStart = s.censusStart := rfl
@[simp] theorem State.removeEntry_pace (g : Group) : (s.removeEntry g).pace = s.pace := rfl
@[simp] theorem State.removeEntry_rooms (g : Group) : (s.removeEntry g).rooms = s.rooms := rfl
@[simp] theorem State.removeEntry_awning (g : Group) : (s.removeEntry g).awning = s.awning := rfl
@[simp] theorem State.removeEntry_jacks (g : Group) : (s.removeEntry g).jacks = s.jacks := rfl
@[simp] theorem State.removeEntry_jackSet (g : Group) : (s.removeEntry g).jackSet = s.jackSet := rfl
@[simp] theorem State.removeEntry_level (g : Group) : (s.removeEntry g).level = s.level := rfl
@[simp] theorem State.removeEntry_tilt (g : Group) : (s.removeEntry g).tilt = s.tilt := rfl
@[simp] theorem State.removeEntry_wind (g : Group) : (s.removeEntry g).wind = s.wind := rfl
@[simp] theorem State.removeEntry_claims (g : Group) : (s.removeEntry g).claims = s.claims := rfl
@[simp] theorem State.removeEntry_alarm (g : Group) : (s.removeEntry g).alarm = s.alarm := rfl
@[simp] theorem State.removeEntry_faultCount (g : Group) : (s.removeEntry g).faultCount = s.faultCount := rfl
@[simp] theorem State.removeEntry_faultPattern (g : Group) : (s.removeEntry g).faultPattern = s.faultPattern := rfl
@[simp] theorem State.removeEntry_supply (g : Group) : (s.removeEntry g).supply = s.supply := rfl
@[simp] theorem State.removeEntry_nextOrder (g : Group) : (s.removeEntry g).nextOrder = s.nextOrder := rfl
@[simp] theorem State.removeEntry_plan (g : Group) : (s.removeEntry g).plan = s.plan := rfl
@[simp] theorem State.removeEntry_ports (g : Group) : (s.removeEntry g).ports = s.ports := rfl

/-! ### enterLoad -/

@[simp] theorem State.enterLoad_pending (e : Entry) : (s.enterLoad e).pending = s.pending := rfl
@[simp] theorem State.enterLoad_now (e : Entry) : (s.enterLoad e).now = s.now := rfl
@[simp] theorem State.enterLoad_tickedAt (e : Entry) : (s.enterLoad e).tickedAt = s.tickedAt := rfl
@[simp] theorem State.enterLoad_inReset (e : Entry) : (s.enterLoad e).inReset = s.inReset := rfl
@[simp] theorem State.enterLoad_resetLow (e : Entry) : (s.enterLoad e).resetLow = s.resetLow := rfl
@[simp] theorem State.enterLoad_pins (e : Entry) : (s.enterLoad e).pins = s.pins := rfl
@[simp] theorem State.enterLoad_straps (e : Entry) : (s.enterLoad e).straps = s.straps := rfl
@[simp] theorem State.enterLoad_layout (e : Entry) : (s.enterLoad e).layout = s.layout := rfl
@[simp] theorem State.enterLoad_staging (e : Entry) : (s.enterLoad e).staging = s.staging := rfl
@[simp] theorem State.enterLoad_stored (e : Entry) : (s.enterLoad e).stored = s.stored := rfl
@[simp] theorem State.enterLoad_write (e : Entry) : (s.enterLoad e).write = s.write := rfl
@[simp] theorem State.enterLoad_channels (e : Entry) : (s.enterLoad e).channels = s.channels := rfl
@[simp] theorem State.enterLoad_lines (e : Entry) : (s.enterLoad e).lines = s.lines := rfl
@[simp] theorem State.enterLoad_lineStart (e : Entry) : (s.enterLoad e).lineStart = s.lineStart := rfl
@[simp] theorem State.enterLoad_park (e : Entry) : (s.enterLoad e).park = s.park := rfl
@[simp] theorem State.enterLoad_ign (e : Entry) : (s.enterLoad e).ign = s.ign := rfl
@[simp] theorem State.enterLoad_wndLine (e : Entry) : (s.enterLoad e).wndLine = s.wndLine := rfl
@[simp] theorem State.enterLoad_censusStart (e : Entry) : (s.enterLoad e).censusStart = s.censusStart := rfl
@[simp] theorem State.enterLoad_pace (e : Entry) : (s.enterLoad e).pace = s.pace := rfl
@[simp] theorem State.enterLoad_rooms (e : Entry) : (s.enterLoad e).rooms = s.rooms := rfl
@[simp] theorem State.enterLoad_awning (e : Entry) : (s.enterLoad e).awning = s.awning := rfl
@[simp] theorem State.enterLoad_jacks (e : Entry) : (s.enterLoad e).jacks = s.jacks := rfl
@[simp] theorem State.enterLoad_jackSet (e : Entry) : (s.enterLoad e).jackSet = s.jackSet := rfl
@[simp] theorem State.enterLoad_level (e : Entry) : (s.enterLoad e).level = s.level := rfl
@[simp] theorem State.enterLoad_tilt (e : Entry) : (s.enterLoad e).tilt = s.tilt := rfl
@[simp] theorem State.enterLoad_wind (e : Entry) : (s.enterLoad e).wind = s.wind := rfl
@[simp] theorem State.enterLoad_claims (e : Entry) : (s.enterLoad e).claims = s.claims := rfl
@[simp] theorem State.enterLoad_alarm (e : Entry) : (s.enterLoad e).alarm = s.alarm := rfl
@[simp] theorem State.enterLoad_faultCount (e : Entry) : (s.enterLoad e).faultCount = s.faultCount := rfl
@[simp] theorem State.enterLoad_faultPattern (e : Entry) : (s.enterLoad e).faultPattern = s.faultPattern := rfl
@[simp] theorem State.enterLoad_supply (e : Entry) : (s.enterLoad e).supply = s.supply := rfl
@[simp] theorem State.enterLoad_paused (e : Entry) : (s.enterLoad e).paused = s.paused := rfl
@[simp] theorem State.enterLoad_nextOrder (e : Entry) : (s.enterLoad e).nextOrder = s.nextOrder := rfl
@[simp] theorem State.enterLoad_plan (e : Entry) : (s.enterLoad e).plan = s.plan := rfl
@[simp] theorem State.enterLoad_ports (e : Entry) : (s.enterLoad e).ports = s.ports := rfl

/-! ### enterPause -/

@[simp] theorem State.enterPause_pending (e : Entry) (st : EntryState) : (s.enterPause e st).pending = s.pending := rfl
@[simp] theorem State.enterPause_now (e : Entry) (st : EntryState) : (s.enterPause e st).now = s.now := rfl
@[simp] theorem State.enterPause_tickedAt (e : Entry) (st : EntryState) : (s.enterPause e st).tickedAt = s.tickedAt := rfl
@[simp] theorem State.enterPause_inReset (e : Entry) (st : EntryState) : (s.enterPause e st).inReset = s.inReset := rfl
@[simp] theorem State.enterPause_resetLow (e : Entry) (st : EntryState) : (s.enterPause e st).resetLow = s.resetLow := rfl
@[simp] theorem State.enterPause_pins (e : Entry) (st : EntryState) : (s.enterPause e st).pins = s.pins := rfl
@[simp] theorem State.enterPause_straps (e : Entry) (st : EntryState) : (s.enterPause e st).straps = s.straps := rfl
@[simp] theorem State.enterPause_layout (e : Entry) (st : EntryState) : (s.enterPause e st).layout = s.layout := rfl
@[simp] theorem State.enterPause_staging (e : Entry) (st : EntryState) : (s.enterPause e st).staging = s.staging := rfl
@[simp] theorem State.enterPause_stored (e : Entry) (st : EntryState) : (s.enterPause e st).stored = s.stored := rfl
@[simp] theorem State.enterPause_write (e : Entry) (st : EntryState) : (s.enterPause e st).write = s.write := rfl
@[simp] theorem State.enterPause_channels (e : Entry) (st : EntryState) : (s.enterPause e st).channels = s.channels := rfl
@[simp] theorem State.enterPause_lines (e : Entry) (st : EntryState) : (s.enterPause e st).lines = s.lines := rfl
@[simp] theorem State.enterPause_lineStart (e : Entry) (st : EntryState) : (s.enterPause e st).lineStart = s.lineStart := rfl
@[simp] theorem State.enterPause_park (e : Entry) (st : EntryState) : (s.enterPause e st).park = s.park := rfl
@[simp] theorem State.enterPause_ign (e : Entry) (st : EntryState) : (s.enterPause e st).ign = s.ign := rfl
@[simp] theorem State.enterPause_wndLine (e : Entry) (st : EntryState) : (s.enterPause e st).wndLine = s.wndLine := rfl
@[simp] theorem State.enterPause_censusStart (e : Entry) (st : EntryState) : (s.enterPause e st).censusStart = s.censusStart := rfl
@[simp] theorem State.enterPause_pace (e : Entry) (st : EntryState) : (s.enterPause e st).pace = s.pace := rfl
@[simp] theorem State.enterPause_rooms (e : Entry) (st : EntryState) : (s.enterPause e st).rooms = s.rooms := rfl
@[simp] theorem State.enterPause_awning (e : Entry) (st : EntryState) : (s.enterPause e st).awning = s.awning := rfl
@[simp] theorem State.enterPause_jacks (e : Entry) (st : EntryState) : (s.enterPause e st).jacks = s.jacks := rfl
@[simp] theorem State.enterPause_jackSet (e : Entry) (st : EntryState) : (s.enterPause e st).jackSet = s.jackSet := rfl
@[simp] theorem State.enterPause_level (e : Entry) (st : EntryState) : (s.enterPause e st).level = s.level := rfl
@[simp] theorem State.enterPause_tilt (e : Entry) (st : EntryState) : (s.enterPause e st).tilt = s.tilt := rfl
@[simp] theorem State.enterPause_wind (e : Entry) (st : EntryState) : (s.enterPause e st).wind = s.wind := rfl
@[simp] theorem State.enterPause_claims (e : Entry) (st : EntryState) : (s.enterPause e st).claims = s.claims := rfl
@[simp] theorem State.enterPause_alarm (e : Entry) (st : EntryState) : (s.enterPause e st).alarm = s.alarm := rfl
@[simp] theorem State.enterPause_faultCount (e : Entry) (st : EntryState) : (s.enterPause e st).faultCount = s.faultCount := rfl
@[simp] theorem State.enterPause_faultPattern (e : Entry) (st : EntryState) : (s.enterPause e st).faultPattern = s.faultPattern := rfl
@[simp] theorem State.enterPause_motionPeriod (e : Entry) (st : EntryState) : (s.enterPause e st).motionPeriod = s.motionPeriod := rfl
@[simp] theorem State.enterPause_motionPulse (e : Entry) (st : EntryState) : (s.enterPause e st).motionPulse = s.motionPulse := rfl
@[simp] theorem State.enterPause_supply (e : Entry) (st : EntryState) : (s.enterPause e st).supply = s.supply := rfl
@[simp] theorem State.enterPause_load (e : Entry) (st : EntryState) : (s.enterPause e st).load = s.load := rfl
@[simp] theorem State.enterPause_nextOrder (e : Entry) (st : EntryState) : (s.enterPause e st).nextOrder = s.nextOrder := rfl
@[simp] theorem State.enterPause_plan (e : Entry) (st : EntryState) : (s.enterPause e st).plan = s.plan := rfl
@[simp] theorem State.enterPause_ports (e : Entry) (st : EntryState) : (s.enterPause e st).ports = s.ports := rfl

/-! ### setSlider -/

@[simp] theorem State.setSlider_pending (id : Slider) (r : SliderRec) : (s.setSlider id r).pending = s.pending := by cases id <;> rfl
@[simp] theorem State.setSlider_now (id : Slider) (r : SliderRec) : (s.setSlider id r).now = s.now := by cases id <;> rfl
@[simp] theorem State.setSlider_tickedAt (id : Slider) (r : SliderRec) : (s.setSlider id r).tickedAt = s.tickedAt := by cases id <;> rfl
@[simp] theorem State.setSlider_inReset (id : Slider) (r : SliderRec) : (s.setSlider id r).inReset = s.inReset := by cases id <;> rfl
@[simp] theorem State.setSlider_resetLow (id : Slider) (r : SliderRec) : (s.setSlider id r).resetLow = s.resetLow := by cases id <;> rfl
@[simp] theorem State.setSlider_pins (id : Slider) (r : SliderRec) : (s.setSlider id r).pins = s.pins := by cases id <;> rfl
@[simp] theorem State.setSlider_straps (id : Slider) (r : SliderRec) : (s.setSlider id r).straps = s.straps := by cases id <;> rfl
@[simp] theorem State.setSlider_layout (id : Slider) (r : SliderRec) : (s.setSlider id r).layout = s.layout := by cases id <;> rfl
@[simp] theorem State.setSlider_staging (id : Slider) (r : SliderRec) : (s.setSlider id r).staging = s.staging := by cases id <;> rfl
@[simp] theorem State.setSlider_stored (id : Slider) (r : SliderRec) : (s.setSlider id r).stored = s.stored := by cases id <;> rfl
@[simp] theorem State.setSlider_write (id : Slider) (r : SliderRec) : (s.setSlider id r).write = s.write := by cases id <;> rfl
@[simp] theorem State.setSlider_channels (id : Slider) (r : SliderRec) : (s.setSlider id r).channels = s.channels := by cases id <;> rfl
@[simp] theorem State.setSlider_lines (id : Slider) (r : SliderRec) : (s.setSlider id r).lines = s.lines := by cases id <;> rfl
@[simp] theorem State.setSlider_lineStart (id : Slider) (r : SliderRec) : (s.setSlider id r).lineStart = s.lineStart := by cases id <;> rfl
@[simp] theorem State.setSlider_park (id : Slider) (r : SliderRec) : (s.setSlider id r).park = s.park := by cases id <;> rfl
@[simp] theorem State.setSlider_ign (id : Slider) (r : SliderRec) : (s.setSlider id r).ign = s.ign := by cases id <;> rfl
@[simp] theorem State.setSlider_wndLine (id : Slider) (r : SliderRec) : (s.setSlider id r).wndLine = s.wndLine := by cases id <;> rfl
@[simp] theorem State.setSlider_censusStart (id : Slider) (r : SliderRec) : (s.setSlider id r).censusStart = s.censusStart := by cases id <;> rfl
@[simp] theorem State.setSlider_pace (id : Slider) (r : SliderRec) : (s.setSlider id r).pace = s.pace := by cases id <;> rfl
@[simp] theorem State.setSlider_jacks (id : Slider) (r : SliderRec) : (s.setSlider id r).jacks = s.jacks := by cases id <;> rfl
@[simp] theorem State.setSlider_jackSet (id : Slider) (r : SliderRec) : (s.setSlider id r).jackSet = s.jackSet := by cases id <;> rfl
@[simp] theorem State.setSlider_level (id : Slider) (r : SliderRec) : (s.setSlider id r).level = s.level := by cases id <;> rfl
@[simp] theorem State.setSlider_tilt (id : Slider) (r : SliderRec) : (s.setSlider id r).tilt = s.tilt := by cases id <;> rfl
@[simp] theorem State.setSlider_wind (id : Slider) (r : SliderRec) : (s.setSlider id r).wind = s.wind := by cases id <;> rfl
@[simp] theorem State.setSlider_claims (id : Slider) (r : SliderRec) : (s.setSlider id r).claims = s.claims := by cases id <;> rfl
@[simp] theorem State.setSlider_alarm (id : Slider) (r : SliderRec) : (s.setSlider id r).alarm = s.alarm := by cases id <;> rfl
@[simp] theorem State.setSlider_faultCount (id : Slider) (r : SliderRec) : (s.setSlider id r).faultCount = s.faultCount := by cases id <;> rfl
@[simp] theorem State.setSlider_faultPattern (id : Slider) (r : SliderRec) : (s.setSlider id r).faultPattern = s.faultPattern := by cases id <;> rfl
@[simp] theorem State.setSlider_motionPeriod (id : Slider) (r : SliderRec) : (s.setSlider id r).motionPeriod = s.motionPeriod := by cases id <;> rfl
@[simp] theorem State.setSlider_motionPulse (id : Slider) (r : SliderRec) : (s.setSlider id r).motionPulse = s.motionPulse := by cases id <;> rfl
@[simp] theorem State.setSlider_supply (id : Slider) (r : SliderRec) : (s.setSlider id r).supply = s.supply := by cases id <;> rfl
@[simp] theorem State.setSlider_load (id : Slider) (r : SliderRec) : (s.setSlider id r).load = s.load := by cases id <;> rfl
@[simp] theorem State.setSlider_paused (id : Slider) (r : SliderRec) : (s.setSlider id r).paused = s.paused := by cases id <;> rfl
@[simp] theorem State.setSlider_nextOrder (id : Slider) (r : SliderRec) : (s.setSlider id r).nextOrder = s.nextOrder := by cases id <;> rfl
@[simp] theorem State.setSlider_plan (id : Slider) (r : SliderRec) : (s.setSlider id r).plan = s.plan := by cases id <;> rfl
@[simp] theorem State.setSlider_ports (id : Slider) (r : SliderRec) : (s.setSlider id r).ports = s.ports := by cases id <;> rfl

/-! ### setMotor -/

@[simp] theorem State.setMotor_pending (id : Slider) (m : Motor) (x : MotorRec) : (s.setMotor id m x).pending = s.pending := by cases id <;> rfl
@[simp] theorem State.setMotor_now (id : Slider) (m : Motor) (x : MotorRec) : (s.setMotor id m x).now = s.now := by cases id <;> rfl
@[simp] theorem State.setMotor_tickedAt (id : Slider) (m : Motor) (x : MotorRec) : (s.setMotor id m x).tickedAt = s.tickedAt := by cases id <;> rfl
@[simp] theorem State.setMotor_inReset (id : Slider) (m : Motor) (x : MotorRec) : (s.setMotor id m x).inReset = s.inReset := by cases id <;> rfl
@[simp] theorem State.setMotor_resetLow (id : Slider) (m : Motor) (x : MotorRec) : (s.setMotor id m x).resetLow = s.resetLow := by cases id <;> rfl
@[simp] theorem State.setMotor_pins (id : Slider) (m : Motor) (x : MotorRec) : (s.setMotor id m x).pins = s.pins := by cases id <;> rfl
@[simp] theorem State.setMotor_straps (id : Slider) (m : Motor) (x : MotorRec) : (s.setMotor id m x).straps = s.straps := by cases id <;> rfl
@[simp] theorem State.setMotor_layout (id : Slider) (m : Motor) (x : MotorRec) : (s.setMotor id m x).layout = s.layout := by cases id <;> rfl
@[simp] theorem State.setMotor_staging (id : Slider) (m : Motor) (x : MotorRec) : (s.setMotor id m x).staging = s.staging := by cases id <;> rfl
@[simp] theorem State.setMotor_stored (id : Slider) (m : Motor) (x : MotorRec) : (s.setMotor id m x).stored = s.stored := by cases id <;> rfl
@[simp] theorem State.setMotor_write (id : Slider) (m : Motor) (x : MotorRec) : (s.setMotor id m x).write = s.write := by cases id <;> rfl
@[simp] theorem State.setMotor_channels (id : Slider) (m : Motor) (x : MotorRec) : (s.setMotor id m x).channels = s.channels := by cases id <;> rfl
@[simp] theorem State.setMotor_lines (id : Slider) (m : Motor) (x : MotorRec) : (s.setMotor id m x).lines = s.lines := by cases id <;> rfl
@[simp] theorem State.setMotor_lineStart (id : Slider) (m : Motor) (x : MotorRec) : (s.setMotor id m x).lineStart = s.lineStart := by cases id <;> rfl
@[simp] theorem State.setMotor_park (id : Slider) (m : Motor) (x : MotorRec) : (s.setMotor id m x).park = s.park := by cases id <;> rfl
@[simp] theorem State.setMotor_ign (id : Slider) (m : Motor) (x : MotorRec) : (s.setMotor id m x).ign = s.ign := by cases id <;> rfl
@[simp] theorem State.setMotor_wndLine (id : Slider) (m : Motor) (x : MotorRec) : (s.setMotor id m x).wndLine = s.wndLine := by cases id <;> rfl
@[simp] theorem State.setMotor_censusStart (id : Slider) (m : Motor) (x : MotorRec) : (s.setMotor id m x).censusStart = s.censusStart := by cases id <;> rfl
@[simp] theorem State.setMotor_pace (id : Slider) (m : Motor) (x : MotorRec) : (s.setMotor id m x).pace = s.pace := by cases id <;> rfl
@[simp] theorem State.setMotor_jacks (id : Slider) (m : Motor) (x : MotorRec) : (s.setMotor id m x).jacks = s.jacks := by cases id <;> rfl
@[simp] theorem State.setMotor_jackSet (id : Slider) (m : Motor) (x : MotorRec) : (s.setMotor id m x).jackSet = s.jackSet := by cases id <;> rfl
@[simp] theorem State.setMotor_level (id : Slider) (m : Motor) (x : MotorRec) : (s.setMotor id m x).level = s.level := by cases id <;> rfl
@[simp] theorem State.setMotor_tilt (id : Slider) (m : Motor) (x : MotorRec) : (s.setMotor id m x).tilt = s.tilt := by cases id <;> rfl
@[simp] theorem State.setMotor_wind (id : Slider) (m : Motor) (x : MotorRec) : (s.setMotor id m x).wind = s.wind := by cases id <;> rfl
@[simp] theorem State.setMotor_claims (id : Slider) (m : Motor) (x : MotorRec) : (s.setMotor id m x).claims = s.claims := by cases id <;> rfl
@[simp] theorem State.setMotor_alarm (id : Slider) (m : Motor) (x : MotorRec) : (s.setMotor id m x).alarm = s.alarm := by cases id <;> rfl
@[simp] theorem State.setMotor_faultCount (id : Slider) (m : Motor) (x : MotorRec) : (s.setMotor id m x).faultCount = s.faultCount := by cases id <;> rfl
@[simp] theorem State.setMotor_faultPattern (id : Slider) (m : Motor) (x : MotorRec) : (s.setMotor id m x).faultPattern = s.faultPattern := by cases id <;> rfl
@[simp] theorem State.setMotor_motionPeriod (id : Slider) (m : Motor) (x : MotorRec) : (s.setMotor id m x).motionPeriod = s.motionPeriod := by cases id <;> rfl
@[simp] theorem State.setMotor_motionPulse (id : Slider) (m : Motor) (x : MotorRec) : (s.setMotor id m x).motionPulse = s.motionPulse := by cases id <;> rfl
@[simp] theorem State.setMotor_supply (id : Slider) (m : Motor) (x : MotorRec) : (s.setMotor id m x).supply = s.supply := by cases id <;> rfl
@[simp] theorem State.setMotor_load (id : Slider) (m : Motor) (x : MotorRec) : (s.setMotor id m x).load = s.load := by cases id <;> rfl
@[simp] theorem State.setMotor_paused (id : Slider) (m : Motor) (x : MotorRec) : (s.setMotor id m x).paused = s.paused := by cases id <;> rfl
@[simp] theorem State.setMotor_nextOrder (id : Slider) (m : Motor) (x : MotorRec) : (s.setMotor id m x).nextOrder = s.nextOrder := by cases id <;> rfl
@[simp] theorem State.setMotor_plan (id : Slider) (m : Motor) (x : MotorRec) : (s.setMotor id m x).plan = s.plan := by cases id <;> rfl
@[simp] theorem State.setMotor_ports (id : Slider) (m : Motor) (x : MotorRec) : (s.setMotor id m x).ports = s.ports := by cases id <;> rfl

/-! ### setJack -/

@[simp] theorem State.setJack_pending (j : JackId) (r : Jack) : (s.setJack j r).pending = s.pending := rfl
@[simp] theorem State.setJack_now (j : JackId) (r : Jack) : (s.setJack j r).now = s.now := rfl
@[simp] theorem State.setJack_tickedAt (j : JackId) (r : Jack) : (s.setJack j r).tickedAt = s.tickedAt := rfl
@[simp] theorem State.setJack_inReset (j : JackId) (r : Jack) : (s.setJack j r).inReset = s.inReset := rfl
@[simp] theorem State.setJack_resetLow (j : JackId) (r : Jack) : (s.setJack j r).resetLow = s.resetLow := rfl
@[simp] theorem State.setJack_pins (j : JackId) (r : Jack) : (s.setJack j r).pins = s.pins := rfl
@[simp] theorem State.setJack_straps (j : JackId) (r : Jack) : (s.setJack j r).straps = s.straps := rfl
@[simp] theorem State.setJack_layout (j : JackId) (r : Jack) : (s.setJack j r).layout = s.layout := rfl
@[simp] theorem State.setJack_staging (j : JackId) (r : Jack) : (s.setJack j r).staging = s.staging := rfl
@[simp] theorem State.setJack_stored (j : JackId) (r : Jack) : (s.setJack j r).stored = s.stored := rfl
@[simp] theorem State.setJack_write (j : JackId) (r : Jack) : (s.setJack j r).write = s.write := rfl
@[simp] theorem State.setJack_channels (j : JackId) (r : Jack) : (s.setJack j r).channels = s.channels := rfl
@[simp] theorem State.setJack_lines (j : JackId) (r : Jack) : (s.setJack j r).lines = s.lines := rfl
@[simp] theorem State.setJack_lineStart (j : JackId) (r : Jack) : (s.setJack j r).lineStart = s.lineStart := rfl
@[simp] theorem State.setJack_park (j : JackId) (r : Jack) : (s.setJack j r).park = s.park := rfl
@[simp] theorem State.setJack_ign (j : JackId) (r : Jack) : (s.setJack j r).ign = s.ign := rfl
@[simp] theorem State.setJack_wndLine (j : JackId) (r : Jack) : (s.setJack j r).wndLine = s.wndLine := rfl
@[simp] theorem State.setJack_censusStart (j : JackId) (r : Jack) : (s.setJack j r).censusStart = s.censusStart := rfl
@[simp] theorem State.setJack_pace (j : JackId) (r : Jack) : (s.setJack j r).pace = s.pace := rfl
@[simp] theorem State.setJack_rooms (j : JackId) (r : Jack) : (s.setJack j r).rooms = s.rooms := rfl
@[simp] theorem State.setJack_awning (j : JackId) (r : Jack) : (s.setJack j r).awning = s.awning := rfl
@[simp] theorem State.setJack_jackSet (j : JackId) (r : Jack) : (s.setJack j r).jackSet = s.jackSet := rfl
@[simp] theorem State.setJack_level (j : JackId) (r : Jack) : (s.setJack j r).level = s.level := rfl
@[simp] theorem State.setJack_tilt (j : JackId) (r : Jack) : (s.setJack j r).tilt = s.tilt := rfl
@[simp] theorem State.setJack_wind (j : JackId) (r : Jack) : (s.setJack j r).wind = s.wind := rfl
@[simp] theorem State.setJack_claims (j : JackId) (r : Jack) : (s.setJack j r).claims = s.claims := rfl
@[simp] theorem State.setJack_alarm (j : JackId) (r : Jack) : (s.setJack j r).alarm = s.alarm := rfl
@[simp] theorem State.setJack_faultCount (j : JackId) (r : Jack) : (s.setJack j r).faultCount = s.faultCount := rfl
@[simp] theorem State.setJack_faultPattern (j : JackId) (r : Jack) : (s.setJack j r).faultPattern = s.faultPattern := rfl
@[simp] theorem State.setJack_motionPeriod (j : JackId) (r : Jack) : (s.setJack j r).motionPeriod = s.motionPeriod := rfl
@[simp] theorem State.setJack_motionPulse (j : JackId) (r : Jack) : (s.setJack j r).motionPulse = s.motionPulse := rfl
@[simp] theorem State.setJack_supply (j : JackId) (r : Jack) : (s.setJack j r).supply = s.supply := rfl
@[simp] theorem State.setJack_load (j : JackId) (r : Jack) : (s.setJack j r).load = s.load := rfl
@[simp] theorem State.setJack_paused (j : JackId) (r : Jack) : (s.setJack j r).paused = s.paused := rfl
@[simp] theorem State.setJack_nextOrder (j : JackId) (r : Jack) : (s.setJack j r).nextOrder = s.nextOrder := rfl
@[simp] theorem State.setJack_plan (j : JackId) (r : Jack) : (s.setJack j r).plan = s.plan := rfl
@[simp] theorem State.setJack_ports (j : JackId) (r : Jack) : (s.setJack j r).ports = s.ports := rfl

/-! ### onJack -/

@[simp] theorem State.onJack_pending (j : JackId) (f : Jack → Jack) : (s.onJack j f).pending = s.pending := rfl
@[simp] theorem State.onJack_now (j : JackId) (f : Jack → Jack) : (s.onJack j f).now = s.now := rfl
@[simp] theorem State.onJack_tickedAt (j : JackId) (f : Jack → Jack) : (s.onJack j f).tickedAt = s.tickedAt := rfl
@[simp] theorem State.onJack_inReset (j : JackId) (f : Jack → Jack) : (s.onJack j f).inReset = s.inReset := rfl
@[simp] theorem State.onJack_resetLow (j : JackId) (f : Jack → Jack) : (s.onJack j f).resetLow = s.resetLow := rfl
@[simp] theorem State.onJack_pins (j : JackId) (f : Jack → Jack) : (s.onJack j f).pins = s.pins := rfl
@[simp] theorem State.onJack_straps (j : JackId) (f : Jack → Jack) : (s.onJack j f).straps = s.straps := rfl
@[simp] theorem State.onJack_layout (j : JackId) (f : Jack → Jack) : (s.onJack j f).layout = s.layout := rfl
@[simp] theorem State.onJack_staging (j : JackId) (f : Jack → Jack) : (s.onJack j f).staging = s.staging := rfl
@[simp] theorem State.onJack_stored (j : JackId) (f : Jack → Jack) : (s.onJack j f).stored = s.stored := rfl
@[simp] theorem State.onJack_write (j : JackId) (f : Jack → Jack) : (s.onJack j f).write = s.write := rfl
@[simp] theorem State.onJack_channels (j : JackId) (f : Jack → Jack) : (s.onJack j f).channels = s.channels := rfl
@[simp] theorem State.onJack_lines (j : JackId) (f : Jack → Jack) : (s.onJack j f).lines = s.lines := rfl
@[simp] theorem State.onJack_lineStart (j : JackId) (f : Jack → Jack) : (s.onJack j f).lineStart = s.lineStart := rfl
@[simp] theorem State.onJack_park (j : JackId) (f : Jack → Jack) : (s.onJack j f).park = s.park := rfl
@[simp] theorem State.onJack_ign (j : JackId) (f : Jack → Jack) : (s.onJack j f).ign = s.ign := rfl
@[simp] theorem State.onJack_wndLine (j : JackId) (f : Jack → Jack) : (s.onJack j f).wndLine = s.wndLine := rfl
@[simp] theorem State.onJack_censusStart (j : JackId) (f : Jack → Jack) : (s.onJack j f).censusStart = s.censusStart := rfl
@[simp] theorem State.onJack_pace (j : JackId) (f : Jack → Jack) : (s.onJack j f).pace = s.pace := rfl
@[simp] theorem State.onJack_rooms (j : JackId) (f : Jack → Jack) : (s.onJack j f).rooms = s.rooms := rfl
@[simp] theorem State.onJack_awning (j : JackId) (f : Jack → Jack) : (s.onJack j f).awning = s.awning := rfl
@[simp] theorem State.onJack_jackSet (j : JackId) (f : Jack → Jack) : (s.onJack j f).jackSet = s.jackSet := rfl
@[simp] theorem State.onJack_level (j : JackId) (f : Jack → Jack) : (s.onJack j f).level = s.level := rfl
@[simp] theorem State.onJack_tilt (j : JackId) (f : Jack → Jack) : (s.onJack j f).tilt = s.tilt := rfl
@[simp] theorem State.onJack_wind (j : JackId) (f : Jack → Jack) : (s.onJack j f).wind = s.wind := rfl
@[simp] theorem State.onJack_claims (j : JackId) (f : Jack → Jack) : (s.onJack j f).claims = s.claims := rfl
@[simp] theorem State.onJack_alarm (j : JackId) (f : Jack → Jack) : (s.onJack j f).alarm = s.alarm := rfl
@[simp] theorem State.onJack_faultCount (j : JackId) (f : Jack → Jack) : (s.onJack j f).faultCount = s.faultCount := rfl
@[simp] theorem State.onJack_faultPattern (j : JackId) (f : Jack → Jack) : (s.onJack j f).faultPattern = s.faultPattern := rfl
@[simp] theorem State.onJack_motionPeriod (j : JackId) (f : Jack → Jack) : (s.onJack j f).motionPeriod = s.motionPeriod := rfl
@[simp] theorem State.onJack_motionPulse (j : JackId) (f : Jack → Jack) : (s.onJack j f).motionPulse = s.motionPulse := rfl
@[simp] theorem State.onJack_supply (j : JackId) (f : Jack → Jack) : (s.onJack j f).supply = s.supply := rfl
@[simp] theorem State.onJack_load (j : JackId) (f : Jack → Jack) : (s.onJack j f).load = s.load := rfl
@[simp] theorem State.onJack_paused (j : JackId) (f : Jack → Jack) : (s.onJack j f).paused = s.paused := rfl
@[simp] theorem State.onJack_nextOrder (j : JackId) (f : Jack → Jack) : (s.onJack j f).nextOrder = s.nextOrder := rfl
@[simp] theorem State.onJack_plan (j : JackId) (f : Jack → Jack) : (s.onJack j f).plan = s.plan := rfl
@[simp] theorem State.onJack_ports (j : JackId) (f : Jack → Jack) : (s.onJack j f).ports = s.ports := rfl

/-! ### setWind -/

@[simp] theorem State.setWind_pending (w : Wind) : (s.setWind w).pending = s.pending := rfl
@[simp] theorem State.setWind_now (w : Wind) : (s.setWind w).now = s.now := rfl
@[simp] theorem State.setWind_tickedAt (w : Wind) : (s.setWind w).tickedAt = s.tickedAt := rfl
@[simp] theorem State.setWind_inReset (w : Wind) : (s.setWind w).inReset = s.inReset := rfl
@[simp] theorem State.setWind_resetLow (w : Wind) : (s.setWind w).resetLow = s.resetLow := rfl
@[simp] theorem State.setWind_pins (w : Wind) : (s.setWind w).pins = s.pins := rfl
@[simp] theorem State.setWind_straps (w : Wind) : (s.setWind w).straps = s.straps := rfl
@[simp] theorem State.setWind_layout (w : Wind) : (s.setWind w).layout = s.layout := rfl
@[simp] theorem State.setWind_staging (w : Wind) : (s.setWind w).staging = s.staging := rfl
@[simp] theorem State.setWind_stored (w : Wind) : (s.setWind w).stored = s.stored := rfl
@[simp] theorem State.setWind_write (w : Wind) : (s.setWind w).write = s.write := rfl
@[simp] theorem State.setWind_channels (w : Wind) : (s.setWind w).channels = s.channels := rfl
@[simp] theorem State.setWind_lines (w : Wind) : (s.setWind w).lines = s.lines := rfl
@[simp] theorem State.setWind_lineStart (w : Wind) : (s.setWind w).lineStart = s.lineStart := rfl
@[simp] theorem State.setWind_park (w : Wind) : (s.setWind w).park = s.park := rfl
@[simp] theorem State.setWind_ign (w : Wind) : (s.setWind w).ign = s.ign := rfl
@[simp] theorem State.setWind_wndLine (w : Wind) : (s.setWind w).wndLine = s.wndLine := rfl
@[simp] theorem State.setWind_censusStart (w : Wind) : (s.setWind w).censusStart = s.censusStart := rfl
@[simp] theorem State.setWind_pace (w : Wind) : (s.setWind w).pace = s.pace := rfl
@[simp] theorem State.setWind_rooms (w : Wind) : (s.setWind w).rooms = s.rooms := rfl
@[simp] theorem State.setWind_awning (w : Wind) : (s.setWind w).awning = s.awning := rfl
@[simp] theorem State.setWind_jacks (w : Wind) : (s.setWind w).jacks = s.jacks := rfl
@[simp] theorem State.setWind_jackSet (w : Wind) : (s.setWind w).jackSet = s.jackSet := rfl
@[simp] theorem State.setWind_level (w : Wind) : (s.setWind w).level = s.level := rfl
@[simp] theorem State.setWind_tilt (w : Wind) : (s.setWind w).tilt = s.tilt := rfl
@[simp] theorem State.setWind_claims (w : Wind) : (s.setWind w).claims = s.claims := rfl
@[simp] theorem State.setWind_alarm (w : Wind) : (s.setWind w).alarm = s.alarm := rfl
@[simp] theorem State.setWind_faultCount (w : Wind) : (s.setWind w).faultCount = s.faultCount := rfl
@[simp] theorem State.setWind_faultPattern (w : Wind) : (s.setWind w).faultPattern = s.faultPattern := rfl
@[simp] theorem State.setWind_motionPeriod (w : Wind) : (s.setWind w).motionPeriod = s.motionPeriod := rfl
@[simp] theorem State.setWind_motionPulse (w : Wind) : (s.setWind w).motionPulse = s.motionPulse := rfl
@[simp] theorem State.setWind_supply (w : Wind) : (s.setWind w).supply = s.supply := rfl
@[simp] theorem State.setWind_load (w : Wind) : (s.setWind w).load = s.load := rfl
@[simp] theorem State.setWind_paused (w : Wind) : (s.setWind w).paused = s.paused := rfl
@[simp] theorem State.setWind_nextOrder (w : Wind) : (s.setWind w).nextOrder = s.nextOrder := rfl
@[simp] theorem State.setWind_plan (w : Wind) : (s.setWind w).plan = s.plan := rfl
@[simp] theorem State.setWind_ports (w : Wind) : (s.setWind w).ports = s.ports := rfl

/-! ### setLines -/

@[simp] theorem State.setLines_pending (n : Chan) (l : ChannelLines) : (s.setLines n l).pending = s.pending := rfl
@[simp] theorem State.setLines_now (n : Chan) (l : ChannelLines) : (s.setLines n l).now = s.now := rfl
@[simp] theorem State.setLines_tickedAt (n : Chan) (l : ChannelLines) : (s.setLines n l).tickedAt = s.tickedAt := rfl
@[simp] theorem State.setLines_inReset (n : Chan) (l : ChannelLines) : (s.setLines n l).inReset = s.inReset := rfl
@[simp] theorem State.setLines_resetLow (n : Chan) (l : ChannelLines) : (s.setLines n l).resetLow = s.resetLow := rfl
@[simp] theorem State.setLines_pins (n : Chan) (l : ChannelLines) : (s.setLines n l).pins = s.pins := rfl
@[simp] theorem State.setLines_straps (n : Chan) (l : ChannelLines) : (s.setLines n l).straps = s.straps := rfl
@[simp] theorem State.setLines_layout (n : Chan) (l : ChannelLines) : (s.setLines n l).layout = s.layout := rfl
@[simp] theorem State.setLines_staging (n : Chan) (l : ChannelLines) : (s.setLines n l).staging = s.staging := rfl
@[simp] theorem State.setLines_stored (n : Chan) (l : ChannelLines) : (s.setLines n l).stored = s.stored := rfl
@[simp] theorem State.setLines_write (n : Chan) (l : ChannelLines) : (s.setLines n l).write = s.write := rfl
@[simp] theorem State.setLines_channels (n : Chan) (l : ChannelLines) : (s.setLines n l).channels = s.channels := rfl
@[simp] theorem State.setLines_lineStart (n : Chan) (l : ChannelLines) : (s.setLines n l).lineStart = s.lineStart := rfl
@[simp] theorem State.setLines_park (n : Chan) (l : ChannelLines) : (s.setLines n l).park = s.park := rfl
@[simp] theorem State.setLines_ign (n : Chan) (l : ChannelLines) : (s.setLines n l).ign = s.ign := rfl
@[simp] theorem State.setLines_wndLine (n : Chan) (l : ChannelLines) : (s.setLines n l).wndLine = s.wndLine := rfl
@[simp] theorem State.setLines_censusStart (n : Chan) (l : ChannelLines) : (s.setLines n l).censusStart = s.censusStart := rfl
@[simp] theorem State.setLines_pace (n : Chan) (l : ChannelLines) : (s.setLines n l).pace = s.pace := rfl
@[simp] theorem State.setLines_rooms (n : Chan) (l : ChannelLines) : (s.setLines n l).rooms = s.rooms := rfl
@[simp] theorem State.setLines_awning (n : Chan) (l : ChannelLines) : (s.setLines n l).awning = s.awning := rfl
@[simp] theorem State.setLines_jacks (n : Chan) (l : ChannelLines) : (s.setLines n l).jacks = s.jacks := rfl
@[simp] theorem State.setLines_jackSet (n : Chan) (l : ChannelLines) : (s.setLines n l).jackSet = s.jackSet := rfl
@[simp] theorem State.setLines_level (n : Chan) (l : ChannelLines) : (s.setLines n l).level = s.level := rfl
@[simp] theorem State.setLines_tilt (n : Chan) (l : ChannelLines) : (s.setLines n l).tilt = s.tilt := rfl
@[simp] theorem State.setLines_wind (n : Chan) (l : ChannelLines) : (s.setLines n l).wind = s.wind := rfl
@[simp] theorem State.setLines_claims (n : Chan) (l : ChannelLines) : (s.setLines n l).claims = s.claims := rfl
@[simp] theorem State.setLines_alarm (n : Chan) (l : ChannelLines) : (s.setLines n l).alarm = s.alarm := rfl
@[simp] theorem State.setLines_faultCount (n : Chan) (l : ChannelLines) : (s.setLines n l).faultCount = s.faultCount := rfl
@[simp] theorem State.setLines_faultPattern (n : Chan) (l : ChannelLines) : (s.setLines n l).faultPattern = s.faultPattern := rfl
@[simp] theorem State.setLines_motionPeriod (n : Chan) (l : ChannelLines) : (s.setLines n l).motionPeriod = s.motionPeriod := rfl
@[simp] theorem State.setLines_motionPulse (n : Chan) (l : ChannelLines) : (s.setLines n l).motionPulse = s.motionPulse := rfl
@[simp] theorem State.setLines_supply (n : Chan) (l : ChannelLines) : (s.setLines n l).supply = s.supply := rfl
@[simp] theorem State.setLines_load (n : Chan) (l : ChannelLines) : (s.setLines n l).load = s.load := rfl
@[simp] theorem State.setLines_paused (n : Chan) (l : ChannelLines) : (s.setLines n l).paused = s.paused := rfl
@[simp] theorem State.setLines_nextOrder (n : Chan) (l : ChannelLines) : (s.setLines n l).nextOrder = s.nextOrder := rfl
@[simp] theorem State.setLines_plan (n : Chan) (l : ChannelLines) : (s.setLines n l).plan = s.plan := rfl
@[simp] theorem State.setLines_ports (n : Chan) (l : ChannelLines) : (s.setLines n l).ports = s.ports := rfl

/-! ### setLine -/

@[simp] theorem State.setLine_pending (x : DiscreteLine) (l : Line) : (s.setLine x l).pending = s.pending := by cases l <;> rfl
@[simp] theorem State.setLine_now (x : DiscreteLine) (l : Line) : (s.setLine x l).now = s.now := by cases l <;> rfl
@[simp] theorem State.setLine_tickedAt (x : DiscreteLine) (l : Line) : (s.setLine x l).tickedAt = s.tickedAt := by cases l <;> rfl
@[simp] theorem State.setLine_inReset (x : DiscreteLine) (l : Line) : (s.setLine x l).inReset = s.inReset := by cases l <;> rfl
@[simp] theorem State.setLine_resetLow (x : DiscreteLine) (l : Line) : (s.setLine x l).resetLow = s.resetLow := by cases l <;> rfl
@[simp] theorem State.setLine_pins (x : DiscreteLine) (l : Line) : (s.setLine x l).pins = s.pins := by cases l <;> rfl
@[simp] theorem State.setLine_straps (x : DiscreteLine) (l : Line) : (s.setLine x l).straps = s.straps := by cases l <;> rfl
@[simp] theorem State.setLine_layout (x : DiscreteLine) (l : Line) : (s.setLine x l).layout = s.layout := by cases l <;> rfl
@[simp] theorem State.setLine_staging (x : DiscreteLine) (l : Line) : (s.setLine x l).staging = s.staging := by cases l <;> rfl
@[simp] theorem State.setLine_stored (x : DiscreteLine) (l : Line) : (s.setLine x l).stored = s.stored := by cases l <;> rfl
@[simp] theorem State.setLine_write (x : DiscreteLine) (l : Line) : (s.setLine x l).write = s.write := by cases l <;> rfl
@[simp] theorem State.setLine_channels (x : DiscreteLine) (l : Line) : (s.setLine x l).channels = s.channels := by cases l <;> rfl
@[simp] theorem State.setLine_lineStart (x : DiscreteLine) (l : Line) : (s.setLine x l).lineStart = s.lineStart := by cases l <;> rfl
@[simp] theorem State.setLine_wndLine (x : DiscreteLine) (l : Line) : (s.setLine x l).wndLine = s.wndLine := by cases l <;> rfl
@[simp] theorem State.setLine_censusStart (x : DiscreteLine) (l : Line) : (s.setLine x l).censusStart = s.censusStart := by cases l <;> rfl
@[simp] theorem State.setLine_pace (x : DiscreteLine) (l : Line) : (s.setLine x l).pace = s.pace := by cases l <;> rfl
@[simp] theorem State.setLine_rooms (x : DiscreteLine) (l : Line) : (s.setLine x l).rooms = s.rooms := by cases l <;> rfl
@[simp] theorem State.setLine_awning (x : DiscreteLine) (l : Line) : (s.setLine x l).awning = s.awning := by cases l <;> rfl
@[simp] theorem State.setLine_jacks (x : DiscreteLine) (l : Line) : (s.setLine x l).jacks = s.jacks := by cases l <;> rfl
@[simp] theorem State.setLine_jackSet (x : DiscreteLine) (l : Line) : (s.setLine x l).jackSet = s.jackSet := by cases l <;> rfl
@[simp] theorem State.setLine_level (x : DiscreteLine) (l : Line) : (s.setLine x l).level = s.level := by cases l <;> rfl
@[simp] theorem State.setLine_tilt (x : DiscreteLine) (l : Line) : (s.setLine x l).tilt = s.tilt := by cases l <;> rfl
@[simp] theorem State.setLine_wind (x : DiscreteLine) (l : Line) : (s.setLine x l).wind = s.wind := by cases l <;> rfl
@[simp] theorem State.setLine_claims (x : DiscreteLine) (l : Line) : (s.setLine x l).claims = s.claims := by cases l <;> rfl
@[simp] theorem State.setLine_alarm (x : DiscreteLine) (l : Line) : (s.setLine x l).alarm = s.alarm := by cases l <;> rfl
@[simp] theorem State.setLine_faultCount (x : DiscreteLine) (l : Line) : (s.setLine x l).faultCount = s.faultCount := by cases l <;> rfl
@[simp] theorem State.setLine_faultPattern (x : DiscreteLine) (l : Line) : (s.setLine x l).faultPattern = s.faultPattern := by cases l <;> rfl
@[simp] theorem State.setLine_motionPeriod (x : DiscreteLine) (l : Line) : (s.setLine x l).motionPeriod = s.motionPeriod := by cases l <;> rfl
@[simp] theorem State.setLine_motionPulse (x : DiscreteLine) (l : Line) : (s.setLine x l).motionPulse = s.motionPulse := by cases l <;> rfl
@[simp] theorem State.setLine_supply (x : DiscreteLine) (l : Line) : (s.setLine x l).supply = s.supply := by cases l <;> rfl
@[simp] theorem State.setLine_load (x : DiscreteLine) (l : Line) : (s.setLine x l).load = s.load := by cases l <;> rfl
@[simp] theorem State.setLine_paused (x : DiscreteLine) (l : Line) : (s.setLine x l).paused = s.paused := by cases l <;> rfl
@[simp] theorem State.setLine_nextOrder (x : DiscreteLine) (l : Line) : (s.setLine x l).nextOrder = s.nextOrder := by cases l <;> rfl
@[simp] theorem State.setLine_plan (x : DiscreteLine) (l : Line) : (s.setLine x l).plan = s.plan := by cases l <;> rfl
@[simp] theorem State.setLine_ports (x : DiscreteLine) (l : Line) : (s.setLine x l).ports = s.ports := by cases l <;> rfl

/-! ### setFrame -/

@[simp] theorem State.setFrame_pending (p : Port) (f : Option PartialFrame) : (s.setFrame p f).pending = s.pending := rfl
@[simp] theorem State.setFrame_now (p : Port) (f : Option PartialFrame) : (s.setFrame p f).now = s.now := rfl
@[simp] theorem State.setFrame_tickedAt (p : Port) (f : Option PartialFrame) : (s.setFrame p f).tickedAt = s.tickedAt := rfl
@[simp] theorem State.setFrame_inReset (p : Port) (f : Option PartialFrame) : (s.setFrame p f).inReset = s.inReset := rfl
@[simp] theorem State.setFrame_resetLow (p : Port) (f : Option PartialFrame) : (s.setFrame p f).resetLow = s.resetLow := rfl
@[simp] theorem State.setFrame_pins (p : Port) (f : Option PartialFrame) : (s.setFrame p f).pins = s.pins := rfl
@[simp] theorem State.setFrame_straps (p : Port) (f : Option PartialFrame) : (s.setFrame p f).straps = s.straps := rfl
@[simp] theorem State.setFrame_layout (p : Port) (f : Option PartialFrame) : (s.setFrame p f).layout = s.layout := rfl
@[simp] theorem State.setFrame_staging (p : Port) (f : Option PartialFrame) : (s.setFrame p f).staging = s.staging := rfl
@[simp] theorem State.setFrame_stored (p : Port) (f : Option PartialFrame) : (s.setFrame p f).stored = s.stored := rfl
@[simp] theorem State.setFrame_write (p : Port) (f : Option PartialFrame) : (s.setFrame p f).write = s.write := rfl
@[simp] theorem State.setFrame_channels (p : Port) (f : Option PartialFrame) : (s.setFrame p f).channels = s.channels := rfl
@[simp] theorem State.setFrame_lines (p : Port) (f : Option PartialFrame) : (s.setFrame p f).lines = s.lines := rfl
@[simp] theorem State.setFrame_lineStart (p : Port) (f : Option PartialFrame) : (s.setFrame p f).lineStart = s.lineStart := rfl
@[simp] theorem State.setFrame_park (p : Port) (f : Option PartialFrame) : (s.setFrame p f).park = s.park := rfl
@[simp] theorem State.setFrame_ign (p : Port) (f : Option PartialFrame) : (s.setFrame p f).ign = s.ign := rfl
@[simp] theorem State.setFrame_wndLine (p : Port) (f : Option PartialFrame) : (s.setFrame p f).wndLine = s.wndLine := rfl
@[simp] theorem State.setFrame_censusStart (p : Port) (f : Option PartialFrame) : (s.setFrame p f).censusStart = s.censusStart := rfl
@[simp] theorem State.setFrame_pace (p : Port) (f : Option PartialFrame) : (s.setFrame p f).pace = s.pace := rfl
@[simp] theorem State.setFrame_rooms (p : Port) (f : Option PartialFrame) : (s.setFrame p f).rooms = s.rooms := rfl
@[simp] theorem State.setFrame_awning (p : Port) (f : Option PartialFrame) : (s.setFrame p f).awning = s.awning := rfl
@[simp] theorem State.setFrame_jacks (p : Port) (f : Option PartialFrame) : (s.setFrame p f).jacks = s.jacks := rfl
@[simp] theorem State.setFrame_jackSet (p : Port) (f : Option PartialFrame) : (s.setFrame p f).jackSet = s.jackSet := rfl
@[simp] theorem State.setFrame_level (p : Port) (f : Option PartialFrame) : (s.setFrame p f).level = s.level := rfl
@[simp] theorem State.setFrame_tilt (p : Port) (f : Option PartialFrame) : (s.setFrame p f).tilt = s.tilt := rfl
@[simp] theorem State.setFrame_wind (p : Port) (f : Option PartialFrame) : (s.setFrame p f).wind = s.wind := rfl
@[simp] theorem State.setFrame_claims (p : Port) (f : Option PartialFrame) : (s.setFrame p f).claims = s.claims := rfl
@[simp] theorem State.setFrame_alarm (p : Port) (f : Option PartialFrame) : (s.setFrame p f).alarm = s.alarm := rfl
@[simp] theorem State.setFrame_faultCount (p : Port) (f : Option PartialFrame) : (s.setFrame p f).faultCount = s.faultCount := rfl
@[simp] theorem State.setFrame_faultPattern (p : Port) (f : Option PartialFrame) : (s.setFrame p f).faultPattern = s.faultPattern := rfl
@[simp] theorem State.setFrame_motionPeriod (p : Port) (f : Option PartialFrame) : (s.setFrame p f).motionPeriod = s.motionPeriod := rfl
@[simp] theorem State.setFrame_motionPulse (p : Port) (f : Option PartialFrame) : (s.setFrame p f).motionPulse = s.motionPulse := rfl
@[simp] theorem State.setFrame_supply (p : Port) (f : Option PartialFrame) : (s.setFrame p f).supply = s.supply := rfl
@[simp] theorem State.setFrame_load (p : Port) (f : Option PartialFrame) : (s.setFrame p f).load = s.load := rfl
@[simp] theorem State.setFrame_paused (p : Port) (f : Option PartialFrame) : (s.setFrame p f).paused = s.paused := rfl
@[simp] theorem State.setFrame_nextOrder (p : Port) (f : Option PartialFrame) : (s.setFrame p f).nextOrder = s.nextOrder := rfl
@[simp] theorem State.setFrame_plan (p : Port) (f : Option PartialFrame) : (s.setFrame p f).plan = s.plan := rfl

/-! ### queueReply -/

@[simp] theorem State.queueReply_pending (p : Port) (f : List Byte) : (s.queueReply p f).pending = s.pending := rfl
@[simp] theorem State.queueReply_now (p : Port) (f : List Byte) : (s.queueReply p f).now = s.now := rfl
@[simp] theorem State.queueReply_tickedAt (p : Port) (f : List Byte) : (s.queueReply p f).tickedAt = s.tickedAt := rfl
@[simp] theorem State.queueReply_inReset (p : Port) (f : List Byte) : (s.queueReply p f).inReset = s.inReset := rfl
@[simp] theorem State.queueReply_resetLow (p : Port) (f : List Byte) : (s.queueReply p f).resetLow = s.resetLow := rfl
@[simp] theorem State.queueReply_pins (p : Port) (f : List Byte) : (s.queueReply p f).pins = s.pins := rfl
@[simp] theorem State.queueReply_straps (p : Port) (f : List Byte) : (s.queueReply p f).straps = s.straps := rfl
@[simp] theorem State.queueReply_layout (p : Port) (f : List Byte) : (s.queueReply p f).layout = s.layout := rfl
@[simp] theorem State.queueReply_staging (p : Port) (f : List Byte) : (s.queueReply p f).staging = s.staging := rfl
@[simp] theorem State.queueReply_stored (p : Port) (f : List Byte) : (s.queueReply p f).stored = s.stored := rfl
@[simp] theorem State.queueReply_write (p : Port) (f : List Byte) : (s.queueReply p f).write = s.write := rfl
@[simp] theorem State.queueReply_channels (p : Port) (f : List Byte) : (s.queueReply p f).channels = s.channels := rfl
@[simp] theorem State.queueReply_lines (p : Port) (f : List Byte) : (s.queueReply p f).lines = s.lines := rfl
@[simp] theorem State.queueReply_lineStart (p : Port) (f : List Byte) : (s.queueReply p f).lineStart = s.lineStart := rfl
@[simp] theorem State.queueReply_park (p : Port) (f : List Byte) : (s.queueReply p f).park = s.park := rfl
@[simp] theorem State.queueReply_ign (p : Port) (f : List Byte) : (s.queueReply p f).ign = s.ign := rfl
@[simp] theorem State.queueReply_wndLine (p : Port) (f : List Byte) : (s.queueReply p f).wndLine = s.wndLine := rfl
@[simp] theorem State.queueReply_censusStart (p : Port) (f : List Byte) : (s.queueReply p f).censusStart = s.censusStart := rfl
@[simp] theorem State.queueReply_pace (p : Port) (f : List Byte) : (s.queueReply p f).pace = s.pace := rfl
@[simp] theorem State.queueReply_rooms (p : Port) (f : List Byte) : (s.queueReply p f).rooms = s.rooms := rfl
@[simp] theorem State.queueReply_awning (p : Port) (f : List Byte) : (s.queueReply p f).awning = s.awning := rfl
@[simp] theorem State.queueReply_jacks (p : Port) (f : List Byte) : (s.queueReply p f).jacks = s.jacks := rfl
@[simp] theorem State.queueReply_jackSet (p : Port) (f : List Byte) : (s.queueReply p f).jackSet = s.jackSet := rfl
@[simp] theorem State.queueReply_level (p : Port) (f : List Byte) : (s.queueReply p f).level = s.level := rfl
@[simp] theorem State.queueReply_tilt (p : Port) (f : List Byte) : (s.queueReply p f).tilt = s.tilt := rfl
@[simp] theorem State.queueReply_wind (p : Port) (f : List Byte) : (s.queueReply p f).wind = s.wind := rfl
@[simp] theorem State.queueReply_claims (p : Port) (f : List Byte) : (s.queueReply p f).claims = s.claims := rfl
@[simp] theorem State.queueReply_alarm (p : Port) (f : List Byte) : (s.queueReply p f).alarm = s.alarm := rfl
@[simp] theorem State.queueReply_faultCount (p : Port) (f : List Byte) : (s.queueReply p f).faultCount = s.faultCount := rfl
@[simp] theorem State.queueReply_faultPattern (p : Port) (f : List Byte) : (s.queueReply p f).faultPattern = s.faultPattern := rfl
@[simp] theorem State.queueReply_motionPeriod (p : Port) (f : List Byte) : (s.queueReply p f).motionPeriod = s.motionPeriod := rfl
@[simp] theorem State.queueReply_motionPulse (p : Port) (f : List Byte) : (s.queueReply p f).motionPulse = s.motionPulse := rfl
@[simp] theorem State.queueReply_supply (p : Port) (f : List Byte) : (s.queueReply p f).supply = s.supply := rfl
@[simp] theorem State.queueReply_load (p : Port) (f : List Byte) : (s.queueReply p f).load = s.load := rfl
@[simp] theorem State.queueReply_paused (p : Port) (f : List Byte) : (s.queueReply p f).paused = s.paused := rfl
@[simp] theorem State.queueReply_nextOrder (p : Port) (f : List Byte) : (s.queueReply p f).nextOrder = s.nextOrder := rfl
@[simp] theorem State.queueReply_plan (p : Port) (f : List Byte) : (s.queueReply p f).plan = s.plan := rfl

/-! ### discardFrame -/

@[simp] theorem State.discardFrame_pending (p : Port) : (s.discardFrame p).pending = s.pending := rfl
@[simp] theorem State.discardFrame_now (p : Port) : (s.discardFrame p).now = s.now := rfl
@[simp] theorem State.discardFrame_tickedAt (p : Port) : (s.discardFrame p).tickedAt = s.tickedAt := rfl
@[simp] theorem State.discardFrame_inReset (p : Port) : (s.discardFrame p).inReset = s.inReset := rfl
@[simp] theorem State.discardFrame_resetLow (p : Port) : (s.discardFrame p).resetLow = s.resetLow := rfl
@[simp] theorem State.discardFrame_pins (p : Port) : (s.discardFrame p).pins = s.pins := rfl
@[simp] theorem State.discardFrame_straps (p : Port) : (s.discardFrame p).straps = s.straps := rfl
@[simp] theorem State.discardFrame_layout (p : Port) : (s.discardFrame p).layout = s.layout := rfl
@[simp] theorem State.discardFrame_staging (p : Port) : (s.discardFrame p).staging = s.staging := rfl
@[simp] theorem State.discardFrame_stored (p : Port) : (s.discardFrame p).stored = s.stored := rfl
@[simp] theorem State.discardFrame_write (p : Port) : (s.discardFrame p).write = s.write := rfl
@[simp] theorem State.discardFrame_channels (p : Port) : (s.discardFrame p).channels = s.channels := rfl
@[simp] theorem State.discardFrame_lines (p : Port) : (s.discardFrame p).lines = s.lines := rfl
@[simp] theorem State.discardFrame_lineStart (p : Port) : (s.discardFrame p).lineStart = s.lineStart := rfl
@[simp] theorem State.discardFrame_park (p : Port) : (s.discardFrame p).park = s.park := rfl
@[simp] theorem State.discardFrame_ign (p : Port) : (s.discardFrame p).ign = s.ign := rfl
@[simp] theorem State.discardFrame_wndLine (p : Port) : (s.discardFrame p).wndLine = s.wndLine := rfl
@[simp] theorem State.discardFrame_censusStart (p : Port) : (s.discardFrame p).censusStart = s.censusStart := rfl
@[simp] theorem State.discardFrame_pace (p : Port) : (s.discardFrame p).pace = s.pace := rfl
@[simp] theorem State.discardFrame_rooms (p : Port) : (s.discardFrame p).rooms = s.rooms := rfl
@[simp] theorem State.discardFrame_awning (p : Port) : (s.discardFrame p).awning = s.awning := rfl
@[simp] theorem State.discardFrame_jacks (p : Port) : (s.discardFrame p).jacks = s.jacks := rfl
@[simp] theorem State.discardFrame_jackSet (p : Port) : (s.discardFrame p).jackSet = s.jackSet := rfl
@[simp] theorem State.discardFrame_level (p : Port) : (s.discardFrame p).level = s.level := rfl
@[simp] theorem State.discardFrame_tilt (p : Port) : (s.discardFrame p).tilt = s.tilt := rfl
@[simp] theorem State.discardFrame_wind (p : Port) : (s.discardFrame p).wind = s.wind := rfl
@[simp] theorem State.discardFrame_claims (p : Port) : (s.discardFrame p).claims = s.claims := rfl
@[simp] theorem State.discardFrame_alarm (p : Port) : (s.discardFrame p).alarm = s.alarm := rfl
@[simp] theorem State.discardFrame_faultCount (p : Port) : (s.discardFrame p).faultCount = s.faultCount := rfl
@[simp] theorem State.discardFrame_faultPattern (p : Port) : (s.discardFrame p).faultPattern = s.faultPattern := rfl
@[simp] theorem State.discardFrame_motionPeriod (p : Port) : (s.discardFrame p).motionPeriod = s.motionPeriod := rfl
@[simp] theorem State.discardFrame_motionPulse (p : Port) : (s.discardFrame p).motionPulse = s.motionPulse := rfl
@[simp] theorem State.discardFrame_supply (p : Port) : (s.discardFrame p).supply = s.supply := rfl
@[simp] theorem State.discardFrame_load (p : Port) : (s.discardFrame p).load = s.load := rfl
@[simp] theorem State.discardFrame_paused (p : Port) : (s.discardFrame p).paused = s.paused := rfl
@[simp] theorem State.discardFrame_nextOrder (p : Port) : (s.discardFrame p).nextOrder = s.nextOrder := rfl
@[simp] theorem State.discardFrame_plan (p : Port) : (s.discardFrame p).plan = s.plan := rfl

/-! ### enqueue -/

@[simp] theorem State.enqueue_now (l : List Instr) : (s.enqueue l).now = s.now := rfl
@[simp] theorem State.enqueue_tickedAt (l : List Instr) : (s.enqueue l).tickedAt = s.tickedAt := rfl
@[simp] theorem State.enqueue_inReset (l : List Instr) : (s.enqueue l).inReset = s.inReset := rfl
@[simp] theorem State.enqueue_resetLow (l : List Instr) : (s.enqueue l).resetLow = s.resetLow := rfl
@[simp] theorem State.enqueue_pins (l : List Instr) : (s.enqueue l).pins = s.pins := rfl
@[simp] theorem State.enqueue_straps (l : List Instr) : (s.enqueue l).straps = s.straps := rfl
@[simp] theorem State.enqueue_layout (l : List Instr) : (s.enqueue l).layout = s.layout := rfl
@[simp] theorem State.enqueue_staging (l : List Instr) : (s.enqueue l).staging = s.staging := rfl
@[simp] theorem State.enqueue_stored (l : List Instr) : (s.enqueue l).stored = s.stored := rfl
@[simp] theorem State.enqueue_write (l : List Instr) : (s.enqueue l).write = s.write := rfl
@[simp] theorem State.enqueue_channels (l : List Instr) : (s.enqueue l).channels = s.channels := rfl
@[simp] theorem State.enqueue_lines (l : List Instr) : (s.enqueue l).lines = s.lines := rfl
@[simp] theorem State.enqueue_lineStart (l : List Instr) : (s.enqueue l).lineStart = s.lineStart := rfl
@[simp] theorem State.enqueue_park (l : List Instr) : (s.enqueue l).park = s.park := rfl
@[simp] theorem State.enqueue_ign (l : List Instr) : (s.enqueue l).ign = s.ign := rfl
@[simp] theorem State.enqueue_wndLine (l : List Instr) : (s.enqueue l).wndLine = s.wndLine := rfl
@[simp] theorem State.enqueue_censusStart (l : List Instr) : (s.enqueue l).censusStart = s.censusStart := rfl
@[simp] theorem State.enqueue_pace (l : List Instr) : (s.enqueue l).pace = s.pace := rfl
@[simp] theorem State.enqueue_rooms (l : List Instr) : (s.enqueue l).rooms = s.rooms := rfl
@[simp] theorem State.enqueue_awning (l : List Instr) : (s.enqueue l).awning = s.awning := rfl
@[simp] theorem State.enqueue_jacks (l : List Instr) : (s.enqueue l).jacks = s.jacks := rfl
@[simp] theorem State.enqueue_jackSet (l : List Instr) : (s.enqueue l).jackSet = s.jackSet := rfl
@[simp] theorem State.enqueue_level (l : List Instr) : (s.enqueue l).level = s.level := rfl
@[simp] theorem State.enqueue_tilt (l : List Instr) : (s.enqueue l).tilt = s.tilt := rfl
@[simp] theorem State.enqueue_wind (l : List Instr) : (s.enqueue l).wind = s.wind := rfl
@[simp] theorem State.enqueue_claims (l : List Instr) : (s.enqueue l).claims = s.claims := rfl
@[simp] theorem State.enqueue_alarm (l : List Instr) : (s.enqueue l).alarm = s.alarm := rfl
@[simp] theorem State.enqueue_faultCount (l : List Instr) : (s.enqueue l).faultCount = s.faultCount := rfl
@[simp] theorem State.enqueue_faultPattern (l : List Instr) : (s.enqueue l).faultPattern = s.faultPattern := rfl
@[simp] theorem State.enqueue_motionPeriod (l : List Instr) : (s.enqueue l).motionPeriod = s.motionPeriod := rfl
@[simp] theorem State.enqueue_motionPulse (l : List Instr) : (s.enqueue l).motionPulse = s.motionPulse := rfl
@[simp] theorem State.enqueue_supply (l : List Instr) : (s.enqueue l).supply = s.supply := rfl
@[simp] theorem State.enqueue_load (l : List Instr) : (s.enqueue l).load = s.load := rfl
@[simp] theorem State.enqueue_paused (l : List Instr) : (s.enqueue l).paused = s.paused := rfl
@[simp] theorem State.enqueue_nextOrder (l : List Instr) : (s.enqueue l).nextOrder = s.nextOrder := rfl
@[simp] theorem State.enqueue_plan (l : List Instr) : (s.enqueue l).plan = s.plan := rfl
@[simp] theorem State.enqueue_ports (l : List Instr) : (s.enqueue l).ports = s.ports := rfl

end Sys2Proof.Machine
end

