-- ==== Sys2Proof/Laws/Access.lean ====
section
/-! SUPPORT. What the named reads give after the named updates. -/

namespace Sys2Proof.Machine

variable (s : State)

/-! ### setPort -/

@[simp] theorem State.chan_setPort (p : Port) (r : PortRec) (k : Chan) : (s.setPort p r).chan k = s.chan k := rfl
@[simp] theorem State.paceRec_setPort (p : Port) (r : PortRec) (k : Chan) : (s.setPort p r).paceRec k = s.paceRec k := rfl
@[simp] theorem State.role_setPort (p : Port) (r : PortRec) (k : Chan) : (s.setPort p r).role k = s.role k := rfl
@[simp] theorem State.roleChan_setPort (p : Port) (r : PortRec) (role : Role) : (s.setPort p r).roleChan role = s.roleChan role := rfl
@[simp] theorem State.motorChan_setPort (p : Port) (r : PortRec) (i : Slider) (y : Motor) : (s.setPort p r).motorChan i y = s.motorChan i y := rfl
@[simp] theorem State.motors_setPort (p : Port) (r : PortRec) (i : Slider) : (s.setPort p r).motors i = s.motors i := rfl
@[simp] theorem State.configured_setPort (p : Port) (r : PortRec) (h : Group) : (s.setPort p r).configured h = s.configured h := rfl
@[simp] theorem State.claim_setPort (p : Port) (r : PortRec) (h : Group) : (s.setPort p r).claim h = s.claim h := rfl
@[simp] theorem State.slider_setPort (p : Port) (r : PortRec) (i : Slider) : (s.setPort p r).slider i = s.slider i := rfl
@[simp] theorem State.motor_setPort (p : Port) (r : PortRec) (i : Slider) (y : Motor) : (s.setPort p r).motor i y = s.motor i y := rfl
@[simp] theorem State.jack_setPort (p : Port) (r : PortRec) (i : JackId) : (s.setPort p r).jack i = s.jack i := rfl
@[simp] theorem State.entryOf_setPort (p : Port) (r : PortRec) (h : Group) : (s.setPort p r).entryOf h = s.entryOf h := rfl
@[simp] theorem State.running_setPort (p : Port) (r : PortRec) (h : Group) : (s.setPort p r).running h = s.running h := rfl
@[simp] theorem State.planRunning_setPort (p : Port) (r : PortRec) : (s.setPort p r).planRunning = s.planRunning := rfl
@[simp] theorem State.heldUnits_setPort (p : Port) (r : PortRec) : (s.setPort p r).heldUnits = s.heldUnits := rfl
@[simp] theorem State.budget_setPort (p : Port) (r : PortRec) : (s.setPort p r).budget = s.budget := rfl
@[simp] theorem State.road_setPort (p : Port) (r : PortRec) : (s.setPort p r).road = s.road := rfl

/-! ### raise -/

@[simp] theorem State.chan_raise (c : Notice) (k : Chan) : (s.raise c).chan k = s.chan k := rfl
@[simp] theorem State.paceRec_raise (c : Notice) (k : Chan) : (s.raise c).paceRec k = s.paceRec k := rfl
@[simp] theorem State.role_raise (c : Notice) (k : Chan) : (s.raise c).role k = s.role k := rfl
@[simp] theorem State.roleChan_raise (c : Notice) (role : Role) : (s.raise c).roleChan role = s.roleChan role := rfl
@[simp] theorem State.motorChan_raise (c : Notice) (i : Slider) (y : Motor) : (s.raise c).motorChan i y = s.motorChan i y := rfl
@[simp] theorem State.motors_raise (c : Notice) (i : Slider) : (s.raise c).motors i = s.motors i := rfl
@[simp] theorem State.configured_raise (c : Notice) (h : Group) : (s.raise c).configured h = s.configured h := rfl
@[simp] theorem State.claim_raise (c : Notice) (h : Group) : (s.raise c).claim h = s.claim h := rfl
@[simp] theorem State.slider_raise (c : Notice) (i : Slider) : (s.raise c).slider i = s.slider i := rfl
@[simp] theorem State.motor_raise (c : Notice) (i : Slider) (y : Motor) : (s.raise c).motor i y = s.motor i y := rfl
@[simp] theorem State.jack_raise (c : Notice) (i : JackId) : (s.raise c).jack i = s.jack i := rfl
@[simp] theorem State.entryOf_raise (c : Notice) (h : Group) : (s.raise c).entryOf h = s.entryOf h := rfl
@[simp] theorem State.running_raise (c : Notice) (h : Group) : (s.raise c).running h = s.running h := rfl
@[simp] theorem State.planRunning_raise (c : Notice) : (s.raise c).planRunning = s.planRunning := rfl
@[simp] theorem State.heldUnits_raise (c : Notice) : (s.raise c).heldUnits = s.heldUnits := rfl
@[simp] theorem State.budget_raise (c : Notice) : (s.raise c).budget = s.budget := rfl
@[simp] theorem State.road_raise (c : Notice) : (s.raise c).road = s.road := rfl

/-! ### setChan -/

@[simp] theorem State.paceRec_setChan (n : Chan) (c : Channel) (k : Chan) : (s.setChan n c).paceRec k = s.paceRec k := rfl
@[simp] theorem State.role_setChan (n : Chan) (c : Channel) (k : Chan) : (s.setChan n c).role k = s.role k := rfl
@[simp] theorem State.roleChan_setChan (n : Chan) (c : Channel) (role : Role) : (s.setChan n c).roleChan role = s.roleChan role := rfl
@[simp] theorem State.motorChan_setChan (n : Chan) (c : Channel) (i : Slider) (y : Motor) : (s.setChan n c).motorChan i y = s.motorChan i y := rfl
@[simp] theorem State.motors_setChan (n : Chan) (c : Channel) (i : Slider) : (s.setChan n c).motors i = s.motors i := rfl
@[simp] theorem State.configured_setChan (n : Chan) (c : Channel) (h : Group) : (s.setChan n c).configured h = s.configured h := rfl
@[simp] theorem State.claim_setChan (n : Chan) (c : Channel) (h : Group) : (s.setChan n c).claim h = s.claim h := rfl
@[simp] theorem State.slider_setChan (n : Chan) (c : Channel) (i : Slider) : (s.setChan n c).slider i = s.slider i := rfl
@[simp] theorem State.motor_setChan (n : Chan) (c : Channel) (i : Slider) (y : Motor) : (s.setChan n c).motor i y = s.motor i y := rfl
@[simp] theorem State.jack_setChan (n : Chan) (c : Channel) (i : JackId) : (s.setChan n c).jack i = s.jack i := rfl
@[simp] theorem State.port_setChan (n : Chan) (c : Channel) (q : Port) : (s.setChan n c).port q = s.port q := rfl
@[simp] theorem State.entryOf_setChan (n : Chan) (c : Channel) (h : Group) : (s.setChan n c).entryOf h = s.entryOf h := rfl
@[simp] theorem State.running_setChan (n : Chan) (c : Channel) (h : Group) : (s.setChan n c).running h = s.running h := rfl
@[simp] theorem State.planRunning_setChan (n : Chan) (c : Channel) : (s.setChan n c).planRunning = s.planRunning := rfl
@[simp] theorem State.heldUnits_setChan (n : Chan) (c : Channel) : (s.setChan n c).heldUnits = s.heldUnits := rfl
@[simp] theorem State.budget_setChan (n : Chan) (c : Channel) : (s.setChan n c).budget = s.budget := rfl
@[simp] theorem State.road_setChan (n : Chan) (c : Channel) : (s.setChan n c).road = s.road := rfl

/-! ### setPace -/

@[simp] theorem State.chan_setPace (n : Chan) (r : PaceRecord) (k : Chan) : (s.setPace n r).chan k = s.chan k := rfl
@[simp] theorem State.role_setPace (n : Chan) (r : PaceRecord) (k : Chan) : (s.setPace n r).role k = s.role k := rfl
@[simp] theorem State.roleChan_setPace (n : Chan) (r : PaceRecord) (role : Role) : (s.setPace n r).roleChan role = s.roleChan role := rfl
@[simp] theorem State.motorChan_setPace (n : Chan) (r : PaceRecord) (i : Slider) (y : Motor) : (s.setPace n r).motorChan i y = s.motorChan i y := rfl
@[simp] theorem State.motors_setPace (n : Chan) (r : PaceRecord) (i : Slider) : (s.setPace n r).motors i = s.motors i := rfl
@[simp] theorem State.configured_setPace (n : Chan) (r : PaceRecord) (h : Group) : (s.setPace n r).configured h = s.configured h := rfl
@[simp] theorem State.claim_setPace (n : Chan) (r : PaceRecord) (h : Group) : (s.setPace n r).claim h = s.claim h := rfl
@[simp] theorem State.slider_setPace (n : Chan) (r : PaceRecord) (i : Slider) : (s.setPace n r).slider i = s.slider i := rfl
@[simp] theorem State.motor_setPace (n : Chan) (r : PaceRecord) (i : Slider) (y : Motor) : (s.setPace n r).motor i y = s.motor i y := rfl
@[simp] theorem State.jack_setPace (n : Chan) (r : PaceRecord) (i : JackId) : (s.setPace n r).jack i = s.jack i := rfl
@[simp] theorem State.port_setPace (n : Chan) (r : PaceRecord) (q : Port) : (s.setPace n r).port q = s.port q := rfl
@[simp] theorem State.entryOf_setPace (n : Chan) (r : PaceRecord) (h : Group) : (s.setPace n r).entryOf h = s.entryOf h := rfl
@[simp] theorem State.running_setPace (n : Chan) (r : PaceRecord) (h : Group) : (s.setPace n r).running h = s.running h := rfl
@[simp] theorem State.planRunning_setPace (n : Chan) (r : PaceRecord) : (s.setPace n r).planRunning = s.planRunning := rfl
@[simp] theorem State.heldUnits_setPace (n : Chan) (r : PaceRecord) : (s.setPace n r).heldUnits = s.heldUnits := rfl
@[simp] theorem State.budget_setPace (n : Chan) (r : PaceRecord) : (s.setPace n r).budget = s.budget := rfl
@[simp] theorem State.road_setPace (n : Chan) (r : PaceRecord) : (s.setPace n r).road = s.road := rfl

/-! ### setTrim -/

@[simp] theorem State.paceRec_setTrim (n : Chan) (t : Option Nat) (k : Chan) : (s.setTrim n t).paceRec k = s.paceRec k := rfl
@[simp] theorem State.role_setTrim (n : Chan) (t : Option Nat) (k : Chan) : (s.setTrim n t).role k = s.role k := rfl
@[simp] theorem State.roleChan_setTrim (n : Chan) (t : Option Nat) (role : Role) : (s.setTrim n t).roleChan role = s.roleChan role := rfl
@[simp] theorem State.motorChan_setTrim (n : Chan) (t : Option Nat) (i : Slider) (y : Motor) : (s.setTrim n t).motorChan i y = s.motorChan i y := rfl
@[simp] theorem State.motors_setTrim (n : Chan) (t : Option Nat) (i : Slider) : (s.setTrim n t).motors i = s.motors i := rfl
@[simp] theorem State.configured_setTrim (n : Chan) (t : Option Nat) (h : Group) : (s.setTrim n t).configured h = s.configured h := rfl
@[simp] theorem State.claim_setTrim (n : Chan) (t : Option Nat) (h : Group) : (s.setTrim n t).claim h = s.claim h := rfl
@[simp] theorem State.slider_setTrim (n : Chan) (t : Option Nat) (i : Slider) : (s.setTrim n t).slider i = s.slider i := rfl
@[simp] theorem State.motor_setTrim (n : Chan) (t : Option Nat) (i : Slider) (y : Motor) : (s.setTrim n t).motor i y = s.motor i y := rfl
@[simp] theorem State.jack_setTrim (n : Chan) (t : Option Nat) (i : JackId) : (s.setTrim n t).jack i = s.jack i := rfl
@[simp] theorem State.port_setTrim (n : Chan) (t : Option Nat) (q : Port) : (s.setTrim n t).port q = s.port q := rfl
@[simp] theorem State.entryOf_setTrim (n : Chan) (t : Option Nat) (h : Group) : (s.setTrim n t).entryOf h = s.entryOf h := rfl
@[simp] theorem State.running_setTrim (n : Chan) (t : Option Nat) (h : Group) : (s.setTrim n t).running h = s.running h := rfl
@[simp] theorem State.planRunning_setTrim (n : Chan) (t : Option Nat) : (s.setTrim n t).planRunning = s.planRunning := rfl
@[simp] theorem State.heldUnits_setTrim (n : Chan) (t : Option Nat) : (s.setTrim n t).heldUnits = s.heldUnits := rfl
@[simp] theorem State.budget_setTrim (n : Chan) (t : Option Nat) : (s.setTrim n t).budget = s.budget := rfl
@[simp] theorem State.road_setTrim (n : Chan) (t : Option Nat) : (s.setTrim n t).road = s.road := rfl

/-! ### setClaim -/

@[simp] theorem State.chan_setClaim (g : Group) (c : Option Claim) (k : Chan) : (s.setClaim g c).chan k = s.chan k := rfl
@[simp] theorem State.paceRec_setClaim (g : Group) (c : Option Claim) (k : Chan) : (s.setClaim g c).paceRec k = s.paceRec k := rfl
@[simp] theorem State.role_setClaim (g : Group) (c : Option Claim) (k : Chan) : (s.setClaim g c).role k = s.role k := rfl
@[simp] theorem State.roleChan_setClaim (g : Group) (c : Option Claim) (role : Role) : (s.setClaim g c).roleChan role = s.roleChan role := rfl
@[simp] theorem State.motorChan_setClaim (g : Group) (c : Option Claim) (i : Slider) (y : Motor) : (s.setClaim g c).motorChan i y = s.motorChan i y := rfl
@[simp] theorem State.motors_setClaim (g : Group) (c : Option Claim) (i : Slider) : (s.setClaim g c).motors i = s.motors i := rfl
@[simp] theorem State.configured_setClaim (g : Group) (c : Option Claim) (h : Group) : (s.setClaim g c).configured h = s.configured h := rfl
@[simp] theorem State.slider_setClaim (g : Group) (c : Option Claim) (i : Slider) : (s.setClaim g c).slider i = s.slider i := rfl
@[simp] theorem State.motor_setClaim (g : Group) (c : Option Claim) (i : Slider) (y : Motor) : (s.setClaim g c).motor i y = s.motor i y := rfl
@[simp] theorem State.jack_setClaim (g : Group) (c : Option Claim) (i : JackId) : (s.setClaim g c).jack i = s.jack i := rfl
@[simp] theorem State.port_setClaim (g : Group) (c : Option Claim) (q : Port) : (s.setClaim g c).port q = s.port q := rfl
@[simp] theorem State.entryOf_setClaim (g : Group) (c : Option Claim) (h : Group) : (s.setClaim g c).entryOf h = s.entryOf h := rfl
@[simp] theorem State.running_setClaim (g : Group) (c : Option Claim) (h : Group) : (s.setClaim g c).running h = s.running h := rfl
@[simp] theorem State.planRunning_setClaim (g : Group) (c : Option Claim) : (s.setClaim g c).planRunning = s.planRunning := rfl
@[simp] theorem State.heldUnits_setClaim (g : Group) (c : Option Claim) : (s.setClaim g c).heldUnits = s.heldUnits := rfl
@[simp] theorem State.budget_setClaim (g : Group) (c : Option Claim) : (s.setClaim g c).budget = s.budget := rfl
@[simp] theorem State.road_setClaim (g : Group) (c : Option Claim) : (s.setClaim g c).road = s.road := rfl

/-! ### freeAllClaims -/

@[simp] theorem State.chan_freeAllClaims (k : Chan) : (s.freeAllClaims).chan k = s.chan k := rfl
@[simp] theorem State.paceRec_freeAllClaims (k : Chan) : (s.freeAllClaims).paceRec k = s.paceRec k := rfl
@[simp] theorem State.role_freeAllClaims (k : Chan) : (s.freeAllClaims).role k = s.role k := rfl
@[simp] theorem State.roleChan_freeAllClaims (role : Role) : (s.freeAllClaims).roleChan role = s.roleChan role := rfl
@[simp] theorem State.motorChan_freeAllClaims (i : Slider) (y : Motor) : (s.freeAllClaims).motorChan i y = s.motorChan i y := rfl
@[simp] theorem State.motors_freeAllClaims (i : Slider) : (s.freeAllClaims).motors i = s.motors i := rfl
@[simp] theorem State.configured_freeAllClaims (h : Group) : (s.freeAllClaims).configured h = s.configured h := rfl
@[simp] theorem State.slider_freeAllClaims (i : Slider) : (s.freeAllClaims).slider i = s.slider i := rfl
@[simp] theorem State.motor_freeAllClaims (i : Slider) (y : Motor) : (s.freeAllClaims).motor i y = s.motor i y := rfl
@[simp] theorem State.jack_freeAllClaims (i : JackId) : (s.freeAllClaims).jack i = s.jack i := rfl
@[simp] theorem State.port_freeAllClaims (q : Port) : (s.freeAllClaims).port q = s.port q := rfl
@[simp] theorem State.entryOf_freeAllClaims (h : Group) : (s.freeAllClaims).entryOf h = s.entryOf h := rfl
@[simp] theorem State.running_freeAllClaims (h : Group) : (s.freeAllClaims).running h = s.running h := rfl
@[simp] theorem State.planRunning_freeAllClaims : (s.freeAllClaims).planRunning = s.planRunning := rfl
@[simp] theorem State.heldUnits_freeAllClaims : (s.freeAllClaims).heldUnits = s.heldUnits := rfl
@[simp] theorem State.budget_freeAllClaims : (s.freeAllClaims).budget = s.budget := rfl
@[simp] theorem State.road_freeAllClaims : (s.freeAllClaims).road = s.road := rfl

/-! ### setLoad -/

@[simp] theorem State.chan_setLoad (l : List Entry) (k : Chan) : (s.setLoad l).chan k = s.chan k := rfl
@[simp] theorem State.paceRec_setLoad (l : List Entry) (k : Chan) : (s.setLoad l).paceRec k = s.paceRec k := rfl
@[simp] theorem State.role_setLoad (l : List Entry) (k : Chan) : (s.setLoad l).role k = s.role k := rfl
@[simp] theorem State.roleChan_setLoad (l : List Entry) (role : Role) : (s.setLoad l).roleChan role = s.roleChan role := rfl
@[simp] theorem State.motorChan_setLoad (l : List Entry) (i : Slider) (y : Motor) : (s.setLoad l).motorChan i y = s.motorChan i y := rfl
@[simp] theorem State.motors_setLoad (l : List Entry) (i : Slider) : (s.setLoad l).motors i = s.motors i := rfl
@[simp] theorem State.configured_setLoad (l : List Entry) (h : Group) : (s.setLoad l).configured h = s.configured h := rfl
@[simp] theorem State.claim_setLoad (l : List Entry) (h : Group) : (s.setLoad l).claim h = s.claim h := rfl
@[simp] theorem State.slider_setLoad (l : List Entry) (i : Slider) : (s.setLoad l).slider i = s.slider i := rfl
@[simp] theorem State.motor_setLoad (l : List Entry) (i : Slider) (y : Motor) : (s.setLoad l).motor i y = s.motor i y := rfl
@[simp] theorem State.jack_setLoad (l : List Entry) (i : JackId) : (s.setLoad l).jack i = s.jack i := rfl
@[simp] theorem State.port_setLoad (l : List Entry) (q : Port) : (s.setLoad l).port q = s.port q := rfl
@[simp] theorem State.planRunning_setLoad (l : List Entry) : (s.setLoad l).planRunning = s.planRunning := rfl
@[simp] theorem State.budget_setLoad (l : List Entry) : (s.setLoad l).budget = s.budget := rfl
@[simp] theorem State.road_setLoad (l : List Entry) : (s.setLoad l).road = s.road := rfl

/-! ### removeEntry -/

@[simp] theorem State.chan_removeEntry (g : Group) (k : Chan) : (s.removeEntry g).chan k = s.chan k := rfl
@[simp] theorem State.paceRec_removeEntry (g : Group) (k : Chan) : (s.removeEntry g).paceRec k = s.paceRec k := rfl
@[simp] theorem State.role_removeEntry (g : Group) (k : Chan) : (s.removeEntry g).role k = s.role k := rfl
@[simp] theorem State.roleChan_removeEntry (g : Group) (role : Role) : (s.removeEntry g).roleChan role = s.roleChan role := rfl
@[simp] theorem State.motorChan_removeEntry (g : Group) (i : Slider) (y : Motor) : (s.removeEntry g).motorChan i y = s.motorChan i y := rfl
@[simp] theorem State.motors_removeEntry (g : Group) (i : Slider) : (s.removeEntry g).motors i = s.motors i := rfl
@[simp] theorem State.configured_removeEntry (g : Group) (h : Group) : (s.removeEntry g).configured h = s.configured h := rfl
@[simp] theorem State.claim_removeEntry (g : Group) (h : Group) : (s.removeEntry g).claim h = s.claim h := rfl
@[simp] theorem State.slider_removeEntry (g : Group) (i : Slider) : (s.removeEntry g).slider i = s.slider i := rfl
@[simp] theorem State.motor_removeEntry (g : Group) (i : Slider) (y : Motor) : (s.removeEntry g).motor i y = s.motor i y := rfl
@[simp] theorem State.jack_removeEntry (g : Group) (i : JackId) : (s.removeEntry g).jack i = s.jack i := rfl
@[simp] theorem State.port_removeEntry (g : Group) (q : Port) : (s.removeEntry g).port q = s.port q := rfl
@[simp] theorem State.planRunning_removeEntry (g : Group) : (s.removeEntry g).planRunning = s.planRunning := rfl
@[simp] theorem State.budget_removeEntry (g : Group) : (s.removeEntry g).budget = s.budget := rfl
@[simp] theorem State.road_removeEntry (g : Group) : (s.removeEntry g).road = s.road := rfl

/-! ### enterLoad -/

@[simp] theorem State.chan_enterLoad (e : Entry) (k : Chan) : (s.enterLoad e).chan k = s.chan k := rfl
@[simp] theorem State.paceRec_enterLoad (e : Entry) (k : Chan) : (s.enterLoad e).paceRec k = s.paceRec k := rfl
@[simp] theorem State.role_enterLoad (e : Entry) (k : Chan) : (s.enterLoad e).role k = s.role k := rfl
@[simp] theorem State.roleChan_enterLoad (e : Entry) (role : Role) : (s.enterLoad e).roleChan role = s.roleChan role := rfl
@[simp] theorem State.motorChan_enterLoad (e : Entry) (i : Slider) (y : Motor) : (s.enterLoad e).motorChan i y = s.motorChan i y := rfl
@[simp] theorem State.motors_enterLoad (e : Entry) (i : Slider) : (s.enterLoad e).motors i = s.motors i := rfl
@[simp] theorem State.configured_enterLoad (e : Entry) (h : Group) : (s.enterLoad e).configured h = s.configured h := rfl
@[simp] theorem State.claim_enterLoad (e : Entry) (h : Group) : (s.enterLoad e).claim h = s.claim h := rfl
@[simp] theorem State.slider_enterLoad (e : Entry) (i : Slider) : (s.enterLoad e).slider i = s.slider i := rfl
@[simp] theorem State.motor_enterLoad (e : Entry) (i : Slider) (y : Motor) : (s.enterLoad e).motor i y = s.motor i y := rfl
@[simp] theorem State.jack_enterLoad (e : Entry) (i : JackId) : (s.enterLoad e).jack i = s.jack i := rfl
@[simp] theorem State.port_enterLoad (e : Entry) (q : Port) : (s.enterLoad e).port q = s.port q := rfl
@[simp] theorem State.planRunning_enterLoad (e : Entry) : (s.enterLoad e).planRunning = s.planRunning := rfl
@[simp] theorem State.budget_enterLoad (e : Entry) : (s.enterLoad e).budget = s.budget := rfl
@[simp] theorem State.road_enterLoad (e : Entry) : (s.enterLoad e).road = s.road := rfl

/-! ### enterPause -/

@[simp] theorem State.chan_enterPause (e : Entry) (st : EntryState) (k : Chan) : (s.enterPause e st).chan k = s.chan k := rfl
@[simp] theorem State.paceRec_enterPause (e : Entry) (st : EntryState) (k : Chan) : (s.enterPause e st).paceRec k = s.paceRec k := rfl
@[simp] theorem State.role_enterPause (e : Entry) (st : EntryState) (k : Chan) : (s.enterPause e st).role k = s.role k := rfl
@[simp] theorem State.roleChan_enterPause (e : Entry) (st : EntryState) (role : Role) : (s.enterPause e st).roleChan role = s.roleChan role := rfl
@[simp] theorem State.motorChan_enterPause (e : Entry) (st : EntryState) (i : Slider) (y : Motor) : (s.enterPause e st).motorChan i y = s.motorChan i y := rfl
@[simp] theorem State.motors_enterPause (e : Entry) (st : EntryState) (i : Slider) : (s.enterPause e st).motors i = s.motors i := rfl
@[simp] theorem State.configured_enterPause (e : Entry) (st : EntryState) (h : Group) : (s.enterPause e st).configured h = s.configured h := rfl
@[simp] theorem State.claim_enterPause (e : Entry) (st : EntryState) (h : Group) : (s.enterPause e st).claim h = s.claim h := rfl
@[simp] theorem State.slider_enterPause (e : Entry) (st : EntryState) (i : Slider) : (s.enterPause e st).slider i = s.slider i := rfl
@[simp] theorem State.motor_enterPause (e : Entry) (st : EntryState) (i : Slider) (y : Motor) : (s.enterPause e st).motor i y = s.motor i y := rfl
@[simp] theorem State.jack_enterPause (e : Entry) (st : EntryState) (i : JackId) : (s.enterPause e st).jack i = s.jack i := rfl
@[simp] theorem State.port_enterPause (e : Entry) (st : EntryState) (q : Port) : (s.enterPause e st).port q = s.port q := rfl
@[simp] theorem State.running_enterPause (e : Entry) (st : EntryState) (h : Group) : (s.enterPause e st).running h = s.running h := rfl
@[simp] theorem State.planRunning_enterPause (e : Entry) (st : EntryState) : (s.enterPause e st).planRunning = s.planRunning := rfl
@[simp] theorem State.heldUnits_enterPause (e : Entry) (st : EntryState) : (s.enterPause e st).heldUnits = s.heldUnits := rfl
@[simp] theorem State.budget_enterPause (e : Entry) (st : EntryState) : (s.enterPause e st).budget = s.budget := rfl
@[simp] theorem State.road_enterPause (e : Entry) (st : EntryState) : (s.enterPause e st).road = s.road := rfl

/-! ### setSlider -/

@[simp] theorem State.chan_setSlider (id : Slider) (r : SliderRec) (k : Chan) : (s.setSlider id r).chan k = s.chan k := by cases id <;> rfl
@[simp] theorem State.paceRec_setSlider (id : Slider) (r : SliderRec) (k : Chan) : (s.setSlider id r).paceRec k = s.paceRec k := by cases id <;> rfl
@[simp] theorem State.role_setSlider (id : Slider) (r : SliderRec) (k : Chan) : (s.setSlider id r).role k = s.role k := by cases id <;> rfl
@[simp] theorem State.roleChan_setSlider (id : Slider) (r : SliderRec) (role : Role) : (s.setSlider id r).roleChan role = s.roleChan role := by cases id <;> rfl
@[simp] theorem State.motorChan_setSlider (id : Slider) (r : SliderRec) (i : Slider) (y : Motor) : (s.setSlider id r).motorChan i y = s.motorChan i y := by cases id <;> rfl
@[simp] theorem State.motors_setSlider (id : Slider) (r : SliderRec) (i : Slider) : (s.setSlider id r).motors i = s.motors i := by cases id <;> rfl
@[simp] theorem State.configured_setSlider (id : Slider) (r : SliderRec) (h : Group) : (s.setSlider id r).configured h = s.configured h := by cases id <;> rfl
@[simp] theorem State.claim_setSlider (id : Slider) (r : SliderRec) (h : Group) : (s.setSlider id r).claim h = s.claim h := by cases id <;> rfl
@[simp] theorem State.jack_setSlider (id : Slider) (r : SliderRec) (i : JackId) : (s.setSlider id r).jack i = s.jack i := by cases id <;> rfl
@[simp] theorem State.port_setSlider (id : Slider) (r : SliderRec) (q : Port) : (s.setSlider id r).port q = s.port q := by cases id <;> rfl
@[simp] theorem State.entryOf_setSlider (id : Slider) (r : SliderRec) (h : Group) : (s.setSlider id r).entryOf h = s.entryOf h := by cases id <;> rfl
@[simp] theorem State.running_setSlider (id : Slider) (r : SliderRec) (h : Group) : (s.setSlider id r).running h = s.running h := by cases id <;> rfl
@[simp] theorem State.planRunning_setSlider (id : Slider) (r : SliderRec) : (s.setSlider id r).planRunning = s.planRunning := by cases id <;> rfl
@[simp] theorem State.heldUnits_setSlider (id : Slider) (r : SliderRec) : (s.setSlider id r).heldUnits = s.heldUnits := by cases id <;> rfl
@[simp] theorem State.budget_setSlider (id : Slider) (r : SliderRec) : (s.setSlider id r).budget = s.budget := by cases id <;> rfl
@[simp] theorem State.road_setSlider (id : Slider) (r : SliderRec) : (s.setSlider id r).road = s.road := by cases id <;> rfl

/-! ### setMotor -/

@[simp] theorem State.chan_setMotor (id : Slider) (m : Motor) (x : MotorRec) (k : Chan) : (s.setMotor id m x).chan k = s.chan k := by cases id <;> rfl
@[simp] theorem State.paceRec_setMotor (id : Slider) (m : Motor) (x : MotorRec) (k : Chan) : (s.setMotor id m x).paceRec k = s.paceRec k := by cases id <;> rfl
@[simp] theorem State.role_setMotor (id : Slider) (m : Motor) (x : MotorRec) (k : Chan) : (s.setMotor id m x).role k = s.role k := by cases id <;> rfl
@[simp] theorem State.roleChan_setMotor (id : Slider) (m : Motor) (x : MotorRec) (role : Role) : (s.setMotor id m x).roleChan role = s.roleChan role := by cases id <;> rfl
@[simp] theorem State.motorChan_setMotor (id : Slider) (m : Motor) (x : MotorRec) (i : Slider) (y : Motor) : (s.setMotor id m x).motorChan i y = s.motorChan i y := by cases id <;> rfl
@[simp] theorem State.motors_setMotor (id : Slider) (m : Motor) (x : MotorRec) (i : Slider) : (s.setMotor id m x).motors i = s.motors i := by cases id <;> rfl
@[simp] theorem State.configured_setMotor (id : Slider) (m : Motor) (x : MotorRec) (h : Group) : (s.setMotor id m x).configured h = s.configured h := by cases id <;> rfl
@[simp] theorem State.claim_setMotor (id : Slider) (m : Motor) (x : MotorRec) (h : Group) : (s.setMotor id m x).claim h = s.claim h := by cases id <;> rfl
@[simp] theorem State.jack_setMotor (id : Slider) (m : Motor) (x : MotorRec) (i : JackId) : (s.setMotor id m x).jack i = s.jack i := by cases id <;> rfl
@[simp] theorem State.port_setMotor (id : Slider) (m : Motor) (x : MotorRec) (q : Port) : (s.setMotor id m x).port q = s.port q := by cases id <;> rfl
@[simp] theorem State.entryOf_setMotor (id : Slider) (m : Motor) (x : MotorRec) (h : Group) : (s.setMotor id m x).entryOf h = s.entryOf h := by cases id <;> rfl
@[simp] theorem State.running_setMotor (id : Slider) (m : Motor) (x : MotorRec) (h : Group) : (s.setMotor id m x).running h = s.running h := by cases id <;> rfl
@[simp] theorem State.planRunning_setMotor (id : Slider) (m : Motor) (x : MotorRec) : (s.setMotor id m x).planRunning = s.planRunning := by cases id <;> rfl
@[simp] theorem State.heldUnits_setMotor (id : Slider) (m : Motor) (x : MotorRec) : (s.setMotor id m x).heldUnits = s.heldUnits := by cases id <;> rfl
@[simp] theorem State.budget_setMotor (id : Slider) (m : Motor) (x : MotorRec) : (s.setMotor id m x).budget = s.budget := by cases id <;> rfl
@[simp] theorem State.road_setMotor (id : Slider) (m : Motor) (x : MotorRec) : (s.setMotor id m x).road = s.road := by cases id <;> rfl

/-! ### setJack -/

@[simp] theorem State.chan_setJack (j : JackId) (r : Jack) (k : Chan) : (s.setJack j r).chan k = s.chan k := rfl
@[simp] theorem State.paceRec_setJack (j : JackId) (r : Jack) (k : Chan) : (s.setJack j r).paceRec k = s.paceRec k := rfl
@[simp] theorem State.role_setJack (j : JackId) (r : Jack) (k : Chan) : (s.setJack j r).role k = s.role k := rfl
@[simp] theorem State.roleChan_setJack (j : JackId) (r : Jack) (role : Role) : (s.setJack j r).roleChan role = s.roleChan role := rfl
@[simp] theorem State.motorChan_setJack (j : JackId) (r : Jack) (i : Slider) (y : Motor) : (s.setJack j r).motorChan i y = s.motorChan i y := rfl
@[simp] theorem State.motors_setJack (j : JackId) (r : Jack) (i : Slider) : (s.setJack j r).motors i = s.motors i := rfl
@[simp] theorem State.configured_setJack (j : JackId) (r : Jack) (h : Group) : (s.setJack j r).configured h = s.configured h := rfl
@[simp] theorem State.claim_setJack (j : JackId) (r : Jack) (h : Group) : (s.setJack j r).claim h = s.claim h := rfl
@[simp] theorem State.slider_setJack (j : JackId) (r : Jack) (i : Slider) : (s.setJack j r).slider i = s.slider i := rfl
@[simp] theorem State.motor_setJack (j : JackId) (r : Jack) (i : Slider) (y : Motor) : (s.setJack j r).motor i y = s.motor i y := rfl
@[simp] theorem State.port_setJack (j : JackId) (r : Jack) (q : Port) : (s.setJack j r).port q = s.port q := rfl
@[simp] theorem State.entryOf_setJack (j : JackId) (r : Jack) (h : Group) : (s.setJack j r).entryOf h = s.entryOf h := rfl
@[simp] theorem State.running_setJack (j : JackId) (r : Jack) (h : Group) : (s.setJack j r).running h = s.running h := rfl
@[simp] theorem State.planRunning_setJack (j : JackId) (r : Jack) : (s.setJack j r).planRunning = s.planRunning := rfl
@[simp] theorem State.heldUnits_setJack (j : JackId) (r : Jack) : (s.setJack j r).heldUnits = s.heldUnits := rfl
@[simp] theorem State.budget_setJack (j : JackId) (r : Jack) : (s.setJack j r).budget = s.budget := rfl
@[simp] theorem State.road_setJack (j : JackId) (r : Jack) : (s.setJack j r).road = s.road := rfl

/-! ### onJack -/

@[simp] theorem State.chan_onJack (j : JackId) (f : Jack → Jack) (k : Chan) : (s.onJack j f).chan k = s.chan k := rfl
@[simp] theorem State.paceRec_onJack (j : JackId) (f : Jack → Jack) (k : Chan) : (s.onJack j f).paceRec k = s.paceRec k := rfl
@[simp] theorem State.role_onJack (j : JackId) (f : Jack → Jack) (k : Chan) : (s.onJack j f).role k = s.role k := rfl
@[simp] theorem State.roleChan_onJack (j : JackId) (f : Jack → Jack) (role : Role) : (s.onJack j f).roleChan role = s.roleChan role := rfl
@[simp] theorem State.motorChan_onJack (j : JackId) (f : Jack → Jack) (i : Slider) (y : Motor) : (s.onJack j f).motorChan i y = s.motorChan i y := rfl
@[simp] theorem State.motors_onJack (j : JackId) (f : Jack → Jack) (i : Slider) : (s.onJack j f).motors i = s.motors i := rfl
@[simp] theorem State.configured_onJack (j : JackId) (f : Jack → Jack) (h : Group) : (s.onJack j f).configured h = s.configured h := rfl
@[simp] theorem State.claim_onJack (j : JackId) (f : Jack → Jack) (h : Group) : (s.onJack j f).claim h = s.claim h := rfl
@[simp] theorem State.slider_onJack (j : JackId) (f : Jack → Jack) (i : Slider) : (s.onJack j f).slider i = s.slider i := rfl
@[simp] theorem State.motor_onJack (j : JackId) (f : Jack → Jack) (i : Slider) (y : Motor) : (s.onJack j f).motor i y = s.motor i y := rfl
@[simp] theorem State.port_onJack (j : JackId) (f : Jack → Jack) (q : Port) : (s.onJack j f).port q = s.port q := rfl
@[simp] theorem State.entryOf_onJack (j : JackId) (f : Jack → Jack) (h : Group) : (s.onJack j f).entryOf h = s.entryOf h := rfl
@[simp] theorem State.running_onJack (j : JackId) (f : Jack → Jack) (h : Group) : (s.onJack j f).running h = s.running h := rfl
@[simp] theorem State.planRunning_onJack (j : JackId) (f : Jack → Jack) : (s.onJack j f).planRunning = s.planRunning := rfl
@[simp] theorem State.heldUnits_onJack (j : JackId) (f : Jack → Jack) : (s.onJack j f).heldUnits = s.heldUnits := rfl
@[simp] theorem State.budget_onJack (j : JackId) (f : Jack → Jack) : (s.onJack j f).budget = s.budget := rfl
@[simp] theorem State.road_onJack (j : JackId) (f : Jack → Jack) : (s.onJack j f).road = s.road := rfl

/-! ### setWind -/

@[simp] theorem State.chan_setWind (w : Wind) (k : Chan) : (s.setWind w).chan k = s.chan k := rfl
@[simp] theorem State.paceRec_setWind (w : Wind) (k : Chan) : (s.setWind w).paceRec k = s.paceRec k := rfl
@[simp] theorem State.role_setWind (w : Wind) (k : Chan) : (s.setWind w).role k = s.role k := rfl
@[simp] theorem State.roleChan_setWind (w : Wind) (role : Role) : (s.setWind w).roleChan role = s.roleChan role := rfl
@[simp] theorem State.motorChan_setWind (w : Wind) (i : Slider) (y : Motor) : (s.setWind w).motorChan i y = s.motorChan i y := rfl
@[simp] theorem State.motors_setWind (w : Wind) (i : Slider) : (s.setWind w).motors i = s.motors i := rfl
@[simp] theorem State.configured_setWind (w : Wind) (h : Group) : (s.setWind w).configured h = s.configured h := rfl
@[simp] theorem State.claim_setWind (w : Wind) (h : Group) : (s.setWind w).claim h = s.claim h := rfl
@[simp] theorem State.slider_setWind (w : Wind) (i : Slider) : (s.setWind w).slider i = s.slider i := rfl
@[simp] theorem State.motor_setWind (w : Wind) (i : Slider) (y : Motor) : (s.setWind w).motor i y = s.motor i y := rfl
@[simp] theorem State.jack_setWind (w : Wind) (i : JackId) : (s.setWind w).jack i = s.jack i := rfl
@[simp] theorem State.port_setWind (w : Wind) (q : Port) : (s.setWind w).port q = s.port q := rfl
@[simp] theorem State.entryOf_setWind (w : Wind) (h : Group) : (s.setWind w).entryOf h = s.entryOf h := rfl
@[simp] theorem State.running_setWind (w : Wind) (h : Group) : (s.setWind w).running h = s.running h := rfl
@[simp] theorem State.planRunning_setWind (w : Wind) : (s.setWind w).planRunning = s.planRunning := rfl
@[simp] theorem State.heldUnits_setWind (w : Wind) : (s.setWind w).heldUnits = s.heldUnits := rfl
@[simp] theorem State.budget_setWind (w : Wind) : (s.setWind w).budget = s.budget := rfl
@[simp] theorem State.road_setWind (w : Wind) : (s.setWind w).road = s.road := rfl

/-! ### setLines -/

@[simp] theorem State.chan_setLines (n : Chan) (l : ChannelLines) (k : Chan) : (s.setLines n l).chan k = s.chan k := rfl
@[simp] theorem State.paceRec_setLines (n : Chan) (l : ChannelLines) (k : Chan) : (s.setLines n l).paceRec k = s.paceRec k := rfl
@[simp] theorem State.role_setLines (n : Chan) (l : ChannelLines) (k : Chan) : (s.setLines n l).role k = s.role k := rfl
@[simp] theorem State.roleChan_setLines (n : Chan) (l : ChannelLines) (role : Role) : (s.setLines n l).roleChan role = s.roleChan role := rfl
@[simp] theorem State.motorChan_setLines (n : Chan) (l : ChannelLines) (i : Slider) (y : Motor) : (s.setLines n l).motorChan i y = s.motorChan i y := rfl
@[simp] theorem State.motors_setLines (n : Chan) (l : ChannelLines) (i : Slider) : (s.setLines n l).motors i = s.motors i := rfl
@[simp] theorem State.configured_setLines (n : Chan) (l : ChannelLines) (h : Group) : (s.setLines n l).configured h = s.configured h := rfl
@[simp] theorem State.claim_setLines (n : Chan) (l : ChannelLines) (h : Group) : (s.setLines n l).claim h = s.claim h := rfl
@[simp] theorem State.slider_setLines (n : Chan) (l : ChannelLines) (i : Slider) : (s.setLines n l).slider i = s.slider i := rfl
@[simp] theorem State.motor_setLines (n : Chan) (l : ChannelLines) (i : Slider) (y : Motor) : (s.setLines n l).motor i y = s.motor i y := rfl
@[simp] theorem State.jack_setLines (n : Chan) (l : ChannelLines) (i : JackId) : (s.setLines n l).jack i = s.jack i := rfl
@[simp] theorem State.port_setLines (n : Chan) (l : ChannelLines) (q : Port) : (s.setLines n l).port q = s.port q := rfl
@[simp] theorem State.entryOf_setLines (n : Chan) (l : ChannelLines) (h : Group) : (s.setLines n l).entryOf h = s.entryOf h := rfl
@[simp] theorem State.running_setLines (n : Chan) (l : ChannelLines) (h : Group) : (s.setLines n l).running h = s.running h := rfl
@[simp] theorem State.planRunning_setLines (n : Chan) (l : ChannelLines) : (s.setLines n l).planRunning = s.planRunning := rfl
@[simp] theorem State.heldUnits_setLines (n : Chan) (l : ChannelLines) : (s.setLines n l).heldUnits = s.heldUnits := rfl
@[simp] theorem State.budget_setLines (n : Chan) (l : ChannelLines) : (s.setLines n l).budget = s.budget := rfl
@[simp] theorem State.road_setLines (n : Chan) (l : ChannelLines) : (s.setLines n l).road = s.road := rfl

/-! ### setLine -/

@[simp] theorem State.chan_setLine (x : DiscreteLine) (l : Line) (k : Chan) : (s.setLine x l).chan k = s.chan k := by cases l <;> rfl
@[simp] theorem State.paceRec_setLine (x : DiscreteLine) (l : Line) (k : Chan) : (s.setLine x l).paceRec k = s.paceRec k := by cases l <;> rfl
@[simp] theorem State.role_setLine (x : DiscreteLine) (l : Line) (k : Chan) : (s.setLine x l).role k = s.role k := by cases l <;> rfl
@[simp] theorem State.roleChan_setLine (x : DiscreteLine) (l : Line) (role : Role) : (s.setLine x l).roleChan role = s.roleChan role := by cases l <;> rfl
@[simp] theorem State.motorChan_setLine (x : DiscreteLine) (l : Line) (i : Slider) (y : Motor) : (s.setLine x l).motorChan i y = s.motorChan i y := by cases l <;> rfl
@[simp] theorem State.motors_setLine (x : DiscreteLine) (l : Line) (i : Slider) : (s.setLine x l).motors i = s.motors i := by cases l <;> rfl
@[simp] theorem State.configured_setLine (x : DiscreteLine) (l : Line) (h : Group) : (s.setLine x l).configured h = s.configured h := by cases l <;> rfl
@[simp] theorem State.claim_setLine (x : DiscreteLine) (l : Line) (h : Group) : (s.setLine x l).claim h = s.claim h := by cases l <;> rfl
@[simp] theorem State.slider_setLine (x : DiscreteLine) (l : Line) (i : Slider) : (s.setLine x l).slider i = s.slider i := by cases l <;> rfl
@[simp] theorem State.motor_setLine (x : DiscreteLine) (l : Line) (i : Slider) (y : Motor) : (s.setLine x l).motor i y = s.motor i y := by cases l <;> rfl
@[simp] theorem State.jack_setLine (x : DiscreteLine) (l : Line) (i : JackId) : (s.setLine x l).jack i = s.jack i := by cases l <;> rfl
@[simp] theorem State.port_setLine (x : DiscreteLine) (l : Line) (q : Port) : (s.setLine x l).port q = s.port q := by cases l <;> rfl
@[simp] theorem State.entryOf_setLine (x : DiscreteLine) (l : Line) (h : Group) : (s.setLine x l).entryOf h = s.entryOf h := by cases l <;> rfl
@[simp] theorem State.running_setLine (x : DiscreteLine) (l : Line) (h : Group) : (s.setLine x l).running h = s.running h := by cases l <;> rfl
@[simp] theorem State.planRunning_setLine (x : DiscreteLine) (l : Line) : (s.setLine x l).planRunning = s.planRunning := by cases l <;> rfl
@[simp] theorem State.heldUnits_setLine (x : DiscreteLine) (l : Line) : (s.setLine x l).heldUnits = s.heldUnits := by cases l <;> rfl
@[simp] theorem State.budget_setLine (x : DiscreteLine) (l : Line) : (s.setLine x l).budget = s.budget := by cases l <;> rfl

/-! ### setFrame -/

@[simp] theorem State.chan_setFrame (p : Port) (f : Option PartialFrame) (k : Chan) : (s.setFrame p f).chan k = s.chan k := rfl
@[simp] theorem State.paceRec_setFrame (p : Port) (f : Option PartialFrame) (k : Chan) : (s.setFrame p f).paceRec k = s.paceRec k := rfl
@[simp] theorem State.role_setFrame (p : Port) (f : Option PartialFrame) (k : Chan) : (s.setFrame p f).role k = s.role k := rfl
@[simp] theorem State.roleChan_setFrame (p : Port) (f : Option PartialFrame) (role : Role) : (s.setFrame p f).roleChan role = s.roleChan role := rfl
@[simp] theorem State.motorChan_setFrame (p : Port) (f : Option PartialFrame) (i : Slider) (y : Motor) : (s.setFrame p f).motorChan i y = s.motorChan i y := rfl
@[simp] theorem State.motors_setFrame (p : Port) (f : Option PartialFrame) (i : Slider) : (s.setFrame p f).motors i = s.motors i := rfl
@[simp] theorem State.configured_setFrame (p : Port) (f : Option PartialFrame) (h : Group) : (s.setFrame p f).configured h = s.configured h := rfl
@[simp] theorem State.claim_setFrame (p : Port) (f : Option PartialFrame) (h : Group) : (s.setFrame p f).claim h = s.claim h := rfl
@[simp] theorem State.slider_setFrame (p : Port) (f : Option PartialFrame) (i : Slider) : (s.setFrame p f).slider i = s.slider i := rfl
@[simp] theorem State.motor_setFrame (p : Port) (f : Option PartialFrame) (i : Slider) (y : Motor) : (s.setFrame p f).motor i y = s.motor i y := rfl
@[simp] theorem State.jack_setFrame (p : Port) (f : Option PartialFrame) (i : JackId) : (s.setFrame p f).jack i = s.jack i := rfl
@[simp] theorem State.entryOf_setFrame (p : Port) (f : Option PartialFrame) (h : Group) : (s.setFrame p f).entryOf h = s.entryOf h := rfl
@[simp] theorem State.running_setFrame (p : Port) (f : Option PartialFrame) (h : Group) : (s.setFrame p f).running h = s.running h := rfl
@[simp] theorem State.planRunning_setFrame (p : Port) (f : Option PartialFrame) : (s.setFrame p f).planRunning = s.planRunning := rfl
@[simp] theorem State.heldUnits_setFrame (p : Port) (f : Option PartialFrame) : (s.setFrame p f).heldUnits = s.heldUnits := rfl
@[simp] theorem State.budget_setFrame (p : Port) (f : Option PartialFrame) : (s.setFrame p f).budget = s.budget := rfl
@[simp] theorem State.road_setFrame (p : Port) (f : Option PartialFrame) : (s.setFrame p f).road = s.road := rfl

/-! ### queueReply -/

@[simp] theorem State.chan_queueReply (p : Port) (f : List Byte) (k : Chan) : (s.queueReply p f).chan k = s.chan k := rfl
@[simp] theorem State.paceRec_queueReply (p : Port) (f : List Byte) (k : Chan) : (s.queueReply p f).paceRec k = s.paceRec k := rfl
@[simp] theorem State.role_queueReply (p : Port) (f : List Byte) (k : Chan) : (s.queueReply p f).role k = s.role k := rfl
@[simp] theorem State.roleChan_queueReply (p : Port) (f : List Byte) (role : Role) : (s.queueReply p f).roleChan role = s.roleChan role := rfl
@[simp] theorem State.motorChan_queueReply (p : Port) (f : List Byte) (i : Slider) (y : Motor) : (s.queueReply p f).motorChan i y = s.motorChan i y := rfl
@[simp] theorem State.motors_queueReply (p : Port) (f : List Byte) (i : Slider) : (s.queueReply p f).motors i = s.motors i := rfl
@[simp] theorem State.configured_queueReply (p : Port) (f : List Byte) (h : Group) : (s.queueReply p f).configured h = s.configured h := rfl
@[simp] theorem State.claim_queueReply (p : Port) (f : List Byte) (h : Group) : (s.queueReply p f).claim h = s.claim h := rfl
@[simp] theorem State.slider_queueReply (p : Port) (f : List Byte) (i : Slider) : (s.queueReply p f).slider i = s.slider i := rfl
@[simp] theorem State.motor_queueReply (p : Port) (f : List Byte) (i : Slider) (y : Motor) : (s.queueReply p f).motor i y = s.motor i y := rfl
@[simp] theorem State.jack_queueReply (p : Port) (f : List Byte) (i : JackId) : (s.queueReply p f).jack i = s.jack i := rfl
@[simp] theorem State.entryOf_queueReply (p : Port) (f : List Byte) (h : Group) : (s.queueReply p f).entryOf h = s.entryOf h := rfl
@[simp] theorem State.running_queueReply (p : Port) (f : List Byte) (h : Group) : (s.queueReply p f).running h = s.running h := rfl
@[simp] theorem State.planRunning_queueReply (p : Port) (f : List Byte) : (s.queueReply p f).planRunning = s.planRunning := rfl
@[simp] theorem State.heldUnits_queueReply (p : Port) (f : List Byte) : (s.queueReply p f).heldUnits = s.heldUnits := rfl
@[simp] theorem State.budget_queueReply (p : Port) (f : List Byte) : (s.queueReply p f).budget = s.budget := rfl
@[simp] theorem State.road_queueReply (p : Port) (f : List Byte) : (s.queueReply p f).road = s.road := rfl

/-! ### discardFrame -/

@[simp] theorem State.chan_discardFrame (p : Port) (k : Chan) : (s.discardFrame p).chan k = s.chan k := rfl
@[simp] theorem State.paceRec_discardFrame (p : Port) (k : Chan) : (s.discardFrame p).paceRec k = s.paceRec k := rfl
@[simp] theorem State.role_discardFrame (p : Port) (k : Chan) : (s.discardFrame p).role k = s.role k := rfl
@[simp] theorem State.roleChan_discardFrame (p : Port) (role : Role) : (s.discardFrame p).roleChan role = s.roleChan role := rfl
@[simp] theorem State.motorChan_discardFrame (p : Port) (i : Slider) (y : Motor) : (s.discardFrame p).motorChan i y = s.motorChan i y := rfl
@[simp] theorem State.motors_discardFrame (p : Port) (i : Slider) : (s.discardFrame p).motors i = s.motors i := rfl
@[simp] theorem State.configured_discardFrame (p : Port) (h : Group) : (s.discardFrame p).configured h = s.configured h := rfl
@[simp] theorem State.claim_discardFrame (p : Port) (h : Group) : (s.discardFrame p).claim h = s.claim h := rfl
@[simp] theorem State.slider_discardFrame (p : Port) (i : Slider) : (s.discardFrame p).slider i = s.slider i := rfl
@[simp] theorem State.motor_discardFrame (p : Port) (i : Slider) (y : Motor) : (s.discardFrame p).motor i y = s.motor i y := rfl
@[simp] theorem State.jack_discardFrame (p : Port) (i : JackId) : (s.discardFrame p).jack i = s.jack i := rfl
@[simp] theorem State.entryOf_discardFrame (p : Port) (h : Group) : (s.discardFrame p).entryOf h = s.entryOf h := rfl
@[simp] theorem State.running_discardFrame (p : Port) (h : Group) : (s.discardFrame p).running h = s.running h := rfl
@[simp] theorem State.planRunning_discardFrame (p : Port) : (s.discardFrame p).planRunning = s.planRunning := rfl
@[simp] theorem State.heldUnits_discardFrame (p : Port) : (s.discardFrame p).heldUnits = s.heldUnits := rfl
@[simp] theorem State.budget_discardFrame (p : Port) : (s.discardFrame p).budget = s.budget := rfl
@[simp] theorem State.road_discardFrame (p : Port) : (s.discardFrame p).road = s.road := rfl

/-! ### enqueue -/

@[simp] theorem State.chan_enqueue (l : List Instr) (k : Chan) : (s.enqueue l).chan k = s.chan k := rfl
@[simp] theorem State.paceRec_enqueue (l : List Instr) (k : Chan) : (s.enqueue l).paceRec k = s.paceRec k := rfl
@[simp] theorem State.role_enqueue (l : List Instr) (k : Chan) : (s.enqueue l).role k = s.role k := rfl
@[simp] theorem State.roleChan_enqueue (l : List Instr) (role : Role) : (s.enqueue l).roleChan role = s.roleChan role := rfl
@[simp] theorem State.motorChan_enqueue (l : List Instr) (i : Slider) (y : Motor) : (s.enqueue l).motorChan i y = s.motorChan i y := rfl
@[simp] theorem State.motors_enqueue (l : List Instr) (i : Slider) : (s.enqueue l).motors i = s.motors i := rfl
@[simp] theorem State.configured_enqueue (l : List Instr) (h : Group) : (s.enqueue l).configured h = s.configured h := rfl
@[simp] theorem State.claim_enqueue (l : List Instr) (h : Group) : (s.enqueue l).claim h = s.claim h := rfl
@[simp] theorem State.slider_enqueue (l : List Instr) (i : Slider) : (s.enqueue l).slider i = s.slider i := rfl
@[simp] theorem State.motor_enqueue (l : List Instr) (i : Slider) (y : Motor) : (s.enqueue l).motor i y = s.motor i y := rfl
@[simp] theorem State.jack_enqueue (l : List Instr) (i : JackId) : (s.enqueue l).jack i = s.jack i := rfl
@[simp] theorem State.port_enqueue (l : List Instr) (q : Port) : (s.enqueue l).port q = s.port q := rfl
@[simp] theorem State.entryOf_enqueue (l : List Instr) (h : Group) : (s.enqueue l).entryOf h = s.entryOf h := rfl
@[simp] theorem State.running_enqueue (l : List Instr) (h : Group) : (s.enqueue l).running h = s.running h := rfl
@[simp] theorem State.planRunning_enqueue (l : List Instr) : (s.enqueue l).planRunning = s.planRunning := rfl
@[simp] theorem State.heldUnits_enqueue (l : List Instr) : (s.enqueue l).heldUnits = s.heldUnits := rfl
@[simp] theorem State.budget_enqueue (l : List Instr) : (s.enqueue l).budget = s.budget := rfl
@[simp] theorem State.road_enqueue (l : List Instr) : (s.enqueue l).road = s.road := rfl

/-! ### The read that an update changes -/

theorem State.chan_setChan (n k : Chan) (c : Channel) :
    (s.setChan n c).chan k = if n = k then c else s.chan k := by
  simp [State.chan, State.setChan, Vector.getElem_set, Fin.ext_iff]

@[simp] theorem State.chan_setChan_same (n : Chan) (c : Channel) : (s.setChan n c).chan n = c := by
  simp [State.chan_setChan]

theorem State.paceRec_setPace (n k : Chan) (r : PaceRecord) :
    (s.setPace n r).paceRec k = if n = k then r else s.paceRec k := by
  simp [State.paceRec, State.setPace, Vector.getElem_set, Fin.ext_iff]

@[simp] theorem State.paceRec_setPace_same (n : Chan) (r : PaceRecord) : (s.setPace n r).paceRec n = r := by
  simp [State.paceRec_setPace]

theorem groupIndex_eq (g h : Group) : groupIndex g = groupIndex h ↔ g = h := by
  constructor
  · intro e
    rcases g with k | _ | _ <;> rcases h with l | _ | _ <;> simp [groupIndex, Fin.ext_iff] at e ⊢ <;> omega
  · rintro rfl; rfl

theorem State.claim_setClaim (g h : Group) (c : Option Claim) :
    (s.setClaim g c).claim h = if g = h then c else s.claim h := by
  simp [State.claim, State.setClaim, Vector.getElem_set, ← groupIndex_eq, Fin.ext_iff]

@[simp] theorem State.claim_setClaim_same (g : Group) (c : Option Claim) : (s.setClaim g c).claim g = c := by
  simp [State.claim_setClaim]

@[simp] theorem State.claim_freeAllClaims (g : Group) : s.freeAllClaims.claim g = none := by
  simp [State.claim, State.freeAllClaims]

theorem State.slider_setSlider (i h : Slider) (r : SliderRec) :
    (s.setSlider i r).slider h = if i = h then r else s.slider h := by
  cases i <;> cases h <;> simp [State.slider, State.setSlider, Vector.getElem_set, Fin.ext_iff]

@[simp] theorem State.slider_setSlider_same (i : Slider) (r : SliderRec) : (s.setSlider i r).slider i = r := by
  simp [State.slider_setSlider]

@[simp] theorem SliderRec.motor_setMotor_same (r : SliderRec) (m : Motor) (x : MotorRec) :
    (r.setMotor m x).motor m = x := by
  cases m <;> rfl

theorem SliderRec.motor_setMotor (r : SliderRec) (m k : Motor) (x : MotorRec) :
    (r.setMotor m x).motor k = if m = k then x else r.motor k := by
  cases m <;> cases k <;> rfl

@[simp] theorem SliderRec.fault_setMotor (r : SliderRec) (m : Motor) (x : MotorRec) :
    (r.setMotor m x).fault = r.fault := by
  cases m <;> rfl

@[simp] theorem SliderRec.state_setMotor (r : SliderRec) (m : Motor) (x : MotorRec) :
    (r.setMotor m x).state = r.state := by
  cases m <;> rfl

@[simp] theorem SliderRec.lastOutcome_setMotor (r : SliderRec) (m : Motor) (x : MotorRec) :
    (r.setMotor m x).lastOutcome = r.lastOutcome := by
  cases m <;> rfl

theorem State.motor_setMotor (i h : Slider) (m k : Motor) (x : MotorRec) :
    (s.setMotor i m x).motor h k = if i = h ∧ m = k then x else s.motor h k := by
  by_cases e : i = h
  · subst e
    simp [State.motor, State.setMotor, SliderRec.motor_setMotor]
  · simp [State.motor, State.setMotor, State.slider_setSlider, e]

@[simp] theorem State.motor_setMotor_same (i : Slider) (m : Motor) (x : MotorRec) :
    (s.setMotor i m x).motor i m = x := by
  simp [State.motor_setMotor]

theorem State.slider_setMotor (i h : Slider) (m : Motor) (x : MotorRec) :
    (s.setMotor i m x).slider h = if i = h then (s.slider i).setMotor m x else s.slider h := by
  simp [State.setMotor, State.slider_setSlider]

theorem State.jack_setJack (j k : JackId) (r : Jack) :
    (s.setJack j r).jack k = if j = k then r else s.jack k := by
  simp [State.jack, State.setJack, Vector.getElem_set, Fin.ext_iff]

@[simp] theorem State.jack_setJack_same (j : JackId) (r : Jack) : (s.setJack j r).jack j = r := by
  simp [State.jack_setJack]

theorem State.jack_onJack (j k : JackId) (f : Jack → Jack) :
    (s.onJack j f).jack k = if j = k then f (s.jack j) else s.jack k := by
  simp [State.onJack, State.jack_setJack]

@[simp] theorem State.jack_onJack_same (j : JackId) (f : Jack → Jack) : (s.onJack j f).jack j = f (s.jack j) := by
  simp [State.jack_onJack]

theorem portIndex_eq (p q : Port) : portIndex p = portIndex q ↔ p = q := by
  cases p <;> cases q <;> decide

theorem State.port_setPort (p q : Port) (r : PortRec) :
    (s.setPort p r).port q = if p = q then r else s.port q := by
  simp [State.port, State.setPort, Vector.getElem_set, ← portIndex_eq, Fin.ext_iff]

@[simp] theorem State.port_setPort_same (p : Port) (r : PortRec) : (s.setPort p r).port p = r := by
  simp [State.port_setPort]

@[simp] theorem State.port_raise (c : Notice) (q : Port) :
    (s.raise c).port q = { s.port q with pending := (s.port q).pending ||| c.bit } := by
  simp [State.port, State.raise]

@[simp] theorem State.load_setLoad (l : List Entry) : (s.setLoad l).load = l := rfl

@[simp] theorem State.load_removeEntry (g : Group) :
    (s.removeEntry g).load = s.load.filter fun e => e.group != g := rfl

@[simp] theorem State.paused_removeEntry (g : Group) :
    (s.removeEntry g).paused = s.paused.filter fun e => e.group != g := rfl

@[simp] theorem State.wind_setWind (w : Wind) : (s.setWind w).wind = w := rfl

/-- The channel that has a role has that role. -/
theorem State.role_of_roleChan {s : State} {r : Role} {n : Chan} (h : s.roleChan r = some n) : s.role n = r := by
  simpa using List.find?_some h

end Sys2Proof.Machine
end

