-- ==== Sys2Proof/Laws/Controls.lean ====
section
/-! SUPPORT. What the controller of a group can do: it works on the channels and the axis records of its group and on
nothing else, it takes no reading away, and it drives no channel that is not SEATED. -/

namespace Sys2Proof.Machine

/-- The axis records of a group are the same in two states. -/
def axisSame (s t : State) : Group → Prop
  | .room k => t.rooms[k] = s.rooms[k]
  | .jacks => t.jacks = s.jacks ∧ t.jackSet = s.jackSet ∧ t.level = s.level
  | .awning => t.awning = s.awning

theorem axisSame_refl (s : State) (g : Group) : axisSame s s g := by
  cases g <;> simp [axisSame]

theorem axisSame_trans {s t u : State} {g : Group} (a : axisSame s t g) (b : axisSame t u g) : axisSame s u g := by
  cases g <;> simp_all [axisSame]

/-! ### Counts -/

theorem State.countKept_of_eq {s t : State} {id : Slider} {m : Motor} (h : (t.motor id m).count = (s.motor id m).count) :
    s.countKept t id m := .inl h

theorem State.motorHome_congr {s t : State} (l : t.layout = s.layout) (x : t.lines = s.lines) (id : Slider) (m : Motor) :
    t.motorHome id m = s.motorHome id m := by
  have c : t.motorChan id m = s.motorChan id m := by
    cases id <;> cases m <;> simp [State.motorChan, State.roleChan, State.role, l]
  simp only [State.motorHome, c, State.homeClosed, x]

theorem State.countKept.trans {s t u : State} {id : Slider} {m : Motor} (a : s.countKept t id m) (b : t.countKept u id m)
    (h : t.motorHome id m = s.motorHome id m) : s.countKept u id m := by
  rcases b with b | ⟨e, b⟩
  · rcases a with a | ⟨f, a⟩
    · exact .inl (b.trans a)
    · exact .inr ⟨f, b.trans a⟩
  · exact .inr ⟨h ▸ e, b⟩

/-- What the controller of a group can do to the state. -/
structure Controls (g : Group) (s t : State) : Prop where
  outer : t.outer = s.outer
  chans : ∀ n, (s.role n).group ≠ some g → t.chan n = s.chan n
  paces : ∀ n, (s.role n).group ≠ some g → t.paceRec n = s.paceRec n
  readings : ∀ n, (t.chan n).reading = (s.chan n).reading
  seated : ∀ n, (t.chan n).driven = true → (s.chan n).driven = true ∨ (s.chan n).census = .seated
  axes : ∀ h, h ≠ g → axisSame s t h
  counts : ∀ id m, s.countKept t id m
  sliderFault : ∀ id f, (s.slider id).fault = some f → (t.slider id).fault = some f
  jackReading : ∀ j, (t.jack j).reading = (s.jack j).reading
  jackFault : ∀ j f, (s.jack j).fault = some f → (t.jack j).fault = some f

namespace Controls

variable {g : Group} {s t u : State}

theorem refl (g : Group) (s : State) : Controls g s s where
  outer := rfl
  chans _ _ := rfl
  paces _ _ := rfl
  readings _ := rfl
  seated _ h := .inl h
  axes h _ := axisSame_refl s h
  counts _ _ := .inl rfl
  sliderFault _ _ h := h
  jackReading _ := rfl
  jackFault _ _ h := h

theorem layout (a : Controls g s t) : t.layout = s.layout := by
  have h := congrArg State.layout a.outer
  exact h

theorem role (a : Controls g s t) (n : Chan) : t.role n = s.role n := by
  simp [State.role, a.layout]

theorem motorHome (a : Controls g s t) (id : Slider) (m : Motor) : t.motorHome id m = s.motorHome id m :=
  State.motorHome_congr a.layout (by have h := congrArg State.lines a.outer; exact h) id m

theorem trans (a : Controls g s t) (b : Controls g t u) : Controls g s u where
  outer := b.outer.trans a.outer
  chans n h := (b.chans n (by rwa [a.role])).trans (a.chans n h)
  paces n h := (b.paces n (by rwa [a.role])).trans (a.paces n h)
  readings n := (b.readings n).trans (a.readings n)
  seated n h := by
    rcases b.seated n h with d | c
    · exact a.seated n d
    · right
      have r := congrArg Channel.census (a.readings n)
      exact r.symm.trans c
  axes h e := axisSame_trans (a.axes h e) (b.axes h e)
  counts id m := (a.counts id m).trans (b.counts id m) (a.motorHome id m)
  sliderFault id f h := b.sliderFault id f (a.sliderFault id f h)
  jackReading j := (b.jackReading j).trans (a.jackReading j)
  jackFault j f h := b.jackFault j f (a.jackFault j f h)

/-! ### The updates that controllers are made of -/

theorem setChan {n : Chan} {c : Channel} (h : (s.role n).group = some g)
    (r : c.reading = (s.chan n).reading)
    (d : c.driven = true → (s.chan n).driven = true ∨ (s.chan n).census = .seated) :
    Controls g s (s.setChan n c) where
  outer := rfl
  chans k e := by
    have : n ≠ k := by rintro rfl; exact e h
    simp [State.chan_setChan, this]
  paces _ _ := by simp
  readings k := by
    by_cases e : n = k
    · subst e; simp [r]
    · simp [State.chan_setChan, e]
  seated k := by
    by_cases e : n = k
    · subst e; simpa using d
    · simp only [State.chan_setChan, e, if_false]; exact Or.inl
  axes k _ := by cases k <;> simp [axisSame]
  counts _ _ := .inl (by simp)
  sliderFault _ _ := by simp
  jackReading _ := by simp
  jackFault _ _ := by simp

theorem setPace {n : Chan} {r : PaceRecord} (h : (s.role n).group = some g) : Controls g s (s.setPace n r) where
  outer := rfl
  chans _ _ := by simp
  paces k e := by
    have : n ≠ k := by rintro rfl; exact e h
    simp [State.paceRec_setPace, this]
  readings _ := by simp
  seated _ := by simp only [State.chan_setPace]; exact Or.inl
  axes k _ := by cases k <;> simp [axisSame]
  counts _ _ := .inl (by simp)
  sliderFault _ _ := by simp
  jackReading _ := by simp
  jackFault _ _ := by simp

theorem setSlider {id : Slider} {r : SliderRec} (h : id.group = g)
    (c : ∀ m, (r.motor m).count = (s.motor id m).count ∨ (s.motorHome id m = true ∧ (r.motor m).count = some 0))
    (f : ∀ f, (s.slider id).fault = some f → r.fault = some f) : Controls g s (s.setSlider id r) where
  outer := by cases id <;> rfl
  chans _ _ := by simp
  paces _ _ := by simp
  readings _ := by simp
  seated _ := by simp only [State.chan_setSlider]; exact Or.inl
  axes k e := by
    subst h
    cases id <;> cases k <;> simp_all [axisSame, State.setSlider, Slider.group, Vector.getElem_set, Fin.ext_iff]
    omega
  counts i m := by
    by_cases e : id = i
    · subst e; simpa [State.motor, State.countKept] using c m
    · exact .inl (by simp [State.motor, State.slider_setSlider, e])
  sliderFault i x := by
    by_cases e : id = i
    · subst e; simpa using f x
    · simp [State.slider_setSlider, e]
  jackReading _ := by simp
  jackFault _ _ := by simp

theorem setMotor {id : Slider} {m : Motor} {x : MotorRec} (h : id.group = g)
    (c : x.count = (s.motor id m).count ∨ (s.motorHome id m = true ∧ x.count = some 0)) :
    Controls g s (s.setMotor id m x) := by
  apply setSlider h
  · intro k
    by_cases e : m = k
    · subst e; simpa using c
    · exact .inl (by simp [SliderRec.motor_setMotor, e, State.motor])
  · simp

theorem onJack {j : JackId} {f : Jack → Jack} (r : (f (s.jack j)).reading = (s.jack j).reading)
    (k : ∀ x, (s.jack j).fault = some x → (f (s.jack j)).fault = some x) : Controls .jacks s (s.onJack j f) where
  outer := rfl
  chans _ _ := by simp
  paces _ _ := by simp
  readings _ := by simp
  seated _ := by simp only [State.chan_onJack]; exact Or.inl
  axes h e := by cases h <;> simp_all [axisSame]
  counts _ _ := .inl (by simp)
  sliderFault _ _ := by simp
  jackReading i := by
    by_cases e : j = i
    · subst e; simpa using r
    · simp [State.jack_onJack, e]
  jackFault i x := by
    by_cases e : j = i
    · subst e; simpa using k x
    · simp [State.jack_onJack, e]

/-- The jack set record and the level run record may change alone. -/
theorem jackSetLevel (x : JackSet) (l : LevelRun) : Controls .jacks s { s with jackSet := x, level := l } where
  outer := rfl
  chans _ _ := rfl
  paces _ _ := rfl
  readings _ := rfl
  seated _ h := .inl h
  axes h e := by cases h <;> simp_all [axisSame]
  counts _ _ := .inl rfl
  sliderFault _ _ h := h
  jackReading _ := rfl
  jackFault _ _ h := h

/-- A fold of steps that the controller of a group can do. -/
theorem forEach {α : Type} {l : List α} {f : α → State → State} (h : ∀ a t, Controls g t (f a t)) (s : State) :
    Controls g s (forEach l f s) := by
  induction l generalizing s with
  | nil => exact refl g s
  | cons a rest ih => exact (h a s).trans (ih (f a s))

end Controls

end Sys2Proof.Machine
end

