-- ==== Sys2Proof/Laws/DriveControls.lean ====
section
/-! SUPPORT. What the shared operations of the drive channels and of the room and awning controllers can do: each keeps to
its group (`Controls`). -/

namespace Sys2Proof.Machine

variable {s : State} {g : Group}

/-! ### Channels -/

@[simp] theorem Channel.reading_halted (c : Channel) (t : Time) : (c.halted t).reading = c.reading := rfl

@[simp] theorem Channel.driven_halted (c : Channel) (t : Time) : (c.halted t).driven = false := rfl

@[simp] theorem Channel.reading_cancelled (c : Channel) (t : Time) : (c.cancelled t).reading = c.reading := by
  simp only [Channel.cancelled]; split <;> rfl

@[simp] theorem Channel.driven_cancelled (c : Channel) (t : Time) : (c.cancelled t).driven = false := by
  simp only [Channel.cancelled, Channel.driven]
  split
  · split <;> rfl
  · rfl

@[simp] theorem Channel.reading_driveStarted (c : Channel) (q : KindParams) (d : Dir) (t : Time) :
    (c.driveStarted q d t).reading = c.reading := rfl

theorem State.mirrorTally_controls {n : Chan} (h : (s.role n).group = some g) : Controls g s (s.mirrorTally n) := by
  unfold State.mirrorTally
  split <;> rename_i e
  · rw [e] at h; exact .setMotor (Option.some.inj h) (.inl rfl)
  · rw [e] at h; exact .setMotor (Option.some.inj h) (.inl rfl)
  · exact .refl _ _

theorem State.driveStart_controls {n : Chan} {d : Dir} (h : (s.role n).group = some g)
    (seat : (s.chan n).census = .seated) : Controls g s (s.driveStart n d) := by
  unfold State.driveStart
  have a : Controls g s (s.setChan n ((s.chan n).driveStarted (s.kindParams n) d s.now)) :=
    .setChan h rfl fun _ => .inr seat
  have b := a.trans (.setPace (n := n) (r := clearedPace) (by rwa [a.role]))
  have c := b.trans (State.mirrorTally_controls (n := n) (by rwa [b.role]))
  simp only
  split <;> rename_i e
  · have : g = .jacks := by rw [e] at h; exact (Option.some.inj h).symm
    subst this
    exact c.trans (.jackSetLevel _ _)
  · exact c

theorem State.stopChan_controls {n : Chan} (h : (s.role n).group = some g) : Controls g s (s.stopChan n) := by
  unfold State.stopChan
  split
  all_goals first
    | exact .refl _ _
    | exact .setChan h (by simp) (by simp)

theorem State.startHeld_controls {n : Chan} {d : Dir} (h : (s.role n).group = some g)
    (seat : (s.chan n).census = .seated) : Controls g s (s.startHeld n d).1 := by
  unfold State.startHeld
  split
  · exact .setChan h rfl (by simp [Channel.driven])
  · exact State.driveStart_controls h seat

theorem State.startChan_controls {n : Chan} {d : Dir} (h : (s.role n).group = some g) :
    Controls g s (s.startChan n d).1 := by
  unfold State.startChan
  split <;> rename_i m
  · have seat : (s.chan n).census = .seated := by simp [State.mayDrive] at m; exact m.1
    split
    · exact State.startHeld_controls h seat
    · exact State.startHeld_controls h seat
    · split
      · exact .refl _ _
      · have a := State.stopChan_controls (s := s) h
        exact a.trans (State.startHeld_controls (by rwa [a.role])
          ((congrArg Channel.census (a.readings n)).trans seat))
    · split
      · exact .refl _ _
      · have a := State.stopChan_controls (s := s) h
        exact a.trans (State.startHeld_controls (by rwa [a.role])
          ((congrArg Channel.census (a.readings n)).trans seat))
    · split
      · exact .refl _ _
      · exact State.driveStart_controls h seat
  · exact .refl _ _

theorem State.setTrim_controls {n : Chan} {t : Option Nat} (h : (s.role n).group = some g) :
    Controls g s (s.setTrim n t) :=
  .setChan h rfl fun d => .inl d

/-! ### Rooms and the awning -/

variable {id : Slider} {m : Motor}

theorem State.group_motorChan {n : Chan} (h : s.motorChan id m = some n) : (s.role n).group = some id.group := by
  cases id <;> cases m <;> simp only [State.motorChan, reduceCtorEq] at h <;>
    (rw [State.role_of_roleChan h]; rfl)

theorem State.trimMotor_controls {t : Option Nat} : Controls id.group s (s.trimMotor id m t) := by
  unfold State.trimMotor
  split <;> rename_i e
  · exact State.setTrim_controls (State.group_motorChan e)
  · exact .refl _ _

theorem State.retrim_controls : Controls id.group s (s.retrim id) := by
  unfold State.retrim
  split
  · split <;> exact State.trimMotor_controls.trans State.trimMotor_controls
  · exact .refl _ _

theorem State.stopMotor_controls : Controls id.group s (s.stopMotor id m) := by
  unfold State.stopMotor
  split <;> rename_i e
  · exact State.stopChan_controls (State.group_motorChan e)
  · exact .refl _ _

theorem State.seatDone_controls : Controls id.group s (s.seatDone id m).1 := by
  have a : Controls id.group (s.stopMotor id m) ((s.stopMotor id m).setMotor id m
      { (s.stopMotor id m).motor id m with phase := .finished, seatDeadline := none }) := .setMotor rfl (.inl rfl)
  exact (State.stopMotor_controls.trans a).trans State.retrim_controls

theorem State.beginSeat_controls : Controls id.group s (s.beginSeat id m).1 := by
  unfold State.beginSeat
  have a : Controls id.group s (s.setMotor id m { s.motor id m with
      phase := .seat, seatDeadline := some (s.now + paceTicks (s.seatTicks id m)) }) := .setMotor rfl (.inl rfl)
  simp only
  split
  · exact a.trans State.seatDone_controls
  · exact a.trans State.retrim_controls

theorem State.zeroMotor_controls : Controls id.group s (s.zeroMotor id m) := by
  unfold State.zeroMotor
  split
  · rename_i h
    exact .setMotor rfl (.inr ⟨h, rfl⟩)
  · exact .refl _ _

theorem State.zeroFinished_controls {d : Dir} : Controls id.group s (s.zeroFinished id d) := by
  cases d
  · exact .refl _ _
  · exact .forEach (fun _ _ => State.zeroMotor_controls) s

/-- The rack check controls what the work behind it controls. -/
theorem State.rackCheck_controls {w : Work} (h : Controls g s w.1) : Controls g s (s.rackCheck id w).1 := by
  unfold State.rackCheck
  split
  · exact .refl _ _
  · exact h

theorem State.motorStarted_controls : Controls id.group s (s.motorStarted id m).1 := by
  unfold State.motorStarted
  split
  · exact .refl _ _
  · refine State.rackCheck_controls ?_
    repeat' split
    all_goals first
      | exact .refl _ _
      | exact State.zeroMotor_controls.trans (State.rackCheck_controls State.beginSeat_controls)

theorem State.startMotor_controls {d : Dir} : Controls id.group s (s.startMotor id m d).1 := by
  unfold State.startMotor
  split <;> rename_i e
  · have a := State.startChan_controls (s := s) (d := d) (State.group_motorChan e)
    simp only
    split
    · exact a.trans State.motorStarted_controls
    · exact a
  · exact .refl _ _

theorem State.startMotors_controls {d : Dir} : Controls id.group s (s.startMotors id d).1 := by
  unfold State.startMotors
  have fold : ∀ (l : List Motor) (w : Work), Controls id.group s w.1 →
      Controls id.group s (l.foldl (fun (w : Work) m =>
        if w.2.isEmpty && (w.1.motor id m).phase == .travel then w.1.startMotor id m d else w) w).1 := by
    intro l
    induction l with
    | nil => exact fun _ h => h
    | cons m rest ih =>
      intro w h
      refine ih _ ?_
      beta_reduce
      split
      · exact h.trans State.startMotor_controls
      · exact h
  exact (fold _ (s, []) (.refl _ _)).trans State.retrim_controls

theorem State.setPhases_controls {f : Motor → MotorPhase} : Controls id.group s (s.setPhases id f) :=
  .forEach (f := fun m t => t.setMotor id m { t.motor id m with phase := f m, seatDeadline := none })
    (fun _ _ => .setMotor rfl (.inl rfl)) s

theorem State.slideAdmit_controls {d : Dir} {run : Bool} : Controls id.group s (s.slideAdmit id d run).1 := by
  have a : Controls id.group s
      (((s.setSlider id { s.slider id with runTime := 0 }).setPhases id (s.firstPhase id d)).zeroFinished id d) :=
    ((Controls.setSlider rfl (by intro m; cases m <;> exact .inl rfl) (by simp)).trans State.setPhases_controls).trans
      State.zeroFinished_controls
  unfold State.slideAdmit
  simp only
  generalize ((s.setSlider id { s.slider id with runTime := 0 }).setPhases id (s.firstPhase id d)).zeroFinished id d = s1
    at a ⊢
  have b : Controls id.group s1 (s1.setSlider id { s1.slider id with state := movingState d }) :=
    .setSlider rfl (by intro m; cases m <;> exact .inl rfl) (by simp)
  split
  · exact a
  · split
    · exact (a.trans b).trans State.startMotors_controls
    · exact a.trans b

theorem State.slideResume_controls : Controls id.group s (s.slideResume id).1 := by
  unfold State.slideResume
  split
  · exact State.startMotors_controls
  · exact .refl _ _

theorem State.slideShed_controls : Controls id.group s (s.slideShed id) :=
  .forEach (fun m t => by split <;> first | exact .setMotor rfl (.inl rfl) | exact .refl _ _) s

theorem State.slideEnd_controls {e : Ending} : Controls id.group s (s.slideEnd id e) := by
  unfold State.slideEnd
  have a : Controls id.group s
      ((Machine.forEach (s.motors id) (fun m t => t.stopMotor id m) s).setPhases id (fun _ => .idle)) :=
    (Controls.forEach (fun _ _ => State.stopMotor_controls) s).trans State.setPhases_controls
  refine a.trans (.setSlider rfl ?_ ?_)
  · intro m; cases m <;> exact .inl rfl
  · intro f h; simp [h]

end Sys2Proof.Machine
end

