-- ==== Sys2Proof/Laws/LiftControls.lean ====
section
/-! SUPPORT. What the shared operations of the jack controller can do: each keeps to JACKS (`Controls .jacks`). -/

namespace Sys2Proof.Machine

variable {s : State} {j : JackId} {d : Dir} {l : List JackId}

theorem State.stopValve_controls : Controls .jacks s (s.stopValve j) := by
  unfold State.stopValve
  split <;> rename_i e
  · exact State.stopChan_controls (by rw [State.role_of_roleChan e]; rfl)
  · exact .refl _ _

theorem State.startValve_controls : Controls .jacks s (s.startValve j d) := by
  unfold State.startValve
  split <;> rename_i e
  · exact State.startChan_controls (by rw [State.role_of_roleChan e]; rfl)
  · exact .refl _ _

theorem State.pumpFollow_controls : Controls .jacks s s.pumpFollow := by
  unfold State.pumpFollow
  split
  · rename_i n _ e
    have h : (s.role n).group = some .jacks := by rw [State.role_of_roleChan e]; rfl
    split
    · split
      · exact .refl _ _
      · exact State.startChan_controls h
    · exact State.stopChan_controls h
  · exact .refl _ _

theorem State.jackDone_controls : Controls .jacks s (s.jackDone j) :=
  State.stopValve_controls.trans (.onJack (f := fun r => { r with phase := .done }) rfl fun _ h => h)

theorem State.jackAtStroke_controls : Controls .jacks s (s.jackAtStroke j) := by
  have a : Controls .jacks s ((s.jackDone j).onJack j fun r => { r with atStroke := true }) :=
    State.jackDone_controls.trans (.onJack rfl fun _ h => h)
  unfold State.jackAtStroke
  simp only
  split
  · exact a.trans (.jackSetLevel _ _)
  · exact a

theorem State.jackActivate_controls : Controls .jacks s (s.jackActivate j d) := by
  unfold State.jackActivate
  cases d <;> exact .onJack rfl fun _ h => h

theorem State.startActive_controls : Controls .jacks s (s.startActive l) :=
  .forEach (fun _ _ => by split <;> first | exact State.startValve_controls | exact .refl _ _) s

theorem State.settleBegin_controls : Controls .jacks s s.settleBegin :=
  (Controls.jackSetLevel (s := s) s.jackSet { s.level with phase := .settle, phaseTime := 0 }).trans
    State.pumpFollow_controls

theorem State.liftComplete_controls : Controls .jacks s s.liftComplete :=
  (Controls.jackSetLevel (s := s) s.jackSet { s.level with pass := s.level.pass + 1 }).trans State.settleBegin_controls

theorem State.contactBegin_controls : Controls .jacks s s.contactBegin := by
  have a := Controls.jackSetLevel (s := s) s.jackSet { s.level with phase := .contact, phaseTime := 0 }
  have b := a.trans (.forEach (l := s.configuredJacks) (f := fun j t => t.onJack j fun r =>
      if r.contact || r.atStroke then { r with phase := .done } else { r with phase := .active, dir := .outward })
    (fun j t => .onJack (by split <;> rfl) (by split <;> exact fun _ h => h)) _)
  have c := (b.trans (State.startActive_controls (l := s.configuredJacks))).trans State.pumpFollow_controls
  unfold State.contactBegin
  simp only
  split
  · exact c
  · exact c.trans State.settleBegin_controls

theorem State.liftBegin_controls : Controls .jacks s s.liftBegin := by
  have a := Controls.jackSetLevel (s := s) s.jackSet
    { s.level with phase := .lift, phaseTime := 0, progress := Vector.replicate 6 0 }
  have b := a.trans (.forEach (l := s.selectedJacks)
    (f := fun j t => t.onJack j fun r => { r with phase := .active, dir := .outward })
    (fun _ _ => .onJack rfl fun _ h => h) _)
  exact (b.trans State.startActive_controls).trans State.pumpFollow_controls

theorem State.jackCheck_controls : Controls .jacks s s.jackCheck.1 := by
  unfold State.jackCheck
  repeat' split
  all_goals first
    | exact .refl _ _
    | exact State.settleBegin_controls
    | exact State.liftComplete_controls

theorem State.jackSettled_controls : Controls .jacks s s.jackSettled.1 :=
  State.pumpFollow_controls.trans State.jackCheck_controls

theorem State.doneAtOnce_controls {a : Action} : Controls .jacks s (s.doneAtOnce a j) := by
  unfold State.doneAtOnce
  simp only
  repeat' split
  all_goals first
    | exact .refl _ _
    | exact .onJack rfl fun _ h => h

theorem State.levelAdmit_controls {run : Bool} : Controls .jacks s (s.levelAdmit run) := by
  have a := Controls.jackSetLevel (s := s) { s.jackSet with levelMark := false } s.level.admitted
  have b := a.trans (.forEach (l := s.configuredJacks)
    (f := fun j t => t.onJack j fun r => { r with phase := .done, atStroke := false })
    (fun _ _ => .onJack rfl fun _ h => h) _)
  unfold State.levelAdmit
  simp only
  split
  · exact b.trans State.contactBegin_controls
  · exact b

theorem State.jackAdmit_controls {a : Action} {run : Bool} : Controls .jacks s (s.jackAdmit a run).1 := by
  have z := Controls.jackSetLevel (s := s) { s.jackSet with runTime := 0 } s.level
  have moved : ∀ t, Controls .jacks s t → Controls .jacks s
      (forEach (t.jacksOf a) (fun j t => (t.jackActivate j a.dir).doneAtOnce a j) t) := fun t h =>
    h.trans (.forEach (fun _ _ => State.jackActivate_controls.trans State.doneAtOnce_controls) t)
  unfold State.jackAdmit
  simp only
  split
  · exact z.trans State.levelAdmit_controls
  · split
    · split
      · exact ((moved _ z).trans State.startActive_controls).trans State.pumpFollow_controls
      · exact moved _ z
    · exact (moved _ z).trans State.jackCheck_controls

theorem State.jackChange_controls {k : JackId} {run : Bool} : Controls .jacks s (s.jackChange j k d run).1 := by
  have a : Controls .jacks s ((s.stopValve j).onJack j fun r => { r with phase := .idle }) :=
    State.stopValve_controls.trans (.onJack rfl fun _ h => h)
  have b := a.trans (.jackSetLevel { ((s.stopValve j).onJack j fun r => { r with phase := .idle }).jackSet with
    runTime := 0 } ((s.stopValve j).onJack j fun r => { r with phase := .idle }).level)
  have c := (b.trans (State.jackActivate_controls (j := k) (d := d))).trans
    (State.doneAtOnce_controls (a := .jack k d) (j := k))
  unfold State.jackChange
  simp only
  split
  · exact (c.trans State.startActive_controls).trans State.jackSettled_controls
  · exact c.trans State.jackSettled_controls

theorem State.jackResume_controls {first : Bool} : Controls .jacks s (s.jackResume first).1 := by
  unfold State.jackResume
  repeat' split
  all_goals first
    | exact .refl _ _
    | exact State.contactBegin_controls
    | exact .jackSetLevel _ _
    | exact State.startActive_controls.trans State.jackSettled_controls

theorem State.storeJackFault_controls {f : FaultCode} : Controls .jacks s (s.storeJackFault f j) := by
  unfold State.storeJackFault
  split
  · exact .refl _ _
  · rename_i e
    have a : Controls .jacks s (s.onJack j fun r => { r with fault := some f }) :=
      .onJack rfl fun x h => by simp [h] at e
    exact a.trans (.jackSetLevel _ _)

theorem State.stopPump_controls : Controls .jacks s s.stopPump := by
  unfold State.stopPump
  split <;> rename_i e
  · exact State.stopChan_controls (by rw [State.role_of_roleChan e]; rfl)
  · exact .refl _ _

theorem State.idleJacks_controls : Controls .jacks s s.idleJacks :=
  .forEach (fun _ _ => .onJack rfl fun _ h => h) s

theorem State.storeEndFault_controls {e : Ending} : Controls .jacks s (s.storeEndFault e) := by
  unfold State.storeEndFault
  split
  · exact .forEach (fun _ _ => State.storeJackFault_controls) s
  · exact .refl _ _

theorem State.recordJackEnd_controls {a : Action} {o : MotionOutcome} : Controls .jacks s (s.recordJackEnd a o) := by
  unfold State.recordJackEnd
  split <;> exact .jackSetLevel _ _

theorem State.jackEnd_controls {a : Action} {e : Ending} : Controls .jacks s (s.jackEnd a e) :=
  ((((Controls.forEach (fun _ _ => State.stopValve_controls) s).trans State.stopPump_controls).trans
    State.idleJacks_controls).trans State.storeEndFault_controls).trans State.recordJackEnd_controls

theorem State.settleDecide_controls : Controls .jacks s s.settleDecide.1 := by
  have a := Controls.jackSetLevel (s := s) s.jackSet { s.level with pitch := s.tilt.pitch, roll := s.tilt.roll }
  unfold State.settleDecide
  simp only
  repeat' split
  all_goals first
    | exact a
    | exact (a.trans (.jackSetLevel _ _)).trans State.contactBegin_controls
    | exact (a.trans (.jackSetLevel _ _)).trans (.jackSetLevel _ _)
    | exact (a.trans (.jackSetLevel _ _)).trans State.liftBegin_controls

end Sys2Proof.Machine
end

