-- ==== Sys2Proof/Laws/Follows.lean ====
section
/-! SUPPORT. What the work of one event can do to the state, as a relation that every piece of work keeps, and that
adds up along the work of an event. -/

namespace Sys2Proof.Machine

/-- With the alarm inactive and the road state not ROAD, the work of an event lets a fault pattern play on or starts one, and
takes from the fault count at most what the start of that pattern takes (R130). -/
def State.soundsOn (s t : State) : Prop :=
  s.alarm = false → s.road ≠ .road → t.alarm = false ∧
    ((t.faultPattern = s.faultPattern ∧ min 4 s.faultCount ≤ t.faultCount) ∨
      (s.faultPattern = none ∧ t.faultPattern = some s.now ∧ min 4 (s.faultCount + 1) - 1 ≤ t.faultCount))

/-- With the alarm inactive and the road state not ROAD, an ending FAULT has raised the fault count (R130). -/
def State.faultSounds (s t : State) : Prop :=
  s.alarm = false → s.road ≠ .road → t.alarm = false ∧ t.faultPattern = some (s.faultPattern.getD s.now) ∧
    min 4 (s.faultCount + 1) - (if s.faultPattern = none then 1 else 0) ≤ t.faultCount

theorem State.soundsOn_same {s t : State} (a : t.alarm = s.alarm) (p : t.faultPattern = s.faultPattern)
    (c : t.faultCount = s.faultCount) : s.soundsOn t := fun h _ =>
  ⟨a.trans h, .inl ⟨p, c ▸ Nat.min_le_right _ _⟩⟩

theorem State.soundsOn.trans {s t u : State} (a : s.soundsOn t) (b : t.soundsOn u) (n : t.now = s.now)
    (r : t.road = s.road) : s.soundsOn u := by
  intro h k
  obtain ⟨ta, x⟩ := a h k
  obtain ⟨ua, y⟩ := b ta (r ▸ k)
  refine ⟨ua, ?_⟩
  rcases x with ⟨p, c⟩ | ⟨o, p, c⟩ <;> rcases y with ⟨q, d⟩ | ⟨q, v, d⟩
  · exact .inl ⟨q.trans p, by omega⟩
  · exact .inr ⟨p ▸ q, n ▸ v, by omega⟩
  · exact .inr ⟨o, q.trans p, by omega⟩
  · rw [p] at q; cases q

theorem State.faultSounds.after {s t u : State} (a : s.faultSounds t) (b : t.soundsOn u) (r : t.road = s.road) :
    s.faultSounds u := by
  intro h k
  obtain ⟨ta, p, c⟩ := a h k
  obtain ⟨ua, y⟩ := b ta (r ▸ k)
  rcases y with ⟨q, d⟩ | ⟨q, -, -⟩
  · refine ⟨ua, q.trans p, ?_⟩
    split at c <;> simp_all only [if_true, if_false] <;> omega
  · rw [p] at q; cases q

theorem State.faultSounds.before {s t u : State} (a : s.soundsOn t) (b : t.faultSounds u) (n : t.now = s.now)
    (r : t.road = s.road) : s.faultSounds u := by
  intro h k
  obtain ⟨ta, x⟩ := a h k
  obtain ⟨ua, p, c⟩ := b ta (r ▸ k)
  refine ⟨ua, ?_⟩
  rcases x with ⟨q, d⟩ | ⟨o, q, d⟩
  · rw [q] at c p
    refine ⟨n ▸ p, ?_⟩
    split at c <;> simp_all only [if_true, if_false] <;> omega
  · rw [q] at c p
    simp only [o, Option.getD_none, Option.getD_some, reduceCtorEq, if_false, if_true] at c p ⊢
    exact ⟨p, by omega⟩

/-- What the work handed on within an event can do. `freed` names the groups whose claims an ending may free whatever
their mode. -/
structure Follows (freed : Group → Prop) (s t : State) : Prop where
  fixed : t.fixedPart = s.fixedPart
  links : ∀ p, (t.port p).link = (s.port p).link
  notices : ∀ p, ∃ x, (t.port p).pending = (s.port p).pending ||| x
  readings : ∀ n, (t.chan n).reading = (s.chan n).reading
  seated : ∀ n, (t.chan n).driven = true → (s.chan n).driven = true ∨ (s.chan n).census = .seated
  counts : ∀ id m, s.countKept t id m
  sliderFault : ∀ id f, (s.slider id).fault = some f → (t.slider id).fault = some f
  jackReading : ∀ j, (t.jack j).reading = (s.jack j).reading
  jackFault : ∀ j f, (s.jack j).fault = some f → (t.jack j).fault = some f
  free : ∀ g, s.claim g = none → t.claim g = none
  held : ∀ g c, ¬ freed g → s.claim g = some c → c.owner ≠ .sequencer → c.mode = .hold →
    t.claim g = some c ∨ t.claim g = some { c with ended := true }
  claimed : ∀ g c, t.claim g = some c → ∃ b, s.claim g = some b ∧ c.owner = b.owner ∧ c.mode = b.mode ∧
    c.deadline = b.deadline ∧ (b.owner ≠ .sequencer → c.action = b.action)
  orders : s.nextOrder ≤ t.nextOrder
  entries : ∀ e ∈ t.motions, s.nextOrder ≤ e.order ∨ e ∈ s.motions
  kept : ∀ e ∈ s.motions, e ∈ t.motions ∨ t.noticed .motionEnd = true
  budget : s.heldUnits ≤ s.budget → t.heldUnits ≤ t.budget
  planName : t.plan.name = s.plan.name
  planOwner : t.plan.owner = s.plan.owner
  planCount : t.plan.stepCount = s.plan.stepCount
  planReserved : t.plan.reserved = s.plan.reserved
  sounds : s.soundsOn t

/-- What the work of an event leaves alone while no plan is RUNNING: the plan record, the admission of motions, and
everything of a group that has no motion. -/
structure Rests (s t : State) : Prop where
  plan : t.plan = s.plan
  orders : t.nextOrder = s.nextOrder
  entries : ∀ e ∈ t.motions, e ∈ s.motions
  axes : ∀ g, s.still g → axisSame s t g
  chans : ∀ n, (∀ g, (s.role n).group = some g → s.still g) → t.chan n = s.chan n ∧ t.paceRec n = s.paceRec n

/-- A notice class in a pending set stays there when classes are added. -/
theorem bit_kept {p x b : Classes} (h : p &&& b = b) : (p ||| x) &&& b = b := by
  ext i hi
  have := congrArg (fun v : Classes => v[i]) h
  simp only [BitVec.getElem_and, BitVec.getElem_or] at this ⊢
  revert this
  cases p[i] <;> cases x[i] <;> cases b[i] <;> simp

theorem State.noticed_iff (s : State) (c : Notice) :
    s.noticed c = true ↔ ∀ p, (s.port p).pending &&& c.bit = c.bit := by
  constructor
  · intro h p
    have := List.all_eq_true.mp h p (by cases p <;> decide)
    simpa using this
  · intro h
    exact List.all_eq_true.mpr fun p _ => by simpa using h p

theorem State.noticed_raise (s : State) (c : Notice) : (s.raise c).noticed c = true := by
  rw [State.noticed_iff]
  intro p
  rw [State.port_raise]
  ext i hi
  simp only [BitVec.getElem_and, BitVec.getElem_or]
  cases (s.port p).pending[i] <;> cases c.bit[i] <;> rfl

namespace Follows

variable {F G : Group → Prop} {s t u : State}

theorem refl (F : Group → Prop) (s : State) : Follows F s s where
  fixed := rfl
  links _ := rfl
  notices _ := ⟨0, by simp⟩
  readings _ := rfl
  seated _ h := .inl h
  counts _ _ := .inl rfl
  sliderFault _ _ h := h
  jackReading _ := rfl
  jackFault _ _ h := h
  free _ h := h
  held _ _ _ h _ _ := .inl h
  claimed _ c h := ⟨c, h, rfl, rfl, rfl, fun _ => rfl⟩
  orders := Nat.le_refl _
  entries _ h := .inr h
  kept _ h := .inl h
  budget h := h
  planName := rfl
  planOwner := rfl
  planCount := rfl
  planReserved := rfl
  sounds := State.soundsOn_same rfl rfl rfl

/-- A notice raised before the work stands after it. -/
theorem noticed (a : Follows F s t) {c : Notice} (h : s.noticed c = true) : t.noticed c = true := by
  rw [State.noticed_iff] at h ⊢
  intro p
  obtain ⟨x, e⟩ := a.notices p
  rw [e]
  exact bit_kept (h p)

theorem layout (a : Follows F s t) : t.layout = s.layout := by
  have h := congrArg State.layout a.fixed
  exact h

theorem supply (a : Follows F s t) : t.supply = s.supply := by
  have h := congrArg State.supply a.fixed
  exact h

theorem now (a : Follows F s t) : t.now = s.now := by
  have h := congrArg State.now a.fixed
  exact h

theorem road (a : Follows F s t) : t.road = s.road := by
  have h := congrArg State.park a.fixed
  have p : t.park = s.park := h
  simp only [State.road, p]

theorem role (a : Follows F s t) (n : Chan) : t.role n = s.role n := by
  simp [State.role, a.layout]

theorem motorHome (a : Follows F s t) (id : Slider) (m : Motor) : t.motorHome id m = s.motorHome id m :=
  State.motorHome_congr a.layout (by have h := congrArg State.lines a.fixed; exact h) id m

theorem trans (a : Follows F s t) (b : Follows F t u) : Follows F s u where
  fixed := b.fixed.trans a.fixed
  links p := (b.links p).trans (a.links p)
  notices p := by
    obtain ⟨x, e⟩ := a.notices p
    obtain ⟨y, f⟩ := b.notices p
    exact ⟨x ||| y, by rw [f, e, BitVec.or_assoc]⟩
  readings n := (b.readings n).trans (a.readings n)
  seated n h := by
    rcases b.seated n h with d | c
    · exact a.seated n d
    · right
      have r := congrArg Channel.census (a.readings n)
      exact r.symm.trans c
  counts id m := (a.counts id m).trans (b.counts id m) (a.motorHome id m)
  sliderFault id f h := b.sliderFault id f (a.sliderFault id f h)
  jackReading j := (b.jackReading j).trans (a.jackReading j)
  jackFault j f h := b.jackFault j f (a.jackFault j f h)
  free g h := b.free g (a.free g h)
  held g c n h o m := by
    rcases a.held g c n h o m with e | e
    · exact b.held g c n e o m
    · right
      rcases b.held g _ n e o m with x | x <;> exact x
  claimed g c h := by
    obtain ⟨d, e, o, m, l, k⟩ := b.claimed g c h
    obtain ⟨f, e', o', m', l', k'⟩ := a.claimed g d e
    exact ⟨f, e', o.trans o', m.trans m', l.trans l', fun q => (k (o' ▸ q)).trans (k' q)⟩
  orders := Nat.le_trans a.orders b.orders
  entries e h := by
    rcases b.entries e h with x | x
    · exact .inl (Nat.le_trans a.orders x)
    · exact a.entries e x
  kept e h := by
    rcases a.kept e h with x | x
    · exact b.kept e x
    · exact .inr (b.noticed x)
  budget h := b.budget (a.budget h)
  planName := b.planName.trans a.planName
  planOwner := b.planOwner.trans a.planOwner
  planCount := b.planCount.trans a.planCount
  planReserved := b.planReserved.trans a.planReserved
  sounds := a.sounds.trans b.sounds a.now a.road

/-- More groups may be named as freed. -/
theorem weaken (h : ∀ g, F g → G g) (a : Follows F s t) : Follows G s t :=
  { a with held := fun g c n => a.held g c fun f => n (h g f) }

end Follows

namespace Rests

variable {F : Group → Prop} {s t u : State}

theorem refl (s : State) : Rests s s where
  plan := rfl
  orders := rfl
  entries _ h := h
  axes g _ := axisSame_refl s g
  chans _ _ := ⟨rfl, rfl⟩

theorem still (a : Rests s t) {g : Group} (h : s.still g) : t.still g := fun e m => h e (a.entries e m)

theorem trans (l : t.layout = s.layout) (a : Rests s t) (b : Rests t u) : Rests s u where
  plan := b.plan.trans a.plan
  orders := b.orders.trans a.orders
  entries e h := a.entries e (b.entries e h)
  axes g h := axisSame_trans (a.axes g h) (b.axes g (a.still h))
  chans n h := by
    have r : t.role n = s.role n := by simp [State.role, l]
    have x := a.chans n h
    have y := b.chans n fun g e => a.still (h g (r ▸ e))
    exact ⟨y.1.trans x.1, y.2.trans x.2⟩

end Rests

/-! ### The controllers within the work of an event -/

variable {F : Group → Prop} {g : Group} {s t : State}

/-- What a controller does is part of what the work of an event can do. -/
theorem Controls.follows (a : Controls g s t) : Follows F s t := by
  have port : ∀ p, t.port p = s.port p := fun p => by
    have h := congrArg State.ports a.outer
    exact congrArg (fun v : Vector PortRec 3 => v[portIndex p]) h
  have claim : ∀ h, t.claim h = s.claim h := fun h => by
    have e := congrArg State.claims a.outer
    exact congrArg (fun v : Vector (Option Claim) 6 => v[groupIndex h]) e
  have load : t.load = s.load := by have h := congrArg State.load a.outer; exact h
  have paused : t.paused = s.paused := by have h := congrArg State.paused a.outer; exact h
  have supply : t.supply = s.supply := by have h := congrArg State.supply a.outer; exact h
  have plan : t.plan = s.plan := by have h := congrArg State.plan a.outer; exact h
  have orders : t.nextOrder = s.nextOrder := by have h := congrArg State.nextOrder a.outer; exact h
  have motions : t.motions = s.motions := by simp [State.motions, load, paused]
  exact {
    fixed := by have h := congrArg State.fixedPart a.outer; exact h
    links := fun p => by rw [port]
    notices := fun p => ⟨0, by rw [port]; simp⟩
    readings := a.readings
    seated := a.seated
    counts := a.counts
    sliderFault := a.sliderFault
    jackReading := a.jackReading
    jackFault := a.jackFault
    free := fun h e => by rw [claim, e]
    held := fun h c _ e _ _ => .inl (by rw [claim, e])
    claimed := fun h c e => ⟨c, by rw [← claim, e], rfl, rfl, rfl, fun _ => rfl⟩
    orders := Nat.le_of_eq orders.symm
    entries := fun e h => .inr (motions ▸ h)
    kept := fun e h => .inl (motions ▸ h)
    budget := fun h => by simpa [State.heldUnits, State.budget, load, supply] using h
    planName := by rw [plan]
    planOwner := by rw [plan]
    planCount := by rw [plan]
    planReserved := by rw [plan]
    sounds := State.soundsOn_same (by have h := congrArg State.alarm a.outer; exact h)
      (by have h := congrArg State.faultPattern a.outer; exact h)
      (by have h := congrArg State.faultCount a.outer; exact h) }

/-- A controller of a group that has a motion leaves every group at rest alone. -/
theorem Controls.rests (a : Controls g s t) (h : ¬ s.still g) : Rests s t := by
  have load : t.load = s.load := by have h := congrArg State.load a.outer; exact h
  have paused : t.paused = s.paused := by have h := congrArg State.paused a.outer; exact h
  exact {
    plan := by have h := congrArg State.plan a.outer; exact h
    orders := by have h := congrArg State.nextOrder a.outer; exact h
    entries := fun e m => by simpa [State.motions, load, paused] using m
    axes := fun k st => a.axes k (by rintro rfl; exact h st)
    chans := fun n st => ⟨a.chans n fun e => h (st g e), a.paces n fun e => h (st g e)⟩ }

end Sys2Proof.Machine
end

