-- ==== Sys2Proof/Laws/Cascade.lean ====
section
/-! SUPPORT. Every piece of work of an event keeps to what `Does` says, and so does the whole work of an event. -/

namespace Sys2Proof.Machine

/-- What a piece of work can do: what `Follows` says, and, while no plan is RUNNING, what `Rests` says. -/
structure Does (freed : Group → Prop) (s t : State) : Prop where
  follows : Follows freed s t
  rests : s.planRunning = false → Rests s t

variable {F : Group → Prop} {g : Group} {s t u : State}

namespace Does

theorem refl (F : Group → Prop) (s : State) : Does F s s := ⟨.refl F s, fun _ => .refl s⟩

theorem trans (a : Does F s t) (b : Does F t u) : Does F s u :=
  ⟨a.follows.trans b.follows, fun h => (a.rests h).trans a.follows.layout
    (b.rests (by simpa [State.planRunning, (a.rests h).plan] using h))⟩

theorem weaken {G : Group → Prop} (h : ∀ g, F g → G g) (a : Does F s t) : Does G s t :=
  ⟨a.follows.weaken h, a.rests⟩

theorem of_controls (a : Controls g s t) (h : ¬ s.still g) : Does F s t := ⟨a.follows, fun _ => a.rests h⟩

/-- While a plan is RUNNING only `Follows` is asked. -/
theorem of_running (a : Follows F s t) (h : s.planRunning = true) : Does F s t :=
  ⟨a, fun e => by rw [h] at e; exact absurd e (by decide)⟩

/-- A fold of steps that each keep to `Does`. -/
theorem forEach {α : Type} {l : List α} {f : α → State → State} (h : ∀ a t, Does F t (f a t)) (s : State) :
    Does F s (forEach l f s) := by
  induction l generalizing s with
  | nil => exact refl F s
  | cons a rest ih => exact (h a s).trans (ih (f a s))

/-! ### Small updates -/

/-- A notice is raised. -/
theorem raise (c : Notice) : Does F s (s.raise c) where
  follows :=
    { Follows.refl F s with
      fixed := rfl
      links := fun p => by simp [PortRec.link]
      notices := fun p => ⟨c.bit, by simp⟩
      kept := fun e h => .inl h }
  rests _ := { Rests.refl s with }

/-- The alarm and the buzzer's fault patterns change alone. -/
theorem alarm (a : Bool) (n : Nat) (p : Option Time)
    (h : s.soundsOn { s with alarm := a, faultCount := n, faultPattern := p }) :
    Does F s { s with alarm := a, faultCount := n, faultPattern := p } where
  follows := { Follows.refl F s with fixed := rfl, kept := fun _ h => .inl h, sounds := h }
  rests _ := { Rests.refl s with }

/-- A FAULT ending's part in the fault count, with the pattern that it starts (R130). -/
theorem faultSounds_countFault : s.faultSounds s.countFault := by
  intro h k
  unfold State.countFault State.buzzKick
  cases s.faultPattern <;> simp [h]

theorem countFault : Does F s s.countFault := by
  unfold State.countFault State.buzzKick
  simp only
  split
  · rename_i c
    refine alarm s.alarm _ _ fun h k => ⟨h, .inr ⟨c.2.1, rfl, ?_⟩⟩
    simp only
    omega
  · exact alarm s.alarm _ s.faultPattern fun h k => ⟨h, .inl ⟨rfl, by simp only; omega⟩⟩

theorem evalAlarm : Does F s s.evalAlarm := by
  unfold State.evalAlarm
  simp only
  split
  · rename_i c
    have r : s.road = .road := by simp only [Bool.and_eq_true, decide_eq_true_eq] at c; exact c.1.1
    exact (alarm true 0 none fun _ k => absurd r k).trans (raise _)
  · split
    · rename_i c
      have r : s.alarm = true := by simp only [Bool.and_eq_true] at c; exact c.1
      unfold State.buzzKick
      split
      · exact alarm false _ _ fun h _ => by rw [r] at h; cases h
      · exact alarm false s.faultCount s.faultPattern fun h _ => by rw [r] at h; cases h
    · exact refl F s

theorem endNotices {e : Ending} : Does F s (s.endNotices e) := by
  unfold State.endNotices
  simp only
  have a : Does F s (s.raise .motionEnd) := raise _
  split <;> split
  · exact ((a.trans (raise _)).trans countFault).trans (raise _)
  · exact a.trans (raise _)
  · exact (a.trans (raise _)).trans countFault
  · exact a

/-- The notices of an ending raise MOTION_END. -/
theorem noticed_endNotices {e : Ending} : (s.endNotices e).noticed .motionEnd = true := by
  have a := s.noticed_raise .motionEnd
  unfold State.endNotices
  simp only
  have b : (if e.outcome = .fault then ((s.raise .motionEnd).raise .fault).countFault else s.raise .motionEnd).noticed
      .motionEnd = true := by
    split
    · exact (((raise (F := fun _ => False) _).trans countFault).follows).noticed a
    · exact a
  split
  · exact (raise (F := fun _ => False) _).follows.noticed b
  · exact b

end Does

/-! ### Claims -/

/-- A claim of a group is replaced by one that the rules of an ending allow. -/
theorem Follows.setClaim {c : Option Claim}
    (free : s.claim g = none → c = none)
    (held : ∀ b, s.claim g = some b → b.owner ≠ .sequencer → b.mode = .hold → F g ∨ c = some b ∨ c = some { b with ended := true })
    (claimed : ∀ b, c = some b → ∃ d, s.claim g = some d ∧ b.owner = d.owner ∧ b.mode = d.mode ∧
      b.deadline = d.deadline ∧ (d.owner ≠ .sequencer → b.action = d.action)) :
    Does F s (s.setClaim g c) where
  follows :=
    { Follows.refl F s with
      fixed := rfl
      kept := fun _ h => .inl h
      free := fun k h => by
        rw [State.claim_setClaim]
        split
        · rename_i e; subst e; exact free h
        · exact h
      held := fun k b n h o m => by
        rw [State.claim_setClaim]
        split
        · rename_i e; subst e
          rcases held b h o m with x | x
          · exact absurd x n
          · exact x
        · exact .inl h
      claimed := fun k b h => by
        rw [State.claim_setClaim] at h
        split at h
        · rename_i e; subst e; exact claimed b h
        · exact ⟨b, h, rfl, rfl, rfl, fun _ => rfl⟩ }
  rests _ := { Rests.refl s with axes := fun k _ => by cases k <;> simp [axisSame] }

/-- What an ending does to a claim; only one whose rule says so frees a HOLD claim. -/
theorem State.endClaim_does {c : ClaimEffect} (h : c = .free → F g) : Does F s (s.endClaim g c) := by
  unfold State.endClaim
  split
  · split
    · rename_i b e
      refine Follows.setClaim (by simp [e]) ?_ ?_
      · intro d x _ m
        rw [e] at x; obtain rfl := Option.some.inj x
        exact .inr (.inr (by simp [endedByRule, m]))
      · intro d x
        refine ⟨b, e, ?_⟩
        unfold endedByRule at x
        split at x
        · obtain rfl := Option.some.inj x; exact ⟨rfl, rfl, rfl, fun _ => rfl⟩
        · split at x
          · obtain rfl := Option.some.inj x; exact ⟨rfl, rfl, rfl, fun _ => rfl⟩
          · simp at x
    · exact .refl F s
  · exact Follows.setClaim (fun _ => rfl) (fun _ _ _ _ => .inl (h rfl)) (by simp)
  · exact .refl F s

theorem State.freePlanClaims_does : Does F s s.freePlanClaims := by
  refine Does.forEach (fun k t => ?_) s
  split
  · rename_i c e
    split
    · rename_i o
      refine Follows.setClaim (fun _ => rfl) ?_ (by simp)
      intro b x n _
      rw [e] at x; obtain rfl := Option.some.inj x
      exact absurd o n
    · exact .refl F t
  · exact .refl F t

theorem State.aimClaim_does {a : Action} : Does F s (s.aimClaim g a) := by
  unfold State.aimClaim
  split
  · rename_i c e
    split
    · rename_i o
      refine Follows.setClaim (by simp [e]) ?_ ?_
      · intro b x n _
        rw [e] at x; obtain rfl := Option.some.inj x
        exact absurd o n
      · intro b x
        obtain rfl := Option.some.inj x
        exact ⟨c, e, rfl, rfl, rfl, fun n => absurd o n⟩
    · exact .refl F s
  · exact .refl F s

/-! ### The lists -/

theorem unitsOf_filter (l : List Entry) (p : Entry → Bool) : unitsOf (l.filter p) ≤ unitsOf l := by
  induction l with
  | nil => simp
  | cons e rest ih =>
    simp only [List.filter_cons, unitsOf] at ih ⊢
    split <;> simp <;> omega

/-- The lists change: what is asked of a change of the two lists alone. -/
theorem Does.lists {l p : List Entry}
    (entries : ∀ e ∈ (l ++ p).map Entry.motion, e ∈ s.motions)
    (kept : ∀ e ∈ s.motions, e ∈ (l ++ p).map Entry.motion ∨ s.noticed .motionEnd = true)
    (units : s.heldUnits ≤ s.budget → unitsOf l ≤ s.budget) :
    Does F s { s.setLoad l with paused := p } where
  follows :=
    { Follows.refl F s with
      fixed := rfl
      entries := fun e h => .inr (entries e h)
      kept := fun e h => kept e h
      budget := units }
  rests _ := { Rests.refl s with entries := fun e h => entries e h }

theorem mem_motions {e : Entry} : e ∈ s.motions ↔ ∃ x ∈ s.load ++ s.paused, x.motion = e := by
  simp [State.motions, or_and_right, exists_or]

/-- The entries of a group leave both lists once MOTION_END is raised. -/
theorem State.removeEntry_does (h : s.noticed .motionEnd = true) : Does F s (s.removeEntry g) := by
  refine Does.lists ?_ (fun _ _ => .inr h) (fun b => Nat.le_trans (unitsOf_filter _ _) b)
  intro e m
  simp only [List.map_append, List.mem_append, List.mem_map, List.mem_filter, State.motions] at m ⊢
  rcases m with ⟨x, ⟨a, _⟩, r⟩ | ⟨x, ⟨a, _⟩, r⟩
  · exact .inl ⟨x, a, r⟩
  · exact .inr ⟨x, a, r⟩

theorem State.setLoad_paused_does {l : List Entry}
    (entries : ∀ e ∈ (l ++ s.paused).map Entry.motion, e ∈ s.motions)
    (kept : ∀ e ∈ s.motions, e ∈ (l ++ s.paused).map Entry.motion ∨ s.noticed .motionEnd = true)
    (units : s.heldUnits ≤ s.budget → unitsOf l ≤ s.budget) : Does F s (s.setLoad l) := by
  exact Does.lists (p := s.paused) entries kept units

/-- One entry of the pause list is offered the units left. -/
theorem offerUnits_does {e : Entry} (m : e.motion ∈ s.motions) : Does F s (offerUnits s e) := by
  unfold offerUnits
  split
  · rename_i fit
    refine Does.lists (l := s.load ++ [{ e with state := .running, pausedSince := none }])
      (p := s.paused.filter fun x => x != e) ?_ ?_ ?_
    · intro x h
      simp only [List.map_append, List.mem_append, List.mem_map, List.mem_filter, List.mem_singleton] at h
      rcases h with (⟨y, a, r⟩ | ⟨y, rfl, r⟩) | ⟨y, ⟨a, _⟩, r⟩
      · exact mem_motions.mpr ⟨y, by simp [a], r⟩
      · exact r ▸ m
      · exact mem_motions.mpr ⟨y, by simp [a], r⟩
    · intro x h
      left
      obtain ⟨y, a, rfl⟩ := mem_motions.mp h
      simp only [List.map_append, List.mem_append, List.mem_map, List.mem_filter, List.mem_singleton] at a ⊢
      by_cases q : y = e
      · subst q; exact .inl (.inr ⟨_, rfl, rfl⟩)
      · rcases a with a | a
        · exact .inl (.inl ⟨y, a, rfl⟩)
        · exact .inr ⟨y, ⟨a, by simpa using q⟩, rfl⟩
    · intro _
      have q := of_decide_eq_true fit
      simp only [State.heldUnits, unitsOf, List.map_append, List.sum_append, List.map_cons, List.map_nil, List.sum_cons,
        List.sum_nil] at q ⊢
      omega
  · exact .refl F s

theorem offers_does {l : List Entry} (m : ∀ e ∈ l, e.motion ∈ s.motions) : Does F s (l.foldl offerUnits s) := by
  have keep : ∀ (t : State) (e : Entry), e.motion ∈ t.motions → ∀ x ∈ t.motions, x ∈ (offerUnits t e).motions := by
    intro t e me x h
    obtain ⟨y, a, rfl⟩ := mem_motions.mp h
    unfold offerUnits
    split
    · simp only [State.motions, State.enterLoad, State.setLoad, List.map_append, List.mem_append, List.mem_map,
        List.mem_filter, List.mem_singleton] at a ⊢
      by_cases q : y = e
      · subst q; exact .inl (.inr ⟨_, rfl, rfl⟩)
      · rcases a with a | a
        · exact .inl (.inl ⟨y, a, rfl⟩)
        · exact .inr ⟨y, ⟨a, by simpa using q⟩, rfl⟩
    · exact h
  induction l generalizing s with
  | nil => exact .refl F s
  | cons e rest ih =>
    have h := m e (by simp)
    exact (offerUnits_does h).trans (ih fun x hx => keep s e h _ (m x (by simp [hx])))

theorem mem_scanOrder {l : List Entry} {e : Entry} : e ∈ scanOrder l → e ∈ l := by
  simp only [scanOrder, List.mem_append, List.mem_filter]
  rintro (h | h) <;> exact h.1

theorem State.scan_does : Does F s s.scan.1 :=
  offers_does fun e h => mem_motions.mpr ⟨e, by simp [mem_scanOrder h], rfl⟩

theorem mem_insertByOrder {e x : Entry} {l : List Entry} : x ∈ insertByOrder e l ↔ x = e ∨ x ∈ l := by
  induction l with
  | nil => simp [insertByOrder]
  | cons y rest ih =>
    simp only [insertByOrder]
    split
    · simp
    · simp only [List.mem_cons, ih]
      tauto

/-- The budget places a new motion. Its admission order is the next; nothing else is asked of it. -/
theorem State.placeEntry_follows {o : Owner} {m : Mode} {a : Action} : Follows F s (s.placeEntry g o m a).1 := by
  unfold State.placeEntry
  simp only
  split
  · rename_i fit
    exact
      { Follows.refl F s with
        fixed := rfl
        orders := Nat.le_succ _
        entries := fun e h => by
          simp only [State.motions, State.enterLoad, State.setLoad, List.map_append, List.mem_append, List.map_cons,
            List.map_nil, List.mem_singleton] at h ⊢
          rcases h with (h | rfl) | h
          · exact .inr (.inl h)
          · exact .inl (Nat.le_refl _)
          · exact .inr (.inr h)
        kept := fun e h => by
          left
          simp only [State.motions, State.enterLoad, State.setLoad, List.map_append, List.mem_append] at h ⊢
          rcases h with h | h
          · exact .inl (.inl h)
          · exact .inr h
        budget := fun _ => by
          have q := of_decide_eq_true fit
          simp only [State.heldUnits, State.enterLoad, State.setLoad, unitsOf, State.budget, List.map_append,
            List.sum_append, List.map_cons, List.map_nil, List.sum_cons, List.sum_nil] at q ⊢
          omega }
  · exact
      { Follows.refl F s with
        fixed := rfl
        orders := Nat.le_succ _
        entries := fun e h => by
          obtain ⟨y, a, rfl⟩ := mem_motions.mp h
          simp only [State.enterPause, List.mem_append, mem_insertByOrder] at a
          rcases a with a | rfl | a
          · exact .inr (mem_motions.mpr ⟨y, by simp [a], rfl⟩)
          · exact .inl (Nat.le_refl _)
          · exact .inr (mem_motions.mpr ⟨y, by simp [a], rfl⟩)
        kept := fun e h => by
          obtain ⟨y, a, rfl⟩ := mem_motions.mp h
          refine .inl (mem_motions.mpr ⟨y, ?_, rfl⟩)
          simp only [State.enterPause, List.mem_append, mem_insertByOrder] at a ⊢
          rcases a with a | a
          · exact .inl a
          · exact .inr (.inr a) }

theorem State.controllerAdmit_controls {a : Action} {run : Bool} : Controls g s (s.controllerAdmit g a run).1 := by
  unfold State.controllerAdmit
  split
  · exact State.slideAdmit_controls (id := .room _)
  · exact State.jackAdmit_controls
  · exact State.slideAdmit_controls (id := .awning)

theorem State.placeAndStart_follows {o : Owner} {m : Mode} {a : Action} :
    Follows F s (s.placeAndStart g o m a).1 :=
  State.placeEntry_follows.trans State.controllerAdmit_controls.follows

theorem State.admit_follows {o : Owner} {m : Mode} {a : Action} : Follows F s (s.admitMotion g o m a).1 :=
  State.placeAndStart_follows

/-! ### Pieces of work -/

/-- Work that frees no HOLD claim. -/
def Task.plain : Task → Prop
  | .endMotion _ e => e.claim ≠ .free
  | _ => True

/-- All work of a list is plain. -/
def Plain (l : List Task) : Prop := ∀ t ∈ l, t.plain

theorem Plain.nil : Plain [] := by simp [Plain]

theorem Plain.cons {t : Task} {l : List Task} (h : t.plain) (k : Plain l) : Plain (t :: l) := by
  simpa [Plain] using ⟨h, k⟩

theorem Plain.append {l k : List Task} (a : Plain l) (b : Plain k) : Plain (l ++ k) := by
  intro t h
  rcases List.mem_append.mp h with h | h
  · exact a t h
  · exact b t h

theorem slideFault_plain {id : Slider} {f : FaultCode} : Plain (slideFault id f) := by
  simp [Plain, slideFault, Task.plain]

theorem jackEnding_plain {e : Ending} (h : e.claim ≠ .free) : Plain (jackEnding e) := by
  simpa [Plain, jackEnding, Task.plain] using h

variable {id : Slider} {m : Motor} {d : Dir}

theorem State.seatDone_plain : Plain (s.seatDone id m).2 := by
  unfold State.seatDone
  simp only
  split <;> simp [Plain, Task.plain]

theorem State.beginSeat_plain : Plain (s.beginSeat id m).2 := by
  unfold State.beginSeat
  simp only
  split
  · exact State.seatDone_plain
  · exact .nil

/-- A rack check hands on plain work when the work behind it is plain. -/
theorem State.rackCheck_plain {w : Work} (h : Plain w.2) : Plain (s.rackCheck id w).2 := by
  unfold State.rackCheck
  split
  · exact slideFault_plain
  · exact h

theorem State.motorStarted_plain : Plain (s.motorStarted id m).2 := by
  unfold State.motorStarted
  split
  · exact .nil
  · refine State.rackCheck_plain ?_
    repeat' split
    all_goals first
      | exact .nil
      | exact slideFault_plain
      | exact State.rackCheck_plain State.beginSeat_plain

theorem State.startMotor_plain : Plain (s.startMotor id m d).2 := by
  unfold State.startMotor
  split
  · simp only
    split
    · exact State.motorStarted_plain
    · exact .nil
  · exact .nil

theorem State.startMotors_plain : Plain (s.startMotors id d).2 := by
  unfold State.startMotors
  have fold : ∀ (l : List Motor) (w : Work), Plain w.2 →
      Plain (l.foldl (fun (w : Work) m =>
        if w.2.isEmpty && (w.1.motor id m).phase == .travel then w.1.startMotor id m d else w) w).2 := by
    intro l
    induction l with
    | nil => exact fun _ h => h
    | cons m rest ih =>
      intro w h
      refine ih _ ?_
      beta_reduce
      split
      · exact State.startMotor_plain
      · exact h
  exact fold _ _ .nil

theorem State.slideAdmit_plain {run : Bool} : Plain (s.slideAdmit id d run).2 := by
  unfold State.slideAdmit
  simp only
  repeat' split
  · simp [Plain, Task.plain]
  · exact State.startMotors_plain
  · exact .nil

theorem State.slideResume_plain : Plain (s.slideResume id).2 := by
  unfold State.slideResume
  split
  · exact State.startMotors_plain
  · exact .nil

theorem State.jackCheck_plain : Plain s.jackCheck.2 := by
  unfold State.jackCheck
  repeat' split
  all_goals first
    | exact .nil
    | exact jackEnding_plain (by simp)

theorem State.jackSettled_plain : Plain s.jackSettled.2 := State.jackCheck_plain

theorem State.jackAdmit_plain {a : Action} {run : Bool} : Plain (s.jackAdmit a run).2 := by
  unfold State.jackAdmit
  simp only
  split
  · exact .nil
  · split
    · exact .nil
    · exact State.jackCheck_plain

theorem State.jackResume_plain {first : Bool} : Plain (s.jackResume first).2 := by
  unfold State.jackResume
  repeat' split
  all_goals first
    | exact .nil
    | exact State.jackSettled_plain

theorem State.controllerAdmit_plain {a : Action} {run : Bool} : Plain (s.controllerAdmit g a run).2 := by
  unfold State.controllerAdmit
  split
  · exact State.slideAdmit_plain
  · exact State.jackAdmit_plain
  · exact State.slideAdmit_plain

theorem State.admit_plain {o : Owner} {m : Mode} {a : Action} : Plain (s.admitMotion g o m a).2 :=
  State.controllerAdmit_plain.append (by simp [Plain, Task.plain])

theorem State.controllerEnd_controls {a : Action} {e : Ending} : Controls g s (s.controllerEnd g a e) := by
  unfold State.controllerEnd
  cases g <;> simp only [sliderOf]
  · exact State.slideEnd_controls (id := .room _)
  · exact State.jackEnd_controls
  · exact State.slideEnd_controls (id := .awning)

/-- A group has a motion exactly when it is not at rest. -/
theorem State.not_still {e : Entry} (h : s.entryOf g = some e) : ¬ s.still g := by
  intro st
  have m := List.mem_of_find?_eq_some h
  have q := List.find?_some h
  exact st e.motion (mem_motions.mpr ⟨e, m, rfl⟩) (by simpa [Entry.motion] using q)

/-- The ending of a motion. -/
theorem State.motionEnd_does {e : Ending} (h : e.claim = .free → F g) : Does F s (s.motionEnd g e).1 := by
  unfold State.motionEnd
  split
  · exact .refl F s
  · rename_i m q
    have a : Does F s (s.controllerEnd g m.action e) := .of_controls State.controllerEnd_controls (State.not_still q)
    have c := State.endClaim_does (F := F) (s := (s.controllerEnd g m.action e).endNotices e) h
    exact ((a.trans .endNotices).trans c).trans
      (State.removeEntry_does (c.follows.noticed Does.noticed_endNotices))

theorem State.motionEnd_plain {e : Ending} : Plain (s.motionEnd g e).2 := by
  unfold State.motionEnd
  split
  · exact .nil
  · refine .cons trivial (.append ?_ ?_) <;> split <;> simp [Plain, Task.plain]

theorem State.handOver_does {v : View} : Does F s (s.handOver v).1 := by
  unfold State.handOver
  split
  · exact .refl F s
  · exact .evalAlarm

theorem State.resumeEntry_does {n : Nat} {first : Bool} : Does F s (s.resumeEntry g n first).1 := by
  unfold State.resumeEntry
  split
  · rename_i r
    have h : ¬ s.still g := by
      obtain ⟨e, m, q⟩ := List.any_eq_true.mp r
      intro st
      exact st e.motion (mem_motions.mpr ⟨e, by simp [m], rfl⟩) (by simp at q; exact q.1)
    cases g <;> simp only [sliderOf, State.handing]
    · exact .of_controls (State.slideResume_controls (id := .room _)) h
    · exact .of_controls State.jackResume_controls h
    · exact .of_controls (State.slideResume_controls (id := .awning)) h
  · exact .refl F s

theorem State.resumeEntry_plain {n : Nat} {first : Bool} : Plain (s.resumeEntry g n first).2 := by
  unfold State.resumeEntry
  split
  · cases g <;> simp only [sliderOf, State.handing] <;> refine .cons trivial ?_
    · exact State.slideResume_plain
    · exact State.jackResume_plain
    · exact State.slideResume_plain
  · exact .nil

/-! ### The sequencer -/

/-- The running plan's record changes in its status, step index, slots, limited flag and failure alone. -/
theorem Follows.plan (st : PlanStatus) (i : Nat) (sl : List Slot) (l : Bool) (f : Option PlanFailure) :
    Follows F s { s with plan := { s.plan with status := st, stepIndex := i, slots := sl, limited := l, failure := f } } :=
  { Follows.refl F s with fixed := rfl, kept := fun _ h => .inl h }

theorem State.planEnd_does {st : PlanStatus} {f : Option PlanFailure} (h : s.planRunning = true) :
    Does F s (s.planEnd st f).1 :=
  .of_running ((Follows.plan st s.plan.stepIndex s.plan.slots s.plan.limited f).trans (Does.raise _).follows) h

theorem State.planEnd_plain {st : PlanStatus} {f : Option PlanFailure} : Plain (s.planEnd st f).2 := by
  simp [State.planEnd, Plain, Task.plain]

theorem State.stepAdvance_does : Does F s s.stepAdvance.1 := by
  unfold State.stepAdvance
  split
  · rename_i h
    have r : s.planRunning = true := by simp at h; exact h.1
    split
    · exact .of_running (Follows.plan s.plan.status _ s.plan.slots s.plan.limited s.plan.failure) r
    · exact State.planEnd_does r
  · exact .refl F s

theorem State.stepAdvance_plain : Plain s.stepAdvance.2 := by
  unfold State.stepAdvance
  repeat' split
  · simp [Plain, Task.plain]
  · exact State.planEnd_plain
  · exact .nil

theorem State.stepBegin_does : Does F s s.stepBegin.1 := by
  unfold State.stepBegin
  split
  · rename_i r
    have a : Does F s ({ s with plan := { s.plan with slots := [] } }.raise .plan) :=
      .of_running ((Follows.plan s.plan.status s.plan.stepIndex [] s.plan.limited s.plan.failure).trans
        (Does.raise _).follows) r
    simp only
    split
    · exact a.trans (State.planEnd_does r)
    · exact a
  · exact .refl F s

theorem State.stepBegin_plain : Plain s.stepBegin.2 := by
  unfold State.stepBegin
  split
  · simp only
    split
    · exact State.planEnd_plain
    · simp [Plain, Task.plain]
  · exact .nil

theorem State.planRunning_aimClaim {a : Action} : (s.aimClaim g a).planRunning = s.planRunning := by
  unfold State.aimClaim
  repeat' split
  all_goals rfl

theorem State.placeNext_does {st : PlanStep} : Does F s (s.placeNext st).1 := by
  unfold State.placeNext
  split
  · exact State.stepAdvance_does
  · rename_i g a _
    split
    · rename_i r
      split
      · exact State.planEnd_does r
      · have c : Does F s (s.aimClaim g a) := State.aimClaim_does
        refine c.trans (.of_running (.trans ?_ State.admit_follows) (State.planRunning_aimClaim.trans r))
        exact Follows.plan _ _ _ _ _
    · exact .refl F s

theorem State.placeNext_plain {st : PlanStep} : Plain (s.placeNext st).2 := by
  unfold State.placeNext
  split
  · exact State.stepAdvance_plain
  · split
    · split
      · exact State.planEnd_plain
      · exact State.admit_plain.append (by simp [Plain, Task.plain])
    · exact .nil

theorem State.planTakes_does {a : Action} {e : Ending} {f : Option FaultCode} : Does F s (s.planTakes g a e f).1 := by
  unfold State.planTakes
  split
  · exact .refl F s
  · rename_i n
    have r : s.planRunning = true := by
      cases h : s.planRunning
      · exact absurd (.inl h) n
      · rfl
    split
    · exact Does.trans (.of_running (Follows.plan s.plan.status s.plan.stepIndex _ _ s.plan.failure) r)
        State.stepAdvance_does
    · exact State.planEnd_does r

theorem State.planTakes_plain {a : Action} {e : Ending} {f : Option FaultCode} : Plain (s.planTakes g a e f).2 := by
  unfold State.planTakes
  split
  · exact .nil
  · split
    · exact State.stepAdvance_plain
    · exact State.planEnd_plain

theorem State.planEndNext_does : Does F s s.planEndNext.1 := by
  unfold State.planEndNext
  split
  · exact .refl F s
  · exact State.freePlanClaims_does

theorem State.planEndNext_plain : Plain s.planEndNext.2 := by
  unfold State.planEndNext
  split <;> simp [Plain, Task.plain]

theorem State.checkPermits_fst : s.checkPermits.1 = s := by
  unfold State.checkPermits
  split <;> rfl

theorem State.checkPermits_plain : Plain s.checkPermits.2 := by
  unfold State.checkPermits
  split <;> simp [Plain, Task.plain]

/-- Plain work keeps to `Does`, and leaves plain work. -/
theorem State.runTask_does {t : Task} (h : t.plain) : Does F s (s.runTask t).1 := by
  cases t with
  | endMotion g e => exact State.motionEnd_does fun f => absurd f h
  | handover v => exact State.handOver_does
  | permits => exact (congrArg (Does F s) State.checkPermits_fst).mpr (.refl F s)
  | scan => exact State.scan_does
  | resume g n first => exact State.resumeEntry_does
  | planTakes g a e f => exact State.planTakes_does
  | beginStep => exact State.stepBegin_does
  | place rest => exact State.placeNext_does
  | endPlan => exact State.planEndNext_does

theorem State.runTask_plain {t : Task} : Plain (s.runTask t).2 := by
  cases t with
  | endMotion g e => exact State.motionEnd_plain
  | handover v => simp only [State.runTask, State.handOver]; split <;> simp [Plain, Task.plain]
  | permits => exact State.checkPermits_plain
  | scan => simp [State.runTask, State.scan, Plain, Task.plain]
  | resume g n first => exact State.resumeEntry_plain
  | planTakes g a e f => exact State.planTakes_plain
  | beginStep => exact State.stepBegin_plain
  | place rest => exact State.placeNext_plain
  | endPlan => exact State.planEndNext_plain

/-! ### The work of an event -/

@[simp] theorem drain_nil (n : Nat) : drain n (s, []) = s := by
  cases n <;> rfl

theorem drain_cons (n : Nat) (t : Task) (rest : List Task) :
    drain (n + 1) (s, t :: rest) = drain n ((s.runTask t).1, (s.runTask t).2 ++ rest) := rfl

/-- The work of an event, run to any depth, keeps to `Does`. -/
theorem drain_does {n : Nat} {l : List Task} (h : Plain l) : Does F s (drain n (s, l)) := by
  induction n generalizing s l with
  | zero => exact .refl F s
  | succ n ih =>
    cases l with
    | nil => exact .refl F s
    | cons t rest =>
      rw [drain_cons]
      exact (State.runTask_does (h t (by simp))).trans
        (ih (State.runTask_plain.append fun x m => h x (by simp [m])))

/-- An event of plain work keeps to `Does` from the state that its own change leaves. -/
theorem State.event_does {f : State → Work} (h : Plain (f s).2) : Does F (f s).1 (s.event f) :=
  drain_does (.cons trivial h)

/-- An event that hands over states alone. -/
theorem State.change_does {f : State → State} : Does F (f s) (s.change f) :=
  State.event_does (f := fun t => (f t, [])) .nil

end Sys2Proof.Machine
end

