-- ==== Sys2Proof/Laws/Clock.lean ====
section
/-! SUPPORT. What the passing of time leaves, and when a timed command takes place. -/

namespace Sys2Proof.Machine

section
variable (s : State)

/-! ### Fields that time leaves alone -/

/-- Time changes the clock, the PWM periods, the counters and the run times, and nothing else. -/
theorem State.elapse_eq (span : Time) : s.elapse span =
    { s with
      now := s.now + span, channels := (s.elapse span).channels, pace := (s.elapse span).pace
      rooms := (s.elapse span).rooms, awning := (s.elapse span).awning, jackSet := (s.elapse span).jackSet
      level := (s.elapse span).level, wind := (s.elapse span).wind } := by
  unfold State.elapse State.latchDuty State.countRuns State.countWind State.countPace
  dsimp only
  split <;> rfl

@[simp] theorem State.now_elapse (span : Time) : (s.elapse span).now = s.now + span := rfl

@[simp] theorem State.pending_elapse (span : Time) : (s.elapse span).pending = s.pending := by rw [State.elapse_eq]

@[simp] theorem State.tickedAt_elapse (span : Time) : (s.elapse span).tickedAt = s.tickedAt := by rw [State.elapse_eq]

@[simp] theorem State.inReset_elapse (span : Time) : (s.elapse span).inReset = s.inReset := by rw [State.elapse_eq]

@[simp] theorem State.layout_elapse (span : Time) : (s.elapse span).layout = s.layout := by rw [State.elapse_eq]

@[simp] theorem State.staging_elapse (span : Time) : (s.elapse span).staging = s.staging := by rw [State.elapse_eq]

@[simp] theorem State.stored_elapse (span : Time) : (s.elapse span).stored = s.stored := by rw [State.elapse_eq]

@[simp] theorem State.write_elapse (span : Time) : (s.elapse span).write = s.write := by rw [State.elapse_eq]

@[simp] theorem State.lines_elapse (span : Time) : (s.elapse span).lines = s.lines := by rw [State.elapse_eq]

@[simp] theorem State.lineStart_elapse (span : Time) : (s.elapse span).lineStart = s.lineStart := by rw [State.elapse_eq]

@[simp] theorem State.park_elapse (span : Time) : (s.elapse span).park = s.park := by rw [State.elapse_eq]

@[simp] theorem State.ign_elapse (span : Time) : (s.elapse span).ign = s.ign := by rw [State.elapse_eq]

@[simp] theorem State.claims_elapse (span : Time) : (s.elapse span).claims = s.claims := by rw [State.elapse_eq]

@[simp] theorem State.load_elapse (span : Time) : (s.elapse span).load = s.load := by rw [State.elapse_eq]

@[simp] theorem State.paused_elapse (span : Time) : (s.elapse span).paused = s.paused := by rw [State.elapse_eq]

@[simp] theorem State.plan_elapse (span : Time) : (s.elapse span).plan = s.plan := by rw [State.elapse_eq]

@[simp] theorem State.jacks_elapse (span : Time) : (s.elapse span).jacks = s.jacks := by rw [State.elapse_eq]

@[simp] theorem State.supply_elapse (span : Time) : (s.elapse span).supply = s.supply := by rw [State.elapse_eq]

@[simp] theorem State.tilt_elapse (span : Time) : (s.elapse span).tilt = s.tilt := by rw [State.elapse_eq]

@[simp] theorem State.ports_elapse (span : Time) : (s.elapse span).ports = s.ports := by rw [State.elapse_eq]

@[simp] theorem State.alarm_elapse (span : Time) : (s.elapse span).alarm = s.alarm := by rw [State.elapse_eq]

@[simp] theorem State.faultCount_elapse (span : Time) : (s.elapse span).faultCount = s.faultCount := by rw [State.elapse_eq]

@[simp] theorem State.nextOrder_elapse (span : Time) : (s.elapse span).nextOrder = s.nextOrder := by rw [State.elapse_eq]

@[simp] theorem State.pins_elapse (span : Time) : (s.elapse span).pins = s.pins := by rw [State.elapse_eq]

@[simp] theorem State.straps_elapse (span : Time) : (s.elapse span).straps = s.straps := by rw [State.elapse_eq]

/-! ### The clock moved on to a moment -/

/-- What moving the clock on comes to: nothing, or the passing of the time that lies ahead. -/
theorem State.advanceTo_cases (t : Time) : (t ≤ s.now ∧ s.advanceTo t = s) ∨
    (s.now < t ∧ s.advanceTo t = s.elapse (t - s.now)) := by
  unfold State.advanceTo
  by_cases h : s.now < t
  · exact .inr ⟨h, if_pos h⟩
  · exact .inl ⟨Nat.le_of_not_lt h, if_neg h⟩

@[simp] theorem State.pending_advanceTo (t : Time) : (s.advanceTo t).pending = s.pending := by
  obtain ⟨-, h⟩ | ⟨-, h⟩ := s.advanceTo_cases t <;> simp [h]

@[simp] theorem State.tickedAt_advanceTo (t : Time) : (s.advanceTo t).tickedAt = s.tickedAt := by
  obtain ⟨-, h⟩ | ⟨-, h⟩ := s.advanceTo_cases t <;> simp [h]

@[simp] theorem State.inReset_advanceTo (t : Time) : (s.advanceTo t).inReset = s.inReset := by
  obtain ⟨-, h⟩ | ⟨-, h⟩ := s.advanceTo_cases t <;> simp [h]

@[simp] theorem State.layout_advanceTo (t : Time) : (s.advanceTo t).layout = s.layout := by
  obtain ⟨-, h⟩ | ⟨-, h⟩ := s.advanceTo_cases t <;> simp [h]

@[simp] theorem State.staging_advanceTo (t : Time) : (s.advanceTo t).staging = s.staging := by
  obtain ⟨-, h⟩ | ⟨-, h⟩ := s.advanceTo_cases t <;> simp [h]

@[simp] theorem State.stored_advanceTo (t : Time) : (s.advanceTo t).stored = s.stored := by
  obtain ⟨-, h⟩ | ⟨-, h⟩ := s.advanceTo_cases t <;> simp [h]

@[simp] theorem State.write_advanceTo (t : Time) : (s.advanceTo t).write = s.write := by
  obtain ⟨-, h⟩ | ⟨-, h⟩ := s.advanceTo_cases t <;> simp [h]

@[simp] theorem State.lines_advanceTo (t : Time) : (s.advanceTo t).lines = s.lines := by
  obtain ⟨-, h⟩ | ⟨-, h⟩ := s.advanceTo_cases t <;> simp [h]

@[simp] theorem State.lineStart_advanceTo (t : Time) : (s.advanceTo t).lineStart = s.lineStart := by
  obtain ⟨-, h⟩ | ⟨-, h⟩ := s.advanceTo_cases t <;> simp [h]

@[simp] theorem State.park_advanceTo (t : Time) : (s.advanceTo t).park = s.park := by
  obtain ⟨-, h⟩ | ⟨-, h⟩ := s.advanceTo_cases t <;> simp [h]

@[simp] theorem State.ign_advanceTo (t : Time) : (s.advanceTo t).ign = s.ign := by
  obtain ⟨-, h⟩ | ⟨-, h⟩ := s.advanceTo_cases t <;> simp [h]

@[simp] theorem State.claims_advanceTo (t : Time) : (s.advanceTo t).claims = s.claims := by
  obtain ⟨-, h⟩ | ⟨-, h⟩ := s.advanceTo_cases t <;> simp [h]

@[simp] theorem State.load_advanceTo (t : Time) : (s.advanceTo t).load = s.load := by
  obtain ⟨-, h⟩ | ⟨-, h⟩ := s.advanceTo_cases t <;> simp [h]

@[simp] theorem State.paused_advanceTo (t : Time) : (s.advanceTo t).paused = s.paused := by
  obtain ⟨-, h⟩ | ⟨-, h⟩ := s.advanceTo_cases t <;> simp [h]

@[simp] theorem State.plan_advanceTo (t : Time) : (s.advanceTo t).plan = s.plan := by
  obtain ⟨-, h⟩ | ⟨-, h⟩ := s.advanceTo_cases t <;> simp [h]

@[simp] theorem State.jacks_advanceTo (t : Time) : (s.advanceTo t).jacks = s.jacks := by
  obtain ⟨-, h⟩ | ⟨-, h⟩ := s.advanceTo_cases t <;> simp [h]

@[simp] theorem State.supply_advanceTo (t : Time) : (s.advanceTo t).supply = s.supply := by
  obtain ⟨-, h⟩ | ⟨-, h⟩ := s.advanceTo_cases t <;> simp [h]

@[simp] theorem State.tilt_advanceTo (t : Time) : (s.advanceTo t).tilt = s.tilt := by
  obtain ⟨-, h⟩ | ⟨-, h⟩ := s.advanceTo_cases t <;> simp [h]

@[simp] theorem State.ports_advanceTo (t : Time) : (s.advanceTo t).ports = s.ports := by
  obtain ⟨-, h⟩ | ⟨-, h⟩ := s.advanceTo_cases t <;> simp [h]

@[simp] theorem State.alarm_advanceTo (t : Time) : (s.advanceTo t).alarm = s.alarm := by
  obtain ⟨-, h⟩ | ⟨-, h⟩ := s.advanceTo_cases t <;> simp [h]

@[simp] theorem State.faultCount_advanceTo (t : Time) : (s.advanceTo t).faultCount = s.faultCount := by
  obtain ⟨-, h⟩ | ⟨-, h⟩ := s.advanceTo_cases t <;> simp [h]

@[simp] theorem State.nextOrder_advanceTo (t : Time) : (s.advanceTo t).nextOrder = s.nextOrder := by
  obtain ⟨-, h⟩ | ⟨-, h⟩ := s.advanceTo_cases t <;> simp [h]

@[simp] theorem State.pins_advanceTo (t : Time) : (s.advanceTo t).pins = s.pins := by
  obtain ⟨-, h⟩ | ⟨-, h⟩ := s.advanceTo_cases t <;> simp [h]

@[simp] theorem State.straps_advanceTo (t : Time) : (s.advanceTo t).straps = s.straps := by
  obtain ⟨-, h⟩ | ⟨-, h⟩ := s.advanceTo_cases t <;> simp [h]

/-! ### When a timed command takes place (log 3) -/

/-- A moment that has come may be taken. -/
theorem State.comes_of_le {t : Time} (h : t ≤ s.now) : s.comes t = true := by simp [State.comes, h]

/-- Where no idle step has sampled now, every moment may be taken. -/
theorem State.comes_of_tickedAt {t : Time} (h : s.tickedAt = none) : s.comes t = true := by
  simp [State.comes, State.clocked, h]

/-- A moment that lies ahead is not due where an idle step has raised what is due now. -/
theorem State.not_comes {t : Time} (h : s.now < t) (k : s.tickedAt = some s.now) : s.comes t = false := by
  simp [State.comes, State.clocked, k, Nat.not_le.mpr h]

/-- A limit that has been reached is due. -/
theorem State.mayReach_of_le {t limit : Nat} (h : limit ≤ t) : s.mayReach t limit = true := by
  simp [State.mayReach, h]

/-- Where no idle step has sampled now, every limit may be reached. -/
theorem State.mayReach_of_tickedAt {t limit : Nat} (h : s.tickedAt = none) : s.mayReach t limit = true := by
  simp [State.mayReach, State.clocked, h]

/-- A limit that lies ahead is not reached where an idle step has raised what is due now. -/
theorem State.not_mayReach {t limit : Nat} (h : t < limit) (k : s.tickedAt = some s.now) :
    s.mayReach t limit = false := by
  simp [State.mayReach, State.clocked, k, Nat.not_le.mpr h]

/-- When a run or phase timeout is taken of a motion: its time stands at the limit, in whichever list it is, or it is RUNNING
and the limit may be reached (R144). -/
theorem State.timesOut_iff {g : Group} {t limit : Time} : s.timesOut g t limit = true ↔
    ((s.entryOf g).isSome = true ∧ limit ≤ t) ∨ (s.running g = true ∧ s.mayReach t limit = true) := by
  simp [State.timesOut, State.atLimit]

/-- Of a motion that is neither at its limit nor RUNNING no timeout is taken. -/
theorem State.not_timesOut {g : Group} {t limit : Time} (h : t < limit) (k : s.running g = false) :
    s.timesOut g t limit = false := by
  simp [State.timesOut, State.atLimit, k, Nat.not_le.mpr h]

/-! ### The records as they read (R94) -/

@[simp] theorem State.sliderRead_room (k : RoomId) : s.sliderRead (.room k) = s.rooms[k] := rfl

theorem State.sliderRead_awning (h : s.configured .awning = true) : s.sliderRead .awning = s.awning := by
  simp [State.sliderRead, h]

theorem State.sliderRead_stowed (h : s.configured .awning = false) : s.sliderRead .awning = stowedAwning := by
  simp [State.sliderRead, h]

end

end Sys2Proof.Machine
end

