-- ==== Sys2Proof/Laws/Events.lean ====
section
/-! SUPPORT. What an event comes to: the ending of a motion with the work it leaves, and events in which nothing moves. -/

namespace Sys2Proof.Machine

variable {F : Group → Prop} {g : Group} {s t : State}

/-! ### Events with nothing in motion -/

theorem State.butAlarm_refl (s : State) : s.butAlarm s := ⟨rfl, fun _ => rfl⟩

theorem State.fallenPermit_none (l : s.load = []) (p : s.paused = []) : s.fallenPermit = none := by
  simp [State.fallenPermit, l, p]

/-- The alarm's evaluation changes the alarm, the fault patterns and the notices alone. -/
theorem State.butAlarm_evalAlarm (s : State) : s.butAlarm s.evalAlarm := by
  refine ⟨?_, (Does.evalAlarm (F := fun _ => False)).follows.links⟩
  unfold State.evalAlarm State.buzzKick
  simp only
  repeat' split
  all_goals rfl

theorem State.lists_evalAlarm (s : State) : s.evalAlarm.load = s.load ∧ s.evalAlarm.paused = s.paused := by
  unfold State.evalAlarm State.buzzKick
  simp only
  repeat' split
  all_goals exact ⟨rfl, rfl⟩

/-- The handing over of states to a part in which nothing moves. -/
theorem drain_handover_idle {n : Nat} {v : View} (l : s.load = []) (p : s.paused = []) :
    s.butAlarm (drain (n + 2) (s, [.handover v])) := by
  rw [drain_cons]
  simp only [State.runTask, State.handOver]
  split
  · simpa using s.butAlarm_refl
  · have e := s.lists_evalAlarm
    have f : s.evalAlarm.fallenPermit = none := State.fallenPermit_none (e.1.trans l) (e.2.trans p)
    simp only [List.append_nil]
    rw [drain_cons]
    simpa [State.runTask, State.checkPermits, f] using s.butAlarm_evalAlarm

/-- An event that leaves both lists empty and no work comes to its own change, but for the alarm. -/
theorem State.event_idle {f : State → Work} (w : (f s).2 = []) (l : (f s).1.load = []) (p : (f s).1.paused = []) :
    (f s).1.butAlarm (s.event f) := by
  unfold State.event State.handing
  simp only [w]
  exact drain_handover_idle l p

/-- An event that changes no state that others read, and leaves no work, is its own change. -/
theorem State.event_quiet {f : State → Work} (w : (f s).2 = []) (v : (f s).1.view = s.view) : s.event f = (f s).1 := by
  unfold State.event State.handing workBound
  simp only [w]
  rw [drain_cons]
  simp [State.runTask, State.handOver, v]

/-! ### The ending of a motion -/

theorem State.still_removeEntry : (s.removeEntry g).still g := by
  intro e h
  obtain ⟨x, m, rfl⟩ := mem_motions.mp h
  simp only [State.removeEntry, State.load_setLoad, List.mem_append, List.mem_filter] at m
  rcases m with m | m <;> simpa [Entry.motion] using m.2

theorem State.outcomeOf_controllerEnd {a : Action} {e : Ending} :
    (s.controllerEnd g a e).outcomeOf g = some e.outcome := by
  cases g with
  | room k => simp [State.controllerEnd, sliderOf, State.slideEnd, State.outcomeOf, State.setSlider]
  | jacks =>
    simp only [State.controllerEnd, sliderOf, State.jackEnd, State.recordJackEnd, State.outcomeOf]
    split <;> rfl
  | awning => simp [State.controllerEnd, sliderOf, State.slideEnd, State.outcomeOf, State.setSlider]

theorem State.outcomeOf_of_axisSame (a : axisSame s t g) : t.outcomeOf g = s.outcomeOf g := by
  cases g <;> simp_all [axisSame, State.outcomeOf]

theorem Rests.axisSame_all (h : t.rooms = s.rooms) (a : t.awning = s.awning) (j : t.jacks = s.jacks)
    (k : t.jackSet = s.jackSet) (l : t.level = s.level) : axisSame s t g := by
  cases g <;> simp_all [axisSame]

theorem State.endNotices_axes {e : Ending} : axisSame s (s.endNotices e) g := by
  unfold State.endNotices State.countFault State.buzzKick
  simp only
  repeat' split
  all_goals exact Rests.axisSame_all rfl rfl rfl rfl rfl

theorem State.endClaim_axes {c : ClaimEffect} : axisSame s (s.endClaim g c) g := by
  unfold State.endClaim
  repeat' split
  all_goals exact Rests.axisSame_all rfl rfl rfl rfl rfl

theorem State.removeEntry_axes : axisSame s (s.removeEntry g) g := Rests.axisSame_all rfl rfl rfl rfl rfl

theorem State.fault_endNotices {e : Ending} (h : e.outcome = .fault) : (s.endNotices e).noticed .fault = true := by
  unfold State.endNotices
  simp only [h, if_true, reduceCtorEq, if_false]
  exact (Does.countFault (F := fun _ => False)).follows.noticed (State.noticed_raise _ _)

theorem State.interlock_endNotices {e : Ending} (h : e.outcome = .interlock) :
    (s.endNotices e).noticed .interlock = true := by
  unfold State.endNotices
  simp only [h, if_true]
  exact State.noticed_raise _ _

theorem State.faultSounds_endNotices {e : Ending} (h : e.outcome = .fault) : s.faultSounds (s.endNotices e) := by
  unfold State.endNotices
  simp only [h, if_true, reduceCtorEq, if_false]
  exact Does.faultSounds_countFault (s := (s.raise .motionEnd).raise .fault)

/-- What the ending of a motion leaves before the work it hands on is done. -/
structure EndedNow (g : Group) (e : Ending) (s t : State) : Prop where
  still : t.still g
  outcome : t.outcomeOf g = some e.outcome
  motionEnd : t.noticed .motionEnd = true
  fault : e.outcome = .fault → t.noticed .fault = true
  interlock : e.outcome = .interlock → t.noticed .interlock = true
  sounds : e.outcome = .fault → s.faultSounds t

theorem State.motionEnd_now {e : Ending} {m : Entry} (h : s.entryOf g = some m) :
    EndedNow g e s (s.motionEnd g e).1 := by
  unfold State.motionEnd
  simp only [h]
  have a := (State.endClaim_does (F := fun _ => True) (s := (s.controllerEnd g m.action e).endNotices e) (g := g)
    (c := e.claim) fun _ => trivial).follows
  have b : (((s.controllerEnd g m.action e).endNotices e).endClaim g e.claim).noticed .motionEnd = true :=
    a.noticed Does.noticed_endNotices
  have c := (State.removeEntry_does (F := fun _ => True) (g := g) b).follows
  exact {
    still := State.still_removeEntry
    outcome := by
      rw [State.outcomeOf_of_axisSame State.removeEntry_axes, State.outcomeOf_of_axisSame State.endClaim_axes,
        State.outcomeOf_of_axisSame State.endNotices_axes]
      exact State.outcomeOf_controllerEnd
    motionEnd := c.noticed b
    fault := fun f => c.noticed (a.noticed (State.fault_endNotices f))
    interlock := fun f => c.noticed (a.noticed (State.interlock_endNotices f))
    sounds := fun f =>
      have k := (State.controllerEnd_controls (s := s) (g := g) (a := m.action) (e := e)).follows (F := fun _ => True)
      have n := (Does.endNotices (F := fun _ => True) (s := s.controllerEnd g m.action e) (e := e)).follows
      .before k.sounds (((State.faultSounds_endNotices f).after a.sounds n.road).after c.sounds (a.road.trans n.road)) k.now
        k.road }

/-- A motion that has ended stays ended while the rest of the work is done. -/
theorem Ended.of_does {e : Ending} {w : State} (a : Does F s w) (n : EndedNow g e s w) (b : Does F w t) :
    Ended g e.outcome s t where
  gone x m q := by
    rcases b.follows.entries x m with h | h
    · exact Nat.le_trans a.follows.orders h
    · exact absurd q (n.still x h)
  motionEnd := b.follows.noticed n.motionEnd
  fault f := b.follows.noticed (n.fault f)
  interlock f := b.follows.noticed (n.interlock f)
  sounds f h k := ((n.sounds f).after b.follows.sounds a.follows.road h k).2
  recorded p := by
    have r := b.rests (by simpa [State.planRunning, (a.rests p).plan] using p)
    exact ⟨r.still n.still, by rw [State.outcomeOf_of_axisSame (r.axes g n.still)]; exact n.outcome⟩
  counts id m := (a.follows.counts id m).trans (b.follows.counts id m) (a.follows.motorHome id m)
  jacks j := (b.follows.jackReading j).trans (a.follows.jackReading j)
  links p := (b.follows.links p).trans (a.follows.links p)
  fixed := b.follows.fixed.trans a.follows.fixed

/-- An ending may be told from a state before the one in which it took place, when what lies between changed neither
records nor motions. -/
theorem Ended.from {u : State} {o : MotionOutcome} (h : Ended g o u t) (orders : u.nextOrder = s.nextOrder)
    (plan : u.plan = s.plan) (counts : ∀ id m, s.countKept u id m)
    (jacks : ∀ j, (u.jack j).reading = (s.jack j).reading) (links : ∀ p, (u.port p).link = (s.port p).link)
    (sounds : s.soundsOn u) (fixed : u.fixedPart = s.fixedPart) : Ended g o s t where
  gone := orders ▸ h.gone
  motionEnd := h.motionEnd
  fault := h.fault
  interlock := h.interlock
  sounds f :=
    have n : u.now = s.now := by have x := congrArg State.now fixed; exact x
    have r : u.road = s.road := by
      have x := congrArg State.park fixed
      have p : u.park = s.park := x
      simp only [State.road, p]
    fun a k => (State.faultSounds.before (u := { t with alarm := false }) sounds (fun b l => ⟨rfl, h.sounds f b l⟩) n r a k).2
  recorded p := h.recorded (by simpa [State.planRunning, plan] using p)
  counts id m := (counts id m).trans (h.counts id m)
    (State.motorHome_congr (by have h := congrArg State.layout fixed; exact h)
      (by have h := congrArg State.lines fixed; exact h) id m)
  jacks j := (h.jacks j).trans (jacks j)
  links p := (h.links p).trans (links p)
  fixed := h.fixed.trans fixed

/-- The ending of a motion with all the work it leaves, whatever its claim effect. -/
theorem drain_endMotion {n : Nat} {e : Ending} {m : Entry} {rest : List Task} (h : s.entryOf g = some m)
    (f : e.claim = .free → F g) (p : Plain rest) :
    Does F s (drain (n + 1) (s, .endMotion g e :: rest)) ∧ Ended g e.outcome s (drain (n + 1) (s, .endMotion g e :: rest)) := by
  have a : Does F s (s.motionEnd g e).1 := State.motionEnd_does f
  have b : Does F (s.motionEnd g e).1 (drain n ((s.motionEnd g e).1, (s.motionEnd g e).2 ++ rest)) :=
    drain_does (State.motionEnd_plain.append p)
  rw [drain_cons]
  exact ⟨a.trans b, .of_does a (State.motionEnd_now h) b⟩

end Sys2Proof.Machine
end

