-- ==== Sys2Proof/Laws/Census.lean ====
section
/-! SUPPORT. When a start-up or confirming read is taken, and what a read comes to that must wait for another. -/

namespace Sys2Proof.Machine

section
variable (s : State) (n : Chan) (r : Levels)

/-! ### The moment of the next read (R3, R4, R23) -/

/-- Where no read waits, the next is taken 20 ms after the start-up census began. -/
theorem State.readDue_first (h : (s.chan n).pendingAt = none) : s.readDue n = s.censusStart + ms 20 := by
  simp [State.readDue, h]

/-- The read after one that waits is taken 20 ms later. -/
@[simp] theorem State.readDue_holdRead : (s.holdRead n r).readDue n = s.now + ms 20 := by
  simp [State.readDue, State.holdRead, State.setChan, State.chan]

/-- What the restart of the census changes: the channel records, the census's start, and notices (R3, R5). -/
theorem State.restartCensus_eq : s.restartCensus =
    { s with channels := Vector.ofFn fun n => s.recensusChannel n, censusStart := s.now, ports := s.restartCensus.ports } := by
  unfold State.restartCensus
  dsimp only
  split <;> rfl

@[simp] theorem State.now_restartCensus : s.restartCensus.now = s.now := by rw [State.restartCensus_eq]

@[simp] theorem State.tickedAt_restartCensus : s.restartCensus.tickedAt = s.tickedAt := by rw [State.restartCensus_eq]

/-- As the census starts anew, no read of a channel waits. -/
@[simp] theorem State.pendingAt_recensusChannel : (s.recensusChannel n).pendingAt = none := by
  unfold State.recensusChannel
  dsimp only
  split <;> rfl

/-- A new layout puts the next read of every channel 20 ms ahead. -/
@[simp] theorem State.readDue_restartCensus : s.restartCensus.readDue n = s.now + ms 20 := by
  rw [State.restartCensus_eq]
  simp [State.readDue, State.chan]

/-! ### Taking a read -/

/-- What a start-up or confirming read comes to: nothing where an idle step has raised what is due now and its moment lies
ahead, else the comparison at its moment. -/
theorem State.takeRead_cases :
    (s.now < s.readDue n ∧ s.tickedAt = some s.now ∧ s.takeRead n r = s) ∨
      ((s.readDue n ≤ s.now ∨ s.tickedAt ≠ some s.now) ∧
        s.takeRead n r = (s.advanceTo (s.readDue n)).event fun t => t.compareRead n r) := by
  unfold State.takeRead
  by_cases h : s.readDue n ≤ s.now
  · exact .inr ⟨.inl h, if_pos (s.comes_of_le h)⟩
  · have a : s.now < s.readDue n := Nat.lt_of_not_le h
    by_cases k : s.tickedAt = some s.now
    · exact .inl ⟨a, k, by simp [s.not_comes a k]⟩
    · exact .inr ⟨.inr k, by simp [State.comes, State.clocked, k]⟩

/-- A read raised before a new layout of the same moment is not taken under it (R3, R23). -/
theorem State.takeRead_stale (h : s.tickedAt = some s.now) : s.restartCensus.takeRead n r = s.restartCensus := by
  obtain ⟨-, -, e⟩ | ⟨k, -⟩ := s.restartCensus.takeRead_cases n r
  · exact e
  · rcases k with k | k
    · simp [ms] at k
    · simp [h] at k

/-- A read that does not agree with the one before it waits, and changes nothing else (R3, R4). -/
theorem State.compareRead_waits (h : (s.chan n).pendingRead ≠ some r) :
    (s.event fun t => t.compareRead n r) = s.holdRead n r := by
  have e : s.compareRead n r = (s.holdRead n r, []) := if_neg h
  rw [State.event_quiet (s := s) (by simp [e]) (by rw [e]; rfl), e]

end

end Sys2Proof.Machine
end

