-- ==== Sys2Proof/Laws/Image.lean ====
section
/-! SUPPORT. The buffers: a read after a write, the canonical form that every operation keeps, and the check. -/

namespace Sys2Proof.Machine

/-! ### Reading and writing -/

theorem Image.read_below {m : Image} {lo a : Nat} (h : Image.wfFrom lo m = true) (l : a < lo) :
    m.read a = unlistedByte := by
  induction m generalizing lo with
  | nil => rfl
  | cons c rest ih =>
    obtain ⟨k, b⟩ := c
    simp only [Image.wfFrom, Bool.and_eq_true, decide_eq_true_eq] at h
    have : k ≠ a := by omega
    simp only [Image.read, this, if_false]
    exact ih h.2 (by omega)

theorem Image.read_write {m : Image} {lo : Nat} (h : Image.wfFrom lo m = true) (a b : Nat) (v : Byte) :
    (Image.write m a v).read b = if b = a then v else m.read b := by
  induction m generalizing lo with
  | nil =>
    by_cases z : v = unlistedByte
    · by_cases e : b = a <;> simp [Image.write, Image.read, z, e]
    · by_cases e : b = a
      · simp [Image.write, Image.read, z, e]
      · simp [Image.write, Image.read, z, e, Ne.symm e]
  | cons c rest ih =>
    obtain ⟨k, x⟩ := c
    simp only [Image.wfFrom, Bool.and_eq_true, decide_eq_true_eq] at h
    have low : ∀ {n}, n ≤ k → Image.read rest n = unlistedByte := fun l => Image.read_below h.2 (by omega)
    simp only [Image.write]
    by_cases l : a < k
    · simp only [l, if_true]
      by_cases z : v = unlistedByte
      · by_cases e : b = a
        · subst e
          have : k ≠ b := by omega
          have r := low (n := b) (by omega)
          simp [z, Image.read, this, r]
        · simp [z, e]
      · by_cases e : b = a
        · simp [z, Image.read, e]
        · simp [z, Image.read, e, Ne.symm e]
    · by_cases q : a = k
      · subst q
        by_cases z : v = unlistedByte
        · by_cases e : b = a
          · subst e; simp [z, low (Nat.le_refl _)]
          · simp [z, Image.read, e, Ne.symm e]
        · by_cases e : b = a
          · simp [z, Image.read, e]
          · simp [z, Image.read, e, Ne.symm e]
      · simp only [l, q, if_false, Image.read]
        rw [ih h.2]
        by_cases e : b = a
        · subst e
          have : k ≠ b := by omega
          simp [this]
        · simp [e]

/-- A byte written reads back. -/
theorem Image.read_write_same {m : Image} (h : m.wf = true) (a : Nat) (v : Byte) : (Image.write m a v).read a = v := by
  simp [Image.read_write h]

/-- A write leaves every other byte alone. -/
theorem Image.read_write_other {m : Image} (h : m.wf = true) {a b : Nat} (n : b ≠ a) (v : Byte) :
    (Image.write m a v).read b = m.read b := by
  simp [Image.read_write h, n]

/-! ### The canonical form -/

theorem Image.wfFrom_mono {m : Image} {lo hi : Nat} (h : Image.wfFrom hi m = true) (l : lo ≤ hi) :
    Image.wfFrom lo m = true := by
  cases m with
  | nil => rfl
  | cons c rest =>
    simp only [Image.wfFrom, Bool.and_eq_true, decide_eq_true_eq] at h ⊢
    exact ⟨⟨⟨by omega, h.1.1.2⟩, h.1.2⟩, h.2⟩

theorem Image.wfFrom_write {m : Image} {lo a : Nat} (h : Image.wfFrom lo m = true) (l : lo ≤ a) (u : a < 512)
    (v : Byte) : Image.wfFrom lo (Image.write m a v) = true := by
  induction m generalizing lo with
  | nil =>
    simp only [Image.write]
    split
    · rfl
    · rename_i z; simp [Image.wfFrom, l, u, z]
  | cons c rest ih =>
    obtain ⟨k, x⟩ := c
    have keep := h
    simp only [Image.wfFrom, Bool.and_eq_true, decide_eq_true_eq] at h
    simp only [Image.write]
    by_cases p : a < k
    · simp only [p, if_true]
      by_cases z : v = unlistedByte
      · simpa [z] using keep
      · simp only [z, if_false, Image.wfFrom, Bool.and_eq_true, decide_eq_true_eq]
        exact ⟨⟨⟨l, u⟩, z⟩, ⟨⟨⟨by omega, h.1.1.2⟩, h.1.2⟩, h.2⟩⟩
    · by_cases q : a = k
      · subst q
        by_cases z : v = unlistedByte
        · simp only [p, z, if_true, if_false]
          exact Image.wfFrom_mono h.2 (by omega)
        · simp only [p, z, if_true, if_false, Image.wfFrom, Bool.and_eq_true, decide_eq_true_eq]
          exact ⟨⟨⟨l, u⟩, z⟩, h.2⟩
      · simp only [p, q, if_false, Image.wfFrom, Bool.and_eq_true, decide_eq_true_eq]
        exact ⟨h.1, ih h.2 (by omega)⟩

/-- A write of one byte keeps the canonical form. -/
theorem Image.wf_write {m : Image} (h : m.wf = true) {a : Nat} (u : a < 512) (v : Byte) :
    Image.wf (Image.write m a v) = true := Image.wfFrom_write h (Nat.zero_le _) u v

/-- A write of a run of bytes keeps the canonical form. -/
theorem Image.wf_writeAll {bs : List Byte} {m : Image} {a : Nat} (h : m.wf = true) (u : a + bs.length ≤ 512) :
    Image.wf (Image.writeAll m a bs) = true := by
  induction bs generalizing m a with
  | nil => exact h
  | cons b rest ih =>
    simp only [List.length_cons] at u
    exact ih (Image.wf_write h (by omega) b) (by omega)

/-- What a run of bytes reads as after it has been written. -/
theorem Image.read_writeAll {bs : List Byte} {m : Image} {a : Nat} (h : m.wf = true) (u : a + bs.length ≤ 512) (k : Nat) :
    (Image.writeAll m a bs).read k = if _ : a ≤ k ∧ k - a < bs.length then bs[k - a] else m.read k := by
  induction bs generalizing m a with
  | nil => simp [Image.writeAll]
  | cons b rest ih =>
    simp only [List.length_cons] at u
    simp only [Image.writeAll]
    rw [ih (Image.wf_write h (by omega) b) (by omega), Image.read_write h]
    by_cases e : k = a
    · subst e
      simp
    · by_cases l : a ≤ k ∧ k - a < rest.length + 1
      · have r : a + 1 ≤ k ∧ k - (a + 1) < rest.length := by omega
        have q : k - a = (k - (a + 1)) + 1 := by omega
        simp only [List.length_cons, l, r, and_self, dif_pos]
        simp [q]
      · have r : ¬(a + 1 ≤ k ∧ k - (a + 1) < rest.length) := by omega
        rw [dif_neg r, dif_neg (by simpa using l), if_neg e]

theorem wfFrom_ofBytes {bs : List Byte} {lo : Nat} (u : lo + bs.length ≤ 512) :
    Image.wfFrom lo (((List.range' lo bs.length).zip bs).filter fun c => c.2 ≠ unlistedByte) = true := by
  induction bs generalizing lo with
  | nil => rfl
  | cons b rest ih =>
    simp only [List.length_cons] at u
    have next := ih (lo := lo + 1) (by omega)
    simp only [List.length_cons, List.range'_succ, List.zip_cons_cons, List.filter_cons]
    split
    · rename_i z
      simp only [Image.wfFrom, Bool.and_eq_true, decide_eq_true_eq]
      exact ⟨⟨⟨Nat.le_refl _, by omega⟩, by simpa using z⟩, next⟩
    · exact Image.wfFrom_mono next (by omega)

/-- A buffer made from bytes is in the canonical form. -/
theorem Image.wf_ofBytes {bs : List Byte} (u : bs.length ≤ 512) : Image.wf (Image.ofBytes bs) = true := by
  have h := wfFrom_ofBytes (bs := bs) (lo := 0) (by omega)
  simpa [Image.wf, Image.ofBytes, List.range_eq_range'] using h

theorem Image.wf_blank : Image.wf Image.blank = true := by decide +kernel

theorem length_twoBytes (n : Nat) : (twoBytes n).length = 2 := rfl

theorem Image.wf_writeTwo {m : Image} (h : m.wf = true) {a : Nat} (u : a + 2 ≤ 512) (n : Nat) :
    Image.wf (Image.writeAll m a (twoBytes n)) = true := Image.wf_writeAll h u

theorem Image.read_writeTwo {m : Image} (h : m.wf = true) {a : Nat} (u : a + 2 ≤ 512) (n k : Nat) :
    (Image.writeAll m a (twoBytes n)).read k =
      if k = a then byteOf (n / 256) else if k = a + 1 then byteOf n else m.read k := by
  simp only [twoBytes, Image.writeAll]
  rw [Image.read_write (Image.wf_write h (by omega) _), Image.read_write h]
  by_cases e : k = a
  · subst e; simp
  · simp [e]

/-- The check put in place keeps the canonical form. -/
theorem Image.wf_withCrc {m : Image} (h : m.wf = true) : Image.wf (Image.withCrc m) = true := by
  unfold Image.withCrc
  generalize m.crc = n
  exact Image.wf_writeTwo h (by omega) n

/-- The EMPTY image is in the canonical form. -/
theorem wf_emptyImage : Image.wf emptyImage = true := by
  have l : Layout.empty.bytes.length ≤ 512 := by decide +kernel
  unfold emptyImage Layout.toImage
  exact Image.wf_withCrc (Image.wf_ofBytes l)

/-- The buffers right after reset are in the canonical form. -/
theorem State.reset_wf : Image.wf State.reset.staging = true ∧ ∀ m, State.reset.stored = .record m → m.wf = true := by
  have a : State.reset.staging = emptyImage := by simp only [State.reset]
  have b : State.reset.stored = .record Image.blank := by simp only [State.reset]
  rw [a, b]
  refine ⟨wf_emptyImage, ?_⟩
  intro m h
  rw [← Stored.record.inj h]
  exact Image.wf_blank

/-! ### The check (R176) -/

/-- The bytes under the check are those that the check leaves alone. -/
theorem Image.read_withCrc {m : Image} (h : m.wf = true) (a : Nat) :
    (Image.withCrc m).read a =
      if a = 510 then byteOf (m.crc / 256) else if a = 511 then byteOf m.crc else m.read a := by
  have r := Image.read_writeTwo h (a := 510) (by omega) m.crc a
  simpa only [Image.withCrc, Nat.reduceAdd] using r

/-- A check looks at the bytes alone. -/
theorem Image.crc_congr {m w : Image} (h : ∀ i, i < 510 → m.read (0 + i) = w.read (0 + i)) : m.crc = w.crc :=
  congrArg crcOf (List.map_congr_left fun i l => h i (List.mem_range.mp l))

theorem Image.crc_withCrc {m : Image} (h : m.wf = true) : (Image.withCrc m).crc = m.crc := by
  apply Image.crc_congr
  intro i l
  rw [Image.read_withCrc h, if_neg (by omega), if_neg (by omega)]

theorem crcShift_lt {r : Nat} (h : r < 65536) : crcShift r < 65536 := by
  unfold crcShift
  split
  · omega
  · exact Nat.xor_lt_two_pow (n := 16) (by omega) (by decide)

theorem crcByte_lt {r b : Nat} (h : r < 65536) (l : b < 256) : crcByte r b < 65536 := by
  have x : Nat.xor r (b * 256) < 65536 := Nat.xor_lt_two_pow (n := 16) (by omega) (by omega)
  unfold crcByte
  exact crcShift_lt (crcShift_lt (crcShift_lt (crcShift_lt (crcShift_lt (crcShift_lt (crcShift_lt (crcShift_lt x)))))))

theorem crcRun_cons (r : Nat) (b : Byte) (rest : List Byte) : crcRun r (b :: rest) = crcRun (crcByte r b.toNat) rest := by
  simp only [crcRun]
  split <;> simp_all

theorem crcRun_lt {bs : List Byte} {r : Nat} (h : r < 65536) : crcRun r bs < 65536 := by
  induction bs generalizing r with
  | nil => simpa [crcRun] using h
  | cons b rest ih =>
    rw [crcRun_cons]
    exact ih (crcByte_lt h b.isLt)

theorem Image.crc_lt (m : Image) : m.crc < 65536 := crcRun_lt (by decide)

/-- A record with its check put in place passes it. -/
theorem Image.passes_withCrc {m : Image} (h : m.wf = true) : (Image.withCrc m).passes = true := by
  unfold Image.passes
  rw [Image.crc_withCrc h]
  have l := m.crc_lt
  simp only [Image.u16, Image.u8, Image.read_withCrc h, beq_iff_eq]
  simp [byteOf]
  omega

end Sys2Proof.Machine
end

