-- ==== Sys2Proof/Laws/PerInstr.lean ====
section
/-! SUPPORT. For every command that is a request: its fields fill its frame, and they make a request exactly when the
command is well formed (R166, section 9.2). -/

namespace Sys2Proof.Laws.FieldRanges

open Sys2Proof.Machine

/-- A request's fields fill the frame of its kind, and they are in range exactly when the command is well formed. -/
def Statement (i : Instr) : Prop :=
  ∀ p k f, requestOf i = some (p, k, f) → f.length + 2 = k.length ∧ (requestOfFields k f).isSome = i.wellFormed

/-! ### The fields one by one -/

theorem group_isSome (b : Byte) : (groupOfCode b.toNat).isSome = groupInRange b := by
  revert b; decide +kernel

theorem dir_isSome (b : Byte) : (dirOfCode b.toNat).isSome = dirInRange b := by
  revert b; decide +kernel

theorem jack_isSome (b : Byte) : (jackOfNumber b.toNat).isSome = inRange 1 6 b := by
  revert b; decide +kernel

theorem plan_isSome (b : Byte) : (planOfCode b.toNat).isSome = inRange 1 2 b := by
  revert b; decide +kernel

theorem axis_isSome (b : Byte) : (axisOfNumber b.toNat).isSome = axisInRange b := by
  revert b; decide +kernel

theorem segment_isSome (b : Byte) : (segmentOfByte b).isSome = segmentInRange b := by
  revert b; decide +kernel

theorem action_isSome {g : Group} (group action : Byte) (h : groupOfCode group.toNat = some g) :
    (actionOfCode g action.toNat).isSome = actionInRange group action := by
  have a : (group == 5) = decide (g = .jacks) := by
    cases g with
    | room k => revert h; revert group; revert k; decide +kernel
    | jacks => revert h; revert group; decide +kernel
    | awning => revert h; revert group; decide +kernel
  unfold actionInRange
  rw [← dir_isSome, a]
  unfold actionOfCode
  have b : (action == 3) = decide (action.toNat = 3) := by
    revert action; decide +kernel
  rw [b]
  cases dirOfCode action.toNat with
  | some d => rfl
  | none =>
    by_cases x : action.toNat = 3 <;> by_cases y : g = .jacks <;> simp [x, y]

/-- The two bytes of a class word give it back. -/
theorem fieldWord_twoBytes (w : ClassWord) : fieldWord (twoBytes w.toNat) = w := by
  apply BitVec.eq_of_toNat_eq
  have := w.isLt
  simp [fieldWord, fieldByte, twoBytes, byteOf]
  omega

theorem classes_isSome (w : ClassWord) : (classesOfWord w).isSome = classesInRange w := by
  have e : w &&& 0xF000#16 = 0#16 ↔ w.toNat < 4096 := by
    have m : w &&& 0xF000#16 = (w >>> 12) <<< 12 := by
      apply BitVec.eq_of_getLsbD_eq
      intro i l
      have c : i = 0 ∨ i = 1 ∨ i = 2 ∨ i = 3 ∨ i = 4 ∨ i = 5 ∨ i = 6 ∨ i = 7 ∨ i = 8 ∨ i = 9 ∨ i = 10 ∨ i = 11 ∨ i = 12 ∨
          i = 13 ∨ i = 14 ∨ i = 15 := by omega
      rcases c with rfl | rfl | rfl | rfl | rfl | rfl | rfl | rfl | rfl | rfl | rfl | rfl | rfl | rfl | rfl | rfl <;> simp
    have n := w.isLt
    rw [m, ← BitVec.toNat_inj]
    simp only [BitVec.toNat_shiftLeft, BitVec.toNat_ushiftRight, BitVec.toNat_ofNat, Nat.shiftRight_eq_div_pow,
      Nat.shiftLeft_eq]
    omega
  unfold classesOfWord classesInRange
  by_cases h : w.toNat < 4096
  · simp [h, e.mpr h]
  · have : w &&& 0xF000#16 ≠ 0#16 := fun x => h (e.mp x)
    simp [h, this]

/-! ### The requests one by one -/

theorem coldReset (straps : Straps) : Statement (.coldReset straps) := nofun

theorem warmReset (straps : Straps) : Statement (.warmReset straps) := nofun

theorem resetEnd : Statement .resetEnd := nofun

theorem initialAcceptedLevel (levels : List (Line × Bool)) : Statement (.initialAcceptedLevel levels) := nofun

theorem move (p : Port) (group dir : Byte) : Statement (.move p group dir) := by
  rintro _ _ _ ⟨⟩
  refine ⟨rfl, ?_⟩
  simp only [requestOfFields, fieldByte, List.getElem?_cons_zero, List.getElem?_cons_succ, Option.getD_some, moveRequest,
    Instr.wellFormed, ← group_isSome, ← dir_isSome]
  cases groupOfCode group.toNat <;> cases dirOfCode dir.toNat <;> rfl

theorem auto (p : Port) (group action : Byte) : Statement (.auto p group action) := by
  rintro _ _ _ ⟨⟩
  refine ⟨rfl, ?_⟩
  simp only [requestOfFields, fieldByte, List.getElem?_cons_zero, List.getElem?_cons_succ, Option.getD_some, autoRequest,
    Instr.wellFormed, ← group_isSome]
  cases h : groupOfCode group.toNat with
  | none => rfl
  | some g => simpa using action_isSome group action h

theorem moveJack (p : Port) (jack dir : Byte) : Statement (.moveJack p jack dir) := by
  rintro _ _ _ ⟨⟩
  refine ⟨rfl, ?_⟩
  simp only [requestOfFields, fieldByte, List.getElem?_cons_zero, List.getElem?_cons_succ, Option.getD_some,
    moveJackRequest, Instr.wellFormed, ← jack_isSome, ← dir_isSome]
  cases jackOfNumber jack.toNat <;> cases dirOfCode dir.toNat <;> rfl

theorem release (p : Port) (group : Byte) : Statement (.release p group) := by
  rintro _ _ _ ⟨⟩
  refine ⟨rfl, ?_⟩
  simpa [requestOfFields, fieldByte, releaseRequest, Instr.wellFormed] using group_isSome group

theorem stop (p : Port) : Statement (.stop p) := by
  rintro _ _ _ ⟨⟩
  exact ⟨rfl, rfl⟩

theorem clearFault (p : Port) (group : Byte) : Statement (.clearFault p group) := by
  rintro _ _ _ ⟨⟩
  refine ⟨rfl, ?_⟩
  simpa [requestOfFields, fieldByte, clearFaultRequest, Instr.wellFormed] using group_isSome group

theorem runPlan (p : Port) (plan : Byte) : Statement (.runPlan p plan) := by
  rintro _ _ _ ⟨⟩
  refine ⟨rfl, ?_⟩
  simpa [requestOfFields, fieldByte, runPlanRequest, Instr.wellFormed] using plan_isSome plan

theorem status (p : Port) : Statement (.status p) := by
  rintro _ _ _ ⟨⟩
  exact ⟨rfl, rfl⟩

theorem readAxis (p : Port) (axis : Byte) : Statement (.readAxis p axis) := by
  rintro _ _ _ ⟨⟩
  refine ⟨rfl, ?_⟩
  simpa [requestOfFields, fieldByte, readAxisRequest, Instr.wellFormed] using axis_isSome axis

theorem ack (p : Port) (classes : ClassWord) : Statement (.ack p classes) := by
  rintro _ _ _ ⟨⟩
  refine ⟨rfl, ?_⟩
  simpa [requestOfFields, ackRequest, Instr.wellFormed, fieldWord_twoBytes] using classes_isSome classes

theorem route (p : Port) (classes : ClassWord) : Statement (.route p classes) := by
  rintro _ _ _ ⟨⟩
  refine ⟨rfl, ?_⟩
  simpa [requestOfFields, routeRequest, Instr.wellFormed, fieldWord_twoBytes] using classes_isSome classes

theorem layoutLoad (p : Port) (segment : Byte) (data : Vector Byte 16) : Statement (.layoutLoad p segment data) := by
  rintro _ _ _ ⟨⟩
  refine ⟨by simp [RequestKind.length], ?_⟩
  simpa [requestOfFields, fieldByte, layoutLoadRequest, Instr.wellFormed] using segment_isSome segment

theorem layoutRead (p : Port) (segment : Byte) : Statement (.layoutRead p segment) := by
  rintro _ _ _ ⟨⟩
  refine ⟨rfl, ?_⟩
  simpa [requestOfFields, fieldByte, layoutReadRequest, Instr.wellFormed] using segment_isSome segment

theorem layoutCommit (p : Port) : Statement (.layoutCommit p) := by
  rintro _ _ _ ⟨⟩
  exact ⟨rfl, rfl⟩

theorem storeWriteComplete : Statement .storeWriteComplete := nofun

theorem linkCharacter (p : Port) (data : Byte) (mark stopHigh : Bool) : Statement (.linkCharacter p data mark stopHigh) := nofun

theorem partialFrameTimeout (p : Port) : Statement (.partialFrameTimeout p) := nofun

theorem replySent (p : Port) : Statement (.replySent p) := nofun

theorem censusRead (n : Chan) (read : Levels) : Statement (.censusRead n read) := nofun

theorem recensusPass (reads : Vector Levels 16) : Statement (.recensusPass reads) := nofun

theorem confirmingRead (n : Chan) (read : Levels) : Statement (.confirmingRead n read) := nofun

theorem stoppingEnd (n : Chan) : Statement (.stoppingEnd n) := nofun

theorem dwellEnd (n : Chan) : Statement (.dwellEnd n) := nofun

theorem rampStep (n : Chan) : Statement (.rampStep n) := nofun

theorem analogSample (n : Chan) (raw : Sample) : Statement (.analogSample n raw) := nofun

theorem overcurrent (n : Chan) : Statement (.overcurrent n) := nofun

theorem contactLost (j : JackId) : Statement (.contactLost j) := nofun

theorem plsPulse (n : Chan) : Statement (.plsPulse n) := nofun

theorem pulseNoise (n : Chan) : Statement (.pulseNoise n) := nofun

theorem stall (n : Chan) : Statement (.stall n) := nofun

theorem wndPulse : Statement .wndPulse := nofun

theorem windSpeedTick : Statement .windSpeedTick := nofun

theorem gustHoldReached : Statement .gustHoldReached := nofun

theorem calmHoldReached : Statement .calmHoldReached := nofun

theorem roomHomeClosed (k : RoomId) (m : Motor) : Statement (.roomHomeClosed k m) := nofun

theorem roomHomeOpened (k : RoomId) (m : Motor) : Statement (.roomHomeOpened k m) := nofun

theorem roomSeatDeadline (k : RoomId) (m : Motor) : Statement (.roomSeatDeadline k m) := nofun

theorem roomRunTimeout (k : RoomId) : Statement (.roomRunTimeout k) := nofun

theorem jackHomeClosed (j : JackId) : Statement (.jackHomeClosed j) := nofun

theorem jackHomeOpened (j : JackId) : Statement (.jackHomeOpened j) := nofun

theorem jackRunTimeout : Statement .jackRunTimeout := nofun

theorem tiltSample (x y : Sample) : Statement (.tiltSample x y) := nofun

theorem contactPhaseTimeout : Statement .contactPhaseTimeout := nofun

theorem settleEnd : Statement .settleEnd := nofun

theorem passTimeout : Statement .passTimeout := nofun

theorem awningHomeClosed : Statement .awningHomeClosed := nofun

theorem awningHomeOpened : Statement .awningHomeOpened := nofun

theorem awningSeatDeadline : Statement .awningSeatDeadline := nofun

theorem awningRunTimeout : Statement .awningRunTimeout := nofun

theorem holdDeadline (g : Group) : Statement (.holdDeadline g) := nofun

theorem parkSet : Statement .parkSet := nofun

theorem parkReleased : Statement .parkReleased := nofun

theorem ignRise : Statement .ignRise := nofun

theorem faultPatternEnd : Statement .faultPatternEnd := nofun

theorem motionPeriod : Statement .motionPeriod := nofun

theorem supplySample (raw : Sample) : Statement (.supplySample raw) := nofun

theorem pauseLimit (g : Group) : Statement (.pauseLimit g) := nofun

end Sys2Proof.Laws.FieldRanges
end

