-- ==== Sys2Proof/Tests/Slice0.lean ====
section
/-! SUPPORT. Tests: ill-formed commands, the spec's worked cases, one step of each family, and for every statement of
the obligations concrete states and operands that meet its hypotheses. -/

namespace Sys2Proof.Tests

open Sys2Proof Sys2Proof.Machine

set_option maxRecDepth 8000
set_option Elab.async false

/-! ### States to test on -/

/-- A room with a travel of 50 counts. -/
def roomOf (motors : Nat) (support : Bool) : RoomParams :=
  { motorCount := motors, travel := 50, endWindow := 40, seatFraction := 64, syncWindow := 6, rackLimit := 24
    needsSupport := support, awningClash := false }

/-- A jack of the worked case of chapter 4, at a place in cm. -/
def jackAt (x y : Int) (stroke : Nat) : JackParams :=
  { x := x, y := y, strokeMax := stroke, spp := 5, contactThreshold := 1200, hysteresis := 150 }

/-- A coach: ROOM1 on channel 0 needs support, ROOM2 has two motors on 4 and 5, ROOM3 is on 6, four jacks on 8 to 11,
the pump on 12 and the awning on 13. -/
def coach : Layout :=
  { Layout.empty with
    roles := #v[.room 0 .a, .none, .none, .none, .room 1 .a, .room 1 .b, .room 2 .a, .none, .jack 0, .jack 1, .jack 2,
      .jack 3, .pump, .awning, .none, .none]
    rooms := #v[roomOf 1 true, roomOf 2 false, roomOf 1 false, roomOf 0 false]
    awning := { travel := 60, endWindow := 40, seatFraction := 64, runTimeout := 60 }
    jacks := #v[jackAt 350 (-110) 480, jackAt 350 110 0, jackAt (-300) (-110) 0, jackAt (-300) 110 0, jackAt 0 0 0,
      jackAt 0 0 0]
    wind := { Layout.empty.wind with present := true }
    setup := [[(.room 1, .toward .outward)], [(.awning, .toward .outward)]]
    stow := [[(.awning, .toward .stowing)], [(.room 1, .toward .stowing), (.jacks, .toward .stowing)]] }

/-- A channel whose actuator is seated. -/
def seatedChan : Channel := { freshChannel .seated true with settledLevels := some ⟨true, true, false, false⟩ }

/-- The lines of a channel at home. -/
def homeLines : ChannelLines := { freshLines with hom := { samples := [true, true, true], accepted := some true } }

/-- A room at home. -/
def closedRoom : SliderRec :=
  { freshSlider with
    state := .closed, motorA := { freshMotor with count := some 0 }, motorB := { freshMotor with count := some 0 } }

/-- The parked coach 5 s after its reset: everything seated, stowed and at home, in band A. -/
def parked : State :=
  { State.reset with
    layout := coach, now := ms 5000
    channels := Vector.replicate 16 seatedChan, lines := Vector.replicate 16 homeLines
    park := { samples := [], accepted := some true }, ign := { samples := [], accepted := some false }
    rooms := Vector.replicate 4 closedRoom, awning := closedRoom
    jacks := Vector.replicate 6 { freshJack with count := some 0 }
    wind := freshWind true
    supply := { samples := List.replicate 25 1262, mean := some 1262, band := .a }
    ports := Vector.replicate 3 freshPort }

/-- The parked coach with one free place in P1's reply queue. -/
def crowded : State := parked.setPort .p1 { freshPort with replies := List.replicate 3 [0x80, 0x15, 0, 0x6B], headSince := some 0 }

/-- The parked coach with P1's reply queue full. -/
def full : State := parked.setPort .p1 { freshPort with replies := List.replicate 4 [0x80, 0x15, 0, 0x6B], headSince := some 0 }

/-- The parked coach in a store write. -/
def writing : State := { crowded with write := some (ms 4999) }

/-- The coach on the road. -/
def driving : State := { crowded with park := { samples := [], accepted := some false } }

/-- A claim of an owner on a group. -/
def claimBy (o : Owner) (m : Mode) (a : Action) : Claim :=
  { owner := o, mode := m, action := a, deadline := if m = .hold then some (ms 5200) else none, ended := false }

/-- A motion entry of an owner. -/
def entryBy (g : Group) (o : Owner) (m : Mode) (a : Action) (units : Nat) : Entry :=
  { group := g, owner := o, mode := m, action := a, units := units, order := 0, state := .running, pausedSince := none }

/-- A state in which a claim stands. -/
def claimed (s : State) (g : Group) (c : Claim) : State := s.setClaim g (some c)

/-- A state in which a claim stands with its motion in the load list. -/
def holding (s : State) (g : Group) (o : Owner) (m : Mode) (a : Action) (units : Nat) : State :=
  { s.setClaim g (some (claimBy o m a)) with load := [entryBy g o m a units], nextOrder := 1 }

/-- A channel driven in a direction since a moment. -/
def drivenChan (d : Dir) : Channel :=
  { seatedChan with drive := .atSpeed, dir := d, ramped := 230, driveStart := some (ms 4000) }

/-- ROOM3 driven by P1, OUT or IN, its motor at a count, with a pace of 210. -/
def roomMoving (d : Dir) (count : Nat) (phase : MotorPhase) : State :=
  let s := holding crowded (.room 2) (.port .p1) .hold (.toward d) 3
  ({ (s.setChan 6 (drivenChan d)).setPace 6 { clearedPace with ring := [212, 208, 215, 205], counter := 58 } with
    lines := Vector.replicate 16 freshLines }).setSlider (.room 2)
    { freshSlider with
      state := movingState d
      motorA := { freshMotor with
        count := some count, phase := phase, seatDeadline := if phase = MotorPhase.seat then some (ms 5010) else none } }

/-- The jack set moved by P1, every jack ACTIVE. -/
def jacksMoving (a : Action) (d : Dir) : State :=
  let s := holding crowded .jacks (.port .p1) .auto a 8
  { s with
    jacks := Vector.replicate 6 { freshJack with count := some 10, phase := .active, dir := d }
    lines := Vector.replicate 16 freshLines
    channels := ((s.channels.set 8 (drivenChan d)).set 9 (drivenChan d)).set 12 (drivenChan .outward) }

/-- A level run in a phase, its jacks down. -/
def levelling (p : LevelPhase) : State :=
  { jacksMoving .level .outward with
    level := { freshLevel with status := .active, phase := p }
    jacks := Vector.replicate 6
      { freshJack with count := some 10, contact := true, phase := if p = .settle then .done else .active } }

/-- A running plan of P1 that moves the awning. -/
def planned : State :=
  { holding crowded .awning .sequencer .auto (.toward .outward) 2 with
    plan := { freshPlan with
      status := .running, name := some .setup, owner := some (.port .p1), stepCount := 2, stepIndex := 1
      reserved := #v[false, true, false, false, false, true], slots := [{ group := .awning, outcome := none }] } }

/-- A statement about every group holds when it holds of the six. -/
theorem every_group {P : Group → Prop} (h : ∀ g ∈ allGroups, P g) (g : Group) : P g :=
  h g (by cases g with
    | room k => revert k; decide
    | jacks => decide
    | awning => decide)

/-! ### WellFormed: a term that each check refuses -/

theorem test_group_range : (Instr.release .p1 0).wellFormed = false ∧ (Instr.release .p1 7).wellFormed = false ∧
    (Instr.release .p1 1).wellFormed = true ∧ (Instr.clearFault .p1 6).wellFormed = true ∧
    (Instr.clearFault .p1 7).wellFormed = false ∧ (Instr.move .p1 0 1).wellFormed = false := by decide

theorem test_direction_range : (Instr.move .p1 1 0).wellFormed = false ∧ (Instr.move .p1 1 3).wellFormed = false ∧
    (Instr.move .p1 1 2).wellFormed = true := by decide

theorem test_level_is_for_jacks : (Instr.auto .p1 4 3).wellFormed = false ∧ (Instr.auto .p1 6 3).wellFormed = false ∧
    (Instr.auto .p1 5 3).wellFormed = true ∧ (Instr.auto .p1 5 4).wellFormed = false ∧
    (Instr.auto .p1 7 1).wellFormed = false := by decide

theorem test_jack_range : (Instr.moveJack .p1 0 1).wellFormed = false ∧ (Instr.moveJack .p1 7 1).wellFormed = false ∧
    (Instr.moveJack .p1 6 2).wellFormed = true ∧ (Instr.moveJack .p1 6 0).wellFormed = false := by decide

theorem test_plan_range : (Instr.runPlan .p1 0).wellFormed = false ∧ (Instr.runPlan .p1 3).wellFormed = false ∧
    (Instr.runPlan .p1 2).wellFormed = true := by decide

theorem test_axis_range : (Instr.readAxis .p1 0).wellFormed = false ∧ (Instr.readAxis .p1 5).wellFormed = false ∧
    (Instr.readAxis .p1 10).wellFormed = false ∧ (Instr.readAxis .p1 17).wellFormed = false ∧
    (Instr.readAxis .p1 22).wellFormed = false ∧ (Instr.readAxis .p1 35).wellFormed = false ∧
    (Instr.readAxis .p1 34).wellFormed = true := by decide

theorem test_class_range : (Instr.ack .p1 0x1000).wellFormed = false ∧ (Instr.route .p1 0x8000).wellFormed = false ∧
    (Instr.ack .p1 0x0FFF).wellFormed = true := by decide

theorem test_segment_range : (Instr.layoutRead .p1 32).wellFormed = false ∧
    (Instr.layoutLoad .p1 32 (Vector.replicate 16 0)).wellFormed = false ∧ (Instr.layoutRead .p1 31).wellFormed = true := by
  decide

theorem test_lines_once : (Instr.initialAcceptedLevel [(.park, true), (.park, false)]).wellFormed = false ∧
    (Instr.initialAcceptedLevel [(.park, true), (.hom 4, false)]).wellFormed = true := by decide

/-! ### Worked cases of the spec -/

/-- The check of chapter 10 over the nine characters "123456789" of the published check of this polynomial. -/
theorem test_crc : crcOf [0x31, 0x32, 0x33, 0x34, 0x35, 0x36, 0x37, 0x38, 0x39] = 0x29B1 := by decide +kernel

/-- A STOP frame is 0x15 and 0xEB (R162). -/
theorem test_stop_frame : frameOf RequestKind.stop.code [] = [0x15, 0xEB] ∧
    kindOfByte 0x15 = some .stop ∧ RequestKind.stop.length = 2 := by decide

/-- Chapter 2, a rejected pulse and the limits it meets. -/
theorem test_pace_limits :
    paceOf slideDefaults { clearedPace with ring := [212, 208, 215, 205] } = some 210 ∧
    maskLimit slideDefaults { clearedPace with ring := [212, 208, 215, 205] } = 65 ∧
    stallLimit slideDefaults { clearedPace with ring := [212, 208, 215, 205] } = 315 ∧
    paceOf slideDefaults { clearedPace with ring := [212, 208, 215, 205, 230] } = some 214 ∧
    maskLimit slideDefaults { clearedPace with ring := [212, 208, 215, 205, 230] } = 66 ∧
    stallLimit slideDefaults { clearedPace with ring := [212, 208, 215, 205, 230] } = 321 := by decide

/-- Chapter 2, the start of a drive run. -/
theorem test_drive_run_limits : stallLimit slideDefaults clearedPace = 15000 ∧ maskLimit slideDefaults clearedPace = 0 ∧
    maskLimit slideDefaults { clearedPace with ring := [420, 300, 250, 230] } = 93 ∧
    stallLimit slideDefaults { clearedPace with ring := [420, 300, 250, 230] } = 450 ∧
    stallLimit slideDefaults { clearedPace with ring := [420, 300, 250, 230, 215] } = 372 ∧
    maskLimit slideDefaults { clearedPace with ring := [420, 300, 250, 230, 215, 212] } = 70 := by decide

/-- Chapter 4, converting a second of tilt samples. -/
theorem test_tilt : roundDiv ((170800 - 204800) * 100) 40000 = -85 ∧ roundDiv ((221100 - 205100) * 100) 40000 = 40 ∧
    roundDiv ((170600 - 204800) * 100) 40000 = -86 ∧ roundDiv ((221120 - 205100) * 100) 40000 = 40 ∧
    clampInt 1500 (roundDiv ((409500 - 204800) * 100) 1000) = 1500 := by decide

/-- Chapter 4, the lifts of one pass. -/
def unlevel : State :=
  { parked with
    level := { freshLevel with status := .active, pitch := -85, roll := 40 }
    jacks := parked.jacks.set 0 { freshJack with count := some 310 } }

theorem test_corner_lifts : unlevel.solveLifts.level.targets = #v[some 170, some 192, some 30, some 0, none, none] ∧
    unlevel.solveLifts.level.selected = #v[true, true, true, false, false, false] ∧
    unlevel.solveLifts.level.limited = true := by decide +kernel

/-- Chapter 3, a two-motor room closing: the trimmed duty of the leader. -/
theorem test_trim : trimDuty 230 8 6 = 166 ∧ trimDuty 230 7 6 = 198 ∧ trimDuty 230 9 6 = 134 := by decide

/-- Chapter 1, a reversal on a slide motor: the ramp from the drive start to the run duty. -/
theorem test_ramp :
    ((freshChannel .seated true).driveStarted slideDefaults .stowing 0).ramped = 64 ∧
    (({ freshChannel .seated true with ramped := 64 }).ramp slideDefaults).ramped = 80 ∧
    (({ freshChannel .seated true with ramped := 224 }).ramp slideDefaults).ramped = 230 ∧
    (({ freshChannel .seated true with ramped := 224 }).ramp slideDefaults).drive = .atSpeed := by decide

/-- R39: the speed by pace and counter, 0 without a pace or with a saturated counter, 999 with a divisor of 0. -/
theorem test_wind_speed : windSpeed 70000 { freshWind true with ring := [1000, 1000, 1000, 1000] } = 70 ∧
    windSpeed 70000 { freshWind true with ring := [1000, 1000, 1000] } = 0 ∧
    windSpeed 70000 { freshWind true with ring := [1000, 1000, 1000, 1000], counter := 1400 } = 50 ∧
    windSpeed 70000 { freshWind true with ring := [1000, 1000, 1000, 1000], counter := 65535 } = 0 ∧
    windSpeed 70000 { freshWind true with ring := [0, 0, 0, 0] } = 999 := by decide

/-! ### The hypotheses of the statements are met -/

theorem test_meets_StepTakesFrontCommand :
    ({ parked with pending := [.stop .p1, .parkSet] } : State).pending = .stop .p1 :: [.parkSet] := rfl

theorem test_meets_IdleStepIsOneSample : parked.pending = [] ∧ parked.inReset = none ∧
    ({ parked with inReset := some .cold } : State).pending = [] ∧
    ({ parked with inReset := some .warm } : State).inReset.isSome ∧
    ({ parked with inReset := some .warm } : State).pending = [] ∧
    (∀ k straps, Instr.stop .p1 ≠ resetCommand k straps) ∧ Instr.stop .p1 ≠ .resetEnd := by
  refine ⟨rfl, rfl, rfl, rfl, rfl, ?_, by decide⟩
  intro k _
  cases k <;> exact Instr.noConfusion

theorem test_meets_ClockMovesToTheMoment : ms 5000 ≤ parked.now ∧ parked.now < ms 5000 + 1 ∧
    (roomMoving .outward 10 .travel).now < ms 5000 + 1 ∧
    (parked.chan 6).driven = false ∧ ((roomMoving .outward 10 .travel).chan 6).driven = true := by decide +kernel

/-- A room at rest and a room in motion, a channel stopped a step short of 50 ms ago and one stopped 50 ms ago. -/
theorem test_meets_ResetKeepsRestingAxes :
    ((roomMoving .outward 10 .travel).entryOf (Slider.room 2).group).isSome ∧ parked.entryOf (Slider.room 2).group = none ∧
    Motor.a ∈ parked.motors (.room 2) ∧ parked.motorChan (.room 2) .a = some 6 ∧
    ((parked.setChan 6 { seatedChan with lastStop := some ⟨ms 4950 + 1, .outward⟩ }).chan 6).lastStop =
      some ⟨ms 4950 + 1, .outward⟩ ∧
    parked.now < ms 4950 + 1 + ms 50 ∧ ms 4950 + ms 50 ≤ parked.now ∧
    (∃ e, (jacksMoving (.toward .outward) .outward).jackMotion = some e ∧
      3 ∈ (jacksMoving (.toward .outward) .outward).jacksOf e.action) ∧
    parked.jackMotion = none ∧ parked.roleChan (.jack 3) = some 11 := by
  refine ⟨?_, ?_, ?_, ?_, ?_, ?_, ?_, ⟨_, rfl, ?_⟩, ?_, ?_⟩ <;> decide +kernel

theorem test_meets_ResetCutsOffTheWrite : writing.write.isSome ∧ crowded.write = none := by decide +kernel

/-- A record that gives channel 9 the role ROOM1-A and reads 0 elsewhere, with its check. -/
def oneRole : Image := [(18, 1), (510, 0x84), (511, 0xE5)]

theorem test_meets_ResetEndChoosesTheLayout : parked.inReset = none ∧
    ({ parked with inReset := some .cold } : State).inReset.isSome ∧
    oneRole.isBlank = false ∧ oneRole.passes = true ∧ (Layout.ofImage oneRole).roles[9] = .room 0 .a ∧
    (Layout.ofImage oneRole).roles[8] = .none ∧ Image.blank.isBlank = true ∧
    (oneRole.write 18 2).isBlank = false ∧ (oneRole.write 18 2).passes = false ∧ variantCount 1 = 10 := by decide +kernel

theorem test_meets_InitialLevelsAreTaken : parked.inReset = none ∧
    (Instr.initialAcceptedLevel [(.hom 4, true), (.park, false)]).wellFormed = true ∧
    ({ parked with lines := Vector.replicate 16 freshLines } : State).conditioned (.hom 4) = true ∧
    parked.conditioned (.hom 15) = false ∧ parked.planRunning = false := by decide +kernel

theorem test_meets_AckRemovesClasses : crowded.inReset = none ∧ crowded.hasRoom .p1 ∧ 0x0FFF#16 &&& 0xF000#16 = 0#16 ∧
    Port.p2 ≠ .p1 := by
  unfold State.hasRoom
  decide +kernel

theorem test_meets_RouteReplacesTheMask : crowded.inReset = none ∧ crowded.hasRoom .p1 ∧ 0x0800#16 &&& 0xF000#16 = 0#16 := by
  unfold State.hasRoom
  decide +kernel

/-- A port that holds the first bytes of a frame. -/
def framed (bytes : List Byte) (first : Time) : State := parked.setPort .p1 { freshPort with frame := some ⟨bytes, first⟩ }

theorem test_meets_DiscardsAreCounted : parked.inReset = none ∧ (parked.port .p1).frame = none ∧
    kindOfByte 0x00 = none ∧ kindOfByte 0x10 = some .move ∧
    ((framed [0x10, 1] (ms 4980)).port .p1).frame = some ⟨[0x10, 1], ms 4980⟩ ∧
    kindOfByte (([0x10, 1] : List Byte).headD 0) = some .move ∧ [0x10#8, 1].length + 1 < RequestKind.move.length ∧
    [0x10#8, 1, 1].length + 1 = RequestKind.move.length ∧ sumBytes ([0x10#8, 1, 1] ++ [0xED]) % 256 ≠ 0 ∧
    ms 4980 + ms 20 ≤ (framed [0x10, 1] (ms 4980)).now ∧
    requestOf (.stop .p1) = some (.p1, .stop, []) ∧ ¬ full.hasRoom .p1 := by
  unfold State.hasRoom
  decide +kernel

theorem test_meets_BadFieldsAreRefused : crowded.inReset = none ∧
    requestOf (.release .p1 7) = some (.p1, .release, [7]) ∧ crowded.hasRoom .p1 ∧ (Instr.release .p1 7).wellFormed = false := by
  unfold State.hasRoom
  decide +kernel

theorem test_meets_RepliesJoinTheQueue : (parked.port .p1).replies = [] ∧ (crowded.port .p1).replies ≠ [] := by
  decide +kernel

theorem test_meets_ReadsChangeNothing : crowded.inReset = none ∧ crowded.hasRoom .p1 ∧
    axisOfNumber (1#8).toNat = some (.room 0) ∧ (crowded.axisBytes (.room 0)).isSome = true ∧
    axisOfNumber (4#8).toNat = some (.room 3) ∧ crowded.axisBytes (.room 3) = none ∧
    axisOfNumber (34#8).toNat = some .plan ∧ (31#8).toNat ≤ 31 := by
  unfold State.hasRoom
  decide +kernel

theorem test_meets_LayoutLoadReplacesASegment : crowded.inReset = none ∧ crowded.hasRoom .p1 ∧ (31#8).toNat ≤ 31 ∧
    crowded.staging.wf = true ∧ crowded.write = none ∧ writing.inReset = none ∧ writing.hasRoom .p1 ∧
    writing.staging.wf = true ∧ writing.write.isSome := by
  unfold State.hasRoom
  refine ⟨rfl, ?_, ?_, wf_emptyImage, rfl, rfl, ?_, wf_emptyImage, rfl⟩ <;> decide +kernel

theorem test_meets_CommitBeginsTheWrite : crowded.inReset = none ∧ crowded.hasRoom .p1 ∧ crowded.staging.wf = true ∧
    writing.write.isSome ∧ driving.write = none ∧ driving.road ≠ .parked ∧ crowded.write = none ∧ crowded.road = .parked ∧
    (∀ g, crowded.claim g = none) ∧
    (claimed crowded .jacks (claimBy (.port .p2) .hold .level)).claim .jacks = some (claimBy (.port .p2) .hold .level) ∧
    (∀ h, groupCode h < groupCode .jacks →
      (claimed crowded .jacks (claimBy (.port .p2) .hold .level)).claim h = none) ∧
    firstBadByte (crowded.staging.write 0 17) 16 = some 0 ∧ firstBadByte crowded.staging 16 = none := by
  refine ⟨rfl, ?_, wf_emptyImage, rfl, rfl, ?_, rfl, ?_, every_group ?_, ?_, every_group ?_, ?_, ?_⟩ <;>
    (try unfold State.hasRoom) <;> decide +kernel

theorem test_meets_RefusalsChangeNothing : driving.inReset = none ∧
    requestOf (.move .p1 3 1) = some (.p1, .move, [3, 1]) ∧ driving.hasRoom .p1 ∧
    requestOfFields .move [3, 1] = some (.move (.room 2) .outward) ∧
    (driving.decideRequest .p1 (.move (.room 2) .outward)).2 = .refused .notPermitted 1 0 := by
  unfold State.hasRoom
  decide +kernel

theorem test_meets_FramesActAsRequests : parked.inReset = none ∧
    requestOf (.move .p1 3 1) = some (.p1, .move, [3, 1]) ∧ (parked.port .p1).frame = none ∧
    charactersOf .p1 (frameOf RequestKind.move.code [3, 1]) = [.linkCharacter .p1 0x10 true true,
      .linkCharacter .p1 3 false true, .linkCharacter .p1 1 false true, .linkCharacter .p1 0xEC false true] := by
  decide +kernel

theorem test_meets_LinkTimersRunOut : parked.inReset = none ∧ (parked.port .p1).frame = none ∧
    ((framed [0x10] (ms 4980 + 1)).port .p1).frame = some ⟨[0x10], ms 4980 + 1⟩ ∧ (parked.port .p1).replies = [] ∧
    (crowded.port .p1).replies = [0x80, 0x15, 0, 0x6B] :: List.replicate 2 [0x80, 0x15, 0, 0x6B] ∧
    (crowded.port .p1).headSince = some 0 := by decide +kernel

/-! The checks of R111, each failing first. -/

theorem test_meets_MotionChecksAreInOrder : crowded.inReset = none ∧ crowded.hasRoom .p1 ∧
    motionCommand .p1 .hold (.room 2) (.toward .outward) = some (.move .p1 3 1) ∧ crowded.claim (.room 2) = none ∧
    writing.firstChecks (.room 2) (.toward .outward) = some (.refused .storeBusy 0 0) ∧
    crowded.firstChecks (.room 3) (.toward .outward) = some (.refused .notConfigured 0 0) ∧
    driving.firstChecks (.room 2) (.toward .outward) = some (.refused .notPermitted 1 0) ∧
    crowded.firstChecks (.room 2) (.toward .outward) = none ∧
    (crowded.setChan 6 { seatedChan with census := .loose }).verdict .hold (.room 2) (.toward .outward) =
      some (.refused .unavailable 0 0) ∧
    (crowded.setSlider (.room 2) { closedRoom with fault := some .racked }).verdict .hold (.room 2) (.toward .outward) =
      some (.refused .faulted 0 0) ∧
    (crowded.setSlider (.room 2) freshSlider).verdict .hold (.room 2) (.toward .outward) =
      some (.refused .homeFirst 0 0) ∧
    crowded.verdict .hold (.room 0) (.toward .outward) = some (.refused .notPermitted 2 0) := by
  unfold State.hasRoom
  decide +kernel

/-- The parked coach with its mean in band C, which budgets 5 units, or its front 6.01° low. -/
def weak : State := { crowded with supply := { samples := List.replicate 25 1150, mean := some 1150, band := .c } }
def steep : State := { crowded with tilt := { freshTilt with pitch := -601 } }

theorem test_meets_MotionChecksAreInOrder_late :
    motionCommand .p1 .auto .jacks .level = some (.auto .p1 5 3) ∧
    motionCommand .p1 .hold .jacks (.jack 5 .stowing) = some (.moveJack .p1 6 2) ∧
    steep.firstChecks .jacks .level = none ∧ steep.verdict .auto .jacks .level = some (.refused .tooSteep 0 0) ∧
    weak.firstChecks (.room 1) (.toward .outward) = none ∧
    weak.verdict .hold (.room 1) (.toward .outward) = some (.refused .budget 0 0) ∧
    weak.verdict .auto (.room 1) (.toward .outward) = none := by decide +kernel

theorem test_meets_MotionIsAccepted : crowded.inReset = none ∧ crowded.hasRoom .p1 ∧
    motionCommand .p1 .hold (.room 2) (.toward .outward) = some (.move .p1 3 1) ∧
    motionCommand .p1 .auto .jacks .level = some (.auto .p1 5 3) ∧
    motionCommand .p1 .hold .jacks (.jack 3 .outward) = some (.moveJack .p1 4 1) ∧
    crowded.claim (.room 2) = none ∧ crowded.claim .jacks = none ∧
    crowded.firstChecks (.room 2) (.toward .outward) = none ∧ crowded.verdict .hold (.room 2) (.toward .outward) = none ∧
    crowded.firstChecks .jacks .level = none ∧ crowded.verdict .auto .jacks .level = none ∧
    crowded.firstChecks .jacks (.jack 3 .outward) = none ∧ crowded.verdict .hold .jacks (.jack 3 .outward) = none := by
  unfold State.hasRoom
  decide +kernel

/-- ROOM3 one count below its travel limit, in band C. -/
theorem test_meets_MoveOutDrivesTheMotor :
    let s := weak.setSlider (.room 2) { closedRoom with state := .midway, motorA := { freshMotor with count := some 89 } }
    s.inReset = none ∧ s.hasRoom .p1 ∧ s.motions = [] ∧ s.claim (.room 2) = none ∧ s.write = none ∧ s.road = .parked ∧
    s.roleChan (.room 2 .a) = some 6 ∧ s.roleChan (.room 2 .b) = none ∧ s.groupChans (.room 2) = [6] ∧
    (s.chan 6).census = .seated ∧ (s.rooms[2]).fault = none ∧ (s.rooms[2]).motorA.count = some 89 ∧
    89 < s.travelLimit (.room 2) ∧ s.permitCause (.room 2) (.toward .outward) = none ∧ 3 ≤ s.budget ∧
    (s.chan 6).drive = .off ∧ (s.chan 6).lastStop = none := by
  unfold State.hasRoom
  decide +kernel

theorem test_meets_RenewalMovesTheDeadline :
    let s := roomMoving .outward 10 .travel
    let b := claimBy (.port .p1) .hold (.toward .outward)
    s.inReset = none ∧ s.hasRoom .p1 ∧ motionCommand .p1 .hold (.room 2) (.toward .outward) = some (.move .p1 3 1) ∧
    s.claim (.room 2) = some b ∧ b.owner = .port .p1 ∧ b.mode = .hold ∧ b.action = .toward .outward := by
  unfold State.hasRoom
  decide +kernel

/-- P2 asks for P1's group, and P1 asks for an AUTO of the group it holds. -/
theorem test_meets_HeldGroupsAreRefused :
    let s := roomMoving .outward 10 .travel
    let b := claimBy (.port .p1) .hold (.toward .outward)
    s.inReset = none ∧ s.hasRoom .p2 ∧ s.hasRoom .p1 ∧
    motionCommand .p2 .hold (.room 2) (.toward .outward) = some (.move .p2 3 1) ∧
    motionCommand .p1 .auto (.room 2) (.toward .outward) = some (.auto .p1 3 1) ∧ s.claim (.room 2) = some b ∧
    ¬(Mode.hold = .hold ∧ b.mode = .hold ∧ b.owner = .port .p2) ∧
    ¬(Mode.auto = .hold ∧ b.mode = .hold ∧ b.owner = .port .p1) ∧
    s.firstChecks (.room 2) (.toward .outward) = none ∧
    ({ s with write := some 0 } : State).firstChecks (.room 2) (.toward .outward) = some (.refused .storeBusy 0 0) := by
  unfold State.hasRoom
  decide +kernel

/-- P1 moves jack 1 out under a HOLD claim. -/
def jackHeld (ended : Bool) : State :=
  { jacksMoving (.jack 0 .outward) .outward with
    load := if ended then [] else [entryBy .jacks (.port .p1) .hold (.jack 0 .outward) 5]
    claims := Vector.replicate 6 (some { claimBy (.port .p1) .hold (.jack 0 .outward) with ended := ended }) }

theorem test_meets_HolderTurnsTheMotion :
    let s := roomMoving .outward 10 .travel
    s.inReset = none ∧ s.hasRoom .p1 ∧ motionCommand .p1 .hold (.room 2) (.toward .stowing) = some (.move .p1 3 2) ∧
    s.claim (.room 2) = some (claimBy (.port .p1) .hold (.toward .outward)) ∧ Action.toward .outward ≠ .toward .stowing ∧
    ({ s with write := some 0 } : State).firstChecks (.room 2) (.toward .stowing) = some (.refused .storeBusy 0 0) ∧
    s.firstChecks (.room 2) (.toward .stowing) = none ∧ s.verdict .hold (.room 2) (.toward .stowing) = none ∧
    (s.setChan 6 { seatedChan with census := .loose }).verdict .hold (.room 2) (.toward .stowing) =
      some (.refused .unavailable 0 0) ∧ ¬ s.still (.room 2) := by
  unfold State.hasRoom State.still
  decide +kernel

theorem test_meets_HolderTurnsTheMotion_jacks :
    let b := { claimBy (.port .p1) .hold (.jack 0 .outward) with ended := false }
    motionCommand .p1 .hold .jacks (.jack 3 .outward) = some (.moveJack .p1 4 1) ∧ (jackHeld false).hasRoom .p1 ∧
    (jackHeld false).claim .jacks = some b ∧ (0 : JackId) ≠ 3 ∧ b.ended = false ∧
    (jackHeld false).firstChecks .jacks (.jack 3 .outward) = none ∧
    (jackHeld false).verdict .hold .jacks (.jack 3 .outward) = none ∧
    ((jackHeld false).setChan 9 { seatedChan with census := .empty }).verdict .hold .jacks (.jack 3 .outward) =
      some (.refused .unavailable 0 0) ∧
    (jackHeld true).claim .jacks = some { b with ended := true } ∧
    (jackHeld true).firstChecks .jacks (.jack 3 .outward) = none ∧
    (jackHeld true).verdict .hold .jacks (.jack 3 .outward) = none := by
  unfold State.hasRoom
  decide +kernel

theorem test_meets_ReleaseFreesTheClaim :
    let s := roomMoving .outward 10 .travel
    s.inReset = none ∧ s.hasRoom .p1 ∧ s.claim .awning = none ∧
    s.claim (.room 2) = some (claimBy (.port .p1) .hold (.toward .outward)) ∧ Owner.port .p1 ≠ .port .p2 ∧
    ¬ s.still (.room 2) ∧ ({ s with load := [] } : State).still (.room 2) := by
  unfold State.hasRoom State.still
  decide +kernel

/-- The awning's motion stands in the pause list since 2 s. -/
def awningPaused (m : Mode) : State :=
  { (claimed crowded .awning (claimBy (.port .p1) m (.toward .outward))) with
    paused := [{ entryBy .awning (.port .p1) m (.toward .outward) 2 with state := .paused, pausedSince := some (ms 2000) }] }

theorem test_meets_DeadlinesEndMotions :
    let s := roomMoving .outward 10 .travel
    s.inReset = none ∧ s.claim (.room 2) = some (claimBy (.port .p1) .hold (.toward .outward)) ∧
    (claimBy (.port .p1) .hold (.toward .outward)).deadline = some (ms 5200) ∧ ¬ s.still (.room 2) ∧
    ({ s with load := [] } : State).still (.room 2) ∧ s.claim .awning = none ∧
    (∃ e, (awningPaused .auto).paused.find? (fun x => decide (x.group = .awning)) = some e ∧ e.mode = .auto ∧
      e.pausedSince = some (ms 2000)) ∧
    (∃ e, (awningPaused .hold).paused.find? (fun x => decide (x.group = .awning)) = some e ∧ e.mode = .hold) ∧
    (awningPaused .auto).claim .awning = some (claimBy (.port .p1) .auto (.toward .outward)) := by
  refine ⟨?_, ?_, ?_, ?_, ?_, ?_, ⟨_, rfl, ?_, ?_⟩, ⟨_, rfl, ?_⟩, ?_⟩ <;> (try unfold State.still) <;> decide +kernel

theorem test_meets_StopEndsEverything : (roomMoving .outward 10 .travel).inReset = none ∧
    (roomMoving .outward 10 .travel).hasRoom .p1 ∧ ¬ (roomMoving .outward 10 .travel).still (Slider.room 2).group ∧
    (roomMoving .outward 10 .travel).still .awning ∧ Motor.a ∈ (roomMoving .outward 10 .travel).motors (.room 2) ∧
    (roomMoving .outward 10 .travel).planRunning = false ∧ planned.inReset = none ∧ planned.hasRoom .p1 ∧
    planned.planRunning = true := by
  unfold State.hasRoom State.still
  decide +kernel

/-- The alarm with a room out, and without anything out. -/
theorem test_meets_ParkLineSetsTheRoadState : parked.inReset = none ∧ parked.alarm = false ∧
    ¬ (roomMoving .outward 10 .travel).still (.room 2) ∧ planned.planRunning = true ∧ parked.planRunning = false ∧
    (parked.setSlider (.room 2) freshSlider).configured (.room 2) = true ∧
    ((parked.setSlider (.room 2) freshSlider).rooms[2]).state ≠ .closed ∧ parked.jackSetState = .stowed ∧
    parked.sliderState .awning = .closed := by
  unfold State.still
  decide +kernel

/-- ROOM2 standing RACKED with its counts 24 apart. -/
def rackedRoom : State :=
  { crowded.setSlider (.room 1)
      { freshSlider with
        state := .midway, fault := some .racked
        motorA := { freshMotor with count := some 34 }, motorB := { freshMotor with count := some 10 } } with
    lines := Vector.replicate 16 freshLines }

theorem test_meets_ClearFaultRemovesTheFault : crowded.inReset = none ∧ crowded.hasRoom .p1 ∧
    crowded.configured (.room 3) = false ∧ crowded.configured (.room 2) = true ∧
    (roomMoving .outward 10 .travel).claim (.room 2) = some (claimBy (.port .p1) .hold (.toward .outward)) ∧
    rackedRoom.inReset = none ∧ rackedRoom.hasRoom .p1 ∧ rackedRoom.configured (.room 1) = true ∧
    rackedRoom.claim (.room 1) = none ∧ (rackedRoom.clearFaultOf (.room 1)).fallenPermit = none ∧
    (Slider.room 1).group = .room 1 ∧ rackedRoom.racked (.room 1) = true ∧ crowded.racked (.room 1) = false ∧
    (crowded.clearFaultOf .jacks).fallenPermit = none ∧ crowded.configured .jacks = true := by
  unfold State.hasRoom
  decide +kernel

theorem test_meets_RunPlanIsAccepted : crowded.inReset = none ∧ crowded.hasRoom .p1 ∧ writing.write.isSome ∧
    driving.write = none ∧ driving.road ≠ .parked ∧ crowded.write = none ∧ crowded.road = .parked ∧
    ({ crowded with layout := Layout.empty } : State).layout.planSteps .setup = [] ∧ crowded.layout.planSteps .setup ≠ [] ∧
    planned.plan.status = .running ∧ crowded.plan.status ≠ .running ∧
    (∀ g ∈ planGroups (crowded.layout.planSteps .setup), crowded.claim g = none) ∧
    Group.awning ∈ planGroups (crowded.layout.planSteps .setup) ∧
    (claimed crowded .awning (claimBy (.port .p2) .hold (.toward .outward))).claim .awning =
      some (claimBy (.port .p2) .hold (.toward .outward)) ∧
    (∀ h ∈ planGroups (crowded.layout.planSteps .setup), groupCode h < groupCode .awning →
      (claimed crowded .awning (claimBy (.port .p2) .hold (.toward .outward))).claim h = none) ∧
    Group.jacks ∉ planGroups (crowded.layout.planSteps .setup) := by
  unfold State.hasRoom
  decide +kernel

/-- The parked coach with auto-stow set. -/
def autoStowing : State := { parked with layout := { coach with autoStow := true } }

theorem test_meets_IgnitionStows : parked.inReset = none ∧ parked.layout.autoStow = false ∧
    autoStowing.layout.autoStow = true ∧ autoStowing.road = .parked ∧
    ({ autoStowing with write := some 0 } : State).write ≠ none ∧ (∀ g, autoStowing.claim g = none) ∧
    autoStowing.write = none ∧ autoStowing.layout.stow ≠ [] ∧ Group.room 2 ∉ planGroups autoStowing.layout.stow ∧
    (claimed autoStowing .awning windClaim).claim .awning ≠ none := by
  refine ⟨rfl, ?_, ?_, ?_, ?_, every_group ?_, rfl, ?_, ?_, ?_⟩ <;> decide +kernel

theorem test_meets_StoreWritePutsTheLayoutInForce : parked.inReset = none ∧ parked.write = none ∧ writing.write.isSome ∧
    ({ writing with staging := oneRole } : State).write.isSome ∧ (Layout.ofImage oneRole).roles[9] ≠ .none ∧
    (Layout.ofImage oneRole).roles[15] = .none ∧ variantCount writing.straps.variant = 16 ∧
    writing.configured (Slider.room 0).group = true ∧ writing.claim .jacks = none := by decide +kernel

/-- A read of a channel with both seat lines and a kind. -/
def readOf (knd1 knd0 : Bool) : Levels := ⟨true, true, knd1, knd0⟩

/-- Channel 6 in the start-up census after a first read, taken 20 ms ago or later, and with a confirming read due now. -/
def startUpAt (t : Time) : State :=
  parked.setChan 6 { freshChannel .empty false with pendingRead := some (readOf false false), pendingAt := some t }
def startUp : State := startUpAt (ms 4980)
def unsure (r : Levels) : State :=
  (roomMoving .outward 10 .travel).setChan 6
    { drivenChan .outward with pendingRead := some r, pendingAt := some (ms 4980) }

/-- Channel 6 as a start-up census begins in the present moment, and the same where an idle step has sampled it. -/
def begun : State := ({ parked with censusStart := ms 5000 } : State).setChan 6 (freshChannel .empty false)
def sampled (s : State) : State := { s with tickedAt := some s.now }

theorem test_meets_ReadsThatAgreeSettleAChannel : startUp.inReset = none ∧ startUp.present 6 = true ∧
    startUp.role 6 ≠ .none ∧ (startUp.chan 6).settled = false ∧ (startUp.chan 6).pendingRead ≠ some (readOf true true) ∧
    (startUp.chan 6).pendingRead = some (readOf false false) ∧ startUp.motionOfChan 6 = none ∧
    parked.role 7 = .none ∧ (parked.chan 6).settled = true ∧ (parked.chan 6).pendingRead = none ∧
    ((unsure (readOf true true)).chan 6).settled = true ∧
    ((unsure (readOf true true)).chan 6).pendingRead = some (readOf true true) ∧
    ((unsure (readOf true true)).role 6).group = some (.room 2) ∧
    ((unsure (readOf true true)).entryOf (.room 2)).isSome ∧
    (∀ e, (unsure (readOf true true)).entryOf (.room 2) = some e → 6 ∈ (unsure (readOf true true)).motionChans e) ∧
    ((unsure (readOf true true)).chan 6).census = .seated ∧
    ms 5000 = ((startUp.chan 6).pendingAt.getD startUp.censusStart) + ms 20 ∧ ms 5000 ≤ startUp.now ∧
    startUp.tickedAt ≠ some startUp.now ∧
    ms 5020 = ((begun.chan 6).pendingAt.getD begun.censusStart) + ms 20 ∧ begun.now < ms 5020 ∧
    begun.tickedAt ≠ some begun.now ∧ (sampled begun).tickedAt = some (sampled begun).now ∧
    (begun.chan 6).settled = false ∧ (begun.chan 6).pendingRead ≠ some (readOf false false) ∧
    ms 5000 = (((unsure (readOf true true)).chan 6).pendingAt.getD (unsure (readOf true true)).censusStart) + ms 20 ∧
    parked.pending = [] := by
  decide +kernel

theorem test_meets_RecensusPassHoldsNewReads : parked.inReset = none := rfl

theorem test_meets_ChannelTimersRunOut :
    let stopping := parked.setChan 6 { seatedChan with drive := .stopping, lastStop := some ⟨ms 4951, .outward⟩ }
    let dwelling := (roomMoving .stowing 10 .travel).setChan 6
      { seatedChan with drive := .dwelling, dir := .stowing, lastStop := some ⟨ms 4501, .outward⟩ }
    let ramping := parked.setChan 6
      { drivenChan .outward with drive := .ramping, ramped := 64, driveStart := some (ms 4991), rampCount := 0 }
    let valve := (jacksMoving (.toward .outward) .outward).setChan 8
      { seatedChan with drive := .dwelling, dir := .outward, lastStop := some ⟨ms 4500, .stowing⟩ }
    parked.inReset = none ∧ (stopping.chan 6).drive = .stopping ∧ (stopping.chan 6).lastStop = some ⟨ms 4951, .outward⟩ ∧
    (parked.chan 6).drive ≠ .stopping ∧ (dwelling.chan 6).drive = .dwelling ∧
    (dwelling.chan 6).lastStop = some ⟨ms 4501, .outward⟩ ∧
    (dwelling.advanceTo (ms 4501 + ms dwelling.layout.reversalDwell)).mayDrive 6 = true ∧
    ({ dwelling with load := [] } : State).mayDrive 6 = false ∧ dwelling.motorChan (.room 2) .a = some 6 ∧
    (dwelling.advanceTo (ms 4501 + ms dwelling.layout.reversalDwell)).racked (.room 2) = false ∧
    dwelling.slideDir (.room 2) = some .stowing ∧ dwelling.motorHome (.room 2) .a = false ∧
    (ramping.chan 6).drive = .ramping ∧ (ramping.chan 6).driveStart = some (ms 4991) ∧
    (valve.chan 8).drive = .dwelling ∧ valve.mayDrive 8 = true ∧ valve.role 8 = .jack 0 ∧
    valve.jackSet.levelMark = false := by
  decide +kernel

/-- ROOM3 driven for 1 s, with two samples at or above the limit behind it; jack 1 with two samples below its loss level. -/
def overRun : State :=
  (roomMoving .outward 10 .travel).setChan 6 { drivenChan .outward with overRun := 2 }
def losing (run : Nat) : State :=
  parked.setJack 0 { freshJack with count := some 10, contact := true, lossRun := run }

theorem test_meets_SamplesAreScaledAndWatched : overRun.inReset = none ∧ parked.role 7 = .none ∧
    parked.present 6 = true ∧ parked.role 6 ≠ .none ∧ (overRun.role 6).isMotor = true ∧
    parked.countsCurrent 6 = false ∧ overRun.countsCurrent 6 = true ∧ (overRun.kindParams 6).currentLimit = 2800 ∧
    (2799#12).toNat < 2800 ∧ 2800 ≤ (2800#12).toNat ∧
    ((roomMoving .outward 10 .travel).chan 6).overRun < 2 ∧ (roomMoving .outward 10 .travel).countsCurrent 6 = true ∧
    2 ≤ (overRun.chan 6).overRun ∧ overRun.motorChan (.room 2) .a = some 6 ∧ (overRun.entryOf (.room 2)).isSome ∧
    parked.role 8 = .jack 0 ∧ (parked.jack 0).contact = false ∧ (parked.jackParams 0).contactThreshold = 1200 ∧
    ((losing 2).jack 0).contact = true ∧ ((losing 2).jackParams 0).contactThreshold ≤ 1050 + ((losing 2).jackParams 0).hysteresis ∧
    1049 + ((losing 2).jackParams 0).hysteresis < ((losing 2).jackParams 0).contactThreshold ∧
    2 ≤ ((losing 2).jack 0).lossRun ∧ ((losing 1).jack 0).lossRun < 2 := by
  decide +kernel

/-- ROOM3, and jack 1, with 63 rejected pulses. -/
def noisy (s : State) (n : Chan) : State := s.setPace n { s.paceRec n with tally := 63 }

theorem test_meets_ChannelFaultsEndTheMotion : overRun.inReset = none ∧ (overRun.role 6).group = some (.room 2) ∧
    (overRun.entryOf (.room 2)).isSome ∧ (overRun.role 6).isMotor = true ∧ overRun.countsCurrent 6 = true ∧
    2 ≤ (overRun.chan 6).overRun ∧ ¬(2 ≤ ((roomMoving .outward 10 .travel).chan 6).overRun) ∧
    (noisy overRun 6).hasPulses 6 = true ∧ ((noisy overRun 6).chan 6).driven = true ∧
    63 ≤ ((noisy overRun 6).paceRec 6).tally ∧ ¬(63 ≤ (overRun.paceRec 6).tally) ∧ (Slider.room 2).group = .room 2 ∧
    ((noisy (jacksMoving (.toward .outward) .outward) 8).role 8).group = some .jacks ∧
    ((noisy (jacksMoving (.toward .outward) .outward) 8).entryOf .jacks).isSome ∧
    63 ≤ ((noisy (jacksMoving (.toward .outward) .outward) 8).paceRec 8).tally ∧
    ((jacksMoving (.toward .outward) .outward).role 12).isMotor = true := by
  decide +kernel

theorem test_meets_ContactIsLost :
    let away : State := { losing 2 with lines := Vector.replicate 16 freshLines }
    (losing 2).inReset = none ∧ ((losing 2).jack 0).contact = true ∧ 2 ≤ ((losing 2).jack 0).lossRun ∧
    (losing 2).jackConfigured 0 = true ∧ (losing 2).jackHome 0 = true ∧ away.jackState 0 ≠ .retracting ∧
    away.jackHome 0 = false ∧ away.motions = [] ∧ ((losing 1).jack 0).lossRun < 2 ∧ (parked.jack 0).contact = false := by
  decide +kernel

/-- A pulse at the counter 65 meets the mask limit 65 of ROOM3's pace; one at 64 does not. -/
theorem test_meets_PulsesAreSorted :
    let s := roomMoving .outward 88 .travel
    let at65 := s.setPace 6 { s.paceRec 6 with counter := 65 }
    let at64 := s.setPace 6 { s.paceRec 6 with counter := 64, tally := 62 }
    let coast := parked.setChan 6 { seatedChan with drive := .stopping, lastStop := some ⟨ms 4950 + 1, .outward⟩ }
    s.inReset = none ∧ parked.role 12 = .pump ∧ (parked.role 12).hasPulses = false ∧ s.present 6 = true ∧
    (s.role 6).hasPulses = true ∧ (s.chan 6).driven = true ∧ (at64.paceRec 6).counter < at64.maskLimit 6 ∧
    (at64.paceRec 6).tally < 63 ∧ at65.maskLimit 6 ≤ (at65.paceRec 6).counter ∧ at65.motorChan (.room 2) .a = some 6 ∧
    at65.motorChan (.room 2) .b = none ∧ (at65.motor (.room 2) .a).phase ≠ .seat ∧
    (at65.motor (.room 2) .a).phase ≠ .finished ∧ (at65.motor (.room 2) .a).count = some 88 ∧
    88 + 1 < at65.travelLimit (.room 2) ∧ ((jacksMoving (.toward .outward) .outward).chan 8).driven = true ∧
    (jacksMoving (.toward .outward) .outward).maskLimit 8 ≤ ((jacksMoving (.toward .outward) .outward).paceRec 8).counter ∧
    (coast.chan 6).driven = false ∧ coast.now < ms 4950 + 1 + ms 50 ∧ coast.motorChan (.room 2) .a = some 6 ∧
    (parked.chan 6).driven = false ∧ (parked.chan 6).lastStop = none := by
  decide +kernel

/-- The ends of travel at T − E = 10 and below, a seat and a travel inward, and a retracting jack. -/
theorem test_meets_StallsEndTravel :
    let at10 := roomMoving .outward 10 .travel
    let at9 := roomMoving .outward 9 .travel
    at10.inReset = none ∧ parked.mayStall 6 = false ∧ at10.mayStall 6 = true ∧ at10.motorChan (.room 2) .a = some 6 ∧
    (at10.entryOf (.room 2)).isSome ∧
    (∀ x ∈ at10.motors (.room 2), (at10.motor (.room 2) x).count = some 10) ∧
    at10.travel (.room 2) - at10.endWindow (.room 2) = 10 ∧ at9.mayStall 6 = true ∧
    Motor.a ∈ at9.motors (.room 2) ∧ (at9.motor (.room 2) .a).count = some 9 ∧
    (roomMoving .stowing 10 .travel).mayStall 6 = true ∧
    ((roomMoving .stowing 10 .travel).motor (.room 2) .a).phase = .travel ∧ (roomMoving .stowing 0 .seat).mayStall 6 = true ∧
    ((roomMoving .stowing 0 .seat).motor (.room 2) .a).phase = .seat ∧
    (∀ x ∈ (roomMoving .stowing 0 .seat).motors (.room 2), x = .a) ∧
    (jacksMoving (.toward .stowing) .stowing).mayStall 8 = true ∧
    (jacksMoving (.toward .stowing) .stowing).role 8 = .jack 0 ∧
    ((jacksMoving (.toward .stowing) .stowing).entryOf .jacks).isSome ∧
    ((jacksMoving (.toward .stowing) .stowing).jack 0).phase = .active ∧
    ((jacksMoving (.toward .stowing) .stowing).jack 0).dir = .stowing := by
  decide +kernel

/-- The parked coach in a wind state, with a pace of 636 ticks, which gives the gust threshold of 110 itself. -/
def gusting (st : WindState) : State :=
  { parked with
    wind := { freshWind true with
      state := st, ring := [636, 636, 636, 636], counter := 636
      deadline := if st = .rising ∨ st = .easing then some (ms 5000) else none } }

theorem test_meets_WindSpeedIsHandedOver : parked.inReset = none ∧
    ({ parked with layout := Layout.empty } : State).layout.wind.present = false ∧ parked.layout.wind.present = true ∧
    windSpeed 70000 (gusting .calm).wind = 110 ∧ coach.wind.gust = 110 ∧
    windSpeed 70000 { (gusting .rising).wind with counter := 637 } = 109 ∧
    windSpeed 70000 { (gusting .easing).wind with counter := 875 } = 80 ∧ coach.wind.calm = 80 ∧
    windSpeed 70000 { (gusting .gusty).wind with counter := 876 } = 79 ∧ (gusting .unwatched).wind.state = .unwatched := by
  decide +kernel

theorem test_meets_WindHoldsAreReached :
    let out : State := { gusting .rising with awning := { freshSlider with state := .opened } }
    parked.inReset = none ∧ out.wind.state = .rising ∧ out.wind.deadline = some (ms 5000) ∧
    ({ out with write := some 0 } : State).write.isSome ∧ out.write = none ∧ out.sliderState .awning ≠ .closed ∧
    out.road = .parked ∧ out.configured .awning = true ∧ out.unavailable .awning = false ∧
    (claimed out .awning (claimBy (.port .p1) .hold (.toward .outward))).claim .awning =
      some (claimBy (.port .p1) .hold (.toward .outward)) ∧ ¬ out.planRunning ∧ parked.wind.state ≠ .rising ∧
    (gusting .easing).wind.state = .easing ∧ (gusting .easing).wind.deadline = some (ms 5000) ∧
    (gusting .easing).claim .awning = none ∧ parked.wind.state ≠ .easing := by
  decide +kernel

/-- Pace 210 and seat fraction 64 give a seat time of 105 ticks. -/
theorem test_meets_HomeSwitchesZeroTheCount :
    let s := roomMoving .stowing 10 .travel
    parked.inReset = none ∧ parked.motorChan (.room 2) .a = some 6 ∧ parked.motorChan (.room 1) .b = some 5 ∧
    parked.motorChan .awning .a = some 13 ∧ parked.present 6 = true ∧ parked.motions = [] ∧
    s.motorChan (.room 2) .a = some 6 ∧ s.present 6 = true ∧ (s.entryOf (Slider.room 2).group).isSome ∧
    (∀ e, s.entryOf (Slider.room 2).group = some e → e.action.dir = .stowing) ∧ (s.motor (.room 2) .a).phase = .travel ∧
    s.motorDriven (.room 2) .a = true ∧ s.twoMotors (.room 2) = false ∧ s.pace? 6 = some 210 ∧
    128 ≤ 210 * s.seatFraction (.room 2) := by
  decide +kernel

/-- ROOM2 with motor A in its seat and motor B in a phase. -/
def seating (b : MotorPhase) : State :=
  (holding crowded (.room 1) (.port .p1) .hold (.toward .stowing) 6).setSlider (.room 1)
    { freshSlider with
      state := .closing
      motorA := { freshMotor with count := some 0, phase := .seat, seatDeadline := some (ms 5000) }
      motorB := { freshMotor with count := some 3, phase := b } }

theorem test_meets_SlideDeadlinesEndTheMotion : (seating .travel).inReset = none ∧
    ((seating .travel).motor (.room 1) .a).phase = .seat ∧
    ((seating .travel).motor (.room 1) .a).seatDeadline = some (ms 5000) ∧
    ¬ (seating .finished).still (Slider.room 1).group ∧
    (∀ x ∈ (seating .finished).motors (.room 1), x ≠ .a → ((seating .finished).motor (.room 1) x).phase = .finished) ∧
    (∃ x ∈ (seating .travel).motors (.room 1), x ≠ .a ∧ ((seating .travel).motor (.room 1) x).phase ≠ .finished) ∧
    (parked.motor (.room 1) .a).phase ≠ .seat ∧ (seating .travel).running (Slider.room 1).group = true ∧
    parked.running (Slider.room 1).group = false ∧ parked.running Slider.awning.group = false := by
  unfold State.still
  decide +kernel

theorem test_meets_JackHomeZeroesTheCount : parked.inReset = none ∧ parked.roleChan (.jack 3) = some 11 ∧
    parked.present 11 = true ∧ parked.motions = [] ∧ (parked.jack 3).phase = .idle := by decide +kernel

theorem test_meets_JackTimeoutsEndTheMotion :
    let s := jacksMoving (.toward .outward) .outward
    s.inReset = none ∧ s.level.status ≠ .active ∧ s.running .jacks = true ∧ (s.entryOf .jacks).isSome ∧
    (∀ e, s.entryOf .jacks = some e → 3 ∈ s.jacksOf e.action) ∧ (s.jack 3).phase = .active ∧
    parked.running .jacks = false ∧ parked.level.status ≠ .active ∧
    (levelling .contact).level.status = .active ∧ (levelling .contact).level.phase = .contact ∧
    (levelling .contact).running .jacks = true ∧ ((levelling .contact).entryOf .jacks).isSome ∧
    (levelling .lift).level.phase = .lift ∧ (levelling .lift).running .jacks = true ∧
    (levelling .lift).level.phase ≠ .contact ∧ (levelling .lift).level.phase ≠ .settle ∧
    (levelling .settle).level.phase ≠ .lift := by decide +kernel

theorem test_meets_TiltIsAveraged : parked.inReset = none ∧ ({ parked with layout := Layout.empty } : State).jackCount = 0 ∧
    0 < parked.jackCount ∧ 0 < 1 * parked.layout.level.perDegree := by decide +kernel

theorem test_meets_CornerLiftsAreSolved : unlevel.jackConfigured 0 = true ∧ unlevel.jackConfigured 5 = false ∧
    (unlevel.jack 0).atStroke = false ∧ (unlevel.jack 0).count = some 310 ∧ 0 < (unlevel.jackParams 0).strokeMax ∧
    (unlevel.jack 1).count = some 0 ∧ (unlevel.jackParams 1).strokeMax = 0 := by decide +kernel

/-- The end of SETTLE with a tilt: level at 15, a step out of level at 16, steep above 600. -/
def settling (pitch : Int) (pass returns : Nat) : State :=
  { levelling .settle with
    tilt := { freshTilt with pitch := pitch }
    level := { freshLevel with status := .active, phase := .settle, pass := pass, returns := returns } }

/-- A jack whose lift-off mark stands. -/
def liftedOff (s : State) : State := s.setJack 0 { freshJack with count := some 10, liftOff := true, phase := .done }

theorem test_meets_SettleDecidesTheCourse : (settling 16 0 0).inReset = none ∧ (settling 16 0 0).level.status = .active ∧
    (settling 16 0 0).level.phase = .settle ∧ (settling 16 0 0).running .jacks = true ∧
    ((settling 16 0 0).entryOf .jacks).isSome ∧
    (liftedOff (settling 16 0 5)).configuredJacks.any (fun j => (liftedOff (settling 16 0 5)).jackState j == .lifted) = true ∧
    (settling 16 0 0).layout.level.passLimit = 5 ∧ (settling 16 0 0).layout.level.tolerance = 15 ∧
    (settling 16 0 0).layout.level.steepLimit = 600 ∧
    (settling 16 0 0).configuredJacks.any (fun j => (settling 16 0 0).jackState j == .lifted) = false ∧
    (settling 16 0 0).load = [entryBy .jacks (.port .p1) .auto .level 8] ∧ (settling 16 0 0).paused = [] ∧
    (let s := settling 16 0 0
      let v := { s with level := { s.level with pitch := s.tilt.pitch, roll := s.tilt.roll } }.solveLifts
      v.level.selected[(2 : JackId)] = true) ∧
    (let s := { settling 16 0 0 with layout := { coach with level := { coach.level with deadband := 20000 } } }
      let v := { s with level := { s.level with pitch := s.tilt.pitch, roll := s.tilt.roll } }.solveLifts
      ∀ j : JackId, v.level.selected[j] = false) ∧
    ((settling 16 0 0).chan 10).census = .seated ∧ ((settling 16 0 0).chan 10).drive = .off ∧
    ((settling 16 0 0).chan 10).lastStop = none ∧ (settling 16 0 0).roleChan (.jack 2) = some 10 := by decide +kernel

theorem test_meets_BuzzerFollowsItsPatterns : parked.inReset = none ∧
    ({ parked with faultPattern := some (ms 4500), faultCount := 1 } : State).faultPattern = some (ms 4500) ∧
    parked.faultPattern = none ∧ ({ parked with motionPeriod := some (ms 4500) } : State).motionPeriod = some (ms 4500) ∧
    parked.motionPeriod = none := by decide +kernel

/-- The first 24 samples, and 25 of them; the means at the edges of R133. -/
theorem test_meets_SupplyBandFollowsTheMean : parked.inReset = none ∧ parked.layout.supplyScale = 256 ∧
    ((List.replicate 23 1262 ++ [1262]).drop (23 + 1 - 25)).length = 24 ∧
    ((parked.supply.samples ++ [1262]).drop (parked.supply.samples.length + 1 - 25)).length = 25 ∧
    parked.supply.mean ≠ none ∧ freshSupply.mean = none ∧ parked.supply.band = .a ∧
    bandAfter false .a 1240 = .a ∧ bandAfter false .a 1239 = .b ∧ bandAfter false .b 1254 = .b ∧
    bandAfter false .b 1255 = .a ∧ bandAfter false .c 1195 = .b ∧ bandAfter false .d 1114 = .d ∧
    bandAfter false .d 1115 = .c ∧ bandAfter true .d 1100 = .c ∧ bandAfter true .d 1099 = .d := by decide +kernel

theorem test_meets_PaceLimitsFollowTheRing : 0 < (parked.kindParams 6).depth ∧ (parked.kindParams 6).maskFraction ≤ 127 ∧
    (parked.paceRec 6).ring.length < (parked.kindParams 6).depth ∧
    ((roomMoving .outward 10 .travel).kindParams 6).depth = ((roomMoving .outward 10 .travel).paceRec 6).ring.length := by
  decide +kernel

/-! The invariants hold of a state whose next step does something. -/

/-- The outcome of a step is a next state. -/
def goesOn : Host.Outcome State Fault Refusal → Bool
  | .next _ => true
  | _ => false

/-- The coach with a request of P1 in its queue. -/
def asked : State := { crowded with pending := [.move .p1 3 1] }

theorem test_meets_BuffersStayCanonical : asked.staging.wf = true ∧ asked.stored = .record Image.blank ∧
    Image.blank.wf = true ∧ goesOn (step asked) = true :=
  ⟨wf_emptyImage, rfl, Image.wf_blank, by decide +kernel⟩

theorem test_meets_BudgetIsNeverExceeded :
    unitsOf asked.load ≤ asked.supply.band.budget ∧ goesOn (step asked) = true := by decide +kernel

theorem test_meets_WriteFindsNoClaim :
    let s : State := { writing with pending := [.move .p1 3 1] }
    s.write.isSome ∧ (∀ g, s.claim g = none) ∧ goesOn (step s) = true := by
  refine ⟨rfl, every_group ?_, ?_⟩ <;> decide +kernel

theorem test_meets_RoadListsStayEmpty :
    let s : State := { driving with pending := [.move .p1 3 1] }
    s.road ≠ .parked ∧ s.load = [] ∧ s.paused = [] ∧ s.plan.status ≠ .running ∧ goesOn (step s) = true := by
  decide +kernel

theorem test_meets_PortLimitsHold :
    let s : State := { full with pending := [.move .p1 3 1] }
    (∀ p ∈ allPorts, (s.port p).replies.length ≤ 4 ∧ (s.port p).linkErrors ≤ 255) ∧ goesOn (step s) = true := by
  decide +kernel

/-- The step of the queued request drives channel 6, which was not driven before. -/
theorem test_meets_OnlySeatedChannelsStart : asked.enOut 6 = false ∧
    (match step asked with
      | .next t => t.enOut 6
      | _ => false) = true := by decide +kernel

/-! Clauses of the statements that a moment, a second motor, a plan or a switch decides. -/

/-- The state in which an idle step has raised what is due now. -/
def ticked (s : State) : State := { s with tickedAt := some s.now }

/-- Of two moments a step apart about now, the second waits for the clock where an idle step has sampled now. -/
theorem test_meets_moments_wait : (ticked parked).comes (parked.now + 1) = false ∧ (ticked parked).comes parked.now = true ∧
    parked.comes (parked.now + 1) = true ∧ (ticked parked).mayReach 41 42 = false ∧ (ticked parked).mayReach 42 42 = true ∧
    parked.mayReach 41 42 = true ∧ (ticked parked).inReset = none := by decide +kernel

/-- The step before the sample at 5 s, with two samples of SEA lines behind it. -/
def sampling : State :=
  { parked with
    now := ms 5000 - 1
    lines := Vector.replicate 16 { homeLines with sea := { samples := [true, true], accepted := some true } } }

theorem test_meets_IdleStepIsOneSample_lines : sampling.pending = [] ∧ sampling.inReset = none ∧
    sampling.conditioned (.sea 6) = true ∧ sampling.lineOrigin (.sea 6) < ms 5000 ∧
    (ms 5000 - sampling.lineOrigin (.sea 6)) % 40 = 0 ∧ (sampling.line (.sea 6)).accepted.isSome ∧
    sampling.conditioned (.hom 15) = false ∧ sampling.hasPulses 6 = true ∧ sampling.hasPulses 7 = false ∧
    (match step sampling with
      | .next t => (t.line (.sea 6)).samples.length == 3
      | _ => false) = true := by decide +kernel

theorem test_meets_ResetEndChoosesTheLayout_awning : (Layout.ofImage oneRole).hasRole .awning = false := by decide +kernel

/-- The parked coach before the first samples: the lines of channel 6 and PARK have no accepted level yet. -/
def unread : State := { parked with lines := Vector.replicate 16 freshLines, park := { samples := [], accepted := none } }

theorem test_meets_InitialLevelsAreTaken_first : unread.hasHome 6 = true ∧ (unread.line (.hom 6)).accepted = none ∧
    (Line.hom 6, true) ∈ [(Line.hom 6, true), (Line.park, true)] ∧ unread.motorChan (.room 2) .a = some 6 ∧
    unread.role 8 = .jack 0 ∧ unread.motions = [] ∧ unread.park.accepted = none ∧
    (match exec (.initialAcceptedLevel [(.hom 6, true), (.park, true)]) unread with
      | .next t => t.park.accepted.isSome
      | _ => false) = true := by decide +kernel

/-- A reply of which the start bit, and 19 steps later the mark bit, of the first character is being sent. -/
def sending : State := { crowded with now := 19 }

theorem test_meets_RepliesJoinTheQueue_line : ((sending.port .p1).replies.headD [])[0]? = some 0x80 ∧
    (sending.port .p1).headSince = some 0 ∧ (256 * (19 - 0) + 0) * (if sending.straps.rate then 36 else 12) / 6400 = 11 * 0 + 9 ∧
    sending.txOut .p1 0 = true ∧ ({ sending with now := 0 } : State).txOut .p1 0 = false ∧
    (256 * (0 - 0) + 0) * (if sending.straps.rate then 36 else 12) / 6400 = 11 * 0 + 0 := by decide +kernel

theorem test_meets_ReadsChangeNothing_axes : (crowded.axisBytes (.room 2)).isSome = true ∧
    crowded.roleChan (.room 2 .b) = none ∧ (crowded.axisBytes (.jack 0)).isSome = true ∧
    (crowded.axisBytes .awning).isSome = true ∧ (crowded.axisBytes .level).isSome = true ∧
    crowded.axisBytes (.jack 5) = none := by decide +kernel

/-- JACK2 on channel 3 and JACK1 on channel 5 and no others: byte 6 is named, as the lower channel's role byte (R180). -/
theorem test_meets_CommitBeginsTheWrite_bytes :
    firstBadByte (crowded.staging.write 0 17) 16 = some 0 ∧ 16 < (crowded.staging.write 0 17).u8 (2 * (0 : Chan).val) ∧
    (firstBadByte (crowded.staging.write 438 0) 16).isSome ∧
    (crowded.staging.write 438 0).u16 437 ≤ (crowded.staging.write 438 0).u16 439 ∧
    firstBadByte ((((crowded.staging.write 6 10).write 10 9).write 12 15)) 16 = some 6 := by decide +kernel

theorem test_meets_CommitBeginsTheWrite_roles : firstBadByte coach.toImage 16 = none ∧
    (Layout.ofImage coach.toImage).hasRole (.room 2 .a) = true ∧ (Layout.ofImage coach.toImage).hasRole .awning = true ∧
    (Layout.ofImage coach.toImage).hasRole (.jack 3) = true ∧
    (Layout.ofImage coach.toImage).hasRole (.room 1 .b) = true := by decide +kernel

theorem test_meets_LinkTimersRunOut_waits :
    let s := ticked (framed [0x10] (ms 4980 + 1))
    (s.port .p1).frame = some ⟨[0x10], ms 4980 + 1⟩ ∧ s.comes (ms 4980 + 1 + ms 20) = false ∧
    (crowded.port .p1).replies = [0x80, 0x15, 0, 0x6B] :: List.replicate 2 [0x80, 0x15, 0, 0x6B] ∧
    ({ sending with tickedAt := some 19 } : State).comes (0 + sendTime sending.straps.rate 4) = false ∧
    crowded.comes (0 + sendTime crowded.straps.rate 4) = true := by decide +kernel

/-- The parked coach with ROOM2 and the awning out. -/
def roomOut : State :=
  { (parked.setSlider (.room 1) { freshSlider with state := .opened }).setSlider .awning { freshSlider with state := .opened }
    with lines := Vector.replicate 16 freshLines }

theorem test_meets_MotionChecksAreInOrder_rows :
    (roomOut.configured (.room 1) = true ∧ (roomOut.rooms[1]).state ≠ .closed) ∧
    (∀ k : RoomId, parked.configured (.room k) = true → (parked.rooms[k]).state = .closed) ∧
    parked.permitCause .jacks (.jack 3 .stowing) = none ∧ roomOut.permitCause .jacks (.jack 3 .stowing) = some .roomsOut := by
  decide +kernel

theorem test_meets_MotionIsAccepted_free : crowded.still (.room 2) ∧ crowded.still .jacks ∧ crowded.unplanned (.room 2) ∧
    motionCommand .p1 .auto (.room 2) (.toward .outward) = some (.auto .p1 3 1) ∧
    crowded.verdict .auto (.room 2) (.toward .outward) = none ∧
    motionCommand .p1 .auto .awning (.toward .stowing) = some (.auto .p1 6 2) ∧
    crowded.verdict .auto .awning (.toward .stowing) = none :=
  ⟨by unfold State.still; decide +kernel, by unfold State.still; decide +kernel,
    fun _ h => absurd h (by decide +kernel), by decide +kernel, by decide +kernel, by decide +kernel, by decide +kernel⟩

/-- The coach with the room, the awning and ROOM2 midway, ROOM2's counts a lead apart. -/
def midway (a b : Nat) : State :=
  { crowded with
    rooms := Vector.replicate 4 { closedRoom with
      state := .midway, motorA := { freshMotor with count := some a }, motorB := { freshMotor with count := some b } }
    awning := { closedRoom with state := .midway, motorA := { freshMotor with count := some a } }
    lines := Vector.replicate 16 freshLines }

theorem test_meets_MoveOutDrivesTheMotor_in :
    let s := midway 40 40
    s.inReset = none ∧ s.hasRoom .p1 ∧ s.motions = [] ∧ s.write = none ∧ s.road = .parked ∧ s.claim .awning = none ∧
    s.motorChan .awning .a = some 13 ∧ s.motorChan .awning .b = none ∧ s.groupChans .awning = [13] ∧
    (s.chan 13).census = .seated ∧ s.motorHome .awning .a = false ∧ s.permitCause .awning (.toward .stowing) = none ∧
    2 ≤ s.budget ∧ (s.chan 13).drive = .off ∧ (s.chan 13).lastStop = none := by
  unfold State.hasRoom
  decide +kernel

theorem test_meets_MoveOutDrivesTheMotor_two :
    (∀ s ∈ [midway 40 16, midway 40 17], s.inReset = none ∧ s.hasRoom .p1 ∧ s.motions = [] ∧ s.write = none ∧
      s.road = .parked ∧ s.claim (.room 1) = none ∧
      s.roleChan (.room 1 .a) = some 4 ∧ s.roleChan (.room 1 .b) = some 5 ∧ s.groupChans (.room 1) = [4, 5] ∧
      (∀ x ∈ [(4 : Chan), 5], (s.chan x).census = .seated ∧ (s.chan x).drive = .off ∧ (s.chan x).lastStop = none) ∧
      (s.rooms[1]).fault = none ∧ s.motorHome (.room 1) .a = false ∧ s.motorHome (.room 1) .b = false ∧
      s.permitCause (.room 1) (.toward .outward) = none ∧ 6 ≤ s.budget) ∧
    ((midway 40 16).layout.rooms[1]).rackLimit ≤ max 40 16 - min 40 16 ∧
    max 40 17 - min 40 17 < ((midway 40 17).layout.rooms[1]).rackLimit ∧ 40 < (midway 40 16).travelLimit (.room 1) := by
  unfold State.hasRoom
  decide +kernel

/-- All jacks out, and one jack in. -/
theorem test_meets_MoveOutDrivesTheMotor_jacks :
    let away : State := { crowded with lines := Vector.replicate 16 freshLines }
    motionCommand .p1 .hold .jacks (.toward .outward) = some (.move .p1 5 1) ∧
    motionCommand .p1 .hold .jacks (.jack 3 .stowing) = some (.moveJack .p1 4 2) ∧ away.motions = [] ∧
    (∀ a ∈ [Action.toward .outward, .jack 3 .stowing], away.jacksOf a ≠ [] ∧
      (∀ j ∈ away.jacksOf a, (away.roleChan (.jack j)).isSome ∧ (away.jack j).contact = false ∧ away.jackHome j = false) ∧
      away.permitCause .jacks a = none ∧ away.motionUnits .jacks a ≤ away.budget) ∧
    (∀ n ∈ away.groupChans .jacks, (away.chan n).census = .seated ∧ (away.chan n).drive = .off ∧
      (away.chan n).lastStop = none) ∧
    away.roleChan .pump = some 12 ∧ away.claim .jacks = none ∧ away.groupFaulted .jacks = false := by
  decide +kernel

/-- The jack change of a motion that waits in band D. -/
def jackPaused : State :=
  { jackHeld false with
    load := []
    paused := [{ entryBy .jacks (.port .p1) .hold (.jack 0 .outward) 5 with state := .paused, pausedSince := some (ms 4000) }]
    supply := { samples := List.replicate 25 1000, mean := some 1000, band := .d } }

theorem test_meets_HolderTurnsTheMotion_budget :
    jackPaused.claim .jacks = some (claimBy (.port .p1) .hold (.jack 0 .outward)) ∧
    jackPaused.firstChecks .jacks (.jack 3 .outward) = none ∧
    jackPaused.verdict .hold .jacks (.jack 3 .outward) = some (.refused .budget 0 0) ∧
    jackPaused.showsMotions ∧ (jackHeld false).showsMotions ∧ (roomMoving .outward 10 .travel).unplanned (.room 2) ∧ jackPaused.motions ≠ [] :=
  ⟨by decide +kernel, by decide +kernel, by decide +kernel, by unfold State.showsMotions; decide +kernel,
    by unfold State.showsMotions; decide +kernel, fun _ h => absurd h (by decide +kernel), by decide +kernel⟩

theorem test_meets_DeadlinesEndMotions_waits :
    (ticked (roomMoving .outward 10 .travel)).comes (ms 5200) = false ∧ (roomMoving .outward 10 .travel).comes (ms 5200) = true ∧
    (awningPaused .auto).comes (ms 2000 + seconds (awningPaused .auto).layout.pauseLimit) = true ∧
    (ticked (awningPaused .auto)).comes (ms 2000 + seconds (awningPaused .auto).layout.pauseLimit) = false ∧
    claimBy (.port .p1) .auto (.toward .outward) = { claimBy (.port .p1) .auto (.toward .outward) with deadline := none } := by
  decide +kernel

theorem test_meets_RunPlanIsAccepted_step :
    crowded.layout.planSteps .setup = [(.room 1, .toward .outward)] :: [[(.awning, .toward .outward)]] ∧
    crowded.motions = [] ∧ crowded.stepTest (.room 1) (.toward .outward) = none ∧
    (crowded.setChan 5 { seatedChan with census := .loose }).configured (.room 1) = true ∧
    (5 ∈ (crowded.setChan 5 { seatedChan with census := .loose }).groupChans (.room 1) ∧
      ((crowded.setChan 5 { seatedChan with census := .loose }).chan 5).census ≠ .seated) ∧
    crowded.still (.room 1) := by
  unfold State.still
  decide +kernel

theorem test_meets_StoreWritePutsTheLayoutInForce_kept :
    let s : State := { writing with staging := coach.toImage }
    s.write.isSome ∧ (∀ id ∈ [Slider.room 1, .awning], s.configured id.group = true) ∧
    (Layout.ofImage coach.toImage).hasRole (.room 1 .a) = true ∧ s.jackConfigured 3 = true ∧
    (Layout.ofImage coach.toImage).hasRole (.jack 3) = true ∧ s.motions = [] ∧ s.wind.gustMissed = false ∧
    coach.toImage.u8 (2 * (8 : Chan).val) = 9 + (0 : JackId).val ∧ coach.toImage.u8 (2 * (12 : Chan).val) = 15 ∧
    coach.toImage.u8 (2 * (5 : Chan).val) = 2 * (1 : RoomId).val + 2 ∧ coach.toImage.u8 (2 * (13 : Chan).val) = 16 ∧
    coach.toImage.u8 (2 * (1 : Chan).val) = 0 := by decide +kernel

/-- ROOM2 OUT with its motor A in a reversal dwell and its counts a lead apart. -/
def dwellingTwo (a b : Nat) : State :=
  { (holding (midway a b) (.room 1) (.port .p1) .hold (.toward .outward) 6).setChan 4
      { seatedChan with drive := .dwelling, dir := .outward, lastStop := some ⟨ms 4500, .stowing⟩ } with
    alarm := false }

theorem test_meets_ChannelTimersRunOut_racked :
    let s := dwellingTwo 40 16
    let u := s.advanceTo (ms 4500 + ms s.layout.reversalDwell)
    (s.chan 4).drive = .dwelling ∧ (s.chan 4).lastStop = some ⟨ms 4500, .stowing⟩ ∧
    s.comes (ms 4500 + ms s.layout.reversalDwell) = true ∧ u.mayDrive 4 = true ∧ s.role 4 = .room 1 .a ∧
    s.motorChan (.room 1) .a = some 4 ∧ s.roleChan (.room 1 .b) ≠ none ∧ (s.rooms[1]).motorA.count = some 40 ∧
    (s.rooms[1]).motorB.count = some 16 ∧ (s.layout.rooms[1]).rackLimit ≤ max 40 16 - min 40 16 ∧
    (ticked (parked.setChan 6 { seatedChan with drive := .stopping, lastStop := some ⟨ms 4951, .outward⟩ })).comes
      (ms 4951 + ms 50) = false := by decide +kernel

/-- ROOM1, which needs support, on its way OUT on the jack set STABILISED. -/
def supportedMove : State :=
  { holding crowded (.room 0) (.port .p1) .hold (.toward .outward) 3 with
    jacks := Vector.replicate 6 { freshJack with count := some 10, contact := true, lossRun := 2 }
    lines := Vector.replicate 16 freshLines }

theorem test_meets_ContactIsLost_support :
    let s := supportedMove
    s.inReset = none ∧ (s.jack 0).contact = true ∧ 2 ≤ (s.jack 0).lossRun ∧ s.jackConfigured 0 = true ∧
    s.load = [entryBy (.room 0) (.port .p1) .hold (.toward .outward) 3] ∧ s.paused = [] ∧
    (s.layout.rooms[0]).needsSupport = true ∧ s.jackSetState = .stabilised ∧ s.jackState 0 ≠ .retracting ∧
    s.jackHome 0 = false := by decide +kernel

/-- ROOM3 at its travel limit, and ROOM2 driven OUT on both motors, A at a count and B at 16. -/
def twoMoving (a : Nat) : State :=
  let s := holding (midway a 16) (.room 1) (.port .p1) .hold (.toward .outward) 6
  { (s.setChan 4 (drivenChan .outward)).setChan 5 (drivenChan .outward) with
    rooms := s.rooms.set 1 { s.rooms[1] with
      motorA := { freshMotor with count := some a, phase := .travel }
      motorB := { freshMotor with count := some 16, phase := .travel } } }

/-- A step brings the lead to 6, to 7, above the sync window, and to 24, the rack limit. -/
theorem test_meets_PulsesAreSorted_two :
    (∀ a ∈ [21, 22, 39],
      let s := twoMoving a
      s.present 4 = true ∧ (s.role 4).hasPulses = true ∧ (s.chan 4).driven = true ∧
      s.maskLimit 4 ≤ (s.paceRec 4).counter ∧ s.motorChan (.room 1) .a = some 4 ∧
      (s.motor (.room 1) .a).phase = .travel ∧ s.motorChan (.room 1) .b = some 5 ∧ (s.entryOf (.room 1)).isSome ∧
      (s.motor (.room 1) .a).count = some a ∧ (s.motor (.room 1) .b).count = some 16 ∧ a + 1 < s.travelLimit (.room 1)) ∧
    22 - 16 ≤ (coach.rooms[1]).syncWindow ∧ (coach.rooms[1]).syncWindow < 23 - 16 ∧ 23 - 16 < (coach.rooms[1]).rackLimit ∧
    (coach.rooms[1]).rackLimit ≤ 40 - 16 ∧
    (roomMoving .outward 89 .travel).maskLimit 6 ≤ 65 ∧
    ((roomMoving .outward 89 .travel).motor (.room 2) .a).count = some 89 ∧
    (roomMoving .outward 89 .travel).travelLimit (.room 2) ≤ 89 + 1 := by decide +kernel

theorem test_meets_StallsEndTravel_jacks :
    let s := jacksMoving (.jack 0 .outward) .outward
    s.inReset = none ∧ s.mayStall 8 = true ∧ s.mayReach (s.paceRec 8).counter (s.stallLimit 8) = true ∧
    s.role 8 = .jack 0 ∧ (s.entryOf .jacks).isSome ∧ (∀ e, s.entryOf .jacks = some e → e.action = .jack 0 .outward) ∧
    (s.jack 0).phase = .active ∧ (s.jack 0).dir = .outward ∧ s.planRunning = false ∧
    (ticked s).mayReach ((ticked s).paceRec 8).counter ((ticked s).stallLimit 8) = false := by decide +kernel

/-- The gust hold is due with the awning out. -/
def gust : State :=
  { gusting .rising with awning := { freshSlider with state := .opened }, lines := Vector.replicate 16 freshLines }

theorem test_meets_WindHoldsAreReached_free :
    gust.comes (ms 5000) = true ∧ gust.write = none ∧ gust.sliderState .awning ≠ .closed ∧ gust.road = .parked ∧
    gust.configured .awning = true ∧ gust.unavailable .awning = false ∧ gust.claim .awning = none ∧
    gust.unplanned .awning ∧ gust.planRunning = false ∧ gust.still .awning ∧ gust.fallenPermit = none ∧ gust.load.Nodup ∧
    (∀ x ∈ gust.load, x.owner ≠ .wind) ∧ gust.allHome .awning = false ∧
    gust.motionUnits .awning (.toward .stowing) + unitsOf gust.load ≤ gust.budget ∧
    ({ ticked gust with wind := { gust.wind with deadline := some (ms 5001) } } : State).comes (ms 5001) = false :=
  ⟨by decide +kernel, rfl, by decide +kernel, by decide +kernel, by decide +kernel, by decide +kernel, by decide +kernel,
    fun _ h => absurd h (by decide +kernel), by decide +kernel, by unfold State.still; decide +kernel, by decide +kernel,
    by decide +kernel, by decide +kernel, by decide +kernel, by decide +kernel, by decide +kernel⟩

/-- The awning of another owner on its way out, and a plan that holds it between two steps. -/
theorem test_meets_WindHoldsAreReached_taken :
    let s := holding gust .awning (.port .p1) .hold (.toward .outward) 2
    let q : State := { claimed gust .awning (claimBy .sequencer .auto (.toward .outward)) with plan := planned.plan }
    (∀ b, s.claim .awning = some b → b.owner ≠ .wind) ∧ (∀ e, s.entryOf .awning = some e → e.action.dir = .outward) ∧
    (s.entryOf .awning).isSome ∧ s.planRunning = false ∧ q.planRunning = true ∧ q.still .awning ∧ q.motions = [] ∧
    q.claim .awning = some (claimBy .sequencer .auto (.toward .outward)) := by
  refine ⟨fun b h => ?_, fun e h => ?_, ?_, ?_, ?_, ?_, ?_, ?_⟩
  · cases h
    decide
  · cases h
    rfl
  all_goals first | decide +kernel | (unfold State.still; decide +kernel)

/-- The wind retract finds the load list full of other motions, or band D. -/
theorem test_meets_WindHoldsAreReached_budget :
    let s := { holding gust (.room 1) (.port .p1) .hold (.toward .outward) 6 with
      supply := { samples := List.replicate 25 1200, mean := some 1200, band := .b }
      load := [entryBy (.room 1) (.port .p1) .hold (.toward .outward) 7] }
    let d := { gust with supply := { samples := List.replicate 25 1000, mean := some 1000, band := .d } }
    s.motionUnits .awning (.toward .stowing) ≤ s.budget ∧
    s.budget < s.motionUnits .awning (.toward .stowing) + unitsOf s.load ∧ s.load.Nodup ∧ s.fallenPermit = none ∧
    d.budget < d.motionUnits .awning (.toward .stowing) := by decide +kernel

/-- The jacks on their way in while every room is CLOSED. -/
def jacksIn (j : JackId) : State :=
  { jacksMoving (.toward .stowing) .stowing with
    load := [entryBy .jacks (.port .p1) .auto (.toward .stowing) 8]
    jacks := Vector.ofFn fun i => { freshJack with
      count := some 10, phase := if i.val ≤ j.val then .active else .done, dir := .stowing } }

theorem test_meets_HomeSwitchesZeroTheCount_permit :
    (jacksIn 1).inReset = none ∧ (jacksIn 1).motorChan (.room 2) .a = some 6 ∧ (jacksIn 1).present 6 = true ∧
    (jacksIn 1).load = [entryBy .jacks (.port .p1) .auto (.toward .stowing) 8] ∧ (jacksIn 1).paused = [] ∧
    (jacksIn 1).configured (.room 2) = true ∧ ((jacksIn 1).rooms[2]).state = .closed := by decide +kernel

theorem test_meets_JackHomeZeroesTheCount_moving :
    let s := jacksIn 1
    let e := entryBy .jacks (.port .p1) .auto (.toward .stowing) 8
    s.roleChan (.jack 0) = some 8 ∧ s.present 8 = true ∧ s.entryOf .jacks = some e ∧ s.fallenPermit = none ∧
    s.jackConfigured 0 = true ∧ (s.jack 0).phase = .active ∧ (s.jack 0).dir = .stowing ∧
    (∀ i ∈ (jacksIn 0).jacksOf e.action, i ≠ 0 → ((jacksIn 0).jack i).phase ≠ .active) ∧ (jacksIn 0).fallenPermit = none ∧
    1 ∈ s.jacksOf e.action ∧ (s.jack 1).phase = .active ∧ s.valveDriven 1 = true ∧ s.roleChan .pump = some 12 ∧
    (s.chan 12).driven = true ∧ s.motions = [e.motion] := by decide +kernel

/-- The awning's step of a plan, ending in its seat: the first of two steps, and the last. -/
def planSeat (count : Nat) : State :=
  { holding crowded .awning .sequencer .auto (.toward .stowing) 2 with
    plan := { planned.plan with name := some .stow, stepCount := count }
    awning := { freshSlider with
      state := .closing, motorA := { freshMotor with count := some 0, phase := .seat, seatDeadline := some (ms 5000) } } }

theorem test_meets_SlideDeadlinesEndTheMotion_plan :
    (∀ s ∈ [planSeat 1, planSeat 2], s.inReset = none ∧ (s.motor .awning .a).phase = .seat ∧
      (s.motor .awning .a).seatDeadline = some (ms 5000) ∧ s.comes (ms 5000) = true ∧
      (∀ x ∈ s.motors .awning, x = .a) ∧ s.planRunning = true ∧
      s.load = [entryBy .awning .sequencer .auto (.toward .stowing) 2] ∧ s.paused = [] ∧
      s.plan.slots.length = s.presentStep.length ∧ (∀ x ∈ s.plan.slots, x.group = .awning) ∧
      s.claim .awning = some (claimBy .sequencer .auto (.toward .stowing)) ∧ s.running .awning = true ∧
      s.mayReach s.awning.runTime (s.sliderTimeout .awning) = true) ∧
    (planSeat 2).plan.stepIndex < (planSeat 2).plan.stepCount ∧ (planSeat 1).plan.stepCount ≤ (planSeat 1).plan.stepIndex ∧
    (ticked (planSeat 1)).mayReach (planSeat 1).awning.runTime ((planSeat 1).sliderTimeout .awning) = false := by
  decide +kernel

theorem test_meets_JackTimeoutsEndTheMotion_reach :
    (jacksMoving (.toward .outward) .outward).mayReach (jacksMoving (.toward .outward) .outward).jackSet.runTime
      (seconds coach.jackTimeout) = true ∧
    (levelling .contact).mayReach (levelling .contact).level.phaseTime (seconds coach.jackTimeout) = true ∧
    (levelling .lift).mayReach (levelling .lift).level.phaseTime (seconds coach.level.passTimeout) = true ∧
    (ticked (levelling .lift)).mayReach (levelling .lift).level.phaseTime (seconds coach.level.passTimeout) = false := by
  decide +kernel

theorem test_meets_SettleDecidesTheCourse_reach :
    (settling 16 0 0).mayReach (settling 16 0 0).level.phaseTime (ms coach.level.settleTime) = true ∧
    (decide ((settling 15 0 0).tilt.pitch.natAbs ≤ coach.level.tolerance) &&
      decide ((settling 15 0 0).tilt.roll.natAbs ≤ coach.level.tolerance)) = true ∧
    (decide (coach.level.steepLimit < (settling 601 0 0).tilt.pitch.natAbs) ||
      decide (coach.level.steepLimit < (settling 601 0 0).tilt.roll.natAbs)) = true ∧
    coach.level.passLimit ≤ (settling 16 5 0).level.pass := by decide +kernel

theorem test_meets_BuzzerFollowsItsPatterns_waits : ({ parked with faultPattern := some (ms 4500) } : State).comes (ms 4500 + ms 1000) = true ∧
    (ticked { parked with faultPattern := some (ms 4500) }).comes (ms 4500 + ms 1000) = false ∧
    (ticked { parked with motionPeriod := some (ms 4500) }).comes (ms 4500 + seconds 1) = false := by decide +kernel

/-- Two motions of 6 units in band A, and two in the pause list of band D; the next sample changes the band. -/
def loaded : State :=
  { roomMoving .outward 10 .travel with
    load := [entryBy (.room 1) (.port .p1) .hold (.toward .outward) 6, entryBy (.room 2) (.port .p1) .hold (.toward .outward) 3]
    supply := { samples := List.replicate 25 1239, mean := some 1240, band := .a } }
def starved : State :=
  { roomMoving .outward 10 .travel with
    load := []
    paused := [{ entryBy (.room 2) (.port .p1) .hold (.toward .outward) 3 with state := .paused, pausedSince := some (ms 4000) }]
    supply := { samples := List.replicate 25 1115, mean := some 1114, band := .d } }

theorem test_meets_SupplyBandFollowsTheMean_change :
    (match exec (.supplySample 1239) loaded with
      | .next t => decide (t.budget < loaded.budget)
      | _ => false) = true ∧ loaded.load.Nodup ∧ (∀ e ∈ loaded.load, e.owner ≠ .wind) ∧
    (match exec (.supplySample 1115) starved with
      | .next t => decide (starved.budget < t.budget) && decide (3 + unitsOf starved.load ≤ t.budget)
      | _ => false) = true ∧
    (starved.paused.filter fun x => decide (x.owner = .wind)) ++ (starved.paused.filter fun x => decide (x.owner ≠ .wind)) =
      [] ++ { entryBy (.room 2) (.port .p1) .hold (.toward .outward) 3 with
        state := .paused, pausedSince := some (ms 4000) } :: [] := by decide +kernel

/-- ROOM3 on its way out, and a pulse in the queue. -/
def underWay : State := { roomMoving .outward 10 .travel with pending := [.plsPulse 6] }

theorem test_meets_OnlySeatedChannelsStart_laws :
    Safety.Regular underWay ∧ underWay.planRunning = false ∧
    Safety.countLaw underWay = true ∧ Safety.strokeLaw underWay = true ∧
    (match step underWay with
      | .next t => decide (t.inReset = none) && decide (t.layout = underWay.layout)
      | _ => false) = true := by
  refine ⟨⟨rfl, by decide +kernel, ?_, fun n => by cases n <;> decide +kernel, fun h => absurd h (by decide +kernel),
    by decide +kernel, by decide +kernel, by decide +kernel, by decide +kernel, by decide +kernel,
    by decide +kernel, by decide +kernel, by unfold State.showsMotions; decide +kernel, by decide +kernel⟩, by decide +kernel, by decide +kernel,
    by decide +kernel, by decide +kernel⟩
  intro e h
  cases List.mem_singleton.mp h
  exact ⟨rfl, fun c hc => by cases hc; rfl⟩

/-- The STOW plan at its first step, the awning at the end of its seat, with every claim of the plan. -/
def stowing : State :=
  let c := claimBy .sequencer .auto (.toward .stowing)
  { claimed (claimed (planSeat 2) (.room 1) c) .jacks c with pending := [.awningSeatDeadline] }

/-- A state whose queue holds one command: its step leads to a running plan's next step. -/
theorem test_meets_OnlySeatedChannelsStart_plan :
    Safety.Regular stowing ∧ stowing.planRunning = true ∧
    (match step stowing with
      | .next t => decide (t.inReset = none) && decide (t.layout = stowing.layout)
      | _ => false) = true := by
  have held : ∀ g ∈ planGroups (stowing.layout.planSteps .stow),
      stowing.claim g = some (claimBy .sequencer .auto (.toward .stowing)) := by decide +kernel
  refine ⟨⟨rfl, by decide +kernel, ?_, fun n => by cases n <;> decide +kernel, fun _ => ⟨.stow, rfl, by decide +kernel,
    by decide +kernel, by decide +kernel, by decide +kernel, fun g h => ⟨_, held g h, rfl, rfl⟩⟩,
    by decide +kernel, by decide +kernel, by decide +kernel, by decide +kernel, by decide +kernel,
    by decide +kernel, by decide +kernel, by unfold State.showsMotions; decide +kernel, by decide +kernel⟩, by decide +kernel, by decide +kernel⟩
  intro e h
  cases List.mem_singleton.mp h
  exact ⟨rfl, fun c hc => by cases hc; rfl⟩

/-! Clauses on validation, the record's bytes, turned motions, output lines and shed motions. -/

/-- The image of the coach with one byte changed. -/
def spoilt (a : Nat) (b : Byte) : Image := coach.toImage.write a b

/-- A ramp step of 0, a filter code of 4, a jack count of two, and a plan entry with LEVEL for a room. -/
theorem test_meets_CommitBeginsTheWrite_failures :
    firstBadByte (spoilt 34 0) 16 = some 34 ∧ firstBadByte (spoilt 46 4) 16 = some 46 ∧
    firstBadByte ((spoilt 16 0).write 18 0) 16 = some 20 ∧ firstBadByte (spoilt 306 0x23) 16 = some 306 := by decide +kernel

theorem test_ramp_step_of_0_fails : Safety.FailsAt (spoilt 34 0) 16 34 :=
  .inl ⟨⟨34, 0, 1, 255⟩, by
    have h : ((Safety.testedFields (spoilt 34 0)).map fun f => (f.first, f.value, f.least, f.greatest))[2]? =
      some (34, 0, 1, 255) := by decide +kernel
    rw [List.getElem?_map] at h
    obtain ⟨f, hf, hv⟩ := Option.map_eq_some_iff.mp h
    cases f
    cases hv
    exact List.mem_of_getElem? hf, rfl, .inl (by decide)⟩

theorem test_level_of_a_room_fails : Safety.FailsAt (spoilt 306 0x23) 16 306 :=
  .inr (.inr (.inr ⟨304, .inl rfl, .inr ⟨0, 305, by decide +kernel, by decide, rfl, .inr ⟨0, 0x23, by decide +kernel, by decide,
    rfl, by decide +kernel, .inr (.inr (.inr (.inr (.inl (by decide)))))⟩⟩⟩))

/-- The first step of STOW is read back: one group, the awning, RETRACT. -/
theorem test_meets_StoreWritePutsTheLayoutInForce_steps :
    ((Layout.ofImage coach.toImage).planSteps .stow)[0]? = some [(.awning, .toward .stowing)] ∧
    coach.toImage.u8 369 = 1 ∧ coach.toImage.u8 (369 + 1 + 0) / 16 = groupCode .awning ∧
    coach.toImage.u8 (369 + 1 + 0) % 16 = 2 := by decide +kernel

/-- The jack change of a running motion to a jack at home and to one away from it, and to one at its stroke max. -/
theorem test_meets_HolderTurnsTheMotion_atOnce :
    let s := jackHeld false
    let full := s.setJack 0 { freshJack with count := some 480 }
    (s.entryOf .jacks).isSome ∧ s.jackHome 3 = false ∧
    ({ s with lines := Vector.replicate 16 homeLines } : State).jackHome 3 = true ∧ s.unplanned .jacks ∧ (s.jackParams 3).strokeMax = 0 ∧
    0 < (full.jackParams 0).strokeMax ∧ (full.jack 0).count = some (full.jackParams 0).strokeMax ∧
    (∀ z ∈ s.load ++ s.paused, z.group = .jacks → s.entryOf .jacks = some z) :=
  ⟨by decide +kernel, by decide +kernel, by decide +kernel, fun _ h => absurd h (by decide +kernel), by decide +kernel,
    by decide +kernel, by decide +kernel, by decide +kernel⟩

/-- A channel in the 50 ms after its stop with its direction flag clear and set, and one driven at duty 230. -/
theorem test_meets_ChannelTimersRunOut_lines :
    let s := parked.setChan 6 { seatedChan with drive := .stopping, lastStop := some ⟨ms 4980, .outward⟩ }
    let d := parked.setChan 6 { drivenChan .outward with waveDuty := 128 }
    s.dirOut 6 = true ∧ s.drvOut 6 0 = false ∧ (d.chan 6).driven = true ∧ d.drvOut 6 127 = true ∧ d.drvOut 6 128 = false ∧
    d.dirOut 6 = true ∧ d.now / 2 < (d.now + 2) / 2 := by decide +kernel

/-- The sixty-fourth pulse below the mask limit. -/
theorem test_meets_PulsesAreSorted_noise :
    let s := noisy (roomMoving .outward 10 .travel) 6
    let q := s.setPace 6 { s.paceRec 6 with counter := 0, ring := [400, 400, 400, 400] }
    q.present 6 = true ∧ (q.role 6).hasPulses = true ∧ (q.chan 6).driven = true ∧
    (q.paceRec 6).counter < q.maskLimit 6 ∧ (q.paceRec 6).tally = 63 ∧ (q.role 6).group = some (.room 2) ∧
    (q.entryOf (.room 2)).isSome ∧ q.planRunning = false := by decide +kernel

/-- From EASING a speed at the calm threshold leads back to GUSTY, with the awning out. -/
theorem test_meets_WindSpeedIsHandedOver_gusty :
    let s := { gust with
      wind := { gust.wind with state := .easing, ring := List.replicate 4 100, counter := 0 } }
    s.layout.wind.present = true ∧ s.wind.state = .easing ∧
    s.layout.wind.calm ≤ min 999 (s.layout.wind.constantK / max (400 / 4) s.wind.counter) ∧ s.write = none ∧
    s.sliderState .awning ≠ .closed ∧ s.road = .parked ∧ s.configured .awning = true ∧ s.unavailable .awning = false ∧
    s.claim .awning = none := by decide +kernel

/-- A motion whose time stood at its limit as it was shed. -/
def shedAtLimit (s : State) : State :=
  { s with
    load := [], paused := s.load.map fun e => { e with state := .paused, pausedSince := some s.now }
    rooms := s.rooms.map fun r => { r with runTime := seconds coach.roomTimeout }
    jackSet := { s.jackSet with runTime := seconds coach.jackTimeout }
    level := { s.level with phaseTime := seconds coach.jackTimeout } }

theorem test_meets_SlideDeadlinesEndTheMotion_shed :
    let s := shedAtLimit (roomMoving .outward 10 .travel)
    s.running (.room 2) = false ∧ ¬ s.still (.room 2) ∧ s.sliderTimeout (.room 2) ≤ (s.slider (.room 2)).runTime := by
  unfold State.still
  decide +kernel

theorem test_meets_JackTimeoutsEndTheMotion_shed :
    let s := shedAtLimit (jacksMoving (.toward .outward) .outward)
    let l := shedAtLimit (levelling .contact)
    s.running .jacks = false ∧ (s.entryOf .jacks).isSome ∧ seconds s.layout.jackTimeout ≤ s.jackSet.runTime ∧
    l.running .jacks = false ∧ (l.entryOf .jacks).isSome ∧ seconds l.layout.jackTimeout ≤ l.level.phaseTime ∧
    parked.still .jacks ∧ (shedAtLimit (levelling .lift)).level.phaseTime ≥ seconds coach.level.passTimeout := by
  unfold State.still
  decide +kernel

/-- BUZZ 250 ms into a fault pattern, 50 ms into a motion period, and no load with no period. -/
theorem test_meets_BuzzerFollowsItsPatterns_sounds :
    ({ parked with faultPattern := some (ms 4750) } : State).buzz = true ∧
    ({ parked with faultPattern := some (ms 4850) } : State).buzz = false ∧
    ({ parked with motionPeriod := some (ms 4950), motionPulse := true } : State).buzz = true ∧
    parked.alarm = false ∧ ({ parked with alarm := true } : State).buzz = true ∧
    (asked.load = [] ∧ asked.motionPeriod = none) ∧
    (match step asked with
      | .next t => t.buzz && t.lamp
      | _ => false) = true := by decide +kernel

theorem test_meets_ReadsChangeNothing_two : (crowded.axisBytes (.room 1)).isSome = true ∧
    crowded.roleChan (.room 1 .a) = some 4 ∧ crowded.roleChan (.room 1 .b) = some 5 := by decide +kernel

/-- IGN with two high samples behind it, WND about to be accepted at another level, and a layout without an anemometer. -/
theorem test_meets_IdleStepIsOneSample_pulses :
    let s : State := { sampling with
      ign := { samples := [true, true], accepted := some true }, wndLine := { accepted := some false, run := 16 } }
    s.pending = [] ∧ s.inReset = none ∧ s.layout.wind.present = true ∧ Layout.empty.wind.present = false ∧
    s.conditioned .ign = true ∧ s.lineOrigin .ign < ms 5000 ∧ (ms 5000 - s.lineOrigin .ign) % 40 = 0 ∧
    s.hasPulses 6 = true ∧
    (match step s with
      | .next t => t.ign.samples.length == 3
      | _ => false) = true := by decide +kernel

theorem test_meets_DiscardsAreCounted_mark : kindOfByte 0x00 = none ∧ (framed [0x10, 1] (ms 4980)).inReset = none ∧
    ((framed [0x10, 1] (ms 4980)).port .p1).frame = some ⟨[0x10, 1], ms 4980⟩ := by decide +kernel

/-- The coach with its jacks off the ground or on it, at home nowhere. -/
def jacksDown (down : Bool) : State :=
  { crowded with
    jacks := Vector.replicate 6 { freshJack with count := some 10, contact := down }, lines := Vector.replicate 16 freshLines }

/-- A level run that fits with jacks off the ground, one with all of them planted, and one that does not fit band C. -/
theorem test_meets_MoveOutDrivesTheMotor_level :
    (∀ s ∈ [jacksDown false, jacksDown true, { jacksDown false with supply := weak.supply }],
      s.inReset = none ∧ s.hasRoom .p1 ∧ s.motions = [] ∧ s.write = none ∧ s.road = .parked ∧ s.claim .jacks = none ∧
      s.configuredJacks = [0, 1, 2, 3] ∧ s.roleChan .pump = some 12 ∧ (s.chan 12).drive = .off ∧
      (s.chan 12).lastStop = none ∧ (∀ x ∈ s.groupChans .jacks, (s.chan x).census = .seated) ∧
      (∀ j ∈ s.configuredJacks, (s.roleChan (.jack j)).isSome ∧
        ∀ n ∈ s.roleChan (.jack j), (s.chan n).drive = .off ∧ (s.chan n).lastStop = none) ∧
      s.groupFaulted .jacks = false ∧ s.tilt.pitch.natAbs ≤ s.layout.level.steepLimit ∧
      s.tilt.roll.natAbs ≤ s.layout.level.steepLimit) ∧
    (jacksDown true).motionUnits .jacks .level ≤ (jacksDown true).budget ∧
    ({ jacksDown false with supply := weak.supply } : State).budget < (jacksDown false).motionUnits .jacks .level ∧
    ((jacksDown true).jack 3).contact = true ∧ ((jacksDown false).jack 3).contact = false := by
  unfold State.hasRoom
  decide +kernel

/-- ROOM2 driven on both motors, A at a count, B at 16 with a pace of 210. -/
def twoDriven (d : Dir) (a : Nat) : State :=
  let s := holding (midway a 16) (.room 1) (.port .p1) .hold (.toward d) 6
  { ((s.setChan 4 (drivenChan d)).setChan 5 (drivenChan d)).setPace 5
      { clearedPace with ring := [212, 208, 215, 205], counter := 58 } with
    rooms := s.rooms.set 1 { s.rooms[1] with
      state := movingState d
      motorA := { freshMotor with count := some a, phase := .travel }
      motorB := { freshMotor with count := some 16, phase := .travel } } }

/-- Motor B's home switch closes while A stands at 24, the rack limit, and while it stands at 23. -/
theorem test_meets_HomeSwitchesZeroTheCount_racked :
    (∀ d ∈ [Dir.outward, .stowing], ∀ a ∈ [23, 24],
      let s := twoDriven d a
      s.inReset = none ∧ s.motorChan (.room 1) .b = some 5 ∧ s.present 5 = true ∧ s.twoMotors (.room 1) = true ∧
      Motor.a ≠ .b ∧ (s.motor (.room 1) .a).count = some a ∧ s.slideDir (.room 1) = some d ∧
      s.motorDriven (.room 1) .b = true ∧ (s.motor (.room 1) .b).phase = .travel ∧ s.pace? 5 = some 210 ∧
      128 ≤ 210 * s.seatFraction (.room 1) ∧ s.planRunning = false) ∧
    (coach.rooms[1]).rackLimit = 24 := by decide +kernel

/-- ROOM2 on its way out with motor A at 30 and B at 16, and a closure of B's home switch in the queue. -/
def racking : State := { twoDriven .outward 30 with pending := [.roomHomeClosed 1 .b] }

theorem test_meets_OnlySeatedChannelsStart_rack : Safety.Regular racking ∧ Safety.rackLaw racking = true ∧
    (match step racking with
      | .next t => decide (t.inReset = none) && decide (t.layout = racking.layout)
      | _ => false) = true := by
  refine ⟨⟨rfl, by decide +kernel, ?_, fun n => by cases n <;> decide +kernel, fun h => absurd h (by decide +kernel),
    by decide +kernel, by decide +kernel, by decide +kernel, by decide +kernel, by decide +kernel,
    by decide +kernel, by decide +kernel, by unfold State.showsMotions; decide +kernel, by decide +kernel⟩, by decide +kernel, by decide +kernel⟩
  intro e h
  cases List.mem_singleton.mp h
  exact ⟨rfl, fun c hc => by cases hc; rfl⟩

/-- ROOM2 on its way out with motor A, 14 ahead of B, at the first step of its ramp. -/
def rampingTwo : State :=
  (twoDriven .outward 30).setChan 4
    { drivenChan .outward with drive := .ramping, ramped := 64, driveStart := some (ms 4991), rampCount := 0 }

theorem test_meets_ChannelTimersRunOut_trims :
    let s := rampingTwo
    s.inReset = none ∧ (s.chan 4).drive = .ramping ∧ (s.chan 4).driveStart = some (ms 4991) ∧
    s.comes (ms 4991 + ms (10 * (0 + 1))) = true ∧ s.role 4 = .room 1 .a ∧ s.roleChan (.room 1 .a) = some 4 ∧
    s.roleChan (.room 1 .b) = some 5 ∧ s.motorDriven (.room 1) .a = true ∧ s.motorDriven (.room 1) .b = true ∧
    (s.motor (.room 1) .a).count = some 30 ∧ (s.motor (.room 1) .b).count = some 16 ∧ (coach.rooms[1]).syncWindow = 6 ∧
    s.roleChan (.room 1 .a) ≠ some 6 ∧ s.roleChan (.room 1 .b) ≠ some 6 := by decide +kernel

/-- The jacks of a motion that drives them down: jack 1 in a phase and with or without contact, the others ACTIVE in the air,
or DONE on the ground. -/
def lowering (a : Action) (others : JackPhase) (one : Jack) : State :=
  { jacksMoving a .outward with
    level := { freshLevel with status := if a = .level then .active else .none }
    jacks := (Vector.replicate 6
      { freshJack with count := some 10, phase := others, contact := others == .done }).set 0 one }

/-- Jack 1 driven down, and jack 1 on the ground with two samples below its loss level behind it. -/
def airborne : Jack := { freshJack with count := some 10, phase := .active }
def rocking : Jack := { freshJack with count := some 10, contact := true, lossRun := 2, phase := .done }

/-- Contact gained at rest, and by jack 1 of an extend and of a level run, as one of several and as the last. -/
theorem test_meets_SamplesAreScaledAndWatched_contact :
    (∀ a ∈ [Action.toward .outward, .level], ∀ p ∈ [JackPhase.active, .done],
      let s := lowering a p airborne
      let w := (s.setChan 8 { s.chan 8 with scaled := 1200 }).setJack 0
        { s.jack 0 with pressure := 1200, contact := true, lossRun := 0, liftOff := false }
      s.inReset = none ∧ s.layout.scales[(8 : Chan)] = 0 ∧ s.present 8 = true ∧ s.role 8 = .jack 0 ∧
      (s.jack 0).contact = false ∧ (s.jackParams 0).contactThreshold = 1200 ∧
      s.lowers (entryBy .jacks (.port .p1) .auto a 8) ∧ (s.jack 0).phase = .active ∧ (s.jack 0).dir = .outward ∧
      (w.setJack 0 { w.jack 0 with phase := .done }).fallenPermit = none ∧
      s.jacksOf a = [0, 1, 2, 3] ∧ s.planRunning = false ∧ s.running .jacks = true) ∧
    (∀ e ∈ parked.load ++ parked.paused, ¬parked.lowers e) ∧ parked.entryOf .jacks = none ∧
    (parked.setJack 0 { parked.jack 0 with contact := true }).fallenPermit = none := by
  unfold State.lowers
  decide +kernel

/-- A lift-off at home, in the air, and by jack 1 of an extend and of a level run: RUNNING, in the pause list after it ran,
and WAITING there. -/
theorem test_meets_ContactIsLost_again :
    (∀ a ∈ [Action.toward .outward, .level], ∀ st ∈ [EntryState.running, .paused, .waiting],
      let r := lowering a .done rocking
      let s : State := if st = .running then r else
        { shedAtLimit r with
          channels := parked.channels, paused := [{ entryBy .jacks (.port .p1) .auto a 8 with state := st }] }
      s.inReset = none ∧ (s.jack 0).contact = true ∧ 2 ≤ (s.jack 0).lossRun ∧ s.jackConfigured 0 = true ∧
      s.jackState 0 ≠ .retracting ∧ s.jackHome 0 = false ∧
      s.lowers { entryBy .jacks (.port .p1) .auto a 8 with state := st } ∧
      (s.jack 0).phase = .done ∧ (s.jack 0).atStroke = false ∧
      ({ s.setJack 0 { s.jack 0 with contact := false, lossRun := 0, liftOff := true, phase := .active, dir := .outward } with
        jackSet := { s.jackSet with levelMark := false } } : State).fallenPermit = none ∧
      s.running .jacks = decide (st = .running) ∧
      (st ≠ .running → ∀ i ∈ s.jacksOf a, s.valveDriven i = false)) ∧
    (let s := (lowering .level .done rocking).setChan 8 { seatedChan with lastStop := some ⟨ms 4400, .stowing⟩ };
      s.startsAtOnce 8 .outward ∧ s.roleChan (.jack 0) = some 8 ∧ s.roleChan .pump = some 12 ∧ (s.chan 12).driven = true) ∧
    parked.startsAtOnce 12 .outward ∧ ((losing 2).setJack 0 { freshJack with count := some 10 }).fallenPermit = none ∧
    (losing 2).jackHome 0 = true ∧ (losing 2).entryOf .jacks = none := by
  unfold State.lowers State.startsAtOnce
  decide +kernel

/-- A LIFT phase: jack 1 at a count and a progress, its target 3, jack 2 driven too or DONE. -/
def lifting (count progress : Nat) (other : JackPhase) : State :=
  { levelling .lift with
    level :=
      { freshLevel with
        status := .active, phase := .lift, targets := #v[some 3, some 9, some 0, some 0, none, none]
        selected := #v[true, true, false, false, false, false], progress := #v[progress, 9, 0, 0, 0, 0] }
    jacks := #v[{ freshJack with count := some count, phase := .active }, { freshJack with phase := other },
      { freshJack with phase := .done }, { freshJack with phase := .done }, freshJack, freshJack] }

/-- The same with jack 1's valve stopped less than 50 ms ago. -/
def coasting (s : State) : State :=
  s.setChan 8 { seatedChan with drive := .stopping, lastStop := some ⟨ms 4950 + 1, .outward⟩ }

/-- Steps of jack 1 short of its target, to its target, to its stroke max of 480 and to both, driven and coasting; a step of
a MOVE_JACK to the stroke max and one that finds the count there. -/
theorem test_meets_PulsesAreSorted_jacks :
    (∀ p ∈ [1, 2], ∀ c ∈ [10, 479], ∀ o ∈ [JackPhase.active, .done],
      let s := lifting c p o
      let e := entryBy .jacks (.port .p1) .auto .level 8
      s.inReset = none ∧ s.present 8 = true ∧ s.role 8 = .jack 0 ∧ (s.chan 8).driven = true ∧
      s.maskLimit 8 ≤ (s.paceRec 8).counter ∧ (s.chan 8).dir = .outward ∧ s.level.status = .active ∧
      s.level.selected[(0 : JackId)] = true ∧ s.level.targets[(0 : JackId)] = some 3 ∧ s.level.progress[(0 : JackId)] = p ∧
      (s.jackParams 0).strokeMax = 480 ∧ (s.jack 0).phase = .active ∧ (s.jack 0).dir = .outward ∧
      s.entryOf .jacks = some e ∧ 0 ∈ s.jacksOf e.action ∧
      (s.setJack 0 { s.jack 0 with phase := .done, atStroke := true }).fallenPermit = none ∧ s.running .jacks = true ∧
      ((coasting s).chan 8).driven = false ∧ (coasting s).now < ms 4950 + 1 + ms 50) ∧
    (∀ c ∈ [479, 480],
      let s := (jacksMoving (.jack 0 .outward) .outward).setJack 0 { freshJack with count := some c, phase := .active }
      s.maskLimit 8 ≤ (s.paceRec 8).counter ∧ s.entryOf .jacks = some (entryBy .jacks (.port .p1) .auto (.jack 0 .outward) 8) ∧
      s.level.status ≠ .active ∧ (s.setJack 0 { s.jack 0 with phase := .done, atStroke := true }).fallenPermit = none ∧
      s.jacksOf (.jack 0 .outward) = [0]) := by decide +kernel

theorem test_meets_StallsEndTravel_stroke :
    (∀ a ∈ [Action.toward .outward, .level], ∀ p ∈ [JackPhase.active, .done],
      let s := lowering a p airborne
      s.inReset = none ∧ s.mayStall 8 = true ∧ s.mayReach (s.paceRec 8).counter (s.stallLimit 8) = true ∧
      s.role 8 = .jack 0 ∧ s.entryOf .jacks = some (entryBy .jacks (.port .p1) .auto a 8) ∧ 0 ∈ s.jacksOf a ∧
      ((s.advanceCounter 8 (s.stallLimit 8)).setJack 0 { s.jack 0 with phase := .done, atStroke := true }).fallenPermit =
        none) := by decide +kernel

/-- A return to CONTACT: of the jacks jack 1 is off the ground, or it is at its stroke there and SETTLE follows. -/
theorem test_meets_SettleDecidesTheCourse_again :
    (∀ stroke : Bool,
      let s := (settling 16 0 0).setJack 0 { freshJack with liftOff := true, phase := .done, atStroke := stroke }
      s.level.phase = .settle ∧ s.running .jacks = true ∧ s.entryOf .jacks = some (entryBy .jacks (.port .p1) .auto .level 8) ∧
      s.mayReach s.level.phaseTime (ms s.layout.level.settleTime) = true ∧
      (s.configuredJacks.any fun j => s.jackState j == .lifted) = true ∧ s.level.returns < s.layout.level.passLimit ∧
      s.roleChan (.jack 0) = some 8) ∧
    (let u := (settling 16 0 0).advanceRun 0 (ms coach.level.settleTime);
      u.startsAtOnce 10 .outward ∧ u.roleChan (.jack 2) = some 10 ∧ u.roleChan .pump = some 12) := by
  unfold State.startsAtOnce
  decide +kernel

/-- The alarm is inactive and the coach parked: an overcurrent, a room's run timeout and the jacks', with a pattern and a
count of 4 or without. -/
theorem test_meets_BuzzerFollowsItsPatterns_faults :
    (∀ p ∈ [none, some (ms 4500)],
      let s : State := { overRun with faultPattern := p, faultCount := 4 }
      s.alarm = false ∧ s.road ≠ .road ∧ s.paused = [] ∧ (s.role 6).isMotor = true ∧ s.countsCurrent 6 = true ∧
      2 ≤ (s.chan 6).overRun ∧ (s.role 6).group = some (.room 2) ∧ ¬s.still (.room 2)) ∧
    (let s := shedAtLimit (roomMoving .outward 10 .travel);
      s.load = [] ∧ s.alarm = false ∧ ¬s.still (Slider.room 2).group ∧
      s.sliderTimeout (.room 2) ≤ (s.slider (.room 2)).runTime) ∧
    (let s := shedAtLimit (jacksMoving (.toward .outward) .outward);
      s.load = [] ∧ s.alarm = false ∧ s.level.status ≠ .active ∧ ¬s.still .jacks ∧
      seconds s.layout.jackTimeout ≤ s.jackSet.runTime) := by
  unfold State.still
  decide +kernel

/-- A part in band D with one motion in the pause list; the next sample brings band B. -/
def hungry (s : State) (g : Group) (a : Action) (u : Nat) (st : EntryState) : State :=
  { s with
    load := [], paused := [{ entryBy g (.port .p1) .auto a u with state := st, pausedSince := some (ms 4000) }]
    channels := parked.channels, supply := { samples := List.replicate 25 1195, mean := some 1000, band := .d } }

/-- The motions of the tests of a resumption: ROOM2 with both motors, ROOM3 that was seating, an extend, a LIFT phase with
one jack left and with none, a SETTLE, and a run that was WAITING. -/
theorem test_meets_SupplyBandFollowsTheMean_resumed :
    (∀ x ∈ ([(twoDriven .outward 30, .room 1, .toward .outward, 6), (roomMoving .stowing 10 .travel, .room 2, .toward .stowing, 3),
        (lowering (.toward .outward) .done airborne, .jacks, .toward .outward, 8), (lifting 10 1 .done, .jacks, .level, 8),
        (levelling .settle, .jacks, .level, 8), (lowering .level .done rocking, .jacks, .level, 8)] :
        List (State × Group × Action × Nat)), ∀ st ∈ [EntryState.paused, .waiting],
      let s := hungry x.1 x.2.1 x.2.2.1 x.2.2.2 st
      let e := { entryBy x.2.1 (.port .p1) .auto x.2.2.1 x.2.2.2 with state := st, pausedSince := some (ms 4000) }
      s.inReset = none ∧
      (match exec (.supplySample 1195) s with
        | .next t => decide (s.budget < t.budget) && decide (e.units + unitsOf s.load ≤ t.budget)
        | _ => false) = true ∧
      (s.paused.filter fun x => decide (x.owner = .wind)) ++ (s.paused.filter fun x => decide (x.owner ≠ .wind)) =
        [] ++ e :: [] ∧
      (∀ x ∈ s.load ++ s.paused, x.group = e.group → x = e) ∧ s.fallenPermit = none) := by decide +kernel

theorem test_meets_SupplyBandFollowsTheMean_taken_up :
    (let s := hungry (twoDriven .outward 30) (.room 1) (.toward .outward) 6 .paused;
      s.racked (.room 1) = false ∧ s.motors (.room 1) = [.a, .b] ∧ s.motorChan (.room 1) .a = some 4 ∧
      s.motorChan (.room 1) .b = some 5 ∧ s.startsAtOnce 4 .outward ∧ s.startsAtOnce 5 .outward ∧
      (∀ m ∈ s.motors (.room 1), (s.motor (.room 1) m).phase = .travel ∧
        ∀ c ∈ (s.motor (.room 1) m).count, c < s.travelLimit (.room 1))) ∧
    (let s := { hungry (roomMoving .stowing 10 .travel) (.room 2) (.toward .stowing) 3 .paused with lines := parked.lines };
      s.motorChan (.room 2) .b = none ∧ s.motorChan (.room 2) .a = some 6 ∧ s.startsAtOnce 6 .stowing ∧
      (s.motor (.room 2) .a).phase = .travel ∧ s.motorHome (.room 2) .a = true) ∧
    (∃ j ∈ (lowering (.toward .outward) .done airborne).jacksOf (.toward .outward),
      ((lowering (.toward .outward) .done airborne).jack j).phase = .active) ∧
    (∃ j ∈ (lifting 10 1 .done).configuredJacks, ((lifting 10 1 .done).jack j).phase = .active) ∧
    (∀ j ∈ (lowering .level .done rocking).configuredJacks, ((lowering .level .done rocking).jack j).phase ≠ .active) ∧
    (levelling .settle).level.phase = .settle ∧ (lowering .level .done rocking).level.phase = .contact := by
  unfold State.startsAtOnce
  decide +kernel

/-! ### One step of each family -/

/-- The state after one command. -/
def after (c : Instr) (s : State) : State := runAll [c] s

/-- R114, R111: a MOVE on a free group starts its motor, lights LAMP and is answered ACCEPTED. -/
theorem test_move : (after (.move .p1 3 1) parked).enOut 6 = true ∧ (after (.move .p1 3 1) parked).lamp = true ∧
    ((after (.move .p1 3 1) parked).port .p1).replies = [[0x80, 0x10, 0, 0x70]] := by decide +kernel

/-- R111 check 8: a room that needs support is refused NOT_PERMITTED with cause NEEDS_SUPPORT while the jacks are stowed. -/
theorem test_move_needs_support :
    ((after (.move .p1 1 1) parked).port .p1).replies = [[0x81, 0x10, 2, 2, 0, 0x6B]] := by decide +kernel

/-- R166: a group code of 7 is answered BAD_REQUEST. -/
theorem test_bad_group : ((after (.release .p1 7) parked).port .p1).replies = [[0x81, 0x11, 11, 0, 0, 0x63]] := by
  decide +kernel

/-- R73, R116: MOVE_JACK extends its jack and the pump follows. -/
theorem test_move_jack : (after (.moveJack .p2 4 1) parked).enOut 11 = true ∧
    (after (.moveJack .p2 4 1) parked).enOut 12 = true ∧ (after (.moveJack .p2 4 1) parked).enOut 8 = false := by
  decide +kernel

/-- R121: STOP ends the motion STOPPED, frees the claim and stops the motor. -/
theorem test_stop : ((after (.stop .p2) (roomMoving .outward 10 .travel)).rooms[2]).lastOutcome = some .stopped ∧
    (after (.stop .p2) (roomMoving .outward 10 .travel)).claim (.room 2) = none ∧
    (after (.stop .p2) (roomMoving .outward 10 .travel)).enOut 6 = false := by decide +kernel

/-- R117: RELEASE by its owner ends the motion RELEASED. -/
theorem test_release : ((after (.release .p1 3) (roomMoving .outward 10 .travel)).rooms[2]).lastOutcome = some .released ∧
    ((after (.release .p2 3) (roomMoving .outward 10 .travel)).rooms[2]).lastOutcome = none := by decide +kernel

/-- R118: the hold deadline ends the motion HOLD_LAPSED at its own moment. -/
theorem test_hold_deadline :
    ((after (.holdDeadline (.room 2)) (roomMoving .outward 10 .travel)).rooms[2]).lastOutcome = some .holdLapsed ∧
    (after (.holdDeadline (.room 2)) (roomMoving .outward 10 .travel)).now = ms 5200 := by decide +kernel

/-- Chapter 2, a rejected pulse: at the counter 58 the tally rises and the count stays. -/
theorem test_pulse_rejected : ((after (.plsPulse 6) (roomMoving .outward 10 .travel)).paceRec 6).tally = 1 ∧
    ((after (.plsPulse 6) (roomMoving .outward 10 .travel)).motor (.room 2) .a).count = some 10 := by decide +kernel

/-- Chapter 2, the pulse after it: at the counter 230 it is captured and the count moves. -/
theorem test_pulse_accepted :
    let s := roomMoving .outward 10 .travel
    let t := after (.plsPulse 6) (s.setPace 6 { s.paceRec 6 with counter := 230, tally := 1 })
    (t.paceRec 6).ring = [212, 208, 215, 205, 230] ∧ (t.paceRec 6).counter = 0 ∧
    (t.motor (.room 2) .a).count = some 11 := by decide +kernel

/-- R48, R49: a stall at T − E on the way out ends END_REACHED, one below it FAULT with OBSTRUCTED. -/
theorem test_stall_outward : ((after (.stall 6) (roomMoving .outward 10 .travel)).rooms[2]).lastOutcome = some .endReached ∧
    ((after (.stall 6) (roomMoving .outward 9 .travel)).rooms[2]).fault = some .obstructed := by decide +kernel

/-- R46: the seat deadline ends the motion HOME_REACHED. -/
theorem test_seat_deadline :
    ((after (.roomSeatDeadline 2 .a) (roomMoving .stowing 0 .seat)).rooms[2]).lastOutcome = some .homeReached := by
  decide +kernel

/-- R46: pace 210 and seat fraction 64 give a seat of 105 ticks. R42: at rest the closure makes the room CLOSED. -/
theorem test_home_closed : (roomMoving .stowing 10 .travel).seatTicks (.room 2) .a = 105 ∧
    ((after (.roomHomeClosed 2 .a) (parked.setSlider (.room 2) freshSlider)).motor (.room 2) .a).count = some 0 ∧
    ((after (.roomHomeClosed 2 .a) (parked.setSlider (.room 2) freshSlider)).rooms[2]).state = .closed := by
  decide +kernel

/-- R17: the third sample at the limit ends the motion with OVERCURRENT, and the sample below it resets the run. -/
theorem test_overcurrent : ((after (.analogSample 6 2800) overRun).rooms[2]).fault = some .overcurrent ∧
    ((after (.analogSample 6 2799) overRun).chan 6).overRun = 0 := by decide +kernel

/-- R66: contact is gained at the threshold and kept down to the threshold less the hysteresis. -/
theorem test_contact : ((after (.analogSample 8 1200) parked).jack 0).contact = true ∧
    ((after (.analogSample 8 1199) parked).jack 0).contact = false ∧
    ((after (.analogSample 8 1049) (losing 2)).jack 0).contact = false ∧
    ((after (.analogSample 8 1050) (losing 2)).jack 0).contact = true := by decide +kernel

/-- R3: two reads that agree settle a channel, and a wrong kind reads MISMATCH. -/
theorem test_census : ((after (.censusRead 6 (readOf false false)) startUp).chan 6).census = .seated ∧
    ((after (.censusRead 6 (readOf false true)) startUp).chan 6).settled = false ∧
    ((after (.confirmingRead 6 (readOf true true)) (unsure (readOf true true))).rooms[2]).fault = some .mismatch := by
  decide +kernel

/-- R3, R23: the first read is taken 20 ms after the census begins, the next 20 ms after it, and none before. -/
theorem test_census_moments :
    after (.censusRead 6 (readOf false false)) (sampled begun) = sampled begun ∧
    (after (.censusRead 6 (readOf false false)) begun).now = ms 5020 ∧
    ((after (.censusRead 6 (readOf false false)) begun).chan 6).pendingAt = some (ms 5020) ∧
    Instr.censusRead 6 (startUp.readLevels 6) ∈ (startUpAt (ms 4980 + 1)).tick.pending ∧
    Instr.censusRead 6 (startUp.readLevels 6) ∉ (startUpAt (ms 4980 + 2)).tick.pending := by decide +kernel

/-- R123, R125: PARK released with the room out is ROAD with the alarm. -/
theorem test_park_released : (after .parkReleased (roomMoving .outward 10 .travel)).road = .road ∧
    (after .parkReleased (roomMoving .outward 10 .travel)).alarm = true ∧
    ((after .parkReleased (roomMoving .outward 10 .travel)).rooms[2]).lastOutcome = some .road := by decide +kernel

/-- R105, R107: at the gust hold the wind watch takes the awning that stands out. -/
theorem test_gust :
    let s : State := { gusting .rising with
      awning := { freshSlider with state := .opened }, lines := Vector.replicate 16 freshLines }
    (after .gustHoldReached s).wind.state = .gusty ∧ (after .gustHoldReached s).claim .awning = some windClaim := by
  decide +kernel

/-- R133, R137: a mean of 1239 is band B, whose budget of 8 holds no more. -/
theorem test_supply_falls :
    let s := { parked with supply := { samples := List.replicate 25 1239, mean := some 1240, band := .a } }
    (after (.supplySample 1239) s).budget = 8 ∧ (after (.supplySample 1239) s).noticed .supply = true := by decide +kernel

/-- R85, R86: the end of SETTLE at 0.16° begins a LIFT with the low jacks. -/
theorem test_settle : (after .settleEnd (settling 16 0 0)).level.phase = .lift ∧
    (after .settleEnd (settling 15 0 0)).jackSet.lastOutcome = some .levelled := by decide +kernel

/-- R184: a reset in a store write leaves the EMPTY layout and notice LAYOUT. -/
theorem test_cut_off : (after .resetEnd (after (.warmReset ⟨0, false⟩) writing)).layout = Layout.empty ∧
    (after .resetEnd (after (.warmReset ⟨0, false⟩) writing)).noticed .layout = true := by decide +kernel

/-- R178: a segment that was loaded reads back. -/
theorem test_load_and_read :
    let t := after (.layoutLoad .p2 31 (Vector.replicate 16 0xA5)) { parked with staging := oneRole }
    t.staging.read 496 = 0xA5 ∧ t.staging.read 511 = 0xA5 ∧ t.staging.read 495 = 0 ∧
    (after (.layoutRead .p3 31) t).port .p3 = { freshPort with
      replies := [frameOf 0x84 (0x32 :: 31 :: List.replicate 16 0xA5)], headSince := some (ms 5000) } := by decide +kernel

/-- R162: the STOP frame acts as STOP, and one with another check is a link error. -/
theorem test_stop_characters :
    (runAll [.linkCharacter .p1 0x15 true true, .linkCharacter .p1 0xEB false true] parked).port .p1 =
      { freshPort with replies := [[0x80, 0x15, 0, 0x6B]], headSince := some (ms 5000) } ∧
    ((runAll [.linkCharacter .p1 0x15 true true, .linkCharacter .p1 0xEA false true] parked).port .p1).linkErrors = 1 := by
  decide +kernel

/-- R39: the speed is computed from the pace at the 100 ms step. -/
theorem test_wind_tick : (after .windSpeedTick (gusting .calm)).wind.speed = 110 ∧
    (after .windSpeedTick (gusting .calm)).wind.state = .rising := by decide +kernel

/-- The table gives no row any bits, so no word spells a command. -/
theorem test_no_word : decodeTableWord 16 0x1000 = none ∧ State.reset.withFetchWord 16 0x1000 = State.reset :=
  ⟨rfl, rfl⟩

/-- R50: with B's count brought to 0 the counts stand 24 apart, the rack limit, or 23, below it. -/
theorem test_home_closure_racks :
    ((after (.roomHomeClosed 1 .b) (twoDriven .outward 24)).rooms[1]).fault = some .racked ∧
    (after (.roomHomeClosed 1 .b) (twoDriven .outward 24)).enOut 4 = false ∧
    ((after (.roomHomeClosed 1 .b) (twoDriven .stowing 24)).rooms[1]).fault = some .racked ∧
    ((after (.roomHomeClosed 1 .b) (twoDriven .stowing 23)).rooms[1]).fault = none ∧
    ((after (.roomHomeClosed 1 .b) (twoDriven .stowing 23)).rooms[1]).motorB.phase = .seat ∧
    (after (.roomHomeClosed 1 .b) (twoDriven .stowing 23)).enOut 4 = true := by decide +kernel

/-- R84: the run drives out the jacks without contact; with every jack planted it passes on to SETTLE. -/
theorem test_level_run_begins :
    (after (.auto .p1 5 3) (jacksDown false)).level.phase = .contact ∧
    (after (.auto .p1 5 3) (jacksDown false)).enOut 11 = true ∧
    (after (.auto .p1 5 3) (jacksDown true)).level.phase = .settle ∧
    (after (.auto .p1 5 3) (jacksDown true)).enOut 12 = false := by decide +kernel

/-- R74: the last jack to gain contact ends an extend STABILISED; R84: in CONTACT it begins SETTLE; one of several only
stops. -/
theorem test_contact_ends_the_extend :
    (after (.analogSample 8 1200) (lowering (.toward .outward) .done airborne)).jackSet.lastOutcome = some .stabilised ∧
    (after (.analogSample 8 1200) (lowering .level .done airborne)).level.phase = .settle ∧
    (after (.analogSample 8 1200) (lowering (.toward .outward) .active airborne)).enOut 8 = false ∧
    (after (.analogSample 8 1200) (lowering (.toward .outward) .active airborne)).enOut 9 = true := by decide +kernel

/-- R74: a jack that lifts off in an extend drives out again. R83, R88, log 58: in a WAITING run it only becomes ACTIVE. -/
theorem test_lift_off_drives_again :
    let waiting := hungry (lowering .level .done rocking) .jacks .level 8 .waiting
    (after (.contactLost 0) ((lowering (.toward .outward) .done rocking).setChan 8 seatedChan)).enOut 8 = true ∧
    (after (.contactLost 0) waiting).jackState 0 = .extending ∧ (after (.contactLost 0) waiting).enOut 8 = false ∧
    (after (.analogSample 8 1200) (after (.contactLost 0) waiting)).jackState 0 = .contact := by decide +kernel

/-- R87: a step raises the progress, the target stops the jack, and the last one raises pass and begins SETTLE; R76: the
stroke max stops it with the limited flag. -/
theorem test_lift_counts_steps :
    (after (.plsPulse 8) (lifting 10 1 .done)).level.progress[0] = 2 ∧ (after (.plsPulse 8) (lifting 10 1 .done)).enOut 8 = true ∧
    (after (.plsPulse 8) (lifting 10 2 .active)).enOut 8 = false ∧ (after (.plsPulse 8) (lifting 10 2 .active)).level.pass = 0 ∧
    (after (.plsPulse 8) (lifting 10 2 .done)).level.pass = 1 ∧ (after (.plsPulse 8) (lifting 10 2 .done)).level.phase = .settle ∧
    (after (.plsPulse 8) (lifting 479 1 .active)).level.limited = true ∧
    ((after (.plsPulse 8) (coasting (lifting 10 2 .active))).jack 0).phase = .done := by decide +kernel

/-- R85: test 1 begins the CONTACT phase again. R86: a pass that cuts no target back leaves the limited flag. -/
theorem test_settle_returns :
    let t := after .settleEnd (liftedOff (settling 16 2 1))
    t.level.phase = .contact ∧ t.level.returns = 2 ∧ t.level.pass = 2 ∧ t.level.phaseTime = 0 ∧
    t.jackState 0 = .extending ∧ (t.jack 1).phase = .done ∧
    { unlevel with level := { unlevel.level with pitch := 20, roll := 0 } }.solveLifts.level.limited = false := by
  decide +kernel

/-- R88: a run shed in SETTLE settles anew, one whose jacks reached their targets in the pause passes on to SETTLE. -/
theorem test_resumption :
    let settled := hungry (levelling .settle) .jacks .level 8 .paused
    (after (.supplySample 1195) { settled with level := { settled.level with phaseTime := 7 } }).level.phaseTime = 0 ∧
    (after (.supplySample 1195) (hungry (lifting 10 1 .done) .jacks .level 8 .paused)).enOut 8 = true ∧
    (after (.supplySample 1195) (hungry (lifting 10 1 .done) .jacks .level 8 .paused)).enOut 9 = false ∧
    (after (.supplySample 1195) (hungry (lowering .level .done rocking) .jacks .level 8 .paused)).level.phase = .settle ∧
    (after (.supplySample 1195) (hungry (twoDriven .outward 30) (.room 1) (.toward .outward) 6 .paused)).enOut 5 = true := by
  decide +kernel

/-- R51: at 80 of its ramp the leader's trim is 64, the least. R130: an overcurrent starts a fault pattern and leaves no
count. -/
theorem test_ramp_trims_and_faults_sound :
    ((after (.rampStep 4) rampingTwo).chan 4).trimmed = some 64 ∧ ((after (.rampStep 4) rampingTwo).chan 4).ramped = 80 ∧
    (after (.overcurrent 6) overRun).faultPattern = some (ms 5000) ∧ (after (.overcurrent 6) overRun).faultCount = 0 := by
  decide +kernel

end Sys2Proof.Tests
end

section
/-! PROOFS. The pace watch's arithmetic (R29 to R31): the pace, the mask limit and the stall limit by whether the ring holds
a full depth of captures. -/

namespace Sys2Proof.Machine

section
variable {depth : Nat} {ring : List Nat}

theorem meanOfRecent_of_length_lt (h : ring.length < depth) : meanOfRecent depth ring = none :=
  if_neg (Nat.not_le.mpr h)

/-- R29 counts the captures back from the newest, which the ring holds last. -/
theorem meanOfRecent_of_le_length (h : depth ≤ ring.length) :
    meanOfRecent depth ring = some ((ring.reverse.take depth).sum / depth) := by
  have newest : (ring.reverse.take depth).sum = (ring.drop (ring.length - depth)).sum := by
    rw [List.take_reverse, List.sum_reverse]
  rw [newest]
  exact if_pos h

end

section
variable {q : KindParams} {r : PaceRecord} {p : Nat}

theorem maskLimit_of_paceOf_none (h : paceOf q r = none) : maskLimit q r = 0 := by
  simp only [maskLimit, h]

theorem maskLimit_of_paceOf_some (h : paceOf q r = some p) : maskLimit q r = p * q.maskFraction / 128 := by
  simp only [maskLimit, h]

theorem stallLimit_of_paceOf_none (h : paceOf q r = none) :
    stallLimit q r = max q.stallFloor (q.startLimit * 10) := by
  simp only [stallLimit, h]

theorem stallLimit_of_paceOf_some (h : paceOf q r = some p) :
    stallLimit q r = max q.stallFloor (min 65535 (p * q.stallFactor / 16)) := by
  simp only [stallLimit, h]

/-- A mask fraction is at most 127 of 128 parts (R30). -/
theorem maskLimit_lt_pace (hM : q.maskFraction ≤ 127) (h : paceOf q r = some p) (hp : 0 < p) : maskLimit q r < p := by
  rw [maskLimit_of_paceOf_some h]
  have below : p * q.maskFraction < p * 128 := Nat.mul_lt_mul_of_pos_left (Nat.lt_succ_of_le hM) hp
  exact Nat.div_lt_of_lt_mul (Nat.mul_comm p 128 ▸ below)

theorem stallFloor_le_stallLimit (q : KindParams) (r : PaceRecord) : q.stallFloor ≤ stallLimit q r := by
  cases h : paceOf q r with
  | none => exact stallLimit_of_paceOf_none h ▸ Nat.le_max_left ..
  | some p => exact stallLimit_of_paceOf_some h ▸ Nat.le_max_left ..

end

/-- Settles O53: below a full depth of captures the pace is undefined and the limits are those of a start; from there on
the limits are those of the mean, which the mask fraction and the stall floor bound. -/
theorem paceLimitsFollowTheRing : Obligations.PaceLimitsFollowTheRing := by
  unfold Obligations.PaceLimitsFollowTheRing
  rintro s n q r rfl rfl - hM
  refine ⟨fun short => ?_, fun full => ?_, stallFloor_le_stallLimit _ _⟩
  · have undefined : s.pace? n = none := meanOfRecent_of_length_lt short
    exact ⟨undefined, maskLimit_of_paceOf_none undefined, stallLimit_of_paceOf_none undefined⟩
  · have defined : s.pace? n = some _ := meanOfRecent_of_le_length full
    exact ⟨_, defined, rfl, maskLimit_of_paceOf_some defined, maskLimit_lt_pace hM defined,
      stallLimit_of_paceOf_some defined⟩

end Sys2Proof.Machine
end

section
/-! PROOFS. The motion requests of the ports: the command of a request reaches the claim table (R164, R167), and the claim
table renews a HOLD claim that its owner asks for again (R114). -/

namespace Sys2Proof.Machine

section
variable {p : Port} {m : Mode} {g : Group} {a : Action} {c : Instr} {b : Claim} {s : State}

/-! ### The fields of a motion request -/

@[simp] theorem groupOfCode_groupCode (g : Group) : groupOfCode (byteOf (groupCode g)).toNat = some g := by
  cases g with
  | room k => revert k; decide
  | jacks => rfl
  | awning => rfl

@[simp] theorem dirOfCode_code (d : Dir) : dirOfCode (byteOf d.code).toNat = some d := by
  cases d <;> rfl

@[simp] theorem jackOfNumber_succ (j : JackId) : jackOfNumber (byteOf (j.val + 1)).toNat = some j := by
  revert j; decide

theorem moveRequest_byteOf (g : Group) (d : Dir) :
    moveRequest (byteOf (groupCode g)) (byteOf d.code) = some (.move g d) := by
  simp [moveRequest]

theorem moveJackRequest_byteOf (j : JackId) (d : Dir) :
    moveJackRequest (byteOf (j.val + 1)) (byteOf d.code) = some (.moveJack j d) := by
  simp [moveJackRequest]

theorem autoRequest_byteOf (g : Group) (d : Dir) :
    autoRequest (byteOf (groupCode g)) (byteOf d.code) = some (.auto g (.toward d)) := by
  simp [autoRequest, actionOfCode]

/-- LEVEL is action 3 of group 5, JACKS. -/
theorem autoRequest_level : autoRequest 5 3 = some (.auto .jacks .level) := rfl

/-! ### From the command to the claim table -/

/-- A request with its fields in range, outside a reset and on a queue with room: the block it goes to decides it, and the
answer joins the queue (R164). -/
theorem State.awake_takeRequest {k : RequestKind} {r : Option Request} {q : Request} (awake : s.inReset = none)
    (room : s.hasRoom p) (fields : r = some q) :
    (s.awake fun t => t.takeRequest p k r) = (s.decideRequest p q).1.answered p k (s.decideRequest p q).2 := by
  have notFull : ¬ 4 ≤ (s.port p).replies.length := Nat.not_le.mpr room
  simp only [State.awake, awake, Option.isSome_none, Bool.false_eq_true, if_false, State.takeRequest, notFull, fields,
    State.answered]

/-- A motion request is decided by the claim table (R167). -/
theorem exec_motionCommand (awake : s.inReset = none) (room : s.hasRoom p) (h : motionCommand p m g a = some c) :
    exec c s = .next ((s.motionRequest p m g a).1.answered p (motionKind m a) (s.motionRequest p m g a).2) := by
  unfold motionCommand at h
  split at h <;> cases h
  next d => exact congrArg _ (State.awake_takeRequest awake room (moveRequest_byteOf g d))
  next j d => exact congrArg _ (State.awake_takeRequest awake room (moveJackRequest_byteOf j d))
  next d => exact congrArg _ (State.awake_takeRequest awake room (autoRequest_byteOf g d))
  next => exact congrArg _ (State.awake_takeRequest awake room autoRequest_level)

/-! ### Renewals -/

theorem Claim.heldBy_iff : b.heldBy p = true ↔ b.mode = .hold ∧ b.owner = .port p := by
  simp [Claim.heldBy]

/-- A HOLD request of the claim's owner for the action it already has is a renewal, whatever the checks of R111 would
say (R114). -/
theorem State.motionRequest_renewal (claimed : s.claim g = some b) (held : b.heldBy p = true) :
    s.motionRequest p .hold g b.action = s.renewClaim g b := by
  simp [State.motionRequest, claimed, held]

end

/-- Settles O23: the request reaches the claim table, which tells a renewal before any check. -/
theorem renewalMovesTheDeadline : Obligations.RenewalMovesTheDeadline := by
  unfold Obligations.RenewalMovesTheDeadline
  rintro s p g a c b awake room command claimed owner mode rfl
  have held : b.heldBy p = true := Claim.heldBy_iff.mpr ⟨mode, owner⟩
  rw [exec_motionCommand awake room command, State.motionRequest_renewal claimed held]
  rfl

end Sys2Proof.Machine
end

section
/-! PROOFS. The requests of the master ports in general, and the two that act on the port they arrive on: every request
command carries the fields of its frame to its port, which refuses fields out of range (R164, R166); ACK and ROUTE act on
the pending set and the route mask, which make ATTN (R172 to R174). -/

namespace Sys2Proof.Machine

section
variable {p : Port} {k : RequestKind} {f : List Byte} {c : Instr} {s : State}

/-! ### From a request command to its port -/

/-- The data bytes of a LAYOUT_LOAD frame stand after its segment number. -/
theorem ofFn_fieldByte_cons_toList (segment : Byte) (data : Vector Byte 16) :
    Vector.ofFn (fun i : Fin 16 => fieldByte (segment :: data.toList) (i.val + 1)) = data := by
  ext i hi
  simp [fieldByte]

/-- Every request command hands its port the fields of its frame, as a complete frame does, unless a reset is in progress
(R164, R183). -/
theorem exec_request (h : requestOf c = some (p, k, f)) :
    exec c s = .next (s.awake fun t => t.takeRequest p k (requestOfFields k f)) := by
  match c, h with
  | .move .., rfl | .auto .., rfl | .moveJack .., rfl | .release .., rfl | .stop _, rfl | .clearFault .., rfl
  | .runPlan .., rfl | .status _, rfl | .readAxis .., rfl | .layoutRead .., rfl | .layoutCommit _, rfl => rfl
  | .ack _ w, rfl | .route _ w, rfl =>
    simp only [requestOfFields, Laws.FieldRanges.fieldWord_twoBytes]
    rfl
  | .layoutLoad _ segment data, rfl =>
    simp only [requestOfFields, ofFn_fieldByte_cons_toList]
    rfl

/-- The fields of a request command make a request exactly when the command is well formed (R166). -/
theorem requestOfFields_isSome (h : requestOf c = some (p, k, f)) : (requestOfFields k f).isSome = c.wellFormed := by
  suffices ranges : Laws.FieldRanges.Statement c from (ranges p k f h).2
  match c, h with
  | .move .., _ => exact Laws.FieldRanges.move _ _ _
  | .auto .., _ => exact Laws.FieldRanges.auto _ _ _
  | .moveJack .., _ => exact Laws.FieldRanges.moveJack _ _ _
  | .release .., _ => exact Laws.FieldRanges.release _ _
  | .stop .., _ => exact Laws.FieldRanges.stop _
  | .clearFault .., _ => exact Laws.FieldRanges.clearFault _ _
  | .runPlan .., _ => exact Laws.FieldRanges.runPlan _ _
  | .status .., _ => exact Laws.FieldRanges.status _
  | .readAxis .., _ => exact Laws.FieldRanges.readAxis _ _
  | .ack .., _ => exact Laws.FieldRanges.ack _ _
  | .route .., _ => exact Laws.FieldRanges.route _ _
  | .layoutLoad .., _ => exact Laws.FieldRanges.layoutLoad _ _ _
  | .layoutRead .., _ => exact Laws.FieldRanges.layoutRead _ _
  | .layoutCommit .., _ => exact Laws.FieldRanges.layoutCommit _

/-- Fields out of range are refused BAD_REQUEST by the port itself: no block is asked (R166). -/
theorem State.awake_takeRequest_none (awake : s.inReset = none) (room : s.hasRoom p) :
    (s.awake fun t => t.takeRequest p k none) = s.answered p k (refusal .badRequest) := by
  have notFull : ¬ 4 ≤ (s.port p).replies.length := Nat.not_le.mpr room
  simp only [State.awake, awake, Option.isSome_none, Bool.false_eq_true, if_false, State.takeRequest, notFull,
    State.answered]

end

/-- Settles O12: fields that are not in range make no request, and without one the port answers itself. -/
theorem badFieldsAreRefused : Obligations.BadFieldsAreRefused := by
  unfold Obligations.BadFieldsAreRefused
  intro s c p k f awake request room illFormed
  have noRequest : requestOfFields k f = none := by
    rw [← Option.not_isSome_iff_eq_none, requestOfFields_isSome request, illFormed]
    exact Bool.false_ne_true
  rw [exec_request request, noRequest, State.awake_takeRequest_none awake room]
  rfl

section
variable {x y : Classes} {w : ClassWord} {p q : Port} {k : RequestKind} {a : Answer} {c : Notice} {s : State}

/-! ### Class sets -/

theorem Notice.number_lt (c : Notice) : c.number < 12 := by
  cases c <;> decide

/-- Every position of a class set is that of a notice class (R171). -/
theorem Notice.exists_number {i : Nat} (h : i < 12) : ∃ c : Notice, c.number = i := by
  match i, h with
  | 0, _ => exact ⟨.motionEnd, rfl⟩
  | 1, _ => exact ⟨.fault, rfl⟩
  | 2, _ => exact ⟨.interlock, rfl⟩
  | 3, _ => exact ⟨.wind, rfl⟩
  | 4, _ => exact ⟨.supply, rfl⟩
  | 5, _ => exact ⟨.road, rfl⟩
  | 6, _ => exact ⟨.plan, rfl⟩
  | 7, _ => exact ⟨.level, rfl⟩
  | 8, _ => exact ⟨.census, rfl⟩
  | 9, _ => exact ⟨.layout, rfl⟩
  | 10, _ => exact ⟨.preempt, rfl⟩
  | 11, _ => exact ⟨.link, rfl⟩

theorem Notice.and_bit (x : Classes) (c : Notice) : x &&& c.bit = if x.getLsbD c.number then c.bit else 0#12 := by
  rw [Notice.bit, ← BitVec.twoPow_eq]
  exact BitVec.and_twoPow x c.number

theorem Notice.bit_ne_zero (c : Notice) : c.bit ≠ 0#12 := by
  cases c <;> decide

/-- A class set holds a notice class when the bit of its number is set (R185). -/
theorem Notice.and_bit_eq_bit_iff : x &&& c.bit = c.bit ↔ x.getLsbD c.number = true := by
  rw [Notice.and_bit]
  split <;> simp_all [c.bit_ne_zero.symm]

/-- Two class sets have a bit in common exactly when they have a notice class in common. -/
theorem classes_and_ne_zero_iff :
    x &&& y ≠ 0#12 ↔ ∃ c : Notice, x &&& c.bit = c.bit ∧ y &&& c.bit = c.bit := by
  simp only [Notice.and_bit_eq_bit_iff, ← Bool.and_eq_true, ← BitVec.getLsbD_and]
  constructor
  · intro nonzero
    by_contra! disjoint
    refine nonzero (BitVec.eq_of_getLsbD_eq fun i hi => ?_)
    obtain ⟨c, rfl⟩ := Notice.exists_number hi
    rw [Bool.eq_false_of_not_eq_true (disjoint c), BitVec.getLsbD_zero]
  · rintro ⟨c, common⟩ zero
    rw [zero, BitVec.getLsbD_zero] at common
    exact Bool.false_ne_true common

/-- Of a set from which classes have been removed, a removed class is gone and any other stands as it was. -/
theorem classes_remove_and_bit :
    (x &&& ~~~y) &&& c.bit = if y &&& c.bit = c.bit then 0#12 else x &&& c.bit := by
  simp only [Notice.and_bit_eq_bit_iff]
  rw [Notice.and_bit, Notice.and_bit]
  cases h : y.getLsbD c.number <;> simp only [BitVec.getLsbD_and, BitVec.getLsbD_not, c.number_lt, h] <;> simp

/-- A class word with its four high positions clear names the classes of its low twelve (R166, R185). -/
theorem classesOfWord_eq (h : w &&& 0xF000#16 = 0#16) : classesOfWord w = some (w.setWidth 12) := by
  have inRange : (classesOfWord w).isSome = true := by
    rw [Laws.FieldRanges.classes_isSome, classesInRange, h]
    rfl
  unfold classesOfWord at inRange ⊢
  split at inRange
  · simp_all
  · contradiction

/-! ### A reply in the queue of its port -/

theorem State.port_answered_of_ne (h : q ≠ p) : (s.answered p k a).port q = s.port q := by
  simp [State.answered, State.queueReply, State.port_setPort, h.symm]

@[simp] theorem State.answered_port_pending : ((s.answered p k a).port q).pending = (s.port q).pending := by
  by_cases h : p = q <;> simp [State.answered, State.queueReply, State.port_setPort, h]

@[simp] theorem State.answered_port_routeMask : ((s.answered p k a).port q).routeMask = (s.port q).routeMask := by
  by_cases h : p = q <;> simp [State.answered, State.queueReply, State.port_setPort, h]

@[simp] theorem State.answered_inReset : (s.answered p k a).inReset = s.inReset := rfl

/-- Outside a reset ATTN says that a pending class is routed (R172). -/
theorem State.attn_iff (awake : s.inReset = none) :
    s.attn p = true ↔ ∃ c : Notice, (s.port p).pending &&& c.bit = c.bit ∧ (s.port p).routeMask &&& c.bit = c.bit := by
  rw [← classes_and_ne_zero_iff]
  simp [State.attn, awake]

/-! ### ACK and ROUTE -/

/-- ACK with its four high positions clear removes classes and is accepted (R173). -/
theorem exec_ack (awake : s.inReset = none) (room : s.hasRoom p) (h : w &&& 0xF000#16 = 0#16) :
    exec (.ack p w) s = .next ((s.ackClasses p (w.setWidth 12)).answered p .ack .plain) := by
  have fields : ackRequest w = some (.ack (w.setWidth 12)) := by rw [ackRequest, classesOfWord_eq h, Option.map_some]
  exact congrArg _ (State.awake_takeRequest awake room fields)

/-- ROUTE with its four high positions clear replaces the mask and is accepted (R174). -/
theorem exec_route (awake : s.inReset = none) (room : s.hasRoom p) (h : w &&& 0xF000#16 = 0#16) :
    exec (.route p w) s = .next ((s.routeClasses p (w.setWidth 12)).answered p .route .plain) := by
  have fields : routeRequest w = some (.route (w.setWidth 12)) := by
    rw [routeRequest, classesOfWord_eq h, Option.map_some]
  exact congrArg _ (State.awake_takeRequest awake room fields)

end

/-- Settles O9: ACK writes the pending set of its port, whose reply leaves the set and the mask as they are. -/
theorem ackRemovesClasses : Obligations.AckRemovesClasses := by
  unfold Obligations.AckRemovesClasses
  intro s p w awake room high
  refine ⟨_, exec_ack awake room high, rfl, fun c => ?_, fun q other => ?_, ?_⟩
  · simp [State.ackClasses, classes_remove_and_bit]
  · simp [State.port_answered_of_ne other, State.ackClasses, State.port_setPort, other.symm]
  · simp [State.attn_iff, State.ackClasses, awake]

/-- Settles O10: ROUTE writes the route mask of its port, whose reply leaves the set and the mask as they are. -/
theorem routeReplacesTheMask : Obligations.RouteReplacesTheMask := by
  unfold Obligations.RouteReplacesTheMask
  intro s p w awake room high
  refine ⟨_, exec_route awake room high, rfl, ?_, fun q other => ?_, ?_⟩
  · simp [State.routeClasses]
  · simp [State.port_answered_of_ne other, State.routeClasses, State.port_setPort, other.symm]
  · simp [State.attn_iff, State.routeClasses, awake]

end Sys2Proof.Machine
end

section
/-! PROOFS. The queue, the state after reset, and the clock: what the passing of time drives (R10, R28, R38, R45, R77, R84). -/

namespace Sys2Proof.Machine

/-- Settles O1: the step is defined so. -/
theorem stepTakesFrontCommand : Obligations.StepTakesFrontCommand := by
  unfold Obligations.StepTakesFrontCommand
  intro s c rest queue
  simp only [step, queue]

section
variable (s : State) (span : Time)

/-! ### What a span of time drives -/

theorem risen_eq_runOn (runs : Bool) (limit t : Time) :
    risen runs limit span t = if runs then runOn limit span t else t := by
  have capped (l a b : Nat) : max a (min l (a + b)) = if a < l then min l (a + b) else a := by split <;> omega
  cases runs
  · rfl
  · exact capped limit t span

theorem ofFn_getElem {α : Type} {n : Nat} (f : Fin n → α) (i : Fin n) : (Vector.ofFn f)[i] = f i :=
  Vector.getElem_ofFn ..

/-- The output duty is the smaller of the trimmed and the ramped duty while the channel is driven (R12). -/
theorem Channel.outputDuty_eq (c : Channel) :
    c.outputDuty = if c.driven then min c.ramped (c.trimmed.getD c.ramped) else 0 := by
  unfold Channel.outputDuty
  cases c.trimmed <;> simp [Nat.min_comm]

theorem State.chan_elapse (n : Chan) : (s.elapse span).chan n =
    { s.chan n with
      waveDuty := if s.now / 2 < (s.now + span) / 2 then (s.chan n).outputDuty else (s.chan n).waveDuty } := by
  simp only [State.elapse, State.latchDuty, State.chan]
  by_cases h : s.now / 2 < (s.now + span) / 2 <;> simp [h, State.countRuns, State.countWind, State.countPace]

@[simp] theorem State.driven_chan_elapse (n : Chan) : ((s.elapse span).chan n).driven = (s.chan n).driven := by
  rw [State.chan_elapse]
  rfl

theorem State.paceRec_elapse (n : Chan) : (s.elapse span).paceRec n =
    if (s.chan n).driven then
      { s.paceRec n with counter := countUp (s.paceRec n).counter (ticksIn s.now span) }
    else s.paceRec n := by
  have latched : (s.elapse span).pace = (s.countPace span).pace := by
    simp only [State.elapse, State.latchDuty]
    split <;> rfl
  unfold State.paceRec
  rw [latched]
  exact ofFn_getElem _ n

/-- Counters of the pace watch and of the wind rise apart from the run times. -/
theorem State.countRuns_elapse : (s.elapse span).rooms = (s.countRuns span).rooms ∧
    (s.elapse span).awning = (s.countRuns span).awning ∧ (s.elapse span).jackSet = (s.countRuns span).jackSet ∧
    (s.elapse span).level = (s.countRuns span).level := by
  have unlatched (t : State) : (t.latchDuty span).rooms = t.rooms ∧ (t.latchDuty span).awning = t.awning ∧
      (t.latchDuty span).jackSet = t.jackSet ∧ (t.latchDuty span).level = t.level := by
    unfold State.latchDuty
    split <;> exact ⟨rfl, rfl, rfl, rfl⟩
  obtain ⟨p, w, counted⟩ : ∃ p w, (s.countPace span).countWind span = { s with pace := p, wind := w } :=
    ⟨_, _, by unfold State.countWind State.countPace; rfl⟩
  simp only [State.elapse, unlatched, counted]
  exact ⟨rfl, rfl, rfl, rfl⟩

theorem State.rooms_elapse (k : RoomId) : (s.elapse span).rooms[k] =
    { s.rooms[k] with
      runTime := risen (s.running (.room k)) (seconds s.layout.roomTimeout) span (s.rooms[k]).runTime } := by
  obtain ⟨rooms, awning, jackSet, level⟩ := s.countRuns_elapse span
  rw [rooms, risen_eq_runOn]
  refine (ofFn_getElem _ k).trans ?_
  split <;> rfl

theorem State.awning_elapse : (s.elapse span).awning =
    { s.awning with
      runTime := risen (s.running .awning) (seconds s.layout.awning.runTimeout) span s.awning.runTime } := by
  obtain ⟨rooms, awning, jackSet, level⟩ := s.countRuns_elapse span
  rw [awning, risen_eq_runOn]
  simp only [State.countRuns]
  split <;> rfl

theorem State.jackSet_elapse : (s.elapse span).jackSet =
    { s.jackSet with
      runTime := risen (s.running .jacks && s.level.status != .active) (seconds s.layout.jackTimeout) span
        s.jackSet.runTime } := by
  obtain ⟨rooms, awning, jackSet, level⟩ := s.countRuns_elapse span
  rw [jackSet, risen_eq_runOn]
  change (if s.running .jacks && s.level.status != .active then _ else _) = _
  split <;> rfl

theorem State.level_elapse : (s.elapse span).level =
    { s.level with
      phaseTime := risen (s.running .jacks && s.level.status == .active) s.phaseLimit span s.level.phaseTime } := by
  obtain ⟨rooms, awning, jackSet, level⟩ := s.countRuns_elapse span
  rw [level, risen_eq_runOn, Bool.and_comm]
  change (if s.level.status == .active && s.running .jacks then _ else _) = _
  split <;> rfl

theorem State.wind_elapse : (s.elapse span).wind = { s.wind with
    counter := if s.layout.wind.present then countUp s.wind.counter (ticksIn s.now span) else s.wind.counter
    timer := if s.wind.state = .rising ∨ s.wind.state = .easing then s.wind.timer + span else s.wind.timer } := by
  simp only [State.elapse, State.latchDuty]
  split <;> rfl

/-- A span of time changes what the clock drives. -/
theorem State.timePassed_elapse : TimePassed s (s.elapse span) span where
  now := rfl
  channels n := by rw [State.chan_elapse, Channel.outputDuty_eq]
  pace n := State.paceRec_elapse s span n
  rooms k := State.rooms_elapse s span k
  awning := State.awning_elapse s span
  jacks := State.jacks_elapse s span
  jackSet := State.jackSet_elapse s span
  level := State.level_elapse s span
  wind := State.wind_elapse s span

end

/-- Settles O3: the clock moves by a span that ends at the moment, and a moment that lies ahead may be taken unless an idle
step has sampled now. -/
theorem clockMovesToTheMoment : Obligations.ClockMovesToTheMoment := by
  unfold Obligations.ClockMovesToTheMoment
  intro s moment
  have clocked : s.clocked = false ↔ s.tickedAt ≠ some s.now := by simp [State.clocked]
  have moved := s.advanceTo_cases moment
  refine ⟨by simp [State.comes, clocked], fun run limit => by simp [State.mayReach, clocked], fun past => ?_, fun ahead => ?_, ?_⟩
  · rw [State.advanceTo, if_neg (Nat.not_lt.mpr past)]
  · rw [State.advanceTo, if_pos ahead]
    exact s.timePassed_elapse _
  · rcases moved with ⟨-, same⟩ | ⟨-, passed⟩
    · rw [same]
    · rw [passed, State.elapse_eq]

end Sys2Proof.Machine
end

section
/-! PROOFS. The motion periods of BUZZ run while the load list holds an entry: what ties the two is `setLoad`, and no work
changes either in another way (R130). -/

namespace Sys2Proof.Machine

/-- Where the motion periods run just while the load list is not empty, they go on doing so. -/
def Timed (s t : State) : Prop := (s.load = [] ↔ s.motionPeriod = none) → (t.load = [] ↔ t.motionPeriod = none)

section
variable {g : Group} {s t u : State} {k : Nat}

namespace Timed

theorem refl (s : State) : Timed s s := id

theorem trans (a : Timed s t) (b : Timed t u) : Timed s u := b ∘ a

theorem of_same (load : t.load = s.load) (period : t.motionPeriod = s.motionPeriod) : Timed s t := fun h => by
  rw [load, period]
  exact h

theorem of_outer (h : t.outer = s.outer) : Timed s t :=
  of_same (by have e := congrArg State.load h; exact e) (by have e := congrArg State.motionPeriod h; exact e)

theorem setLoad (l : List Entry) : Timed s (s.setLoad l) := fun h => by
  unfold State.setLoad
  dsimp only
  cases l with
  | nil => simp
  | cons e rest =>
    cases load : s.load with
    | nil => simp
    | cons x more => simpa [load] using h

theorem forEach {α : Type} {l : List α} {f : α → State → State} (h : ∀ a t, Timed t (f a t)) (s : State) :
    Timed s (forEach l f s) := by
  induction l generalizing s with
  | nil => exact refl s
  | cons a rest ih => exact (h a s).trans (ih (f a s))

end Timed

theorem Controls.timed (c : Controls g s t) : Timed s t := .of_outer c.outer

/-! ### Lists -/

theorem State.enterLoad_timed {e : Entry} : Timed s (s.enterLoad e) := .setLoad _

theorem State.removeEntry_timed : Timed s (s.removeEntry g) :=
  (Timed.setLoad (s := s) (s.load.filter fun e => e.group != g)).trans (.of_same rfl rfl)

theorem State.placeEntry_timed {o : Owner} {m : Mode} {a : Action} : Timed s (s.placeEntry g o m a).1 := by
  unfold State.placeEntry
  dsimp only
  have numbered : Timed s { s with nextOrder := s.nextOrder + 1 } := .of_same rfl rfl
  split
  · exact numbered.trans State.enterLoad_timed
  · exact numbered.trans (.of_same rfl rfl)

theorem State.placeAndStart_timed {o : Owner} {m : Mode} {a : Action} : Timed s (s.placeAndStart g o m a).1 :=
  State.placeEntry_timed.trans State.controllerAdmit_controls.timed

theorem offerUnits_timed {e : Entry} : Timed s (offerUnits s e) := by
  unfold offerUnits
  split
  · have left : Timed s { s with paused := s.paused.filter fun x => x != e } := .of_same rfl rfl
    exact left.trans State.enterLoad_timed
  · exact .refl s

theorem State.scan_timed : Timed s s.scan.1 := by
  have offers (l : List Entry) (s : State) : Timed s (l.foldl offerUnits s) := by
    induction l generalizing s with
    | nil => exact .refl s
    | cons e rest ih => exact offerUnits_timed.trans (ih _)
  exact offers _ s

theorem State.resumeEntry_timed {order : Nat} {first : Bool} : Timed s (s.resumeEntry g order first).1 := by
  unfold State.resumeEntry State.handing
  dsimp only
  split
  · split
    · exact State.slideResume_controls.timed
    · exact State.jackResume_controls.timed
  · exact .refl s

/-- Each stop of a channel, whatever its group, leaves the lists. -/
theorem State.stopChan_timed {n : Chan} : Timed s (s.stopChan n) := by
  refine .of_outer ?_
  unfold State.stopChan
  split <;> rfl

theorem State.shed_timed {e : Entry} : Timed s (s.shed e) := by
  unfold State.shed
  dsimp only
  have stopped : Timed s (Sys2Proof.Machine.forEach (s.motionChans e) (fun n t => t.stopChan n) s) :=
    .forEach (fun _ _ => State.stopChan_timed) s
  generalize Sys2Proof.Machine.forEach (s.motionChans e) (fun n t => t.stopChan n) s = s1 at stopped ⊢
  have kept : Timed s1 (s1.controllerShed e.group) := by
    unfold State.controllerShed
    split
    · exact State.slideShed_controls.timed
    · exact .refl s1
  generalize s1.controllerShed e.group = s2 at kept ⊢
  exact (stopped.trans kept).trans ((Timed.setLoad _).trans (.of_same rfl rfl))

theorem State.shedTo_timed {limit : Nat} : Timed s (s.shedTo limit) := by
  have down (fuel : Nat) (s : State) : Timed s (State.shedDown fuel limit s) := by
    induction fuel generalizing s with
    | zero => exact .refl s
    | succ fuel ih =>
      unfold State.shedDown
      split
      · exact .refl s
      · split
        · exact State.shed_timed.trans (ih _)
        · exact .refl s
  exact down _ s

/-! ### Endings, plans and claims -/

theorem State.evalAlarm_timed : Timed s s.evalAlarm := by
  rw [s.butAlarm_evalAlarm.1]
  exact .of_same rfl rfl

theorem State.countFault_timed : Timed s s.countFault := by
  unfold State.countFault State.buzzKick
  split <;> exact .of_same rfl rfl

theorem State.endNotices_timed {e : Ending} : Timed s (s.endNotices e) := by
  unfold State.endNotices
  dsimp only
  have noticed : Timed s (s.raise .motionEnd) := .of_same rfl rfl
  have counted : Timed s (if e.outcome = .fault then ((s.raise .motionEnd).raise .fault).countFault else s.raise .motionEnd) := by
    split
    · have raised : Timed (s.raise .motionEnd) ((s.raise .motionEnd).raise .fault) := .of_same rfl rfl
      exact (noticed.trans raised).trans State.countFault_timed
    · exact noticed
  generalize (if e.outcome = .fault then ((s.raise .motionEnd).raise .fault).countFault else s.raise .motionEnd) = s1
    at counted ⊢
  split
  · exact counted.trans (.of_same rfl rfl)
  · exact counted

theorem State.endClaim_timed {c : ClaimEffect} : Timed s (s.endClaim g c) := by
  unfold State.endClaim
  split
  · split
    · exact .of_same rfl rfl
    · exact .refl s
  · exact .of_same rfl rfl
  · exact .refl s

theorem State.motionEnd_timed {e : Ending} : Timed s (s.motionEnd g e).1 := by
  unfold State.motionEnd
  split
  · exact .refl s
  · exact State.controllerEnd_controls.timed.trans
      (State.endNotices_timed.trans (State.endClaim_timed.trans State.removeEntry_timed))

theorem State.stepAdvance_timed : Timed s s.stepAdvance.1 := by
  unfold State.stepAdvance State.planEnd
  split
  · split <;> exact .of_same rfl rfl
  · exact .refl s

theorem State.aimClaim_timed {a : Action} : Timed s (s.aimClaim g a) := by
  unfold State.aimClaim
  split
  · split
    · exact .of_same rfl rfl
    · exact .refl s
  · exact .refl s

theorem State.freePlanClaims_timed : Timed s s.freePlanClaims := by
  refine .forEach (fun g t => ?_) s
  split
  · split
    · exact .of_same rfl rfl
    · exact .refl t
  · exact .refl t

/-- No piece of work of an event parts the motion periods from the load list. -/
theorem State.runTask_timed {u : Task} : Timed s (s.runTask u).1 := by
  cases u with
  | endMotion g e => exact State.motionEnd_timed
  | handover v =>
    change Timed s (s.handOver v).1
    unfold State.handOver
    split
    · exact .refl s
    · exact State.evalAlarm_timed
  | permits => exact (congrArg (Timed s) State.checkPermits_fst).mpr (.refl s)
  | scan => exact State.scan_timed
  | resume g order first => exact State.resumeEntry_timed
  | planTakes g a e f =>
    change Timed s (s.planTakes g a e f).1
    unfold State.planTakes State.planEnd
    split
    · exact .refl s
    · split
      · dsimp only
        refine Timed.trans ?_ State.stepAdvance_timed
        exact .of_same rfl rfl
      · exact .of_same rfl rfl
  | beginStep =>
    change Timed s s.stepBegin.1
    unfold State.stepBegin State.planRefused State.planEnd
    split
    · dsimp only
      split
      · exact .of_same rfl rfl
      · exact .of_same rfl rfl
    · exact .refl s
  | place l =>
    cases l with
    | nil => exact State.stepAdvance_timed
    | cons y rest =>
      change Timed s (s.placeNext (y :: rest)).1
      unfold State.placeNext State.planRefused State.planEnd
      dsimp only
      split
      · split
        · exact .of_same rfl rfl
        · have opened : Timed (s.aimClaim y.1 y.2) ((s.aimClaim y.1 y.2).openSlot y.1) := .of_same rfl rfl
          exact (State.aimClaim_timed.trans opened).trans State.placeAndStart_timed
      · exact .refl s
  | endPlan =>
    change Timed s s.planEndNext.1
    unfold State.planEndNext
    split
    · exact .refl s
    · exact State.freePlanClaims_timed

theorem drain_timed {w : Work} : Timed w.1 (drain k w) := by
  induction k generalizing w with
  | zero => exact .refl _
  | succ k ih =>
    obtain ⟨s, l⟩ := w
    cases l with
    | nil => exact .refl s
    | cons u rest => exact State.runTask_timed.trans (ih (w := ((s.runTask u).1, (s.runTask u).2 ++ rest)))

end

end Sys2Proof.Machine
end

section
/-! PROOFS. What the handlers of the events at channels and axes can do to the whole block: no queue, layout, store, line or
supply record changes, no claim is made, and no channel is driven that is not SEATED. -/

namespace Sys2Proof.Machine

/-- Both lists are empty and no plan is RUNNING (R123). -/
def State.idle (s : State) : Prop := s.load = [] ∧ s.paused = [] ∧ s.plan.status ≠ .running

/-- A known count lies within a limit. -/
def within (limit : Nat) (c : Option Nat) : Prop := ∀ x ∈ c, x ≤ limit

theorem within_none (limit : Nat) : within limit none := by simp [within]

theorem within_zero (limit : Nat) : within limit (some 0) := by simp [within]

/-- What an event's handlers and the work that they leave can do. -/
structure Acts (s t : State) : Prop where
  fixed : t.fixedPart = s.fixedPart
  links : ∀ p, (t.port p).link = (s.port p).link
  census : ∀ n, (t.chan n).census = (s.chan n).census
  seated : ∀ n, (t.chan n).driven = true → (s.chan n).driven = true ∨ (s.chan n).census = .seated
  counts : ∀ id m, within (s.travelLimit id) (s.motor id m).count → within (s.travelLimit id) (t.motor id m).count
  strokes : ∀ j, within (s.countCeiling j) (s.jack j).count → within (s.countCeiling j) (t.jack j).count
  free : ∀ g, s.claim g = none → t.claim g = none
  budget : s.heldUnits ≤ s.budget → t.heldUnits ≤ t.budget
  idle : s.idle → t.idle
  timed : Timed s t

section
variable {F : Group → Prop} {g : Group} {s t u : State} {id : Slider} {m : Motor} {d : Dir} {j : JackId} {n : Chan}

namespace Acts

theorem refl (s : State) : Acts s s where
  fixed := rfl
  links _ := rfl
  census _ := rfl
  seated _ h := .inl h
  counts _ _ h := h
  strokes _ h := h
  free _ h := h
  budget h := h
  idle h := h
  timed := .refl s

theorem layout (a : Acts s t) : t.layout = s.layout := by
  have h := congrArg State.layout a.fixed
  exact h

theorem travelLimit (a : Acts s t) (id : Slider) : t.travelLimit id = s.travelLimit id := by
  cases id <;> simp [State.travelLimit, State.travel, State.endWindow, a.layout]

theorem countCeiling (a : Acts s t) (j : JackId) : t.countCeiling j = s.countCeiling j := by
  unfold State.countCeiling State.jackParams
  rw [a.layout]

theorem trans (a : Acts s t) (b : Acts t u) : Acts s u where
  fixed := b.fixed.trans a.fixed
  links p := (b.links p).trans (a.links p)
  census n := (b.census n).trans (a.census n)
  seated n h := (b.seated n h).elim (a.seated n) fun h => .inr (a.census n ▸ h)
  counts id m h := by
    have c := b.counts id m
    rw [a.travelLimit] at c
    exact c (a.counts id m h)
  strokes j h := by
    have c := b.strokes j
    rw [a.countCeiling] at c
    exact c (a.strokes j h)
  free g h := b.free g (a.free g h)
  budget h := b.budget (a.budget h)
  idle h := b.idle (a.idle h)
  timed := a.timed.trans b.timed

/-- A change of the channels, the pace watch and the axes alone. -/
theorem of_outer (outer : t.outer = s.outer) (census : ∀ n, (t.chan n).census = (s.chan n).census)
    (seated : ∀ n, (t.chan n).driven = true → (s.chan n).driven = true ∨ (s.chan n).census = .seated)
    (counts : ∀ id m, within (s.travelLimit id) (s.motor id m).count → within (s.travelLimit id) (t.motor id m).count)
    (strokes : ∀ j, within (s.countCeiling j) (s.jack j).count → within (s.countCeiling j) (t.jack j).count) :
    Acts s t where
  fixed := by
    have h := congrArg State.fixedPart outer
    exact h
  links p := by
    have h : t.ports = s.ports := by have e := congrArg State.ports outer; exact e
    simp only [State.port, h]
  census := census
  seated := seated
  counts := counts
  strokes := strokes
  free g h := by
    have c : t.claims = s.claims := by have e := congrArg State.claims outer; exact e
    simpa only [State.claim, c] using h
  budget h := by
    have l : t.load = s.load := by have e := congrArg State.load outer; exact e
    have b : t.supply = s.supply := by have e := congrArg State.supply outer; exact e
    simpa only [State.heldUnits, State.budget, l, b] using h
  idle h := by
    have l : t.load = s.load := by have e := congrArg State.load outer; exact e
    have p : t.paused = s.paused := by have e := congrArg State.paused outer; exact e
    have q : t.plan = s.plan := by have e := congrArg State.plan outer; exact e
    simpa only [State.idle, l, p, q] using h
  timed := .of_outer outer

theorem within_of_countKept (h : s.countKept t id m) {limit : Nat} (k : within limit (s.motor id m).count) :
    within limit (t.motor id m).count := by
  rcases h with h | ⟨-, h⟩
  · rwa [h]
  · rw [h]
    exact within_zero _

theorem count_of_reading {a b : Jack} (h : a.reading = b.reading) : a.count = b.count := by
  have c := congrArg Jack.count h
  exact c

theorem census_of_reading {a b : Channel} (h : a.reading = b.reading) : a.census = b.census := by
  have c := congrArg Channel.census h
  exact c

theorem of_controls (a : Controls g s t) : Acts s t :=
  .of_outer a.outer (fun n => census_of_reading (a.readings n)) a.seated
    (fun id m => within_of_countKept (a.counts id m))
    fun j h => by rwa [count_of_reading (a.jackReading j)]

/-- What is left to do in an event is within `Acts`. -/
theorem of_does (a : Does F s t) (timed : Timed s t) : Acts s t where
  fixed := a.follows.fixed
  links := a.follows.links
  census n := census_of_reading (a.follows.readings n)
  seated := a.follows.seated
  counts id m := within_of_countKept (a.follows.counts id m)
  strokes j h := by rwa [count_of_reading (a.follows.jackReading j)]
  free := a.follows.free
  budget := a.follows.budget
  idle h := by
    obtain ⟨load, paused, plan⟩ := h
    have rests := a.rests (by simpa [State.planRunning] using plan)
    have none : t.motions = [] := List.eq_nil_iff_forall_not_mem.mpr fun e he => by
      have he := rests.entries e he
      simp [State.motions, load, paused] at he
    simp only [State.motions, List.map_eq_nil_iff, List.append_eq_nil_iff] at none
    exact ⟨none.1, none.2, rests.plan ▸ plan⟩
  timed := timed

/-! ### Small updates -/

theorem setChan {c : Channel} (census : c.census = (s.chan n).census)
    (seated : c.driven = true → (s.chan n).driven = true ∨ (s.chan n).census = .seated) : Acts s (s.setChan n c) := by
  refine .of_outer rfl (fun k => ?_) (fun k => ?_) (fun id m => by simp) (fun j => by simp)
  · by_cases h : n = k
    · subst h; simpa using census
    · simp [State.chan_setChan, h]
  · by_cases h : n = k
    · subst h; simpa using seated
    · simp only [State.chan_setChan, h, if_false]; exact .inl

theorem setPace {r : PaceRecord} : Acts s (s.setPace n r) :=
  .of_outer rfl (fun _ => by simp) (fun _ h => .inl (by simpa using h)) (fun _ _ => by simp) (fun _ => by simp)

theorem setSlider {r : SliderRec}
    (c : ∀ m, within (s.travelLimit id) (s.motor id m).count → within (s.travelLimit id) (r.motor m).count) :
    Acts s (s.setSlider id r) := by
  refine .of_outer (by cases id <;> rfl) (fun _ => by simp) (fun _ h => .inl (by simpa using h)) (fun i m h => ?_)
    (fun _ => by simp)
  by_cases e : id = i
  · subst e; simpa [State.motor] using c m h
  · simpa [State.motor, State.slider_setSlider, e] using h

/-- A slider's record may change in all but its counts. -/
theorem setSlider_keeping {r : SliderRec} (a : r.motorA.count = (s.slider id).motorA.count)
    (b : r.motorB.count = (s.slider id).motorB.count) : Acts s (s.setSlider id r) :=
  .setSlider fun m h => by
    cases m
    · simpa only [SliderRec.motor, State.motor, a] using h
    · simpa only [SliderRec.motor, State.motor, b] using h

theorem setMotor {x : MotorRec}
    (c : within (s.travelLimit id) (s.motor id m).count → within (s.travelLimit id) x.count) :
    Acts s (s.setMotor id m x) := by
  refine .setSlider fun k h => ?_
  by_cases e : m = k
  · subst e; simpa using c h
  · simpa [SliderRec.motor_setMotor, e, State.motor] using h

theorem onJack {f : Jack → Jack}
    (c : within (s.countCeiling j) (s.jack j).count → within (s.countCeiling j) (f (s.jack j)).count) :
    Acts s (s.onJack j f) := by
  refine .of_outer rfl (fun _ => by simp) (fun _ h => .inl (by simpa using h)) (fun _ _ => by simp) (fun i h => ?_)
  by_cases e : j = i
  · subst e; simpa using c h
  · simpa [State.jack_onJack, e] using h

/-- The jack set record and the level run record may change alone. -/
theorem jackSetLevel (x : JackSet) (l : LevelRun) : Acts s { s with jackSet := x, level := l } :=
  .of_controls (.jackSetLevel x l)

theorem jackSet (x : JackSet) : Acts s { s with jackSet := x } := .jackSetLevel x s.level

theorem level (l : LevelRun) : Acts s { s with level := l } := .jackSetLevel s.jackSet l

/-- A jack's record may change in all but its count. -/
theorem onJack_keeping {f : Jack → Jack} (c : (f (s.jack j)).count = (s.jack j).count) : Acts s (s.onJack j f) :=
  .onJack fun h => c ▸ h

theorem raise (c : Notice) : Acts s (s.raise c) := .of_does (Does.raise (F := fun _ => False) c) (.of_same rfl rfl)

theorem mirrorTally : Acts s (s.mirrorTally n) := by
  unfold State.mirrorTally
  split
  · exact .setMotor id
  · exact .setMotor id
  · exact .refl s

theorem stopChan : Acts s (s.stopChan n) := by
  unfold State.stopChan
  split
  · exact .setChan rfl (by simp)
  · exact .setChan rfl (by simp)
  · exact .setChan (census_of_reading (Channel.reading_cancelled _ _)) (by simp)
  · exact .refl s
  · exact .refl s

theorem forEach {α : Type} {l : List α} {f : α → State → State} (h : ∀ a t, Acts t (f a t)) (s : State) :
    Acts s (forEach l f s) := by
  induction l generalizing s with
  | nil => exact refl s
  | cons a rest ih => exact (h a s).trans (ih (f a s))

end Acts

/-! ### Faults of a channel -/

theorem State.channelFault_acts {f : FaultCode} : Acts s (s.channelFault n f).1 := .stopChan

theorem State.channelFault_plain {f : FaultCode} : Plain (s.channelFault n f).2 := by
  unfold State.channelFault State.channelFaultTasks
  dsimp only
  split
  · exact .nil
  · exact slideFault_plain
  · exact slideFault_plain
  all_goals
    unfold State.jackChannelFault
    split
    · exact .nil
    · exact jackEnding_plain (by simp)

/-! ### Rooms and the awning -/

theorem within_stepCount {limit : Nat} {c : Nat} (h : c ≤ limit) : within limit (some (stepCount limit d c)) := by
  simp only [within, Option.mem_some_iff, forall_eq', stepCount]
  cases d
  · exact Nat.min_le_right _ _
  · exact (Nat.sub_le c 1).trans h

theorem State.slideStep_acts {driven : Bool} : Acts s (s.slideStep id m d driven).1 := by
  unfold State.slideStep
  dsimp only
  split
  · exact .refl s
  · exact .refl s
  · exact .refl s
  · rename_i c count _ _
    have stepped : Acts s (s.setMotor id m
        { s.motor id m with count := some (stepCount (s.travelLimit id) d c) }) :=
      .setMotor fun h => within_stepCount (h c count)
    split
    · exact stepped
    · split
      · exact stepped.trans (.of_controls (State.rackCheck_controls (State.retrim_controls (id := id))))
      · exact stepped

theorem State.slideStep_plain {driven : Bool} : Plain (s.slideStep id m d driven).2 := by
  unfold State.slideStep
  dsimp only
  split
  · exact .nil
  · exact .nil
  · exact .nil
  · split
    · exact slideFault_plain
    · split
      · exact State.rackCheck_plain .nil
      · exact .nil

theorem State.slideStall_acts : Acts s (s.slideStall id m).1 := by
  unfold State.slideStall
  split
  · exact .refl s
  · split
    · exact .of_controls State.seatDone_controls
    · exact .refl s
    · exact .refl s
  · exact .refl s

theorem State.slideStall_plain : Plain (s.slideStall id m).2 := by
  unfold State.slideStall
  split
  · dsimp only
    split
    · exact Plain.cons (by simp [Task.plain]) .nil
    · exact slideFault_plain
  · split
    · exact State.seatDone_plain
    · exact slideFault_plain
    · exact .nil
  · exact .nil

theorem State.slideHomeClosed_acts : Acts s (s.slideHomeClosed id m).1 := by
  unfold State.slideHomeClosed
  have zeroed : Acts s (s.setMotor id m { s.motor id m with count := some 0 }) := .setMotor fun _ => within_zero _
  dsimp only
  generalize s.setMotor id m { s.motor id m with count := some 0 } = s1 at zeroed ⊢
  have work : ∀ c : Prop, [Decidable c] → Acts s1 (if c then s1.beginSeat id m else (s1.retrim id, [])).1 := fun c _ => by
    split
    · exact .of_controls State.beginSeat_controls
    · exact .of_controls (State.retrim_controls (id := id))
  refine zeroed.trans ?_
  split
  · exact .setSlider_keeping rfl rfl
  · split
    · unfold State.rackCheck
      split
      · exact .refl s1
      · exact work _
    · exact work _

theorem State.slideHomeClosed_plain : Plain (s.slideHomeClosed id m).2 := by
  unfold State.slideHomeClosed
  dsimp only
  generalize s.setMotor id m { s.motor id m with count := some 0 } = s1
  have work : ∀ c : Prop, [Decidable c] → Plain (if c then s1.beginSeat id m else (s1.retrim id, [])).2 := fun c _ => by
    split
    · exact State.beginSeat_plain
    · exact .nil
  split
  · exact .nil
  · split
    · exact State.rackCheck_plain (work _)
    · exact work _

theorem State.slideHomeOpened_acts : Acts s (s.slideHomeOpened id) := by
  unfold State.slideHomeOpened
  split
  · exact .setSlider_keeping (by rfl) (by rfl)
  · exact .refl s

theorem State.slideClearFault_acts : Acts s (s.slideClearFault id) := by
  unfold State.slideClearFault
  dsimp only
  have cleared : Acts s (s.setSlider id { s.slider id with fault := none }) := .setSlider_keeping rfl rfl
  generalize s.setSlider id { s.slider id with fault := none } = s1 at cleared ⊢
  split
  · have lostA : Acts s (s1.setMotor id .a { s1.motor id .a with count := none }) :=
      cleared.trans (.setMotor fun _ => within_none _)
    generalize s1.setMotor id .a { s1.motor id .a with count := none } = s2 at lostA ⊢
    have lostB : Acts s (s2.setMotor id .b { s2.motor id .b with count := none }) :=
      lostA.trans (.setMotor fun _ => within_none _)
    generalize s2.setMotor id .b { s2.motor id .b with count := none } = s3 at lostB ⊢
    refine lostB.trans ?_
    exact .setSlider_keeping rfl rfl
  · exact cleared

/-! ### Jacks -/

theorem State.liftOff_acts : Acts s (s.liftOff j) := by
  have marked : Acts s (s.onJack j fun r => { r with liftOff := true }) := .onJack_keeping (by rfl)
  unfold State.liftOff
  dsimp only
  generalize s.onJack j (fun r => { r with liftOff := true }) = s1 at marked ⊢
  exact (marked.trans (.jackSet _)).trans (.raise _)

theorem State.contactGained_acts : Acts s (s.contactGained j).1 := by
  unfold State.contactGained
  have gained : Acts s (s.onJack j fun r => { r with contact := true, lossRun := 0, liftOff := false }) := .onJack_keeping (by rfl)
  dsimp only
  split
  · exact gained.trans (.of_controls (State.jackDone_controls.trans State.jackSettled_controls))
  · exact gained

theorem State.contactGained_plain : Plain (s.contactGained j).2 := by
  unfold State.contactGained
  dsimp only
  split
  · exact State.jackSettled_plain
  · exact .nil

theorem State.contactLost_acts : Acts s (s.contactLost j).1 := by
  unfold State.contactLost
  have lost : Acts s (s.onJack j fun r => { r with contact := false, lossRun := 0 }) := .onJack_keeping (by rfl)
  dsimp only
  generalize s.onJack j (fun r => { r with contact := false, lossRun := 0 }) = s1 at lost ⊢
  split
  · have lifted : Acts s (s1.liftOff j) := lost.trans State.liftOff_acts
    split
    · have lowered : Acts s ((s1.liftOff j).onJack j fun r => { r with phase := .active, dir := .outward }) :=
        lifted.trans (.onJack_keeping rfl)
      refine lowered.trans (.of_controls (g := .jacks) ?_)
      split
      · exact State.startValve_controls.trans State.pumpFollow_controls
      · exact State.pumpFollow_controls
    · exact lifted
  · exact lost

theorem State.contactLost_tasks : (s.contactLost j).2 = [] := by
  unfold State.contactLost
  dsimp only
  split
  · split <;> rfl
  · rfl

theorem State.pressureSample_acts {v : Nat} : Acts s (s.pressureSample j v).1 := by
  unfold State.pressureSample
  have read : Acts s (s.onJack j fun r => { r with pressure := v }) := .onJack_keeping rfl
  dsimp only
  generalize s.onJack j (fun r => { r with pressure := v }) = s1 at read ⊢
  refine read.trans ?_
  split
  · split
    · split
      · exact State.contactLost_acts
      · exact .onJack_keeping (f := fun r => { r with lossRun := r.lossRun + 1 }) rfl
    · exact .onJack_keeping (f := fun r => { r with lossRun := 0 }) rfl
  · split
    · exact State.contactGained_acts
    · exact .refl s1

theorem State.pressureSample_plain {v : Nat} : Plain (s.pressureSample j v).2 := by
  unfold State.pressureSample
  dsimp only
  split
  · split
    · split
      · exact State.contactLost_tasks ▸ Plain.nil
      · exact .nil
    · exact .nil
  · split
    · exact State.contactGained_plain
    · exact .nil

/-- The work of a position step of a jack, once its count has moved, by whether the jack stands at its stroke or target. -/
theorem State.jackStep_cases {driven : Bool} : ∃ (l : LevelRun) (s2 : State),
    (s2 = s.onJack j (fun r => { r with count := r.count.map (stepCount (s.countCeiling j) d) }) ∨
      s2 = { s.onJack j (fun r => { r with count := r.count.map (stepCount (s.countCeiling j) d) }) with level := l }) ∧
    (s.jackStep j d driven = (s2.jackAtStroke j).jackSettled ∨ s.jackStep j d driven = (s2.jackDone j).jackSettled ∨
      s.jackStep j d driven = (s2, [])) := by
  unfold State.jackStep
  dsimp only
  generalize s.onJack j (fun r => { r with count := r.count.map (stepCount (s.countCeiling j) d) }) = s1
  have pick (s2 : State) (b c : Bool) :
      (if b = true then (s2.jackAtStroke j).jackSettled else if c = true then (s2.jackDone j).jackSettled else (s2, [])) =
        (s2.jackAtStroke j).jackSettled ∨
      (if b = true then (s2.jackAtStroke j).jackSettled else if c = true then (s2.jackDone j).jackSettled else (s2, [])) =
        (s2.jackDone j).jackSettled ∨
      (if b = true then (s2.jackAtStroke j).jackSettled else if c = true then (s2.jackDone j).jackSettled else (s2, [])) =
        (s2, []) := by
    cases b <;> cases c <;> simp
  refine ⟨{ s1.level with progress := s1.level.progress.set j (min 65535 (s1.level.progress[j] + 1)) },
    if s1.feedsProgress j d then
      { s1 with level := { s1.level with progress := s1.level.progress.set j (min 65535 (s1.level.progress[j] + 1)) } }
    else s1, ?_, pick _ _ _⟩
  split
  · exact .inr rfl
  · exact .inl rfl

theorem State.jackStep_acts {driven : Bool} : Acts s (s.jackStep j d driven).1 := by
  have stepped : Acts s (s.onJack j fun r => { r with count := r.count.map (stepCount (s.countCeiling j) d) }) :=
    .onJack fun h x hx => by
      obtain ⟨c, count, rfl⟩ := Option.map_eq_some_iff.mp hx
      exact within_stepCount (h c count) _ rfl
  obtain ⟨l, s2, moved, work⟩ := s.jackStep_cases (j := j) (d := d) (driven := driven)
  have both : Acts s s2 := by
    rcases moved with rfl | rfl
    · exact stepped
    · exact stepped.trans (.level l)
  rcases work with e | e | e <;> rw [e]
  · exact both.trans (.of_controls (State.jackAtStroke_controls.trans State.jackSettled_controls))
  · exact both.trans (.of_controls (State.jackDone_controls.trans State.jackSettled_controls))
  · exact both

theorem State.jackStep_plain {driven : Bool} : Plain (s.jackStep j d driven).2 := by
  obtain ⟨l, s2, -, work⟩ := s.jackStep_cases (j := j) (d := d) (driven := driven)
  rcases work with e | e | e <;> rw [e]
  · exact State.jackSettled_plain
  · exact State.jackSettled_plain
  · exact .nil

theorem State.jackStall_acts : Acts s (s.jackStall j).1 := by
  unfold State.jackStall
  split
  · split
    · exact .of_controls (State.jackAtStroke_controls.trans State.jackSettled_controls)
    · exact .refl s
  · exact .refl s

theorem State.jackStall_plain : Plain (s.jackStall j).2 := by
  unfold State.jackStall
  split
  · split
    · exact State.jackSettled_plain
    · exact jackEnding_plain (by simp)
  · exact .nil

theorem State.jackHomeClosed_acts : Acts s (s.jackHomeClosed j).1 := by
  unfold State.jackHomeClosed
  have zeroed : Acts s (s.onJack j fun r => { r with count := some 0, atStroke := false, liftOff := false }) :=
    .onJack fun _ => within_zero _
  dsimp only
  split
  · exact zeroed.trans (.of_controls (State.jackDone_controls.trans State.jackSettled_controls))
  · exact zeroed

theorem State.jackHomeClosed_plain : Plain (s.jackHomeClosed j).2 := by
  unfold State.jackHomeClosed
  dsimp only
  split
  · exact State.jackSettled_plain
  · exact .nil

theorem State.jacksClearFault_acts : Acts s s.jacksClearFault := .forEach (fun _ _ => .onJack_keeping (by rfl)) s

theorem State.settleDecide_plain : Plain s.settleDecide.2 := by
  unfold State.settleDecide
  dsimp only
  split
  · split
    · exact jackEnding_plain (by simp)
    · exact .nil
  · split
    · exact jackEnding_plain (by simp)
    · split
      · exact jackEnding_plain (by simp)
      · split
        · exact jackEnding_plain (by simp)
        · split
          · exact jackEnding_plain (by simp)
          · exact .nil

/-! ### Channels -/

theorem State.watchCurrent_acts {v : Nat} : Acts s (s.watchCurrent n v).1 := by
  unfold State.watchCurrent
  dsimp only
  split
  · split
    · split
      · refine Acts.trans ?_ State.channelFault_acts
        exact .setChan rfl .inl
      · exact .setChan rfl .inl
    · exact .setChan rfl .inl
  · exact .refl s

theorem State.watchCurrent_plain {v : Nat} : Plain (s.watchCurrent n v).2 := by
  unfold State.watchCurrent
  dsimp only
  split
  · split
    · split
      · exact State.channelFault_plain
      · exact .nil
    · exact .nil
  · exact .nil

theorem State.handStep_acts {driven : Bool} : Acts s (s.handStep n d driven).1 := by
  unfold State.handStep
  split
  · exact State.slideStep_acts
  · exact State.slideStep_acts
  · exact State.jackStep_acts
  · exact .refl s
  · exact .refl s

theorem State.handStep_plain {driven : Bool} : Plain (s.handStep n d driven).2 := by
  unfold State.handStep
  split
  · exact State.slideStep_plain
  · exact State.slideStep_plain
  · exact State.jackStep_plain
  · exact .nil
  · exact .nil

theorem State.pulse_acts : Acts s (s.pulse n).1 := by
  unfold State.pulse State.drivenPulse
  dsimp only
  split
  · split
    · split
      · refine Acts.trans ?_ State.channelFault_acts
        exact Acts.setPace.trans .mirrorTally
      · exact Acts.setPace.trans .mirrorTally
    · exact Acts.setPace.trans State.handStep_acts
  · split
    · split
      · exact State.handStep_acts
      · exact .refl s
    · exact .refl s

theorem State.pulse_plain : Plain (s.pulse n).2 := by
  unfold State.pulse State.drivenPulse
  dsimp only
  split
  · split
    · split
      · exact State.channelFault_plain
      · exact .nil
    · exact State.handStep_plain
  · split
    · split
      · exact State.handStep_plain
      · exact .nil
    · exact .nil

theorem State.handStall_acts : Acts s (s.handStall n).1 := by
  unfold State.handStall
  split
  · exact State.slideStall_acts
  · exact State.slideStall_acts
  · exact State.jackStall_acts
  · exact .refl s
  · exact .refl s

theorem State.handStall_plain : Plain (s.handStall n).2 := by
  unfold State.handStall
  split
  · exact State.slideStall_plain
  · exact State.slideStall_plain
  · exact State.jackStall_plain
  · exact .nil
  · exact .nil

theorem State.homeEvent_acts {closed : Bool} : Acts s (s.homeEvent n closed).1 := by
  unfold State.homeEvent
  split
  · exact State.slideHomeClosed_acts
  · exact State.slideHomeOpened_acts
  · exact State.slideHomeClosed_acts
  · exact State.slideHomeOpened_acts
  · exact State.jackHomeClosed_acts
  · exact .refl s
  · exact .refl s
  · exact .refl s

theorem State.homeEvent_plain {closed : Bool} : Plain (s.homeEvent n closed).2 := by
  unfold State.homeEvent
  split
  · exact State.slideHomeClosed_plain
  · exact .nil
  · exact State.slideHomeClosed_plain
  · exact .nil
  · exact State.jackHomeClosed_plain
  · exact .nil
  · exact .nil
  · exact .nil

/-- A drive start of a SEATED channel, whatever it belongs to. -/
theorem State.driveStart_acts (seat : (s.chan n).census = .seated) : Acts s (s.driveStart n d) := by
  unfold State.driveStart
  have started : Acts s (s.setChan n ((s.chan n).driveStarted (s.kindParams n) d s.now)) :=
    .setChan rfl fun _ => .inr seat
  have mirrored := started.trans (Acts.setPace (n := n) (r := clearedPace)) |>.trans (.mirrorTally (n := n))
  dsimp only
  split
  · exact mirrored.trans (.jackSet _)
  · exact mirrored

theorem State.startedLate_acts : Acts s (s.startedLate n).1 := by
  unfold State.startedLate
  split
  · exact .of_controls (State.motorStarted_controls.trans State.retrim_controls)
  · exact .of_controls State.motorStarted_controls
  · exact .of_controls State.pumpFollow_controls
  · exact .refl s
  · exact .refl s

theorem State.startedLate_plain : Plain (s.startedLate n).2 := by
  unfold State.startedLate
  split
  · exact State.motorStarted_plain
  · exact State.motorStarted_plain
  · exact .nil
  · exact .nil
  · exact .nil

theorem State.retrimOf_acts : Acts s (s.retrimOf n) := by
  unfold State.retrimOf
  split
  · exact .of_controls State.retrim_controls
  · exact .refl s

theorem State.activeFault_plain {f : FaultCode} : Plain (s.activeFault f).2 := jackEnding_plain (by simp)

/-! ### Events -/

/-- An event does what its handler does, and what is left to do. -/
theorem State.event_acts {f : State → Work} (a : Acts s (f s).1) (p : Plain (f s).2) : Acts s (s.event f) :=
  a.trans (.of_does (State.event_does (F := fun _ => False) p) (drain_timed (w := s.handing f)))

theorem State.change_acts {f : State → State} (a : Acts s (f s)) : Acts s (s.change f) :=
  State.event_acts a .nil

/-- Endings in whatever way, with what they leave to do. -/
theorem drain_acts {k : Nat} {l : List Task} (p : Plain l) : Acts s (drain k (s, l)) :=
  .of_does (drain_does (F := fun _ => False) p) (drain_timed (w := (s, l)))

end

end Sys2Proof.Machine
end

section
/-! PROOFS. What the budget, STOP and the wind watch can do to the whole block, and the orderliness of the block that every
step keeps: canonical buffers, held units, a free claim table in a store write, empty lists off the road state PARKED, the
limits of the ports, the limits of the counts, and no drive start but of a SEATED channel. -/

namespace Sys2Proof.Machine

section
variable {F : Group → Prop} {g : Group} {s t u : State} {n : Chan}

/-! ### Lists of entries -/

/-- New lists whose entries are motions of old entries, with no units beyond the budget. -/
theorem Acts.lists {l p : List Entry} (units : s.heldUnits ≤ s.budget → unitsOf l ≤ s.budget)
    (idle : s.load = [] → s.paused = [] → l = [] ∧ p = []) : Acts s { s.setLoad l with paused := p } where
  fixed := rfl
  links _ := rfl
  census _ := rfl
  seated _ h := .inl h
  counts _ _ h := h
  strokes _ h := h
  free _ h := h
  budget := units
  idle h := ⟨(idle h.1 h.2.1).1, (idle h.1 h.2.1).2, h.2.2⟩
  timed := (Timed.setLoad l).trans (.of_same rfl rfl)

/-- A change of the claim table that makes no claim. -/
theorem Acts.claims {table : Vector (Option Claim) 6} (h : ∀ g, s.claim g = none → table[groupIndex g] = none) :
    Acts s { s with claims := table } where
  fixed := rfl
  links _ := rfl
  census _ := rfl
  seated _ h := .inl h
  counts _ _ h := h
  strokes _ h := h
  free := h
  budget h := h
  idle h := h
  timed := .of_same rfl rfl

theorem Acts.setClaim_none : Acts s (s.setClaim g none) :=
  .claims fun h free => by
    have c := s.claim_setClaim g h none
    split at c
    · exact c
    · exact c.trans free

theorem Acts.setClaim_some {b c : Claim} (h : s.claim g = some b) : Acts s (s.setClaim g (some c)) :=
  .claims fun k free => by
    have e := s.claim_setClaim g k (some c)
    rw [if_neg fun same => by subst same; simp [h] at free] at e
    exact e.trans free

/-- A change of the plan record that starts no plan. -/
theorem Acts.plan {p : Plan} (h : s.plan.status ≠ .running → p.status ≠ .running) : Acts s { s with plan := p } where
  fixed := rfl
  links _ := rfl
  census _ := rfl
  seated _ h := .inl h
  counts _ _ h := h
  strokes _ h := h
  free _ h := h
  budget h := h
  idle k := ⟨k.1, k.2.1, h k.2.2⟩
  timed := .of_same rfl rfl

/-! ### Shedding -/

theorem State.controllerShed_acts : Acts s (s.controllerShed g) := by
  unfold State.controllerShed
  split
  · exact .of_controls State.slideShed_controls
  · exact .refl s

/-- Stops and the controller's part of shedding leave the lists. -/
theorem State.lists_stopped (e : Entry) :
    ((forEach (s.motionChans e) (fun n t => t.stopChan n) s).controllerShed e.group).load = s.load ∧
    ((forEach (s.motionChans e) (fun n t => t.stopChan n) s).controllerShed e.group).paused = s.paused := by
  have stops (l : List Chan) (t : State) : (forEach l (fun n t => t.stopChan n) t).load = t.load ∧
      (forEach l (fun n t => t.stopChan n) t).paused = t.paused := by
    induction l generalizing t with
    | nil => exact ⟨rfl, rfl⟩
    | cons n rest ih =>
      have one : (t.stopChan n).load = t.load ∧ (t.stopChan n).paused = t.paused := by
        unfold State.stopChan
        split <;> exact ⟨rfl, rfl⟩
      exact ⟨(ih _).1.trans one.1, (ih _).2.trans one.2⟩
  obtain ⟨load, paused⟩ := stops (s.motionChans e) s
  generalize forEach (s.motionChans e) (fun n t => t.stopChan n) s = s1 at load paused ⊢
  unfold State.controllerShed
  split
  · rename_i id _
    have outer := (State.slideShed_controls (s := s1) (id := id)).outer
    have l := congrArg State.load outer
    have p := congrArg State.paused outer
    exact ⟨Eq.trans l load, Eq.trans p paused⟩
  · exact ⟨load, paused⟩

theorem State.load_shed {e : Entry} : (s.shed e).load = s.load.filter fun x => x != e := by
  have h := (s.lists_stopped e).1
  unfold State.shed
  dsimp only [State.enterPause]
  rw [h]
  rfl

theorem State.shed_acts {e : Entry} (h : e ∈ s.load) : Acts s (s.shed e) := by
  obtain ⟨load, -⟩ := s.lists_stopped e
  have both : Acts s ((forEach (s.motionChans e) (fun n t => t.stopChan n) s).controllerShed e.group) :=
    Acts.trans (.forEach (fun _ _ => .stopChan) s) State.controllerShed_acts
  unfold State.shed
  dsimp only
  generalize (forEach (s.motionChans e) (fun n t => t.stopChan n) s).controllerShed e.group = s1 at both load ⊢
  refine both.trans (.lists (fun b => Nat.le_trans (unitsOf_filter _ _) b) fun empty _ => ?_)
  simp [← load, empty] at h

theorem shedNext_mem {l : List Entry} {e : Entry} (h : shedNext l = some e) : e ∈ l := by
  unfold shedNext at h
  split at h
  · rename_i x last
    obtain rfl := Option.some.inj h
    exact List.mem_of_mem_filter (List.mem_of_getLast? last)
  · exact List.mem_of_getLast? h

theorem shedNext_none {l : List Entry} (h : shedNext l = none) : l = [] := by
  unfold shedNext at h
  split at h
  · simp at h
  · exact List.getLast?_eq_none_iff.mp h

/-- Shedding leaves the load list within the limit. -/
theorem State.shedDown_units {fuel limit : Nat} (h : s.load.length ≤ fuel) :
    (State.shedDown fuel limit s).heldUnits ≤ limit ∧ Acts s (State.shedDown fuel limit s) := by
  induction fuel generalizing s with
  | zero =>
    have none : s.load = [] := List.length_eq_zero_iff.mp (Nat.le_zero.mp h)
    exact ⟨by simp [State.shedDown, State.heldUnits, none, unitsOf], .refl s⟩
  | succ fuel ih =>
    unfold State.shedDown
    split
    · rename_i fits
      exact ⟨fits, .refl s⟩
    · rename_i above
      split
      · rename_i e next
        have mem := shedNext_mem next
        have acts := State.shed_acts mem
        have shorter : (s.shed e).load.length < s.load.length := by
          rw [State.load_shed]
          exact List.length_filter_lt_length_iff_exists.mpr ⟨e, mem, by simp⟩
        obtain ⟨units, rest⟩ := ih (s := s.shed e) (by omega)
        exact ⟨units, acts.trans rest⟩
      · rename_i next
        simp [State.heldUnits, shedNext_none next, unitsOf] at above

theorem State.shedTo_acts {limit : Nat} : Acts s (s.shedTo limit) := (State.shedDown_units (Nat.le_refl _)).2

theorem State.shedTo_units {limit : Nat} : (s.shedTo limit).heldUnits ≤ limit := (State.shedDown_units (Nat.le_refl _)).1

/-! ### STOP -/

theorem State.lists_countFault : s.countFault.load = s.load ∧ s.countFault.paused = s.paused := by
  unfold State.countFault State.buzzKick
  split <;> exact ⟨rfl, rfl⟩

theorem State.lists_endNotices {e : Ending} :
    (s.endNotices e).load = s.load ∧ (s.endNotices e).paused = s.paused := by
  have counted := ((s.raise .motionEnd).raise .fault).lists_countFault
  unfold State.endNotices
  dsimp only
  split <;> split
  · exact counted
  · exact ⟨rfl, rfl⟩
  · exact counted
  · exact ⟨rfl, rfl⟩

theorem State.lists_endClaim {c : ClaimEffect} : (s.endClaim g c).load = s.load ∧ (s.endClaim g c).paused = s.paused := by
  unfold State.endClaim
  split
  · split <;> exact ⟨rfl, rfl⟩
  · exact ⟨rfl, rfl⟩
  · exact ⟨rfl, rfl⟩

/-- The entries of a group leave both lists with its motion. -/
theorem State.lists_motionEnd {e : Ending} :
    (s.motionEnd g e).1.load = s.load.filter (fun x => x.group != g) ∧
    (s.motionEnd g e).1.paused = s.paused.filter fun x => x.group != g := by
  unfold State.motionEnd
  split
  · rename_i none
    have absent : ∀ x ∈ s.load ++ s.paused, (x.group != g) = true := by
      simpa [State.entryOf, List.find?_eq_none, or_imp, forall_and] using none
    exact ⟨(List.filter_eq_self.mpr fun x h => absent x (List.mem_append_left _ h)).symm,
      (List.filter_eq_self.mpr fun x h => absent x (List.mem_append_right _ h)).symm⟩
  · rename_i m _
    have outer := (State.controllerEnd_controls (s := s) (g := g) (a := m.action) (e := e)).outer
    have load : (s.controllerEnd g m.action e).load = s.load := by have l := congrArg State.load outer; exact l
    have paused : (s.controllerEnd g m.action e).paused = s.paused := by have p := congrArg State.paused outer; exact p
    simp only [State.load_removeEntry, State.paused_removeEntry, State.lists_endClaim, State.lists_endNotices, load, paused]
    exact ⟨trivial, trivial⟩

theorem State.motionEnd_acts {e : Ending} : Acts s (s.motionEnd g e).1 :=
  .of_does (State.motionEnd_does (F := fun _ => True) fun _ => trivial) State.motionEnd_timed

/-- Endings of the motions of some groups take the entries of these groups out of both lists, and no others. -/
theorem forEach_motionEnd (groups : List Group) (o : MotionOutcome) :
    (forEach groups (fun g t => (t.motionEnd g { outcome := o, claim := .keep }).1) s).load =
      s.load.filter (fun x => !groups.contains x.group) ∧
    (forEach groups (fun g t => (t.motionEnd g { outcome := o, claim := .keep }).1) s).paused =
      s.paused.filter fun x => !groups.contains x.group := by
  induction groups generalizing s with
  | nil => exact ⟨by simp [forEach], by simp [forEach]⟩
  | cons g rest ih =>
    have drop (l : List Entry) : (l.filter fun x => x.group != g).filter (fun x => !rest.contains x.group) =
        l.filter fun x => !(g :: rest).contains x.group := by
      rw [List.filter_filter]
      refine List.filter_congr fun x _ => ?_
      rw [List.contains_cons, Bool.not_or, Bool.and_comm]
      rfl
    obtain ⟨load, paused⟩ := ih (s := (s.motionEnd g { outcome := o, claim := .keep }).1)
    rw [State.lists_motionEnd.1, drop] at load
    rw [State.lists_motionEnd.2, drop] at paused
    exact ⟨load, paused⟩

theorem State.endAllMotions_acts {o : MotionOutcome} : Acts s (s.endAllMotions o) :=
  .forEach (fun _ _ => State.motionEnd_acts) s

theorem State.lists_endAllMotions {o : MotionOutcome} : (s.endAllMotions o).load = [] ∧ (s.endAllMotions o).paused = [] := by
  obtain ⟨load, paused⟩ := forEach_motionEnd (s := s) ((s.paused ++ s.load).map fun e => e.group) o
  refine ⟨load.trans (List.filter_eq_nil_iff.mpr fun x h => ?_), paused.trans (List.filter_eq_nil_iff.mpr fun x h => ?_)⟩
  · simp only [List.contains_iff_mem, Bool.not_eq_true', Bool.not_eq_false, List.mem_map, List.mem_append]
    exact ⟨x, .inr h, rfl⟩
  · simp only [List.contains_iff_mem, Bool.not_eq_true', Bool.not_eq_false, List.mem_map, List.mem_append]
    exact ⟨x, .inl h, rfl⟩

/-- STOP and the change to ROAD leave both lists empty and no plan RUNNING. -/
theorem State.stopAll_acts {o : MotionOutcome} : Acts s (s.stopAll o) ∧ (s.stopAll o).idle := by
  have ended : Acts s (s.endAllMotions o) := State.endAllMotions_acts
  obtain ⟨load, paused⟩ := s.lists_endAllMotions (o := o)
  unfold State.stopAll
  dsimp only
  generalize s.endAllMotions o = s1 at ended load paused ⊢
  have stopped : Acts s1 (if s1.planRunning = true then
        ({ s1 with plan := { s1.plan with status := .stopped } } : State).raise .plan else s1) ∧
      (if s1.planRunning = true then ({ s1 with plan := { s1.plan with status := .stopped } } : State).raise .plan
        else s1).idle := by
    split
    · exact ⟨(Acts.plan fun _ => by simp).trans (.raise _), load, paused, by simp [State.raise]⟩
    · rename_i rests
      exact ⟨.refl s1, load, paused, by simpa [State.planRunning] using rests⟩
  obtain ⟨acts, idle⟩ := stopped
  exact ⟨(ended.trans acts).trans (.claims fun g _ => by simp), idle⟩

end

end Sys2Proof.Machine
end

section
/-! PROOFS. The orderliness of the block that every step keeps: canonical buffers, held units within the budget, a free claim
table in a store write, empty lists off the road state PARKED, the limits of the ports, the limits of the counts, and no drive
start but of a SEATED channel. -/

namespace Sys2Proof.Machine

/-- The two buffers are canonical (log 7). -/
def State.buffersCanonical (s : State) : Prop := s.staging.wf = true ∧ ∀ m, s.stored = .record m → m.wf = true

/-- The claim table is free in a store write (R181). -/
def State.writeFindsNoClaim (s : State) : Prop := s.write.isSome → ∀ g, s.claim g = none

/-- The lists are empty and no plan runs while the road state is not PARKED (R123). -/
def State.idleOffPark (s : State) : Prop := s.road ≠ .parked → s.idle

/-- A port record within its limits (R163, R165). -/
def PortRec.bounded (r : PortRec) : Prop := r.replies.length ≤ 4 ∧ r.linkErrors ≤ 255

/-- The known counts of the configured motors lie within the travel limits (R41, R95). -/
def State.countsWithin (s : State) : Prop :=
  ∀ id, s.configured id.group = true → ∀ m ∈ s.motors id, within (s.travelLimit id) (s.motor id m).count

/-- The known counts of the configured jacks lie within their ceilings (R64). -/
def State.strokesWithin (s : State) : Prop := ∀ j ∈ s.configuredJacks, within (s.countCeiling j) (s.jack j).count

/-- What every command keeps. -/
structure Keeps (s t : State) : Prop where
  buffers : s.buffersCanonical → t.buffersCanonical
  budget : s.heldUnits ≤ s.budget → t.heldUnits ≤ t.budget
  writes : s.writeFindsNoClaim → t.writeFindsNoClaim
  road : s.idleOffPark → t.idleOffPark
  ports : (∀ p, (s.port p).bounded) → ∀ p, (t.port p).bounded
  seated : ∀ n, (t.chan n).driven = true → (s.chan n).driven = true ∨ (t.chan n).census = .seated
  period : Timed s t

/-- What every command but the end of a reset keeps: the counts too. -/
structure Orderly (s t : State) : Prop extends Keeps s t where
  counts : s.countsWithin → t.countsWithin
  strokes : s.strokesWithin → t.strokesWithin

/-- The part of the state that the laws of order speak of, but for the channels and the axes. -/
def State.gist (s : State) : State :=
  { State.reset with
    staging := s.staging, stored := s.stored, supply := s.supply, write := s.write, claims := s.claims, load := s.load
    park := { samples := [], accepted := s.park.accepted }, motionPeriod := s.motionPeriod, paused := s.paused, plan := s.plan, ports := s.ports
    layout := s.layout }

section
variable {F : Group → Prop} {g : Group} {s t u : State} {n : Chan} {p : Port}

theorem State.roleChan_layout (h : t.layout = s.layout) (r : Role) : t.roleChan r = s.roleChan r := by
  simp only [State.roleChan, State.role, h]

theorem State.configuredJacks_layout (h : t.layout = s.layout) : t.configuredJacks = s.configuredJacks := by
  simp only [State.configuredJacks, State.jackConfigured, State.roleChan_layout h]

theorem State.configured_layout (h : t.layout = s.layout) (g : Group) : t.configured g = s.configured g := by
  cases g
  · simp only [State.configured, State.roleChan_layout h]
  · unfold State.configured State.jackCount
    rw [State.configuredJacks_layout h]
  · simp only [State.configured, State.roleChan_layout h]

theorem State.motorChan_layout (h : t.layout = s.layout) (id : Slider) (m : Motor) : t.motorChan id m = s.motorChan id m := by
  cases id <;> cases m <;> simp only [State.motorChan, State.roleChan_layout h]

theorem State.motors_layout (h : t.layout = s.layout) (id : Slider) : t.motors id = s.motors id := by
  unfold State.motors
  rw [State.motorChan_layout h]

theorem State.travelLimit_layout (h : t.layout = s.layout) (id : Slider) : t.travelLimit id = s.travelLimit id := by
  cases id <;> simp [State.travelLimit, State.travel, State.endWindow, h]

theorem State.countCeiling_layout (h : t.layout = s.layout) (j : JackId) : t.countCeiling j = s.countCeiling j := by
  unfold State.countCeiling State.jackParams
  rw [h]

/-- Under one layout the limits of the counts are kept where each count is. -/
theorem State.countsWithin_layout (l : t.layout = s.layout)
    (h : ∀ id m, within (s.travelLimit id) (s.motor id m).count → within (s.travelLimit id) (t.motor id m).count)
    (c : s.countsWithin) : t.countsWithin := by
  intro id conf m mem
  rw [State.configured_layout l] at conf
  rw [State.motors_layout l] at mem
  rw [State.travelLimit_layout l]
  exact h id m (c id conf m mem)

theorem State.strokesWithin_layout (l : t.layout = s.layout)
    (h : ∀ j, within (s.countCeiling j) (s.jack j).count → within (s.countCeiling j) (t.jack j).count)
    (c : s.strokesWithin) : t.strokesWithin := by
  intro j conf
  rw [State.configuredJacks_layout l] at conf
  rw [State.countCeiling_layout l]
  exact h j (c j conf)

theorem PortRec.bounded_congr {a b : PortRec} (h : b.link = a.link) (k : a.bounded) : b.bounded := by
  have replies : b.replies = a.replies := by have e := congrArg PortRec.replies h; exact e
  have errors : b.linkErrors = a.linkErrors := by have e := congrArg PortRec.linkErrors h; exact e
  unfold PortRec.bounded
  rwa [replies, errors]

theorem Keeps.refl (s : State) : Keeps s s where
  buffers h := h
  budget h := h
  writes h := h
  road h := h
  ports h := h
  seated _ h := .inl h
  period := .refl s

/-- Two works in succession: one of them must leave the census states, or the drives, as they are. -/
theorem Keeps.trans (a : Keeps s t) (b : Keeps t u)
    (h : (∀ n, (u.chan n).census = (t.chan n).census) ∨ ∀ n, (t.chan n).driven = true → (s.chan n).driven = true) :
    Keeps s u where
  buffers k := b.buffers (a.buffers k)
  budget k := b.budget (a.budget k)
  writes k := b.writes (a.writes k)
  road k := b.road (a.road k)
  ports k := b.ports (a.ports k)
  seated n k := by
    rcases b.seated n k with d | d
    · rcases h with same | kept
      · exact (a.seated n d).imp id fun e => (same n).trans e
      · exact .inl (kept n d)
    · exact .inr d
  period := a.period.trans b.period

namespace Orderly

theorem refl (s : State) : Orderly s s where
  toKeeps := .refl s
  counts h := h
  strokes h := h

theorem trans (a : Orderly s t) (b : Orderly t u)
    (h : (∀ n, (u.chan n).census = (t.chan n).census) ∨ ∀ n, (t.chan n).driven = true → (s.chan n).driven = true) :
    Orderly s u where
  toKeeps := a.toKeeps.trans b.toKeeps h
  counts k := b.counts (a.counts k)
  strokes k := b.strokes (a.strokes k)

/-- What an event's handlers do is orderly. -/
theorem of_acts (a : Acts s t) : Orderly s t where
  buffers h := by
    have staging : t.staging = s.staging := by have e := congrArg State.staging a.fixed; exact e
    have stored : t.stored = s.stored := by have e := congrArg State.stored a.fixed; exact e
    simpa only [State.buffersCanonical, staging, stored] using h
  budget := a.budget
  writes h := by
    have write : t.write = s.write := by have e := congrArg State.write a.fixed; exact e
    intro w g
    exact a.free g (h (write ▸ w) g)
  road h := by
    have park : t.park = s.park := by have e := congrArg State.park a.fixed; exact e
    intro r
    refine a.idle (h ?_)
    simpa only [State.road, park] using r
  ports h p := PortRec.bounded_congr (a.links p) (h p)
  seated n h := (a.seated n h).imp id fun c => (a.census n).trans c
  period := a.timed
  counts := State.countsWithin_layout a.layout a.counts
  strokes := State.strokesWithin_layout a.layout a.strokes

/-- A motion's placing, at road state PARKED. -/
theorem of_follows (a : Follows F s t) (timed : Timed s t) (parked : s.road = .parked) : Orderly s t where
  buffers h := by
    have staging : t.staging = s.staging := by have e := congrArg State.staging a.fixed; exact e
    have stored : t.stored = s.stored := by have e := congrArg State.stored a.fixed; exact e
    simpa only [State.buffersCanonical, staging, stored] using h
  budget := a.budget
  writes h := by
    have write : t.write = s.write := by have e := congrArg State.write a.fixed; exact e
    intro w g
    exact a.free g (h (write ▸ w) g)
  road _ r := absurd (a.road.trans parked) r
  ports h p := PortRec.bounded_congr (a.links p) (h p)
  seated n h := (a.seated n h).imp id fun c => (Acts.census_of_reading (a.readings n)).trans c
  period := timed
  counts := State.countsWithin_layout a.layout fun id m => Acts.within_of_countKept (a.counts id m)
  strokes := State.strokesWithin_layout a.layout fun j h => by rwa [Acts.count_of_reading (a.jackReading j)]

/-- A change outside the part that the laws of order speak of. -/
theorem of_gist (h : t.gist = s.gist) (drives : ∀ n, (t.chan n).driven = true → (s.chan n).driven = true)
    (counts : ∀ id m, (t.motor id m).count = (s.motor id m).count) (strokes : ∀ j, (t.jack j).count = (s.jack j).count) :
    Orderly s t := by
  have staging : t.staging = s.staging := by have e := congrArg State.staging h; exact e
  have stored : t.stored = s.stored := by have e := congrArg State.stored h; exact e
  have supply : t.supply = s.supply := by have e := congrArg State.supply h; exact e
  have write : t.write = s.write := by have e := congrArg State.write h; exact e
  have claims : t.claims = s.claims := by have e := congrArg State.claims h; exact e
  have load : t.load = s.load := by have e := congrArg State.load h; exact e
  have paused : t.paused = s.paused := by have e := congrArg State.paused h; exact e
  have plan : t.plan = s.plan := by have e := congrArg State.plan h; exact e
  have ports : t.ports = s.ports := by have e := congrArg State.ports h; exact e
  have layout : t.layout = s.layout := by have e := congrArg State.layout h; exact e
  have period : t.motionPeriod = s.motionPeriod := by have e := congrArg State.motionPeriod h; exact e
  have park : t.park.accepted = s.park.accepted := by have e := congrArg (fun v => v.park.accepted) h; exact e
  exact
    { buffers := fun k => by simpa only [State.buffersCanonical, staging, stored] using k
      budget := fun k => by simpa only [State.heldUnits, State.budget, supply, load] using k
      writes := fun k => by simpa only [State.writeFindsNoClaim, State.claim, write, claims] using k
      road := fun k => by simpa only [State.idleOffPark, State.idle, State.road, park, load, paused, plan] using k
      ports := fun k => by simpa only [State.port, ports] using k
      seated := fun n k => .inl (drives n k)
      period := .of_same load period
      counts := State.countsWithin_layout layout fun id m k => by rwa [counts]
      strokes := State.strokesWithin_layout layout fun j k => by rwa [strokes] }

/-- A change outside that part, the channels and the axes. -/
theorem of_parts (h : t.gist = s.gist) (channels : t.channels = s.channels) (rooms : t.rooms = s.rooms)
    (awning : t.awning = s.awning) (jacks : t.jacks = s.jacks) : Orderly s t := by
  refine .of_gist h (fun n k => by simpa only [State.chan, channels] using k) (fun id m => ?_) fun j => ?_
  · cases id <;> simp only [State.motor, State.slider, rooms, awning]
  · simp only [State.jack, jacks]

/-- A claim may be made while no store write is in flight. -/
theorem setClaim {c : Option Claim} (h : s.write = none) : Orderly s (s.setClaim g c) where
  buffers k := k
  budget k := k
  writes _ w := absurd w (by rw [show (s.setClaim g c).write = s.write from rfl, h]; simp)
  road k := k
  ports k := k
  seated _ k := .inl k
  period := .of_same rfl rfl
  counts k := k
  strokes k := k

theorem setPort {r : PortRec} (h : (s.port p).bounded → r.bounded) : Orderly s (s.setPort p r) where
  buffers k := k
  budget k := k
  writes k := k
  road k := k
  ports k q := by
    rw [State.port_setPort]
    split
    · exact h (k p)
    · exact k q
  seated _ k := .inl k
  period := .of_same rfl rfl
  counts k := k
  strokes k := k

/-- A change of the layout store and of its buffers, but for the layout. -/
theorem store {staging : Image} {stored : Stored} {write : Option Time}
    (b : s.buffersCanonical → staging.wf = true ∧ ∀ m, stored = .record m → m.wf = true)
    (w : s.writeFindsNoClaim → write.isSome → ∀ g, s.claim g = none) :
    Orderly s { s with staging := staging, stored := stored, write := write } where
  buffers := b
  budget k := k
  writes := w
  road k := k
  ports k := k
  seated _ k := .inl k
  period := .of_same rfl rfl
  counts k := k
  strokes k := k

end Orderly

/-! ### Events -/

/-- An event whose handler is orderly and leaves plain work is orderly. -/
theorem State.event_orderly {f : State → Work} (a : Orderly s (f s).1) (p : Plain (f s).2) : Orderly s (s.event f) :=
  have rest : Acts (f s).1 (s.event f) :=
    .of_does (State.event_does (F := fun _ => False) p) (drain_timed (w := s.handing f))
  a.trans (.of_acts rest) (.inl rest.census)

theorem State.change_orderly {f : State → State} (a : Orderly s (f s)) : Orderly s (s.change f) :=
  State.event_orderly a .nil

theorem Orderly.then_acts (a : Orderly s t) (b : Acts t u) : Orderly s u := a.trans (.of_acts b) (.inl b.census)

theorem drain_orderly {k : Nat} {l : List Task} (a : Orderly s t) (p : Plain l) : Orderly s (drain k (t, l)) :=
  a.then_acts (drain_acts p)

/-! ### The clock -/

/-- Of a slider's record the clock drives the run time alone. -/
theorem State.slider_elapse (s : State) (span : Time) (id : Slider) :
    ∃ r, (s.elapse span).slider id = { s.slider id with runTime := r } := by
  cases id with
  | room k => exact ⟨_, s.rooms_elapse span k⟩
  | awning => exact ⟨_, s.awning_elapse span⟩

theorem State.motor_elapse (s : State) (span : Time) (id : Slider) (m : Motor) :
    (s.elapse span).motor id m = s.motor id m := by
  obtain ⟨r, slider⟩ := s.slider_elapse span id
  unfold State.motor
  rw [slider]
  cases m <;> rfl

@[simp] theorem State.motionPeriod_elapse (s : State) (span : Time) : (s.elapse span).motionPeriod = s.motionPeriod := by
  rw [State.elapse_eq]

theorem State.elapse_orderly (s : State) (span : Time) : Orderly s (s.elapse span) :=
  .of_gist (by simp [State.gist]) (fun n h => by simpa using h) (fun id m => by rw [s.motor_elapse])
    fun j => by simp [State.jack]

theorem State.advanceTo_orderly (s : State) (t : Time) : Orderly s (s.advanceTo t) := by
  unfold State.advanceTo
  split
  · exact s.elapse_orderly _
  · exact .refl s

theorem State.advanceRun_orderly (s : State) (t limit : Time) : Orderly s (s.advanceRun t limit) := by
  unfold State.advanceRun
  split
  · exact s.elapse_orderly _
  · exact .refl s

theorem State.advanceCounter_orderly (s : State) (n : Chan) (value : Nat) : Orderly s (s.advanceCounter n value) := by
  unfold State.advanceCounter
  dsimp only
  split
  · exact s.advanceTo_orderly _
  · exact .refl s

end

end Sys2Proof.Machine
end

section
/-! PROOFS. Every command is orderly: the events of channels, axes, wind, supply and claims. -/

namespace Sys2Proof.Machine

section
variable {F : Group → Prop} {g : Group} {s t u : State} {n : Chan} {p : Port} {id : Slider} {m : Motor} {d : Dir} {j : JackId}

/-! ### Lines -/

theorem State.setLine_orderly {l : Line} {x : DiscreteLine} (h : l = .park → x.accepted = s.park.accepted) :
    Orderly s (s.setLine x l) := by
  refine .of_gist ?_ (fun n k => by simpa using k) (fun id m => by simp) fun j => by simp
  cases l with
  | park => simp [State.setLine, State.gist, h]
  | _ => rfl

theorem State.accept_orderly {l : Line} {level : Bool} (h : l ≠ .park) : Orderly s (s.accept l level) :=
  State.setLine_orderly fun e => absurd e h

/-- The line PARK may also take its first level: the lists are empty before it (R123). -/
theorem State.accept_park_orderly {level : Bool} (h : s.park.accepted = none ∨ level = true) :
    Orderly s (s.accept .park level) where
  buffers k := k
  budget k := k
  writes k := k
  road k r := by
    rcases h with none | rfl
    · exact k (by simp [State.road, none])
    · simp [State.road, State.accept, State.setLine] at r
  ports k := k
  seated _ k := .inl k
  period := .of_same rfl rfl
  counts k := k
  strokes k := k

theorem State.homeChanged_orderly {closed : Bool} : Orderly s (s.homeChanged n closed) := by
  unfold State.homeChanged
  split
  · exact State.event_orderly ((State.accept_orderly (by simp)).then_acts State.homeEvent_acts) State.homeEvent_plain
  · exact .refl s

theorem State.homeOf_orderly {r : Role} {closed : Bool} : Orderly s (s.homeOf r closed) := by
  unfold State.homeOf
  split
  · exact State.homeChanged_orderly
  · exact .refl s

/-- One line takes its first level: what it leaves to do is plain, and the census states stand. -/
theorem State.firstLevel_orderly {w : Work} {x : Line × Bool} (p : Plain w.2) :
    Orderly w.1 (State.firstLevel w x).1 ∧ Plain (State.firstLevel w x).2 ∧
      ∀ n, ((State.firstLevel w x).1.chan n).census = (w.1.chan n).census := by
  obtain ⟨l, level⟩ := x
  unfold State.firstLevel
  dsimp only
  split
  · rename_i first
    simp only [Bool.and_eq_true, Option.isNone_iff_eq_none] at first
    have taken : Orderly w.1 (w.1.accept l level) := by
      by_cases h : l = .park
      · subst h
        exact State.accept_park_orderly (.inl first.2)
      · exact State.accept_orderly h
    have census : ∀ n, ((w.1.accept l level).chan n).census = (w.1.chan n).census := fun n => by
      simp [State.accept]
    split
    · exact ⟨taken.then_acts State.homeEvent_acts, p.append State.homeEvent_plain,
        fun n => (State.homeEvent_acts.census n).trans (census n)⟩
    · exact ⟨taken, p, census⟩
  · exact ⟨.refl w.1, p, fun _ => rfl⟩

theorem firstLevels_orderly {l : List (Line × Bool)} {w : Work} (p : Plain w.2) :
    Orderly w.1 (l.foldl State.firstLevel w).1 ∧ Plain (l.foldl State.firstLevel w).2 := by
  induction l generalizing w with
  | nil => exact ⟨.refl w.1, p⟩
  | cons x rest ih =>
    obtain ⟨one, plain, -⟩ := State.firstLevel_orderly (x := x) p
    obtain ⟨all, left⟩ := ih plain
    have census : ∀ (r : List (Line × Bool)) (v : Work), Plain v.2 →
        ∀ n, ((r.foldl State.firstLevel v).1.chan n).census = (v.1.chan n).census := by
      intro r
      induction r with
      | nil => exact fun _ _ _ => rfl
      | cons y r ih =>
        intro v q n
        obtain ⟨-, plain, census⟩ := State.firstLevel_orderly (x := y) q
        exact (ih _ plain n).trans (census n)
    exact ⟨one.trans all (.inl (census rest _ plain)), left⟩

theorem State.evalAlarm_acts : Acts s s.evalAlarm := .of_does (Does.evalAlarm (F := fun _ => False)) State.evalAlarm_timed

theorem State.initialLevels_orderly {l : List (Line × Bool)} : Orderly s (s.initialLevels l) := by
  unfold State.initialLevels
  refine State.event_orderly ?_ ?_
  · dsimp only
    split
    · exact (firstLevels_orderly (w := (s, [])) .nil).1.then_acts State.evalAlarm_acts
    · exact (firstLevels_orderly (w := (s, [])) .nil).1
  · dsimp only
    split <;> exact (firstLevels_orderly (w := (s, [])) .nil).2

theorem State.parkHigh_orderly : Orderly s s.parkHigh :=
  (State.accept_park_orderly (.inr rfl)).then_acts State.evalAlarm_acts

/-- The change to ROAD: whatever the lists held, they are empty then. -/
theorem State.parkLow_orderly : Orderly s s.parkLow := by
  unfold State.parkLow State.roadBegins
  obtain ⟨stops, idle⟩ := State.stopAll_acts (s := s.accept .park false) (o := .road)
  have acts : Acts (s.accept .park false) ((s.accept .park false).stopAll .road).evalAlarm :=
    stops.trans State.evalAlarm_acts
  have ended := Orderly.of_acts acts
  exact
    { buffers := ended.buffers, budget := ended.budget, writes := ended.writes, ports := ended.ports
      seated := ended.seated, period := ended.period, counts := ended.counts, strokes := ended.strokes
      road := fun _ _ => State.evalAlarm_acts.idle idle }

/-! ### The census -/

/-- A channel's record may change in what it holds of its plug: a channel that is driven stays so. -/
theorem Orderly.setChan {c : Channel} (h : c.driven = true → (s.chan n).driven = true) : Orderly s (s.setChan n c) := by
  refine .of_gist rfl (fun k d => ?_) (fun id m => by simp) fun j => by simp
  rw [State.chan_setChan] at d
  split at d
  · rename_i e
    exact e ▸ h d
  · exact d

theorem State.confirmRead_orderly {r : Levels} :
    Orderly s (s.confirmRead n r).1 ∧ Plain (s.confirmRead n r).2 := by
  unfold State.confirmRead
  dsimp only
  have taken : Orderly s (s.setChan n ((s.chan n).confirmed (s.role n) r)) := .setChan id
  generalize s.setChan n ((s.chan n).confirmed (s.role n) r) = s1 at taken ⊢
  have noticed (c : Prop) [Decidable c] : Acts s1 (if c then s1.raise .census else s1) := by
    split
    · exact .raise _
    · exact .refl s1
  split
  · exact ⟨taken.then_acts ((noticed _).trans State.channelFault_acts), State.channelFault_plain⟩
  · exact ⟨taken.then_acts (noticed _), .nil⟩

theorem State.holdRead_orderly {r : Levels} : Orderly s (s.holdRead n r) := .setChan id

theorem State.takeRead_orderly {r : Levels} : Orderly s (s.takeRead n r) := by
  unfold State.takeRead
  split
  · have moved := s.advanceTo_orderly (s.readDue n)
    refine moved.trans ?_ (.inr fun k h => ?_)
    · refine State.event_orderly ?_ ?_ <;> unfold State.compareRead <;> split
      · exact State.confirmRead_orderly.1
      · exact State.holdRead_orderly
      · exact State.confirmRead_orderly.2
      · exact .nil
    · unfold State.advanceTo at h
      split at h
      · simpa using h
      · exact h
  · exact .refl s

theorem State.censusRead_orderly {r : Levels} : Orderly s (s.censusRead n r) := by
  unfold State.censusRead
  split
  · exact State.takeRead_orderly
  · exact .refl s

theorem State.confirmingRead_orderly {r : Levels} : Orderly s (s.confirmingRead n r) := by
  unfold State.confirmingRead
  split
  · exact State.takeRead_orderly
  · exact .refl s

theorem State.recensus_orderly {reads : Vector Levels 16} : Orderly s (s.recensus reads) := by
  have pass (l : List Chan) (t : State) : Acts t (forEach l (fun n t => t.passRead n reads[n]) t) :=
    .forEach (fun n t => by
      unfold State.passRead
      dsimp only
      split
      · exact .setChan rfl .inl
      · exact .refl t) t
  exact .of_acts (pass allChans s)

/-! ### Driven channels -/

/-- A timed event: the clock moves to its moment, and the event acts. -/
theorem Orderly.timed {moment : Time} {f : State → State} (h : Acts (s.advanceTo moment) (f (s.advanceTo moment))) :
    Orderly s (if s.comes moment then f (s.advanceTo moment) else s) := by
  split
  · exact (s.advanceTo_orderly moment).then_acts h
  · exact .refl s

theorem State.stoppingEnd_orderly : Orderly s (s.stoppingEnd n) := by
  unfold State.stoppingEnd
  split
  · rename_i moment _
    exact .timed (f := fun u => u.setChan n { u.chan n with drive := .off })
      (.setChan rfl (by simp [Channel.driven]))
  · exact .refl s

theorem State.mayDrive_seated (h : s.mayDrive n = true) : (s.chan n).census = .seated := by
  simp only [State.mayDrive, Bool.and_eq_true, beq_iff_eq] at h
  exact h.1

theorem State.dwellEnd_orderly : Orderly s (s.dwellEnd n) := by
  unfold State.dwellEnd
  split
  · rename_i moment _
    refine .timed (f := fun u =>
      if u.mayDrive n then u.event fun v => (v.driveStart n (v.chan n).dir).startedLate n else u) ?_
    split
    · rename_i may
      exact State.event_acts ((State.driveStart_acts (State.mayDrive_seated may)).trans State.startedLate_acts)
        State.startedLate_plain
    · exact .refl _
  · exact .refl s

theorem State.rampStep_orderly : Orderly s (s.rampStep n) := by
  unfold State.rampStep
  split
  · rename_i moment due
    have ramping : (s.chan n).driven = true := by
      unfold Channel.rampDue at due
      split at due
      · rename_i r
        simp [Channel.driven, r]
      · simp at due
    refine .timed (f := fun u => (u.setChan n ((u.chan n).ramp (u.kindParams n))).retrimOf n) ?_
    refine Acts.trans ?_ State.retrimOf_acts
    refine .setChan rfl fun _ => .inl ?_
    unfold State.advanceTo
    split
    · simpa using ramping
    · exact ramping
  · exact .refl s

theorem State.analogSample_orderly {raw : Sample} : Orderly s (s.analogSample n raw) := by
  unfold State.analogSample
  split
  · have scaled (v : Nat) : Acts s (s.setChan n { s.chan n with scaled := v }) := .setChan rfl .inl
    refine .of_acts (State.event_acts ?_ ?_) <;> dsimp only <;> split
    · exact (scaled _).trans State.pressureSample_acts
    · exact (scaled _).trans State.watchCurrent_acts
    · exact State.pressureSample_plain
    · exact State.watchCurrent_plain
  · exact .refl s

theorem State.overcurrent_orderly : Orderly s (s.overcurrent n) := by
  unfold State.overcurrent
  split
  · refine .of_acts (State.event_acts (Acts.trans ?_ State.channelFault_acts) State.channelFault_plain)
    exact .setChan rfl .inl
  · exact .refl s

theorem State.noiseReached_orderly : Orderly s (s.noiseReached n) := by
  unfold State.noiseReached
  split
  · refine .of_acts (State.event_acts (Acts.trans ?_ State.channelFault_acts) State.channelFault_plain)
    exact Acts.setPace.trans .mirrorTally
  · exact .refl s

theorem State.plsPulse_orderly : Orderly s (if s.hasPulses n then s.event fun u => u.pulse n else s) := by
  split
  · exact .of_acts (State.event_acts State.pulse_acts State.pulse_plain)
  · exact .refl s

theorem State.stallReached_orderly : Orderly s (s.stallReached n) := by
  unfold State.stallReached
  split
  · exact (s.advanceCounter_orderly n _).then_acts
      (State.event_acts (Acts.setPace.trans State.handStall_acts) State.handStall_plain)
  · exact .refl s

/-! ### Axes -/

theorem State.seatReached_orderly : Orderly s (s.seatReached id m) := by
  unfold State.seatReached
  split
  · exact .timed (f := fun u => u.event fun v => v.seatDone id m)
      (State.event_acts (.of_controls State.seatDone_controls) State.seatDone_plain)
  · exact .refl s

theorem State.slideTimeout_orderly : Orderly s (s.slideTimeout id) := by
  unfold State.slideTimeout
  split
  · exact drain_orderly (s.advanceRun_orderly _ _) slideFault_plain
  · exact .refl s

theorem State.lossReached_orderly : Orderly s (s.lossReached j) := by
  unfold State.lossReached
  split
  · exact .of_acts (State.event_acts State.contactLost_acts (State.contactLost_tasks ▸ Plain.nil))
  · exact .refl s

theorem State.jackRunOut_orderly : Orderly s s.jackRunOut := by
  unfold State.jackRunOut
  split
  · exact drain_orderly (s.advanceRun_orderly _ _) State.activeFault_plain
  · exact .refl s

theorem State.atPhaseLimit_orderly {ph : LevelPhase} {taken : Bool} {f : State → Work}
    (a : ∀ v, Acts v (f v).1) (p : ∀ v, Plain (f v).2) : Orderly s (s.atPhaseLimit ph taken f) := by
  unfold State.atPhaseLimit
  split
  · exact (s.advanceRun_orderly _ _).then_acts (State.event_acts (a _) (p _))
  · exact .refl s

theorem State.settleDone_orderly : Orderly s s.settleDone :=
  State.atPhaseLimit_orderly (fun _ => .of_controls State.settleDecide_controls) fun _ => State.settleDecide_plain

theorem State.activeFault_orderly {ph : LevelPhase} {taken : Bool} {f : FaultCode} :
    Orderly s (s.atPhaseLimit ph taken fun t => t.activeFault f) :=
  State.atPhaseLimit_orderly (fun v => .refl v) fun _ => State.activeFault_plain

theorem State.tiltTaken_orderly {x y : Sample} :
    Orderly s (if 0 < s.jackCount then s.tiltSample x.toNat y.toNat else s) := by
  split
  · exact .of_parts rfl rfl rfl rfl rfl
  · exact .refl s

/-! ### Claims, lists and BUZZ -/

theorem State.endAndFree_acts {o : MotionOutcome} : Acts s (s.endAndFree g o) := by
  unfold State.endAndFree
  split
  · rename_i entry
    obtain ⟨e, entry⟩ := Option.isSome_iff_exists.mp entry
    exact .of_does (drain_endMotion (F := fun _ => True) entry (fun _ => trivial) .nil).1
      (drain_timed (w := (s, [.endMotion g { outcome := o, claim := .free }])))
  · exact .setClaim_none

theorem State.holdReached_orderly : Orderly s (s.holdReached g) := by
  unfold State.holdReached
  split
  · exact .timed (f := fun u => u.holdLapse g) State.endAndFree_acts
  · exact .refl s

theorem State.pauseReached_orderly : Orderly s (s.pauseReached g) := by
  unfold State.pauseReached
  split
  · exact .timed (f := fun u => drain workBound (u, [.endMotion g { outcome := .supplyLow }]))
      (drain_acts (.cons (by simp [Task.plain]) .nil))
  · exact .refl s

theorem State.motionPeriod_advanceTo {moment : Time} : (s.advanceTo moment).motionPeriod = s.motionPeriod := by
  unfold State.advanceTo
  split
  · exact s.motionPeriod_elapse _
  · rfl

/-- The records of BUZZ may change. -/
theorem Acts.sounds (count : Nat) (pattern period : Option Time) (pulse : Bool)
    (h : period = none ↔ s.motionPeriod = none) : Acts s { s with
    faultCount := count, faultPattern := pattern, motionPeriod := period, motionPulse := pulse } where
  fixed := rfl
  links _ := rfl
  census _ := rfl
  seated _ h := .inl h
  counts _ _ h := h
  strokes _ h := h
  free _ h := h
  budget h := h
  idle h := h
  timed k := k.trans h.symm

theorem State.buzzKick_acts : Acts s s.buzzKick := by
  unfold State.buzzKick
  split
  · exact .sounds _ _ s.motionPeriod s.motionPulse Iff.rfl
  · exact .refl s

theorem State.patternEnd_orderly : Orderly s s.patternEnd := by
  unfold State.patternEnd
  split
  · exact .timed (f := fun u => { u with faultPattern := none, motionPulse := false }.buzzKick)
      ((Acts.sounds _ none _ false Iff.rfl).trans State.buzzKick_acts)
  · exact .refl s

theorem State.periodBegins_orderly : Orderly s s.periodBegins := by
  unfold State.periodBegins
  split
  · rename_i start period
    exact .timed (f := fun u => { u with motionPeriod := some (start + periodTime), motionPulse := true })
      (.sounds _ _ (some (start + periodTime)) true (by simp [State.motionPeriod_advanceTo, period]))
  · exact .refl s

end

end Sys2Proof.Machine
end

section
/-! PROOFS. Every command is orderly: the wind watch, the supply, the requests, the store, the resets and the idle step; and
the laws of the device that follow for one step. -/

namespace Sys2Proof.Machine

section
variable {F : Group → Prop} {g : Group} {s t u : State} {n : Chan} {p : Port}

/-! ### The wind watch -/

theorem State.setWind_orderly {w : Wind} : Orderly s (s.setWind w) :=
  .of_parts rfl rfl rfl rfl rfl

theorem State.write_of_acts (a : Acts s t) : t.write = s.write := by
  have h := congrArg State.write a.fixed
  exact h

theorem State.road_of_acts (a : Acts s t) : t.road = s.road := by
  have park : t.park = s.park := by have e := congrArg State.park a.fixed; exact e
  simp only [State.road, park]

theorem State.windEndsMotion_acts : Acts s s.windEndsMotion := by
  unfold State.windEndsMotion
  split
  · exact .refl s
  · refine drain_acts (.cons ?_ .nil)
    split <;> simp [Task.plain]

/-- A piece of work and what it leaves to do. -/
theorem drained_acts {k : Nat} {w : Work} (a : Acts s w.1) (p : Plain w.2) : Acts s (drain k w) :=
  a.trans (drain_acts p)

theorem State.windDisplaces_acts : Acts s s.windDisplaces := by
  unfold State.windDisplaces
  split
  · exact .refl s
  · dsimp only
    split
    · rename_i h
      have ended (f : Option PlanFailure) : Acts (s.raise .preempt) ((s.raise .preempt).planEnd .preempted f).1 :=
        .of_does (State.planEnd_does (F := fun _ => False) h.2) (.of_same rfl rfl)
      exact (Acts.raise _).trans (drained_acts (ended _) State.planEnd_plain)
    · exact .raise _

theorem State.placeWind_orderly (parked : s.road = .parked) :
    Orderly s s.placeWind.1 ∧ Plain s.placeWind.2 ∧ ∀ n, (s.placeWind.1.chan n).census = (s.chan n).census := by
  unfold State.placeWind
  dsimp only
  have placed (t : State) : Follows (fun _ => False) t (t.placeAndStart .awning .wind .auto (.toward .stowing)).1 :=
    State.placeAndStart_follows
  have plain (t : State) : Plain (t.placeAndStart .awning .wind .auto (.toward .stowing)).2 :=
    State.controllerAdmit_plain
  split
  · exact ⟨.of_follows (placed s) State.placeAndStart_timed parked, plain s, fun n => Acts.census_of_reading ((placed s).readings n)⟩
  · generalize s.motionUnits .awning (.toward .stowing) = units
    have shed : Acts s ((s.shedTo (s.budget - units)).raise .supply) := State.shedTo_acts.trans (.raise _)
    generalize (s.shedTo (s.budget - units)).raise .supply = s1 at shed ⊢
    have later := Orderly.of_follows (placed s1) State.placeAndStart_timed ((State.road_of_acts shed).trans parked)
    have census := fun n => Acts.census_of_reading ((placed s1).readings n)
    exact ⟨(Orderly.of_acts shed).trans later (.inl census), plain s1, fun n => (census n).trans (shed.census n)⟩

theorem State.windRetract_orderly (parked : s.road = .parked) (idle : s.write = none) :
    Orderly s s.windRetract ∧ ∀ n, (s.windRetract.chan n).census = (s.chan n).census := by
  unfold State.windRetract
  dsimp only
  have claimed : Orderly s (s.setClaim .awning (some windClaim)) := .setClaim idle
  obtain ⟨placed, plain, census⟩ := State.placeWind_orderly (s := s.setClaim .awning (some windClaim)) parked
  have left : Plain ((s.setClaim .awning (some windClaim)).placeWind.2 ++ [.handover s.view]) :=
    plain.append (.cons trivial .nil)
  exact ⟨drain_orderly (claimed.trans placed (.inl census)) left,
    fun n => ((drain_acts left).census n).trans (census n)⟩

theorem State.gustCheck_orderly (idle : s.write = none) :
    Orderly s s.gustCheck ∧ ∀ n, (s.gustCheck.chan n).census = (s.chan n).census := by
  unfold State.gustCheck
  split
  · rename_i may
    simp only [State.windMayTake, Bool.and_eq_true, decide_eq_true_eq] at may
    have freed : Acts s s.windEndsMotion.windDisplaces := State.windEndsMotion_acts.trans State.windDisplaces_acts
    obtain ⟨retract, census⟩ := State.windRetract_orderly ((State.road_of_acts freed).trans may.1.1.1.2)
      ((State.write_of_acts freed).trans idle)
    exact ⟨(Orderly.of_acts freed).trans retract (.inl census), fun n => (census n).trans (freed.census n)⟩
  · exact ⟨.refl s, fun _ => rfl⟩

theorem State.gustEntered_orderly :
    Orderly s s.gustEntered ∧ ∀ n, (s.gustEntered.chan n).census = (s.chan n).census := by
  unfold State.gustEntered
  split
  · exact ⟨State.setWind_orderly, fun _ => rfl⟩
  · rename_i none
    exact State.gustCheck_orderly (by simpa using none)

theorem State.windHanded_orderly {v : Nat} : Orderly s (s.windHanded v) := by
  unfold State.windHanded
  dsimp only
  split
  · exact .refl s
  · exact State.setWind_orderly
  · exact State.setWind_orderly
  · exact State.setWind_orderly
  · split
    · exact State.setWind_orderly.trans State.gustEntered_orderly.1 (.inl State.gustEntered_orderly.2)
    · exact State.setWind_orderly

theorem State.computeWind_orderly : Orderly s s.computeWind := State.change_orderly State.windHanded_orderly

theorem State.census_computeWind (n : Chan) : (s.computeWind.chan n).census = (s.chan n).census := by
  have handed : ((s.windHanded (windSpeed s.layout.wind.constantK s.wind)).chan n).census = (s.chan n).census := by
    unfold State.windHanded
    dsimp only
    split
    · rfl
    · rfl
    · rfl
    · rfl
    · split
      · exact State.gustEntered_orderly.2 n
      · rfl
  exact ((Acts.of_does (State.change_does (F := fun _ => False)) (drain_timed (w := (s.windHanded _, [.handover s.view])))).census n).trans handed

theorem State.wndPulse_orderly :
    Orderly s (if s.layout.wind.present then (s.setWind s.wind.pulse).computeWind else s) := by
  split
  · exact State.setWind_orderly.trans State.computeWind_orderly (.inl State.census_computeWind)
  · exact .refl s

theorem State.windTick_orderly : Orderly s (if s.layout.wind.present then s.computeWind else s) := by
  split
  · exact State.computeWind_orderly
  · exact .refl s

theorem State.driven_advanceTo {moment : Time} : ((s.advanceTo moment).chan n).driven = (s.chan n).driven := by
  unfold State.advanceTo
  split
  · simp
  · rfl

theorem State.gustReached_orderly : Orderly s s.gustReached := by
  refine State.change_orderly ?_
  have entered : Orderly s ((s.setWind (s.wind.settledIn .gusty)).raise .wind) :=
    State.setWind_orderly.then_acts (.raise _)
  exact entered.trans State.gustEntered_orderly.1 (.inl State.gustEntered_orderly.2)

theorem State.calmReached_orderly : Orderly s s.calmReached :=
  State.change_orderly (State.setWind_orderly.then_acts (.raise _))

/-- A timed event that may change the census states or not is orderly: the clock changes no drive. -/
theorem Orderly.timed' {moment : Time} {f : State → State} (h : Orderly (s.advanceTo moment) (f (s.advanceTo moment))) :
    Orderly s (if s.comes moment then f (s.advanceTo moment) else s) := by
  split
  · exact (s.advanceTo_orderly moment).trans h (.inr fun n d => State.driven_advanceTo ▸ d)
  · exact .refl s

theorem State.gustHold_orderly : Orderly s s.gustHold := by
  unfold State.gustHold
  split
  · exact .timed' (f := State.gustReached) State.gustReached_orderly
  · exact .refl s

theorem State.calmHold_orderly : Orderly s s.calmHold := by
  unfold State.calmHold
  split
  · exact .timed' (f := State.calmReached) State.calmReached_orderly
  · exact .refl s

/-! ### The supply -/

/-- A new supply record under which the held units still fit. -/
theorem Orderly.setSupply {x : Supply} (h : s.budget ≤ x.band.budget) : Orderly s { s with supply := x } where
  buffers k := k
  budget k := Nat.le_trans k h
  writes k := k
  road k := k
  ports k := k
  seated _ k := .inl k
  period := .of_same rfl rfl
  counts k := k
  strokes k := k

theorem Band.budget_mono {x y : Band} (h : x.rank ≤ y.rank) : x.budget ≤ y.budget := by
  cases x <;> cases y <;> simp [Band.rank, Band.budget] at h ⊢

/-- A fall of the band sheds down to its budget; a rise leaves a scan. -/
theorem State.bandChanged_acts {old : Band} : Acts s (s.bandChanged old).1 ∧ Plain (s.bandChanged old).2 ∧
    (s.supply.band.rank < old.rank → (s.bandChanged old).1.heldUnits ≤ (s.bandChanged old).1.budget) := by
  unfold State.bandChanged
  dsimp only
  split
  · have acts : Acts s ((s.raise .supply).shedTo (s.raise .supply).budget) := (Acts.raise _).trans State.shedTo_acts
    have budget : ((s.raise .supply).shedTo (s.raise .supply).budget).budget = s.budget := by
      have e := congrArg State.budget acts.fixed
      exact e
    exact ⟨acts, .nil, fun _ => Nat.le_trans State.shedTo_units (Nat.le_of_eq budget.symm)⟩
  · rename_i fall
    exact ⟨.raise _, .cons trivial .nil, fun h => absurd h fall⟩

theorem State.supplyTaken_orderly {raw : Nat} : Orderly s (s.supplyTaken raw).1 ∧ Plain (s.supplyTaken raw).2 := by
  unfold State.supplyTaken
  dsimp only
  split
  · exact ⟨.setSupply (Nat.le_refl _), .nil⟩
  · rename_i mean _
    generalize bandAfter s.supply.mean.isNone s.supply.band mean = band
    generalize lastTwentyFive (s.supply.samples ++ [raw]) = samples
    split
    · rename_i same
      exact ⟨.setSupply (by rw [same]; exact Nat.le_refl _), .nil⟩
    · obtain ⟨acts, plain, fits⟩ := State.bandChanged_acts (old := s.supply.band)
        (s := { s with supply := { samples := samples, mean := some mean, band := band } })
      refine ⟨?_, plain⟩
      by_cases fall : band.rank < s.supply.band.rank
      · have kept := Orderly.of_acts acts
        exact
          { buffers := kept.buffers, writes := kept.writes, road := kept.road, ports := kept.ports, seated := kept.seated
            period := kept.period
            counts := kept.counts, strokes := kept.strokes, budget := fun _ => fits fall }
      · have risen : s.budget ≤ band.budget := Band.budget_mono (Nat.not_lt.mp fall)
        exact (Orderly.setSupply (x := { samples := samples, mean := some mean, band := band }) risen).then_acts acts

/-! ### The requests -/

/-- What a decision of a request keeps: order, and the replies that wait. -/
structure Decided (s t : State) : Prop extends Orderly s t where
  replies : ∀ p, (t.port p).replies = (s.port p).replies

theorem replies_of_link {a b : PortRec} (h : b.link = a.link) : b.replies = a.replies := by
  have e := congrArg PortRec.replies h
  exact e

theorem Decided.refl (s : State) : Decided s s where
  toOrderly := .refl s
  replies _ := rfl

theorem Decided.of_acts (a : Acts s t) : Decided s t where
  toOrderly := .of_acts a
  replies p := replies_of_link (a.links p)

theorem Decided.then_acts (a : Decided s t) (b : Acts t u) : Decided s u where
  toOrderly := a.toOrderly.then_acts b
  replies p := (replies_of_link (b.links p)).trans (a.replies p)

theorem Decided.then_follows (a : Decided s t) (b : Follows F t u) (timed : Timed t u) (parked : t.road = .parked) : Decided s u where
  toOrderly := a.toOrderly.trans (.of_follows b timed parked) (.inl fun n => Acts.census_of_reading (b.readings n))
  replies p := (replies_of_link (b.links p)).trans (a.replies p)

theorem Decided.setClaim {c : Option Claim} (idle : s.write = none) : Decided s (s.setClaim g c) where
  toOrderly := .setClaim idle
  replies _ := rfl

theorem State.acceptMotion_decided {m : Mode} {a : Action} (parked : s.road = .parked) (idle : s.write = none) :
    Decided s (s.acceptMotion p m g a).1 := by
  unfold State.acceptMotion
  have claimed : Decided s (s.setClaim g (some (s.newClaim p m a))) := .setClaim idle
  exact (claimed.then_follows (F := fun _ => False) State.admit_follows State.placeAndStart_timed parked).then_acts (drain_acts State.admit_plain)

theorem State.replaceMotion_decided {a : Action} (parked : s.road = .parked) (idle : s.write = none) :
    Decided s (s.replaceMotion p g a).1 := by
  unfold State.replaceMotion
  dsimp only
  have ended : Acts s (s.motionEnd g { outcome := .released, claim := .keep }).1 := State.motionEnd_acts
  generalize (s.motionEnd g { outcome := .released, claim := .keep }).1 = s1 at ended ⊢
  have claimed : Decided s (s1.setClaim g (some (s1.newClaim p .hold a))) :=
    { toOrderly := (Orderly.of_acts ended).trans (.setClaim ((State.write_of_acts ended).trans idle)) (.inl fun _ => rfl)
      replies := fun p => replies_of_link (ended.links p) }
  have parked1 : s1.road = .parked := (State.road_of_acts ended).trans parked
  refine (claimed.then_follows (F := fun _ => False) State.placeAndStart_follows State.placeAndStart_timed parked1).then_acts (drain_acts ?_)
  exact State.controllerAdmit_plain.append (.cons trivial (.cons trivial .nil))

/-- The entries that take another action keep their units. -/
theorem unitsOf_withAction {a : Action} (l : List Entry) : unitsOf (withAction g a l) = unitsOf l := by
  unfold unitsOf withAction
  rw [List.map_map]
  congr 1
  refine List.map_congr_left fun e _ => ?_
  dsimp only [Function.comp]
  split <;> rfl

theorem State.jackChange_plain {old new : JackId} {d : Dir} {run : Bool} : Plain (s.jackChange old new d run).2 :=
  State.jackSettled_plain

theorem State.changeJack_acts {c : Claim} {old new : JackId} {d : Dir} (h : s.claim .jacks = some c) :
    Acts s (s.changeJack c old new d).1 := by
  unfold State.changeJack
  dsimp only
  refine Acts.trans (.setClaim_some h (c := { c with action := .jack new d, deadline := some s.newDeadline })) ?_
  generalize s.setClaim .jacks (some { c with action := .jack new d, deadline := some s.newDeadline }) = s1
  have renamed : Acts s1 { s1 with
      load := withAction .jacks (.jack new d) s1.load, paused := withAction .jacks (.jack new d) s1.paused } :=
    { Acts.refl s1 with
      budget := fun b => Nat.le_trans (Nat.le_of_eq (unitsOf_withAction s1.load)) b
      idle := fun i => ⟨by simp [withAction, i.1], by simp [withAction, i.2.1], i.2.2⟩
      timed := fun k => by simpa [withAction] using k }
  exact (renamed.trans (.of_controls State.jackChange_controls)).trans
    (drain_acts (.cons trivial State.jackChange_plain))

theorem State.changeMotion_decided {c : Claim} {a : Action} (h : s.claim g = some c) (fits : ∀ j d, a = .jack j d → g = .jacks)
    (parked : s.road = .parked) (idle : s.write = none) : Decided s (s.changeMotion p g c a).1 := by
  have replaced : Decided s (match s.fullRefusal .hold g a with
      | some r => (s, r)
      | none => s.replaceMotion p g a).1 := by
    split
    · exact .refl s
    · exact State.replaceMotion_decided parked idle
  unfold State.changeMotion
  split
  · rename_i old _ new d
    split
    · split
      · exact .refl s
      · exact .of_acts (State.changeJack_acts (fits _ _ rfl ▸ h))
    · exact replaced
  · exact replaced

theorem State.renewClaim_acts {c : Claim} (h : s.claim g = some c) : Acts s (s.renewClaim g c).1 := .setClaim_some h

theorem State.motionRequest_decided {m : Mode} {a : Action} (fits : m = .hold → ∀ j d, a = .jack j d → g = .jacks) :
    Decided s (s.motionRequest p m g a).1 := by
  unfold State.motionRequest
  split
  · rename_i c claimed
    split
    · exact .of_acts (State.renewClaim_acts claimed)
    · split
      · exact .refl s
      · split
        · exact .refl s
        · split
          · exact .refl s
          · split
            · rename_i _ write _ road held
              exact State.changeMotion_decided claimed (fits held.1) (by simpa using road) (by simpa using write)
            · exact .refl s
  · split
    · exact .refl s
    · split
      · exact .refl s
      · split
        · exact .refl s
        · split
          · exact .refl s
          · rename_i write _ road _ _
            exact State.acceptMotion_decided (by simpa using road) (by simpa using write)

theorem State.clearFaultOf_acts : Acts s (s.clearFaultOf g) := by
  unfold State.clearFaultOf
  split
  · exact State.slideClearFault_acts
  · exact State.jacksClearFault_acts

theorem State.clearFault_acts : Acts s (s.clearFault g).1 := by
  unfold State.clearFault
  split
  · exact .refl s
  · split
    · exact .refl s
    · exact State.event_acts (f := fun t => (t.clearFaultOf g, [.permits])) State.clearFaultOf_acts (.cons trivial .nil)

theorem State.releaseGroup_acts : Acts s (s.releaseGroup p g).1 := by
  unfold State.releaseGroup
  split
  · exact .refl s
  · split
    · exact State.endAndFree_acts
    · exact .refl s

/-- A plan is set and its claims are made, at road state PARKED and with no store write in flight. -/
theorem Decided.planned {plan : Plan} {table : Vector (Option Claim) 6} (parked : s.road = .parked) (idle : s.write = none) :
    Decided s { s with plan := plan, claims := table } where
  buffers k := k
  budget k := k
  writes _ w := absurd w (by simp [idle])
  road _ r := absurd parked r
  ports k := k
  seated _ k := .inl k
  period := .of_same rfl rfl
  counts k := k
  strokes k := k
  replies _ := rfl

/-- Claims made one after another are a change of the claim table. -/
theorem forEach_setClaim (l : List Group) (c : Group → Option Claim) (s : State) :
    ∃ table : Vector (Option Claim) 6, forEach l (fun g t => match c g with
      | some b => t.setClaim g (some b)
      | none => t) s = { s with claims := table } ∧
    ∀ g, table[groupIndex g] = if g ∈ l then (c g).or (s.claim g) else s.claim g := by
  induction l generalizing s with
  | nil => exact ⟨s.claims, rfl, fun g => by simp; rfl⟩
  | cons h rest ih =>
    cases made : c h with
    | none =>
      obtain ⟨table, same, at_⟩ := ih s
      refine ⟨table, by simpa only [forEach, List.foldl_cons, made] using same, fun g => ?_⟩
      rw [at_ g]
      by_cases e : g = h
      · subst e; simp [made]
      · simp [e]
    | some b =>
      obtain ⟨table, same, at_⟩ := ih (s.setClaim h (some b))
      have first : forEach (h :: rest) (fun g t => match c g with
            | some b => t.setClaim g (some b)
            | none => t) s = forEach rest (fun g t => match c g with
            | some b => t.setClaim g (some b)
            | none => t) (s.setClaim h (some b)) := by
        simp only [forEach, List.foldl_cons, made]
      refine ⟨table, first.trans same, fun g => ?_⟩
      rw [at_ g, State.claim_setClaim]
      by_cases e : g = h
      · subst e; simp [made]
      · simp [e, Ne.symm e]

/-- The plan record as a plan is accepted (R150). -/
def State.newPlan (s : State) (n : PlanName) (o : PlanOwner) : Plan :=
  { status := .running, name := some n, owner := some o, stepCount := (s.layout.planSteps n).length, stepIndex := 1
    reserved := Vector.ofFn fun i => (planGroups (s.layout.planSteps n)).any fun g => groupIndex g == i
    slots := [], limited := false, failure := none }

/-- The claim of a group that a plan names, as the plan is accepted (R150). -/
def planClaim (steps : List PlanStep) (g : Group) : Option Claim :=
  (firstAction steps g).map fun a =>
    { owner := .sequencer, mode := .auto, action := a, deadline := none, ended := false }

/-- A plan starts with its record and its claims, and nothing else changes before its first step. -/
theorem State.planStart_eq (s : State) (n : PlanName) (o : PlanOwner) : ∃ table : Vector (Option Claim) 6,
    s.planStart n o = ({ s with plan := s.newPlan n o, claims := table }, [.beginStep]) ∧
    ∀ g, table[groupIndex g] = if g ∈ planGroups (s.layout.planSteps n) then
      (planClaim (s.layout.planSteps n) g).or (s.claim g) else s.claim g := by
  obtain ⟨table, made, at_⟩ := forEach_setClaim (planGroups (s.layout.planSteps n)) (planClaim (s.layout.planSteps n))
    { s with plan := s.newPlan n o }
  refine ⟨table, ?_, at_⟩
  have same : s.planStart n o = (forEach (planGroups (s.layout.planSteps n)) (fun g t =>
      match planClaim (s.layout.planSteps n) g with
      | some b => t.setClaim g (some b)
      | none => t) { s with plan := s.newPlan n o }, [.beginStep]) := by
    unfold State.planStart planClaim
    dsimp only
    congr 2
    funext g t
    cases firstAction (s.layout.planSteps n) g <;> rfl
  rw [same, made]

theorem State.acceptPlan_decided {n : PlanName} {o : PlanOwner} (parked : s.road = .parked) (idle : s.write = none) :
    Decided s (s.acceptPlan n o) := by
  obtain ⟨table, started, -⟩ := s.planStart_eq n o
  unfold State.acceptPlan
  rw [started]
  exact (Decided.planned parked idle).then_acts (drain_acts (.cons trivial .nil))

theorem State.runPlan_decided {n : PlanName} : Decided s (s.runPlan p n).1 := by
  unfold State.runPlan
  split
  · exact .refl s
  · split
    · exact .refl s
    · split
      · exact .refl s
      · split
        · exact .refl s
        · split
          · exact .refl s
          · rename_i write road _ _ _ _
            exact State.acceptPlan_decided (by simpa using road) (by simpa using write)

theorem State.loadSegment_decided {k : Fin 32} {data : Vector Byte 16} : Decided s (s.loadSegment k data).1 := by
  unfold State.loadSegment
  split
  · exact .refl s
  · have fits : segmentBase k + data.toList.length ≤ 512 := by
      have := k.isLt
      simp only [segmentBase, Vector.length_toList]
      omega
    exact
      { toOrderly := .store (write := s.write) (fun b => ⟨Image.wf_writeAll b.1 fits, b.2⟩) fun w => w
        replies := fun _ => rfl }

theorem State.firstOwner_none {l : List Group} : s.firstOwner l = none ↔ ∀ g ∈ l, s.claim g = none := by
  simp [State.firstOwner, List.findSome?_eq_none_iff]

theorem mem_allGroups (g : Group) : g ∈ allGroups := by
  cases g with
  | room k => revert k; decide
  | jacks => decide
  | awning => decide

theorem State.commit_decided : Decided s s.commit.1 := by
  unfold State.commit
  split
  · exact .refl s
  · split
    · exact .refl s
    · split
      · exact .refl s
      · rename_i free
        split
        · exact .refl s
        · exact
            { toOrderly := .store (fun b => ⟨Image.wf_withCrc b.1, b.2⟩)
                fun _ _ g => State.firstOwner_none.mp free g (mem_allGroups g)
              replies := fun _ => rfl }

theorem Decided.setPort {r : PortRec} (h : r.replies = (s.port p).replies) (e : r.linkErrors = (s.port p).linkErrors) :
    Decided s (s.setPort p r) where
  toOrderly := .setPort fun b => by
    unfold PortRec.bounded
    rw [h, e]
    exact b
  replies q := by
    rw [State.port_setPort]
    split
    · rename_i same
      exact same ▸ h
    · rfl

theorem State.stopEverything_acts : Acts s s.stopEverything.1 := by
  unfold State.stopEverything
  exact State.change_acts (f := fun t => t.stopAll .stopped) State.stopAll_acts.1

/-- The decision of a request. -/
theorem State.decideRequest_decided {q : Request} : Decided s (s.decideRequest p q).1 := by
  cases q with
  | move g d => exact State.motionRequest_decided (by simp)
  | auto g a => exact State.motionRequest_decided (by simp)
  | moveJack j d => exact State.motionRequest_decided (by simp)
  | release g => exact .of_acts State.releaseGroup_acts
  | stop => exact .of_acts State.stopEverything_acts
  | clearFault g => exact .of_acts State.clearFault_acts
  | runPlan n => exact State.runPlan_decided
  | status => exact .refl s
  | readAxis n a => exact .refl s
  | ack c =>
    change Decided s (s.ackClasses p c)
    unfold State.ackClasses
    exact .setPort rfl rfl
  | route c =>
    change Decided s (s.routeClasses p c)
    unfold State.routeClasses
    exact .setPort rfl rfl
  | layoutLoad n data => exact State.loadSegment_decided
  | layoutRead n => exact .refl s
  | layoutCommit => exact State.commit_decided

/-! ### The ports -/

theorem State.discardFrame_orderly : Orderly s (s.discardFrame p) := by
  unfold State.discardFrame
  refine Orderly.then_acts (.setPort fun h => ?_) (.raise .link)
  exact ⟨h.1, Nat.min_le_left _ _⟩

theorem State.queueReply_orderly {f : List Byte} (room : (s.port p).replies.length < 4) : Orderly s (s.queueReply p f) := by
  unfold State.queueReply
  refine .setPort fun h => ⟨?_, h.2⟩
  simpa using room

theorem State.takeRequest_orderly {k : RequestKind} {r : Option Request} : Orderly s (s.takeRequest p k r) := by
  unfold State.takeRequest
  split
  · exact State.discardFrame_orderly
  · rename_i room
    have room : (s.port p).replies.length < 4 := Nat.not_le.mp room
    split
    · exact State.queueReply_orderly room
    · rename_i q
      have decided := State.decideRequest_decided (s := s) (p := p) (q := q)
      exact decided.toOrderly.trans (State.queueReply_orderly (by rwa [decided.replies])) (.inl fun n => by simp)

theorem State.setFrame_orderly {f : Option PartialFrame} : Orderly s (s.setFrame p f) := .setPort fun h => h

/-- The ports' own work leaves the census states as they are. -/
theorem Orderly.then_port (a : Orderly s t) (b : Orderly t u) (h : ∀ n, u.chan n = t.chan n) : Orderly s u :=
  a.trans b (.inl fun n => by rw [h])

theorem State.checkFrame_orderly {k : RequestKind} {l : List Byte} : Orderly s (s.checkFrame p k l) := by
  unfold State.checkFrame
  split
  · exact State.takeRequest_orderly
  · exact State.discardFrame_orderly

theorem State.markedCharacter_orderly {b : Byte} : Orderly s (s.markedCharacter p b) := by
  unfold State.markedCharacter
  dsimp only
  have abandoned : Orderly s (if (s.port p).frame.isSome then s.discardFrame p else s) := by
    split
    · exact State.discardFrame_orderly
    · exact .refl s
  split
  · exact abandoned.then_port State.setFrame_orderly fun n => by simp
  · exact (abandoned.then_port State.setFrame_orderly fun n => by simp).then_port State.discardFrame_orderly
      fun n => by simp

theorem State.unmarkedCharacter_orderly {b : Byte} : Orderly s (s.unmarkedCharacter p b) := by
  unfold State.unmarkedCharacter
  split
  · exact .refl s
  · dsimp only
    split
    · exact State.setFrame_orderly
    · split
      · exact State.setFrame_orderly
      · exact State.setFrame_orderly.trans State.checkFrame_orderly (.inr fun n h => by simpa using h)

theorem State.character_orderly {b : Byte} {mark stop : Bool} : Orderly s (s.character p b mark stop) := by
  unfold State.character
  split
  · exact State.setFrame_orderly.then_port State.discardFrame_orderly fun n => by simp
  · split
    · exact State.markedCharacter_orderly
    · exact State.unmarkedCharacter_orderly

theorem State.frameExpired_orderly : Orderly s (s.frameExpired p) := by
  unfold State.frameExpired
  split
  · exact .refl s
  · rename_i f _
    exact .timed' (f := fun u => (u.setFrame p none).discardFrame p)
      (State.setFrame_orderly.then_port State.discardFrame_orderly fun n => by simp)

theorem State.replySent_orderly : Orderly s (s.replySent p) := by
  unfold State.replySent
  split
  · exact .refl s
  · rename_i due _
    refine .timed' (f := fun u => u.setPort p { u.port p with
      replies := (u.port p).replies.drop 1
      headSince := if ((u.port p).replies.drop 1).isEmpty then none else some u.now }) ?_
    refine .setPort fun h => ⟨?_, h.2⟩
    have bound := h.1
    simp only [List.length_drop]
    omega

end

end Sys2Proof.Machine
end

section
/-! PROOFS. Every command is orderly: the layout store, the resets and the idle step; and the laws of the device that follow
for one step. -/

namespace Sys2Proof.Machine

section
variable {g : Group} {s t u : State} {n : Chan} {p : Port}

/-! ### A new layout -/

/-- Keeps, with no channel driven anew. -/
structure Quiet (s t : State) : Prop extends Keeps s t where
  drives : ∀ n, (t.chan n).driven = true → (s.chan n).driven = true

theorem Quiet.trans (a : Quiet s t) (b : Quiet t u) : Quiet s u where
  toKeeps := a.toKeeps.trans b.toKeeps (.inr a.drives)
  drives n h := a.drives n (b.drives n h)

/-- The part of the state that the laws of order but for those of the counts speak of, but for the channels. -/
def State.ledger (s : State) : State :=
  { State.reset with
    staging := s.staging, stored := s.stored, supply := s.supply, write := s.write, claims := s.claims, load := s.load
    park := s.park, motionPeriod := s.motionPeriod, paused := s.paused, plan := s.plan, ports := s.ports }

theorem Quiet.of_ledger (h : t.ledger = s.ledger) (drives : ∀ n, (t.chan n).driven = true → (s.chan n).driven = true) :
    Quiet s t := by
  have staging : t.staging = s.staging := by have e := congrArg State.staging h; exact e
  have stored : t.stored = s.stored := by have e := congrArg State.stored h; exact e
  have supply : t.supply = s.supply := by have e := congrArg State.supply h; exact e
  have write : t.write = s.write := by have e := congrArg State.write h; exact e
  have claims : t.claims = s.claims := by have e := congrArg State.claims h; exact e
  have load : t.load = s.load := by have e := congrArg State.load h; exact e
  have paused : t.paused = s.paused := by have e := congrArg State.paused h; exact e
  have plan : t.plan = s.plan := by have e := congrArg State.plan h; exact e
  have ports : t.ports = s.ports := by have e := congrArg State.ports h; exact e
  have period : t.motionPeriod = s.motionPeriod := by have e := congrArg State.motionPeriod h; exact e
  have park : t.park = s.park := by have e := congrArg State.park h; exact e
  exact
    { buffers := fun k => by simpa only [State.buffersCanonical, staging, stored] using k
      budget := fun k => by simpa only [State.heldUnits, State.budget, supply, load] using k
      writes := fun k => by simpa only [State.writeFindsNoClaim, State.claim, write, claims] using k
      road := fun k => by simpa only [State.idleOffPark, State.idle, State.road, park, load, paused, plan] using k
      ports := fun k => by simpa only [State.port, ports] using k
      seated := fun n k => .inl (drives n k)
      period := .of_same load period
      drives := drives }

theorem Quiet.raise (c : Notice) : Quiet s (s.raise c) where
  toKeeps := (Orderly.of_acts (.raise c)).toKeeps
  drives n h := by simpa using h

theorem State.restartCensus_quiet : Quiet s s.restartCensus := by
  unfold State.restartCensus
  dsimp only
  have begun : Quiet s { s with channels := Vector.ofFn fun n => s.recensusChannel n, censusStart := s.now } := by
    refine .of_ledger rfl fun n h => ?_
    have kept : (s.recensusChannel n).driven = (s.chan n).driven := by
      unfold State.recensusChannel
      dsimp only
      split <;> rfl
    rw [← kept]
    simpa only [State.chan, ofFn_getElem] using h
  split
  · exact begun.trans (.raise _)
  · exact begun

theorem State.newInputs_quiet {old : Layout} : Quiet s (s.newInputs old) := by
  unfold State.newInputs
  exact .of_ledger rfl fun _ h => h

theorem State.newAxes_quiet {old : Layout} : Quiet s (s.newAxes old) := by
  unfold State.newAxes
  exact .of_ledger rfl fun _ h => h

theorem State.newWind_quiet {old : Layout} : Quiet s (s.newWind old) := by
  unfold State.newWind
  split
  · split
    · dsimp only
      split <;> exact .of_ledger rfl fun _ h => h
    · exact .of_ledger rfl fun _ h => h
  · exact .of_ledger rfl fun _ h => h

/-- The layout in force is replaced, and every block takes it up, up to the evaluation of the alarm (R182). -/
def State.laidOut (s : State) (m : Image) : State :=
  let s1 := { s with layout := Layout.ofImage m, stored := .record m, write := none }
  let s2 := (s1.restartCensus.newInputs s.layout).newAxes s.layout
  ({ s2 with plan := freshPlan }.newWind s.layout).raise .layout

theorem State.takeLayout_eq (s : State) (m : Image) : s.takeLayout m = (s.laidOut m).evalAlarm.gustAfterWrite := by
  unfold State.takeLayout State.laidOut
  rfl

/-- The written image comes into force in the store and as a layout. -/
theorem State.force_quiet (l : Layout) : Quiet s { s with layout := l, stored := .record s.staging, write := none } where
  buffers k := ⟨k.1, fun m h => by
    obtain rfl := Stored.record.inj h
    exact k.1⟩
  budget k := k
  writes _ w := by simp at w
  road k := k
  ports k := k
  seated _ k := .inl k
  period := .of_same rfl rfl
  drives _ k := k

theorem State.laidOut_quiet : Quiet s (s.laidOut s.staging) := by
  unfold State.laidOut
  dsimp only
  generalize Layout.ofImage s.staging = l
  have forced : Quiet s { s with layout := l, stored := .record s.staging, write := none } := State.force_quiet l
  generalize ({ s with layout := l, stored := .record s.staging, write := none } : State) = s1 at forced ⊢
  have census := forced.trans State.restartCensus_quiet
  generalize s1.restartCensus = s2 at census ⊢
  have axes : Quiet s2 ((s2.newInputs s.layout).newAxes s.layout) := State.newInputs_quiet.trans State.newAxes_quiet
  generalize (s2.newInputs s.layout).newAxes s.layout = s3 at axes ⊢
  have planless : Quiet s3 { s3 with plan := freshPlan } :=
    { toKeeps := (Orderly.of_acts (.plan fun _ => by simp [freshPlan])).toKeeps, drives := fun _ h => h }
  exact (((census.trans axes).trans planless).trans State.newWind_quiet).trans (.raise _)

/-- Under a new layout a motor's count is unknown, or 0 at home (R59, R103). -/
theorem State.newSlider_within {id : Slider} {known : Bool} {m : Motor} {limit : Nat} :
    within limit ((s.newSlider id known).motor m).count := by
  unfold State.newSlider
  split
  · dsimp only
    cases m <;> dsimp only [SliderRec.motor] <;> split <;> simp [within]
  · cases m <;> simp [SliderRec.motor, freshSlider, freshMotor, within]

/-- Under a new layout a jack's count is unknown, or 0 at home (R92). -/
theorem State.newJack_within {j : JackId} {known : Bool} {limit : Nat} : within limit (s.newJack j known).count := by
  unfold State.newJack
  split
  · dsimp only
    split <;> simp [within]
  · simp [freshJack, within]

theorem State.newAxes_within {old : Layout} {limit : Nat} :
    (∀ id m, within limit ((s.newAxes old).motor id m).count) ∧ ∀ j, within limit ((s.newAxes old).jack j).count := by
  refine ⟨fun id m => ?_, fun j => ?_⟩
  · cases id with
    | room k =>
      have room : (s.newAxes old).slider (.room k) = s.newSlider (.room k) (old.hasRole (.room k .a)) := ofFn_getElem _ k
      unfold State.motor
      rw [room]
      exact State.newSlider_within
    | awning => exact State.newSlider_within (id := .awning)
  · have jack : (s.newAxes old).jack j = s.newJack j (old.hasRole (.jack j)) := ofFn_getElem _ j
    rw [jack]
    exact State.newJack_within

theorem State.axes_newWind {old : Layout} : (∀ id m, (s.newWind old).motor id m = s.motor id m) ∧
    ∀ j, (s.newWind old).jack j = s.jack j := by
  unfold State.newWind
  split
  · split
    · dsimp only
      split <;> exact ⟨fun _ _ => rfl, fun _ => rfl⟩
    · exact ⟨fun _ _ => rfl, fun _ => rfl⟩
  · exact ⟨fun _ _ => rfl, fun _ => rfl⟩

theorem State.laidOut_within {m : Image} {limit : Nat} :
    (∀ id k, within limit ((s.laidOut m).motor id k).count) ∧ ∀ j, within limit ((s.laidOut m).jack j).count := by
  unfold State.laidOut
  dsimp only
  generalize State.newInputs _ s.layout = s1
  have axes := s1.newAxes_within (old := s.layout) (limit := limit)
  generalize s1.newAxes s.layout = s2 at axes ⊢
  have wind := ({ s2 with plan := freshPlan } : State).axes_newWind (old := s.layout)
  refine ⟨fun id k => ?_, fun j => ?_⟩
  · rw [State.motor_raise, wind.1]
    exact axes.1 id k
  · rw [State.jack_raise, wind.2]
    exact axes.2 j

theorem State.write_newWind {old : Layout} : (s.newWind old).write = s.write := by
  unfold State.newWind
  split
  · split
    · dsimp only
      split <;> rfl
    · rfl
  · rfl

theorem State.write_laidOut {m : Image} : (s.laidOut m).write = none := by
  have census (v : State) : v.restartCensus.write = v.write := by rw [State.restartCensus_eq]
  have inputs (v : State) : (v.newInputs s.layout).write = v.write := by unfold State.newInputs; rfl
  have axes (v : State) : (v.newAxes s.layout).write = v.write := by unfold State.newAxes; rfl
  have raised (v : State) : (v.raise .layout).write = v.write := rfl
  unfold State.laidOut
  dsimp only
  rw [raised, State.write_newWind]
  dsimp only
  rw [axes, inputs, census]

/-- The completion of a store write is orderly. -/
theorem State.takeLayout_orderly : Orderly s (s.takeLayout s.staging) := by
  rw [State.takeLayout_eq]
  have laid : Quiet s (s.laidOut s.staging) := State.laidOut_quiet
  have counts := fun limit => s.laidOut_within (m := s.staging) (limit := limit)
  have idle := s.write_laidOut (m := s.staging)
  generalize s.laidOut s.staging = s1 at laid counts idle ⊢
  have alarmed : Orderly s s1.evalAlarm :=
    Orderly.then_acts
      { laid with counts := fun _ id _ m _ => (counts _).1 id m, strokes := fun _ j _ => (counts _).2 j }
      State.evalAlarm_acts
  have idle : s1.evalAlarm.write = none := (State.write_of_acts State.evalAlarm_acts).trans idle
  generalize s1.evalAlarm = s2 at alarmed idle ⊢
  unfold State.gustAfterWrite
  dsimp only
  have missed := alarmed.trans (State.setWind_orderly (w := { s2.wind with gustMissed := false })) (.inl fun _ => rfl)
  split
  · obtain ⟨checked, census⟩ := State.gustCheck_orderly (s := s2.setWind { s2.wind with gustMissed := false }) idle
    exact missed.trans checked (.inl census)
  · exact missed

theorem State.storeWriteComplete_orderly :
    Orderly s (if s.write.isSome then s.change fun u => u.takeLayout u.staging else s) := by
  split
  · exact State.change_orderly (f := fun u => u.takeLayout u.staging) State.takeLayout_orderly
  · exact .refl s

/-! ### Resets -/

theorem State.motor_coldAxes (id : Slider) (m : Motor) : (s.coldAxes.motor id m).count = none := by
  cases id with
  | room k =>
    have room : s.coldAxes.slider (.room k) = freshSlider := Vector.getElem_replicate ..
    unfold State.motor
    rw [room]
    cases m <;> rfl
  | awning => cases m <;> rfl

/-- A warm reset forgets a count or keeps it (R58, R103). -/
theorem State.motor_warmAxes (id : Slider) (m : Motor) :
    s.warmAxes.motor id m = (s.motor id m).warm (s.sliderInMotion id) := by
  cases id with
  | room k =>
    have room : s.warmAxes.slider (.room k) = (s.rooms[k]).warm (s.sliderInMotion (.room k)) := ofFn_getElem _ k
    unfold State.motor
    rw [room]
    cases m <;> rfl
  | awning => cases m <;> rfl

theorem State.jack_warmAxes (j : JackId) : s.warmAxes.jack j = (s.jack j).warm (s.jackInMotion j) := ofFn_getElem _ j

theorem State.jack_coldAxes (j : JackId) : s.coldAxes.jack j = freshJack := Vector.getElem_replicate ..

/-- What a reset leaves of the laws of order, whatever axis records it takes over. -/
theorem State.cleared_keeps {v : State} {k : ResetKind} {straps : Straps} (staging : v.staging = s.staging)
    (stored : v.stored = s.stored) : Keeps s
      { v.cutWrite.cleared with inReset := some k, straps := straps, resetLow := 0 } where
  buffers b := by
    have cut : v.cutWrite.staging = s.staging ∧ (v.cutWrite.stored = s.stored ∨ v.cutWrite.stored = .cutOff) := by
      unfold State.cutWrite
      split
      · exact ⟨staging, .inr rfl⟩
      · exact ⟨staging, .inl stored⟩
    refine ⟨cut.1 ▸ b.1, fun m h => ?_⟩
    rcases cut.2 with c | c
    · exact b.2 m (c ▸ h)
    · simp [State.cleared, c] at h
  budget _ := by simp [State.heldUnits, State.cleared, unitsOf]
  writes _ _ g := by
    change (Vector.replicate 6 (none : Option Claim))[groupIndex g] = none
    exact Vector.getElem_replicate ..
  road _ _ := ⟨rfl, rfl, by simp [State.cleared, freshPlan]⟩
  ports _ p := by
    have fresh : (v.cutWrite.cleared.port p) = freshPort := Vector.getElem_replicate ..
    change (v.cutWrite.cleared.port p).bounded
    rw [fresh]
    exact ⟨by simp [freshPort], by simp [freshPort]⟩
  seated n h := by
    have fresh : (v.cutWrite.cleared.chan n) = freshChannel .empty false := Vector.getElem_replicate ..
    change (v.cutWrite.cleared.chan n).driven = true at h
    simp [fresh, freshChannel, Channel.driven] at h
  period _ := by simp [State.cleared]

theorem MotorRec.within_warm {x : MotorRec} {moving : Bool} {limit : Nat} (h : within limit x.count) :
    within limit (x.warm moving).count := by
  unfold MotorRec.warm
  dsimp only
  split
  · exact within_none _
  · exact h

theorem Jack.within_warm {x : Jack} {moving : Bool} {limit : Nat} (h : within limit x.count) :
    within limit (x.warm moving).count := by
  unfold Jack.warm
  dsimp only
  split
  · exact within_none _
  · exact h

/-- The axis records and the layout as a reset takes them over. -/
theorem State.axes_cleared (v : State) : v.cutWrite.cleared.layout = v.layout ∧
    (∀ id m, v.cutWrite.cleared.motor id m = v.motor id m) ∧ ∀ j, v.cutWrite.cleared.jack j = v.jack j := by
  unfold State.cutWrite
  split
  · exact ⟨rfl, fun id _ => by cases id <;> rfl, fun _ => rfl⟩
  · exact ⟨rfl, fun id _ => by cases id <;> rfl, fun _ => rfl⟩

theorem State.beginReset_orderly {k : ResetKind} {straps : Straps} : Orderly s (s.beginReset k straps) := by
  cases k with
  | cold =>
    have axes := s.coldAxes.axes_cleared
    exact
      { toKeeps := State.cleared_keeps (v := s.coldAxes) rfl rfl
        counts := State.countsWithin_layout axes.1 fun id m _ => by
          change within _ (s.coldAxes.cutWrite.cleared.motor id m).count
          rw [axes.2.1, State.motor_coldAxes]
          exact within_none _
        strokes := State.strokesWithin_layout axes.1 fun j _ => by
          change within _ (s.coldAxes.cutWrite.cleared.jack j).count
          rw [axes.2.2, State.jack_coldAxes]
          exact within_none _ }
  | warm =>
    have axes := s.warmAxes.axes_cleared
    exact
      { toKeeps := State.cleared_keeps (v := s.warmAxes) rfl rfl
        counts := State.countsWithin_layout axes.1 fun id m h => by
          change within _ (s.warmAxes.cutWrite.cleared.motor id m).count
          rw [axes.2.1, State.motor_warmAxes]
          exact MotorRec.within_warm h
        strokes := State.strokesWithin_layout axes.1 fun j h => by
          change within _ (s.warmAxes.cutWrite.cleared.jack j).count
          rw [axes.2.2, State.jack_warmAxes]
          exact Jack.within_warm h }

/-- The record that the end of a reset puts in force is the one that the store holds. -/
theorem Stored.good_eq {st : Stored} {m : Image} (h : st.good = some m) : st = .record m := by
  unfold Stored.good at h
  split at h
  · split at h
    · simp at h
    · obtain rfl := Option.some.inj h
      rfl
  · simp at h

/-- The choice of a layout changes buffers and notices alone, besides. -/
theorem State.chooseLayout_quiet : Quiet s s.chooseLayout := by
  unfold State.chooseLayout
  have chosen (l : Layout) (m : Image) (h : s.buffersCanonical → m.wf = true) :
      Quiet s { s with layout := l, staging := m } :=
    { buffers := fun k => ⟨h k, k.2⟩, budget := fun k => k, writes := fun k => k, road := fun k => k, ports := fun k => k
      seated := fun _ k => .inl k, period := .of_same rfl rfl, drives := fun _ k => k }
  split
  · rename_i m good
    exact chosen _ m fun k => k.2 m (Stored.good_eq good)
  · exact (chosen _ emptyImage fun _ => wf_emptyImage).trans (.raise _)

theorem State.endReset_keeps : Keeps s s.endReset := by
  have started : Quiet s { s with inReset := none, now := 0, censusStart := 0 } := .of_ledger rfl fun _ h => h
  unfold State.endReset
  dsimp only
  have chosen := started.trans State.chooseLayout_quiet
  generalize State.chooseLayout { s with inReset := none, now := 0, censusStart := 0 } = s1 at chosen ⊢
  refine Quiet.toKeeps ?_
  refine chosen.trans ?_
  refine .of_ledger rfl fun n h => ?_
  have fresh : ({ s1 with
      wind := freshWind s1.layout.wind.present
      channels := Vector.ofFn fun n => freshChannel (s1.startCensus n) (s1.startCensus n).noReads } : State).chan n =
      freshChannel (s1.startCensus n) (s1.startCensus n).noReads := ofFn_getElem _ n
  rw [fresh] at h
  simp [freshChannel, Channel.driven] at h

/-! ### The idle step -/

theorem State.enqueue_orderly {l : List Instr} : Orderly s (s.enqueue l) :=
  .of_parts rfl rfl rfl rfl rfl

theorem State.samplePulses_orderly : Orderly s s.samplePulses := by
  unfold State.samplePulses
  exact .of_parts rfl rfl rfl rfl rfl

theorem State.settleQuiet_orderly {l : Line} : Orderly s (s.settleQuiet l) ∧ (s.settleQuiet l).channels = s.channels := by
  unfold State.settleQuiet
  split
  · exact ⟨State.accept_orderly (by simp), rfl⟩
  · exact ⟨State.accept_orderly (by simp), rfl⟩
  · exact ⟨State.accept_orderly (by simp), rfl⟩
  · exact ⟨State.accept_orderly (by simp), rfl⟩
  · exact ⟨State.accept_orderly (by simp), rfl⟩
  · exact ⟨.refl s, rfl⟩

theorem State.sampleLine_orderly {l : Line} : Orderly s (s.sampleLine l) ∧ (s.sampleLine l).channels = s.channels := by
  unfold State.sampleLine
  have pushed : Orderly s (s.setLine ((s.line l).push (s.pinOf l)) l) := State.setLine_orderly fun e => by
    subst e
    rfl
  have kept : (s.setLine ((s.line l).push (s.pinOf l)) l).channels = s.channels := by cases l <;> rfl
  obtain ⟨quiet, same⟩ := State.settleQuiet_orderly (s := s.setLine ((s.line l).push (s.pinOf l)) l) (l := l)
  exact ⟨pushed.trans quiet (.inl fun n => by simp only [State.chan, same]), same.trans kept⟩

theorem State.sampleDiscrete_orderly : Orderly s s.sampleDiscrete ∧ s.sampleDiscrete.channels = s.channels := by
  have all (l : List Line) (t : State) : Orderly t (forEach l (fun l t => t.sampleLine l) t) ∧
      (forEach l (fun l t => t.sampleLine l) t).channels = t.channels := by
    induction l generalizing t with
    | nil => exact ⟨.refl t, rfl⟩
    | cons x rest ih =>
      obtain ⟨one, kept⟩ := State.sampleLine_orderly (s := t) (l := x)
      obtain ⟨later, same⟩ := ih (t.sampleLine x)
      exact ⟨one.trans later (.inl fun n => by
        have e := congrArg (fun v => (v[n]).census) same
        exact e), same.trans kept⟩
  exact all _ s

theorem State.tickRunning_orderly : Orderly s s.tickRunning := by
  unfold State.tickRunning
  dsimp only
  have passed := s.elapse_orderly 1
  have drives : ∀ n, ((s.elapse 1).chan n).driven = true → (s.chan n).driven = true := fun n h => by simpa using h
  generalize s.elapse 1 = s1 at passed drives ⊢
  have sampled : Orderly s1 s1.samplePulses := State.samplePulses_orderly
  obtain ⟨lines, same⟩ := State.sampleDiscrete_orderly (s := s1.samplePulses)
  have both := passed.trans (sampled.trans lines (.inl fun n => by simp only [State.chan, same])) (.inr drives)
  have ticked : Orderly s { s1.samplePulses.sampleDiscrete with tickedAt := some s1.now } :=
    both.trans (.of_parts rfl rfl rfl rfl rfl) (.inl fun _ => rfl)
  generalize ({ s1.samplePulses.sampleDiscrete with tickedAt := some s1.now } : State) = s2 at ticked ⊢
  have watched : Orderly s s2.watchReset.1 ∧ s2.watchReset.1.channels = s2.channels := by
    unfold State.watchReset
    split
    · exact ⟨ticked.trans (.of_parts rfl rfl rfl rfl rfl) (.inl fun _ => rfl), rfl⟩
    · exact ⟨ticked.trans (.of_parts rfl rfl rfl rfl rfl) (.inl fun _ => rfl), rfl⟩
  exact watched.1.trans State.enqueue_orderly (.inl fun _ => rfl)

theorem State.tick_orderly : Orderly s s.tick := by
  unfold State.tick State.tickInReset
  split
  · split
    · split
      · exact State.enqueue_orderly
      · exact .refl s
    · exact .refl s
  · exact State.tickRunning_orderly

/-! ### Commands and steps -/

theorem State.awake_orderly {f : State → State} (h : Orderly s (f s)) : Orderly s (s.awake f) := by
  unfold State.awake
  split
  · exact .refl s
  · exact h

theorem State.ignitionRise_orderly : Orderly s s.ignitionRise := by
  unfold State.ignitionRise
  split
  · rename_i h
    split
    · rename_i k
      exact (State.acceptPlan_decided h.2 k.2.1).toOrderly
    · exact .of_acts (.raise _)
  · exact .refl s

theorem State.census_ignitionRise (n : Chan) : (s.ignitionRise.chan n).census = (s.chan n).census := by
  unfold State.ignitionRise
  split
  · split
    · obtain ⟨table, started, -⟩ := s.planStart_eq .stow .ignition
      unfold State.acceptPlan
      rw [started]
      exact (drain_acts (.cons (t := .beginStep) trivial .nil)).census n
    · exact (Acts.raise (s := s) .plan).census n
  · rfl

theorem State.ignHigh_orderly : Orderly s s.ignHigh :=
  (State.accept_orderly (by simp)).trans State.ignitionRise_orderly (.inl State.census_ignitionRise)

theorem State.supplySample_orderly {raw : Sample} : Orderly s (s.event fun u => u.supplyTaken raw.toNat) :=
  State.event_orderly State.supplyTaken_orderly.1 State.supplyTaken_orderly.2

end

/-- Every command but the end of a reset is orderly. -/
theorem exec_orderly {c : Instr} {s t : State} (h : exec c s = .next t) (notEnd : c ≠ .resetEnd) : Orderly s t := by
  cases c
  case resetEnd => exact absurd rfl notEnd
  case coldReset => cases h; exact State.beginReset_orderly
  case warmReset => cases h; exact State.beginReset_orderly
  all_goals
    cases h
    refine State.awake_orderly ?_
  case initialAcceptedLevel => exact State.initialLevels_orderly
  case storeWriteComplete => exact State.storeWriteComplete_orderly
  case linkCharacter => exact State.character_orderly
  case partialFrameTimeout => exact State.frameExpired_orderly
  case replySent => exact State.replySent_orderly
  case censusRead => exact State.censusRead_orderly
  case recensusPass => exact State.recensus_orderly
  case confirmingRead => exact State.confirmingRead_orderly
  case stoppingEnd => exact State.stoppingEnd_orderly
  case dwellEnd => exact State.dwellEnd_orderly
  case rampStep => exact State.rampStep_orderly
  case analogSample => exact State.analogSample_orderly
  case overcurrent => exact State.overcurrent_orderly
  case contactLost => exact State.lossReached_orderly
  case plsPulse => exact State.plsPulse_orderly
  case pulseNoise => exact State.noiseReached_orderly
  case stall => exact State.stallReached_orderly
  case wndPulse => exact State.wndPulse_orderly
  case windSpeedTick => exact State.windTick_orderly
  case gustHoldReached => exact State.gustHold_orderly
  case calmHoldReached => exact State.calmHold_orderly
  case roomHomeClosed => exact State.homeOf_orderly
  case roomHomeOpened => exact State.homeOf_orderly
  case roomSeatDeadline => exact State.seatReached_orderly
  case roomRunTimeout => exact State.slideTimeout_orderly
  case jackHomeClosed => exact State.homeOf_orderly
  case jackHomeOpened => exact State.homeOf_orderly
  case jackRunTimeout => exact State.jackRunOut_orderly
  case tiltSample => exact State.tiltTaken_orderly
  case contactPhaseTimeout => exact State.activeFault_orderly
  case settleEnd => exact State.settleDone_orderly
  case passTimeout => exact State.activeFault_orderly
  case awningHomeClosed => exact State.homeOf_orderly
  case awningHomeOpened => exact State.homeOf_orderly
  case awningSeatDeadline => exact State.seatReached_orderly
  case awningRunTimeout => exact State.slideTimeout_orderly
  case holdDeadline => exact State.holdReached_orderly
  case parkSet => exact State.parkHigh_orderly
  case parkReleased => exact State.parkLow_orderly
  case ignRise => exact State.ignHigh_orderly
  case faultPatternEnd => exact State.patternEnd_orderly
  case motionPeriod => exact State.periodBegins_orderly
  case supplySample => exact State.supplySample_orderly
  case pauseLimit => exact State.pauseReached_orderly
  all_goals exact State.takeRequest_orderly

theorem exec_keeps {c : Instr} {s t : State} (h : exec c s = .next t) : Keeps s t := by
  by_cases e : c = .resetEnd
  · subst e
    cases h
    split
    · exact State.endReset_keeps
    · exact .refl s
  · exact (exec_orderly h e).toKeeps

theorem Quiet.dequeue {s : State} {l : List Instr} : Orderly s { s with pending := l } :=
  .of_parts rfl rfl rfl rfl rfl

/-- A step keeps the laws of order. -/
theorem step_keeps {s t : State} (h : step s = .next t) : Keeps s t := by
  unfold step at h
  split at h
  · cases h
    exact State.tick_orderly.toKeeps
  · rename_i c rest _
    exact Keeps.trans (Quiet.dequeue (l := rest)).toKeeps (exec_keeps h) (.inr fun _ d => d)

/-- A step out of reset keeps the laws of the counts. -/
theorem step_orderly {s t : State} (h : step s = .next t) (awake : s.inReset = none) : Orderly s t := by
  unfold step at h
  split at h
  · cases h
    exact State.tick_orderly
  · rename_i c rest _
    refine (Quiet.dequeue (l := rest)).trans ?_ (.inr fun _ d => d)
    by_cases e : c = .resetEnd
    · subst e
      cases h
      simp only [awake]
      exact .refl _
    · exact exec_orderly h e

/-- Settles O54. -/
theorem buffersStayCanonical : Obligations.BuffersStayCanonical := by
  unfold Obligations.BuffersStayCanonical
  intro s t staging stored h
  exact (step_keeps h).buffers ⟨staging, stored⟩

/-- Settles O55. -/
theorem budgetIsNeverExceeded : Obligations.BudgetIsNeverExceeded := by
  unfold Obligations.BudgetIsNeverExceeded
  intro s t units h
  exact (step_keeps h).budget units

/-- Settles O56. -/
theorem writeFindsNoClaim : Obligations.WriteFindsNoClaim := by
  unfold Obligations.WriteFindsNoClaim
  intro s t free h
  exact (step_keeps h).writes free

/-- Settles O57. -/
theorem roadListsStayEmpty : Obligations.RoadListsStayEmpty := by
  unfold Obligations.RoadListsStayEmpty
  intro s t empty h
  exact (step_keeps h).road empty

/-- Settles O58. -/
theorem portLimitsHold : Obligations.PortLimitsHold := by
  unfold Obligations.PortLimitsHold
  intro s t bounds h
  exact (step_keeps h).ports bounds

end Sys2Proof.Machine
end

section
/-! PROOFS. The state after reset meets the invariants. -/

namespace Sys2Proof.Machine

/-- No channel has a role, no motion is under way, and every law of the device holds (log 5). -/
theorem State.lawful_reset : Safety.lawful State.reset = true := by decide

theorem State.role_reset (n : Chan) : State.reset.role n = .none := by
  revert n
  decide

theorem State.chan_reset (n : Chan) : State.reset.chan n = freshChannel .unused true := by
  revert n
  decide

theorem State.regular_reset : Safety.Regular State.reset where
  awake := rfl
  roles i _ _ _ := State.role_reset i
  actions e h := absurd h (by simp [State.reset])
  plans n := ⟨by cases n <;> decide, fun st h => absurd h (by cases n <;> simp [State.reset, Layout.empty, Layout.planSteps])⟩
  planned h := absurd h (by decide)
  sequenced e h := absurd h (by simp [State.reset])
  lists := by decide
  claims := by decide
  writes := by decide
  permits := by decide
  drives n h := by
    rw [State.chan_reset] at h
    exact absurd h (by decide)
  jacks e h := absurd h (by simp [State.reset])
  shown e h := absurd h (by simp [State.reset])
  level h := absurd h (by decide)

/-- Settles O60: the reset state is closed, and each law is evaluated on it. -/
theorem resetMeetsTheInvariants : Obligations.ResetMeetsTheInvariants := by
  unfold Obligations.ResetMeetsTheInvariants
  refine ⟨State.reset_wf.1, State.reset_wf.2, by decide, fun w => absurd w (by decide), fun _ => ⟨rfl, rfl, by decide⟩, fun p => ?_,
    State.lawful_reset, State.regular_reset, by decide⟩
  cases p <;> decide

end Sys2Proof.Machine
end

section
/-! PROOFS. The links of the master ports: discarded frames (R163), the assembly of frames (R160 to R162), replies (R165,
R170), and the transmit line (R159). -/

namespace Sys2Proof.Machine

section
variable {s : State} {p q : Port} {k : RequestKind} {f : List Byte} {c : Instr} {b : Byte}

/-! ### Discards -/

theorem State.port_discardFrame (q : Port) : (s.discardFrame p).port q =
    if p = q then
      { s.port q with
        linkErrors := min 255 ((s.port q).linkErrors + 1), pending := (s.port q).pending ||| 0x800#12 }
    else { s.port q with pending := (s.port q).pending ||| 0x800#12 } := by
  have bit : Notice.link.bit = 0x800#12 := by decide
  unfold State.discardFrame
  dsimp only
  rw [State.port_raise, State.port_setPort, bit]
  split
  · rename_i same
    subst same
    rfl
  · rfl

theorem State.port_setFrame (f : Option PartialFrame) (q : Port) : (s.setFrame p f).port q =
    if p = q then { s.port q with frame := f } else s.port q := by
  unfold State.setFrame
  rw [State.port_setPort]
  split
  · rename_i same
    subst same
    rfl
  · rfl

/-- A discarded frame counts, whatever becomes of the port's partial frame beside it. -/
theorem State.discardFrame_discarded : Discarded p s (s.discardFrame p) where
  rest := rfl
  port := by simp [State.port_discardFrame]
  others q h := by rw [State.port_discardFrame, if_neg (Ne.symm h)]

theorem State.setFrame_discardFrame_discarded {x : Option PartialFrame} :
    Discarded p s ((s.setFrame p x).discardFrame p) where
  rest := rfl
  port := by simp [State.port_discardFrame, State.port_setFrame]
  others q h := by rw [State.port_discardFrame, if_neg (Ne.symm h), State.port_setFrame, if_neg (Ne.symm h)]

theorem State.discardFrame_setFrame_discarded {x : Option PartialFrame} :
    Discarded p s ((s.discardFrame p).setFrame p x) where
  rest := rfl
  port := by simp [State.port_discardFrame, State.port_setFrame]
  others q h := by rw [State.port_setFrame, if_neg (Ne.symm h), State.port_discardFrame, if_neg (Ne.symm h)]

@[simp] theorem State.frame_discardFrame : ((s.discardFrame p).port p).frame = (s.port p).frame := by
  simp [State.port_discardFrame]

@[simp] theorem State.frame_setFrame {x : Option PartialFrame} : ((s.setFrame p x).port p).frame = x := by
  simp [State.port_setFrame]

/-! ### The assembly of a frame -/

theorem exec_linkCharacter {mark stop : Bool} (awake : s.inReset = none) :
    exec (.linkCharacter p b mark stop) s = .next (s.character p b mark stop) := by
  change Host.Outcome.next (s.awake fun t => t.character p b mark stop) = _
  simp [State.awake, awake]

theorem fieldByte_zero (l : List Byte) : fieldByte l 0 = l.headD 0 := by
  cases l <;> rfl

theorem State.character_framing {mark : Bool} : s.character p b mark false = (s.setFrame p none).discardFrame p := rfl

theorem State.character_marked : s.character p b true true = s.markedCharacter p b := rfl

theorem State.character_unmarked : s.character p b false true = s.unmarkedCharacter p b := rfl

/-- A byte that joins a partial frame short of its length. -/
theorem State.unmarkedCharacter_grows {x : PartialFrame} (held : (s.port p).frame = some x)
    (kind : kindOfByte (x.bytes.headD 0) = some k) (short : x.bytes.length + 1 < k.length) :
    s.unmarkedCharacter p b = s.setFrame p (some { x with bytes := x.bytes ++ [b] }) := by
  rw [← fieldByte_zero] at kind
  simp [State.unmarkedCharacter, held, kind, short]

/-- A byte that completes a partial frame. -/
theorem State.unmarkedCharacter_completes {x : PartialFrame} (held : (s.port p).frame = some x)
    (kind : kindOfByte (x.bytes.headD 0) = some k) (full : x.bytes.length + 1 = k.length) :
    s.unmarkedCharacter p b = (s.setFrame p none).checkFrame p k (x.bytes ++ [b]) := by
  rw [← fieldByte_zero] at kind
  simp [State.unmarkedCharacter, held, kind, full]

theorem State.advanceTo_past {moment : Time} (h : moment ≤ s.now) : s.advanceTo moment = s := by
  rw [State.advanceTo, if_neg (Nat.not_lt.mpr h)]

end

/-- Settles O11: each discard is the frame's own, beside the port's partial frame. -/
theorem discardsAreCounted : Obligations.DiscardsAreCounted := by
  unfold Obligations.DiscardsAreCounted
  intro s p awake
  refine ⟨fun b mark => ?_, fun b noKind idle => ?_, fun b f noKind held => ?_, fun b k f kind held => ?_,
    fun b k kind idle => ?_, fun b idle => ?_, fun b k f held kind short _ => ?_, fun b k f held kind full _ bad => ?_,
    fun f held past => ?_, fun c k f request full => ?_⟩
  · exact ⟨_, exec_linkCharacter awake, State.setFrame_discardFrame_discarded, by simp [State.character_framing]⟩
  · refine ⟨_, exec_linkCharacter awake, ?_⟩
    rw [State.character_marked, State.markedCharacter, idle]
    simp only [noKind, Option.isSome_none, Bool.false_eq_true, if_false]
    exact ⟨State.setFrame_discardFrame_discarded, by simp⟩
  · refine ⟨s.discardFrame p, _, exec_linkCharacter awake, State.discardFrame_discarded, ?_⟩
    rw [State.character_marked, State.markedCharacter, held]
    simp only [noKind, Option.isSome_some, if_true]
    exact ⟨State.setFrame_discardFrame_discarded, by simp⟩
  · refine ⟨_, exec_linkCharacter awake, ?_⟩
    rw [State.character_marked, State.markedCharacter, held]
    simp only [kind, Option.isSome_some, if_true]
    exact ⟨State.discardFrame_setFrame_discarded, by simp⟩
  · rw [exec_linkCharacter awake, State.character_marked, State.markedCharacter, idle]
    simp only [kind, Option.isSome_none, Bool.false_eq_true, if_false]
    rfl
  · rw [exec_linkCharacter awake, State.character_unmarked, State.unmarkedCharacter, idle]
  · rw [exec_linkCharacter awake, State.character_unmarked, State.unmarkedCharacter_grows held kind short]
    rfl
  · refine ⟨_, exec_linkCharacter awake, ?_⟩
    rw [State.character_unmarked, State.unmarkedCharacter_completes held kind full, State.checkFrame, if_neg bad]
    exact ⟨State.setFrame_discardFrame_discarded, by simp⟩
  · refine ⟨_, rfl, ?_⟩
    have due : f.expiry ≤ s.now := past
    have expired : (s.awake fun t => t.frameExpired p) = (s.setFrame p none).discardFrame p := by
      simp [State.awake, awake, State.frameExpired, held, State.comes_of_le s due, State.advanceTo_past due]
    change Discarded p s (s.awake fun t => t.frameExpired p) ∧ _
    rw [expired]
    exact ⟨State.setFrame_discardFrame_discarded, by simp⟩
  · refine ⟨_, exec_request request, ?_⟩
    have taken : (s.awake fun t => t.takeRequest p k (requestOfFields k f)) = s.discardFrame p := by
      have full : 4 ≤ (s.port p).replies.length := Nat.not_lt.mp full
      simp [State.awake, awake, State.takeRequest, full]
    rw [taken]
    exact ⟨State.discardFrame_discarded, by simp⟩

section
variable {s : State} {p q : Port} {k : RequestKind} {a : Answer} {b : Byte}

/-! ### Replies -/

theorem sumBytes_append (l r : List Byte) : sumBytes (l ++ r) = sumBytes l + sumBytes r := by
  simp [sumBytes]

/-- The check byte brings the sum of a frame to 0 (R162). -/
theorem sumBytes_frameOf (kind : Byte) (l : List Byte) : sumBytes (frameOf kind l) % 256 = 0 := by
  have check : sumBytes [checkByte (kind :: l)] = (256 - sumBytes (kind :: l) % 256) % 256 := by
    simp [sumBytes, checkByte, byteOf]
  rw [frameOf, sumBytes_append, check]
  omega

/-- Every reply is a frame of its kind that names the request's kind. -/
theorem replyFrame_eq (k : RequestKind) (a : Answer) : ∃ rest, replyFrame k a = frameOf (match a with
    | .accepted _ _ _ => 0x80
    | .refused _ _ _ => 0x81
    | .status _ => 0x82
    | .axis _ _ => 0x83
    | .segment _ _ => 0x84) (k.code :: rest) := by
  cases a <;> exact ⟨_, rfl⟩

theorem State.port_answered : (s.answered p k a).port p = { s.port p with
    replies := (s.port p).replies ++ [replyFrame k a]
    headSince := if (s.port p).replies.isEmpty then some s.now else (s.port p).headSince } := by
  simp [State.answered, State.queueReply]

/-! ### The transmit line -/

theorem characterBits_length (b : Byte) (mark : Bool) : (characterBits b mark).length = 11 := rfl

theorem characterBits_getD {mark : Bool} {j : Nat} (h : j < 11) : (characterBits b mark).getD j true =
    if j = 0 then false else if j ≤ 8 then b.getLsbD (j - 1) else if j = 9 then mark else true := by
  interval_cases j <;> simp [characterBits]

/-- The bits of the unmarked characters of a frame, eleven to a character. -/
theorem flatten_characterBits_getD {l : List Byte} {i j : Nat} (h : l[i]? = some b) (hj : j < 11) :
    (l.map fun c => characterBits c false).flatten.getD (11 * i + j) true = (characterBits b false).getD j true := by
  induction l generalizing i with
  | nil => simp at h
  | cons c rest ih =>
    rw [List.map_cons, List.flatten_cons]
    cases i with
    | zero =>
      obtain rfl : c = b := by simpa using h
      rw [Nat.mul_zero, Nat.zero_add, List.getD_append _ _ _ _ (by rwa [characterBits_length])]
    | succ i =>
      rw [List.getD_append_right _ _ _ _ (by rw [characterBits_length]; omega), characterBits_length,
        show 11 * (i + 1) + j - 11 = 11 * i + j by omega]
      exact ih (by simpa using h)

theorem frameBits_getD {l : List Byte} {i j : Nat} (h : l[i]? = some b) (hj : j < 11) :
    (frameBits l).getD (11 * i + j) true = (characterBits b (decide (i = 0))).getD j true := by
  cases l with
  | nil => simp at h
  | cons c rest =>
    unfold frameBits
    cases i with
    | zero =>
      obtain rfl : c = b := by simpa using h
      rw [Nat.mul_zero, Nat.zero_add, List.getD_append _ _ _ _ (by rwa [characterBits_length])]
      rfl
    | succ i =>
      rw [List.getD_append_right _ _ _ _ (by rw [characterBits_length]; omega), characterBits_length,
        show 11 * (i + 1) + j - 11 = 11 * i + j by omega]
      exact flatten_characterBits_getD (by simpa using h) hj

end

/-- Settles O13: a reply is a frame of its kind, and its characters are lists of eleven bits. -/
theorem repliesJoinTheQueue : Obligations.RepliesJoinTheQueue := by
  unfold Obligations.RepliesJoinTheQueue
  intro s p k a
  obtain ⟨rest, frame⟩ := replyFrame_eq k a
  refine ⟨by rw [State.port_answered], fun empty => by simp [State.port_answered, empty],
    fun busy => by simp [State.port_answered, busy], fun q other => State.port_answered_of_ne other, rfl, ?_, ?_,
    fun phase idle => by simp [State.txOut, idle], fun f rest start i b j phase sent since byte bits now => ?_⟩
  · rw [frame]
    exact sumBytes_frameOf _ _
  · exact ⟨_, rest ++ _, frame, rfl⟩
  · have bit : bitsSent s.straps.rate (s.now - start) phase = 11 * i + j := now
    rw [State.txOut, sent, since]
    dsimp only
    rw [bit, frameBits_getD byte bits, characterBits_getD bits]

end Sys2Proof.Machine
end

section
/-! PROOFS. The requests in general: refusals (R170), frames and the requests they carry (R159 to R164), the timers of a link
(R161, R165), LAYOUT_LOAD (R178), and the checks of motion requests (R111, R113, R127). -/

namespace Sys2Proof.Machine

section
variable {s t : State} {p q : Port} {k : RequestKind} {f : List Byte} {c : Instr} {g : Group} {a : Action} {m : Mode}

/-! ### Refusals -/

/-- A request in range reaches the block that decides it. -/
theorem exec_decided {q : Request} (request : requestOf c = some (p, k, f)) (range : requestOfFields k f = some q)
    (awake : s.inReset = none) (room : s.hasRoom p) :
    exec c s = .next ((s.decideRequest p q).1.answered p k (s.decideRequest p q).2) := by
  rw [exec_request request, range, State.awake_takeRequest awake room]
  rfl

/-- Where the answer refuses, the state is the one asked in. -/
def RefusesIdly (s : State) (w : State × Answer) : Prop := ∀ r x y, w.2 = .refused r x y → w.1 = s

theorem RefusesIdly.same {a : Answer} : RefusesIdly s (s, a) := fun _ _ _ _ => rfl

theorem RefusesIdly.accepted {x y z : Bool} : RefusesIdly s (t, .accepted x y z) := nofun

theorem State.changeMotion_refuses (b : Claim) : RefusesIdly s (s.changeMotion p g b a) := by
  have replaced : RefusesIdly s (match s.fullRefusal .hold g a with
      | some r => (s, r)
      | none => s.replaceMotion p g a) := by
    split
    · exact .same
    · exact .accepted
  unfold State.changeMotion
  split
  · split
    · split
      · exact .same
      · exact .accepted
    · exact replaced
  · exact replaced

theorem State.motionRequest_refuses : RefusesIdly s (s.motionRequest p m g a) := by
  unfold State.motionRequest
  split
  · split_ifs
    · exact .accepted
    · exact .same
    · exact .same
    · exact .same
    · exact State.changeMotion_refuses _
    · exact .same
  · split_ifs
    · exact .same
    · exact .same
    · exact .same
    · split
      · exact .same
      · exact .accepted

theorem State.releaseGroup_refuses : RefusesIdly s (s.releaseGroup p g) := by
  unfold State.releaseGroup
  split
  · exact .same
  · split_ifs
    · exact .accepted
    · exact .same

theorem State.clearFault_refuses : RefusesIdly s (s.clearFault g) := by
  unfold State.clearFault
  split_ifs
  · exact .same
  · split
    · exact .same
    · exact .accepted

theorem State.runPlan_refuses (n : PlanName) : RefusesIdly s (s.runPlan p n) := by
  unfold State.runPlan
  split_ifs
  · exact .same
  · exact .same
  · exact .same
  · exact .same
  · split
    · exact .same
    · exact .accepted

theorem State.loadSegment_refuses (n : Fin 32) (data : Vector Byte 16) : RefusesIdly s (s.loadSegment n data) := by
  unfold State.loadSegment
  split_ifs
  · exact .same
  · exact .accepted

theorem State.commit_refuses : RefusesIdly s s.commit := by
  unfold State.commit
  split_ifs
  · exact .same
  · exact .same
  · split
    · exact .same
    · split
      · exact .same
      · exact .accepted

/-- No block changes the state and then refuses. -/
theorem State.decideRequest_refuses (q : Request) : RefusesIdly s (s.decideRequest p q) := by
  cases q with
  | move g d => exact State.motionRequest_refuses
  | auto g a => exact State.motionRequest_refuses
  | moveJack j d => exact State.motionRequest_refuses
  | release g => exact State.releaseGroup_refuses
  | stop => exact .accepted
  | clearFault g => exact State.clearFault_refuses
  | runPlan n => exact State.runPlan_refuses n
  | status => exact .same
  | readAxis n a => exact .same
  | ack c => exact .accepted
  | route c => exact .accepted
  | layoutLoad n data => exact State.loadSegment_refuses n data
  | layoutRead n => exact .same
  | layoutCommit => exact State.commit_refuses

end

/-- Settles O17: no block changes the state and then refuses. -/
theorem refusalsChangeNothing : Obligations.RefusalsChangeNothing := by
  unfold Obligations.RefusalsChangeNothing
  intro s c p k f q r x y awake request room range refused
  rw [exec_decided request range awake room, State.decideRequest_refuses q r x y refused, refused]
  rfl

section
variable {s : State} {p : Port} {k : RequestKind} {c : Instr} {b : Byte} {x : PartialFrame}

/-! ### A request character by character -/

theorem State.setPort_setPort (r u : PortRec) : (s.setPort p r).setPort p u = s.setPort p u := by
  simp [State.setPort, Vector.set_set]

theorem State.setPort_port : s.setPort p (s.port p) = s := by
  simp [State.setPort, State.port]

theorem State.setFrame_setFrame (f g : Option PartialFrame) : (s.setFrame p f).setFrame p g = s.setFrame p g := by
  simp [State.setFrame, State.setPort_setPort]

theorem State.setFrame_of_frame {f : Option PartialFrame} (h : (s.port p).frame = f) : s.setFrame p f = s := by
  subst h
  exact State.setPort_port

theorem State.inReset_setFrame (f : Option PartialFrame) : (s.setFrame p f).inReset = s.inReset := rfl

/-- The unmarked characters that fill a partial frame up to the length of its kind have the frame checked. -/
theorem runAll_fills (awake : s.inReset = none) (kind : kindOfByte (x.bytes.headD 0) = some k) (started : x.bytes ≠ [])
    (l : List Byte) (more : l ≠ []) (full : x.bytes.length + l.length = k.length) :
    runAll (l.map fun c => .linkCharacter p c false true) (s.setFrame p (some x)) =
      (s.setFrame p none).checkFrame p k (x.bytes ++ l) := by
  induction l generalizing x with
  | nil => exact absurd rfl more
  | cons b rest ih =>
    have head : ((x.bytes ++ [b]).headD 0) = x.bytes.headD 0 := by
      cases h : x.bytes with
      | nil => exact absurd h started
      | cons _ _ => rfl
    rw [List.map_cons, runAll, exec_linkCharacter (by exact awake), State.character_unmarked]
    cases rest with
    | nil =>
      rw [State.unmarkedCharacter_completes (x := x) (by simp) kind (by simpa using full), State.setFrame_setFrame]
      rfl
    | cons c rest =>
      rw [State.unmarkedCharacter_grows (x := x) (by simp) kind (by simp at full; omega), State.setFrame_setFrame]
      dsimp only
      rw [ih (x := { x with bytes := x.bytes ++ [b] }) (head ▸ kind) (by simp) (by simp) (by simp at full ⊢; omega),
        List.append_assoc]
      rfl

theorem kindOfByte_code (k : RequestKind) : kindOfByte k.code = some k := by
  cases k <;> rfl

/-- The frame of a request has the length of its kind (R164). -/
theorem requestOf_length {f : List Byte} (h : requestOf c = some (p, k, f)) : f.length + 2 = k.length := by
  suffices ranges : Laws.FieldRanges.Statement c from (ranges p k f h).1
  match c, h with
  | .move .., _ => exact Laws.FieldRanges.move _ _ _
  | .auto .., _ => exact Laws.FieldRanges.auto _ _ _
  | .moveJack .., _ => exact Laws.FieldRanges.moveJack _ _ _
  | .release .., _ => exact Laws.FieldRanges.release _ _
  | .stop _, _ => exact Laws.FieldRanges.stop _
  | .clearFault .., _ => exact Laws.FieldRanges.clearFault _ _
  | .runPlan .., _ => exact Laws.FieldRanges.runPlan _ _
  | .status _, _ => exact Laws.FieldRanges.status _
  | .readAxis .., _ => exact Laws.FieldRanges.readAxis _ _
  | .ack .., _ => exact Laws.FieldRanges.ack _ _
  | .route .., _ => exact Laws.FieldRanges.route _ _
  | .layoutLoad .., _ => exact Laws.FieldRanges.layoutLoad _ _ _
  | .layoutRead .., _ => exact Laws.FieldRanges.layoutRead _ _
  | .layoutCommit _, _ => exact Laws.FieldRanges.layoutCommit _

end

/-- Settles O18: the marked character begins the frame, the others fill it, and its check sums to 0. -/
theorem framesActAsRequests : Obligations.FramesActAsRequests := by
  unfold Obligations.FramesActAsRequests
  intro s c p k f awake request idle
  have filled := runAll_fills (p := p) (x := { bytes := [k.code], first := s.now }) awake (kindOfByte_code k) (by simp)
    (f ++ [checkByte (k.code :: f)]) (by simp) (by have := requestOf_length request; simp; omega)
  rw [State.setFrame_of_frame idle] at filled
  have marked : s.character p k.code true true = s.setFrame p (some { bytes := [k.code], first := s.now }) := by
    simp [State.character_marked, State.markedCharacter, idle, kindOfByte_code]
  have check : sumBytes ([k.code] ++ (f ++ [checkByte (k.code :: f)])) % 256 = 0 := sumBytes_frameOf k.code f
  rw [exec_request request]
  change _ = Host.Outcome.next (runAll (.linkCharacter p k.code true true ::
    (f ++ [checkByte (k.code :: f)]).map fun c => .linkCharacter p c false true) s)
  rw [runAll, exec_linkCharacter awake, marked]
  dsimp only
  rw [filled, State.checkFrame, if_pos check]
  simp [State.awake, awake]

section
variable {s : State} {p : Port}

/-! ### The timers of a link -/

theorem exec_awake {f : State → State} (awake : s.inReset = none) : s.awake f = f s := by
  simp [State.awake, awake]

theorem State.port_advanceTo (moment : Time) : (s.advanceTo moment).port p = s.port p := by
  have kept := (clockMovesToTheMoment s moment).2.2.2.2
  have ports : (s.advanceTo moment).ports = s.ports := by
    have e := congrArg State.ports kept
    exact e
  rw [State.port, ports]
  rfl

end

/-- Settles O19: both timers have a moment that the clock is moved on to, or that does not come. -/
theorem linkTimersRunOut : Obligations.LinkTimersRunOut := by
  unfold Obligations.LinkTimersRunOut
  intro s p awake
  have expires : exec (.partialFrameTimeout p) s = .next (s.frameExpired p) := congrArg _ (exec_awake awake)
  have sends : exec (.replySent p) s = .next (s.replySent p) := congrArg _ (exec_awake awake)
  refine ⟨fun idle => ?_, fun f due held moment => ⟨fun late => ?_, fun now => ⟨_, expires, ?_⟩⟩, fun empty => ?_,
    fun r rest start due u sent since moment after => ⟨fun late => ?_, fun now => ?_⟩⟩
  · rw [expires, State.frameExpired, idle]
  · subst moment
    have late : s.comes f.expiry = false := late
    simp [expires, State.frameExpired, held, late]
  · subst moment
    have now : s.comes f.expiry = true := now
    have discarded : s.frameExpired p = ((s.advanceTo f.expiry).setFrame p none).discardFrame p := by
      simp [State.frameExpired, held, now]
    rw [discarded]
    exact ⟨State.setFrame_discardFrame_discarded, by simp⟩
  · rw [sends, State.replySent, State.replyDue, empty]
  · subst moment
    simp [sends, State.replySent, State.replyDue, sent, since, late]
  · subst moment after
    simp [sends, State.replySent, State.replyDue, sent, since, now, State.port_advanceTo]

/-- Settles O15: the sixteen bytes are written from the first byte of the segment on. -/
theorem layoutLoadReplacesASegment : Obligations.LayoutLoadReplacesASegment := by
  unfold Obligations.LayoutLoadReplacesASegment
  intro s p segment data awake room range canonical
  have small : segment.toNat < 32 := by omega
  have fields : layoutLoadRequest segment data = some (.layoutLoad ⟨segment.toNat, small⟩ data) := by
    simp [layoutLoadRequest, segmentOfByte, small]
  have taken : exec (.layoutLoad p segment data) s = .next ((s.loadSegment ⟨segment.toNat, small⟩ data).1.answered p .layoutLoad
      (s.loadSegment ⟨segment.toNat, small⟩ data).2) := congrArg _ (State.awake_takeRequest awake room fields)
  have fits : 16 * segment.toNat + data.toList.length ≤ 512 := by simp; omega
  rw [taken]
  simp only [State.loadSegment]
  refine ⟨fun free => ⟨s.staging.writeAll (16 * segment.toNat) data.toList, by rw [free]; rfl, Image.wf_writeAll canonical fits, fun i => ?_, fun a outside => ?_⟩,
    fun busy => by rw [busy]; rfl⟩
  · have inside : 16 * segment.toNat ≤ 16 * segment.toNat + i.val ∧
        16 * segment.toNat + i.val - 16 * segment.toNat < data.toList.length := by
      have := i.isLt
      simp
    rw [Image.read_writeAll canonical fits, dif_pos inside]
    simp
  · have outside : ¬(16 * segment.toNat ≤ a ∧ a - 16 * segment.toNat < data.toList.length) := by simp; omega
    rw [Image.read_writeAll canonical fits, dif_neg outside]

section
variable {s : State} {p : Port} {m : Mode} {g : Group} {a : Action} {b : Claim}

/-! ### The checks of motion requests -/

/-- The model's checks 5 to 10 are those of the statements. -/
theorem State.fullRefusal_eq (s : State) (m : Mode) (g : Group) (a : Action) : s.fullRefusal m g a = s.verdict m g a := by
  unfold State.fullRefusal State.motionRefusal State.verdict
  simp only [State.unavailable, limpMove, State.tooSteep, State.fitsReplacing, Bool.and_eq_true, Bool.not_eq_true',
    Bool.or_eq_true, decide_eq_true_eq, decide_eq_false_iff_not, Nat.not_le]
  by_cases unavailable : ((s.groupChans g).any fun n => (s.chan n).census != .seated) = true
  · simp only [if_pos unavailable]
    rfl
  by_cases faulted : s.groupFaulted g = true ∧ (m == .hold && a.dir == .stowing) = false
  · simp only [if_neg unavailable, if_pos faulted]
    rfl
  by_cases homeless : s.homeFirst g a = true
  · simp only [if_neg unavailable, if_neg faulted, if_pos homeless]
    rfl
  simp only [if_neg unavailable, if_neg faulted, if_neg homeless]
  cases s.permitCause g a with
  | some c => rfl
  | none =>
    dsimp only
    split_ifs <;> rfl

/-- On a free group the first check that fails gives the answer, and without one the motion is accepted (R111, R112). -/
theorem State.motionRequest_free (free : s.claim g = none) : s.motionRequest p m g a =
    match s.firstChecks g a with
    | some r => (s, r)
    | none =>
      match s.verdict m g a with
      | some r => (s, r)
      | none => s.acceptMotion p m g a := by
  unfold State.motionRequest State.firstChecks
  rw [free, State.fullRefusal_eq]
  dsimp only
  split_ifs <;> rfl

/-- On a claimed group, where the request does not renew, the first three checks come before all others (R111, R113). -/
theorem State.motionRequest_claimed (claimed : s.claim g = some b)
    (other : ¬(m = .hold ∧ b.heldBy p = true ∧ b.action = a)) : s.motionRequest p m g a =
    match s.firstChecks g a with
    | some r => (s, r)
    | none => if m = .hold ∧ b.heldBy p = true then s.changeMotion p g b a else (s, Machine.heldBy b.owner) := by
  unfold State.motionRequest State.firstChecks
  rw [claimed]
  dsimp only
  rw [if_neg other]
  split_ifs <;> rfl

theorem State.supported_eq_false : s.supported = false ↔ s.jackSetState ≠ .stabilised ∧ s.jackSetState ≠ .levelled := by
  simp [State.supported]

theorem State.awningNotStowed_iff : s.awningNotStowed = true ↔ s.sliderState .awning ≠ .closed := by
  simp [State.awningNotStowed]

theorem State.windy_iff : s.windy = true ↔ s.wind.state = .gusty ∨ s.wind.state = .easing := by
  simp [State.windy]

theorem mem_allRooms (k : RoomId) : k ∈ allRooms := by revert k; decide

theorem State.roomsOut_iff :
    s.roomsOut = true ↔ ∃ k, s.configured (.room k) = true ∧ (s.rooms[k]).state ≠ .closed := by
  simp [State.roomsOut, mem_allRooms]

theorem State.permitCause_retract (retracts : a.retracts = true) : s.permitCause .jacks a =
    if s.roomsOut = true then some .roomsOut else if s.awningNotStowed = true then some .awningOut else none := by
  simp [State.permitCause, retracts]

theorem State.permitCause_extend (outward : a.retracts = false) : s.permitCause .jacks a = none := by
  simp [State.permitCause, outward]

end

/-- Settles O20: the model's checks are the statement's, and so are the rows of its permit table. -/
theorem motionChecksAreInOrder : Obligations.MotionChecksAreInOrder := by
  unfold Obligations.MotionChecksAreInOrder
  refine ⟨fun s p m g a c r awake room command free fails => ?_, fun s a => ⟨fun k => ?_, fun retract => ?_, fun extend => ?_, ?_⟩⟩
  · have answer : s.motionRequest p m g a = (s, r) := by
      rw [State.motionRequest_free free]
      obtain first | ⟨pass, later⟩ := fails
      · rw [first]
      · rw [pass, later]
    rw [exec_motionCommand awake room command, answer]
  · simp only [State.permitCause, State.supported_eq_false, State.awningNotStowed_iff]
  · have retracts : a.retracts = true := by
      obtain rfl | ⟨j, rfl⟩ := retract <;> rfl
    rw [State.permitCause_retract retracts]
    refine ⟨fun out => if_pos (State.roomsOut_iff.mpr out), fun closed => ?_⟩
    have inside : ¬ s.roomsOut = true := fun out => by
      obtain ⟨k, configured, opened⟩ := State.roomsOut_iff.mp out
      exact opened (closed k configured)
    rw [if_neg inside]
    simp only [State.awningNotStowed_iff, ne_eq, ite_not]
  · refine State.permitCause_extend ?_
    obtain rfl | rfl | ⟨j, rfl⟩ := extend <;> rfl
  · simp only [State.permitCause, State.windy_iff]

/-- Settles O24: a claim that the request does not turn is refused after the first three checks. -/
theorem heldGroupsAreRefused : Obligations.HeldGroupsAreRefused := by
  unfold Obligations.HeldGroupsAreRefused
  intro s p m g a c b awake room command claimed stranger
  have notHolder : ¬(m = .hold ∧ b.heldBy p = true) := fun ⟨hold, held⟩ => stranger ⟨hold, Claim.heldBy_iff.mp held⟩
  have answer : s.motionRequest p m g a = (s, (s.firstChecks g a).getD (heldBy b.owner)) := by
    rw [State.motionRequest_claimed claimed fun h => notHolder ⟨h.1, h.2.1⟩]
    cases s.firstChecks g a with
    | some r => rfl
    | none => exact if_neg notHolder
  rw [exec_motionCommand awake room command, answer]
  rfl

end Sys2Proof.Machine
end

section
/-! PROOFS. What resets leave (R183, R184, R57, R58, R90, R91, R103) and what their end chooses (R177, R3). -/

namespace Sys2Proof.Machine

section
variable {s : State} {k : ResetKind} {straps : Straps} {n : Chan} {p : Port} {l : Line} {id : Slider} {j : JackId}

/-! ### A reset begins -/

/-- The state before a reset with the axis records that the reset leaves. -/
def State.resetAxes (s : State) : ResetKind → State
  | .cold => s.coldAxes
  | .warm => s.warmAxes

theorem State.beginReset_eq : s.beginReset k straps =
    { (s.resetAxes k).cutWrite.cleared with inReset := some k, straps := straps, resetLow := 0 } := by
  cases k <;> rfl

theorem exec_resetCommand : exec (resetCommand k straps) s = .next (s.beginReset k straps) := by
  cases k <;> rfl

/-- The cut of a write changes the store alone. -/
theorem State.cutWrite_eq (s : State) : s.cutWrite = { s with stored := s.cutWrite.stored, write := none } := by
  unfold State.cutWrite
  split
  · rfl
  · rename_i idle
    have none : s.write = none := by simpa using idle
    exact (congrArg (fun w => ({ s with write := w } : State)) none)

theorem State.kept_resetAxes (s : State) (k : ResetKind) : (s.resetAxes k).layout = s.layout ∧
    (s.resetAxes k).staging = s.staging ∧ (s.resetAxes k).now = s.now ∧ (s.resetAxes k).pins = s.pins ∧
    (s.resetAxes k).pending = s.pending ∧ (s.resetAxes k).write = s.write ∧ (s.resetAxes k).stored = s.stored := by
  cases k <;> exact ⟨rfl, rfl, rfl, rfl, rfl, rfl, rfl⟩

/-- The state that a reset leaves, taken apart: what it clears, what it names, and what stands. -/
theorem State.beginReset_fields : (s.beginReset k straps).layout = s.layout ∧
    (s.beginReset k straps).staging = s.staging ∧ (s.beginReset k straps).now = s.now ∧
    (s.beginReset k straps).pins = s.pins ∧ (s.beginReset k straps).pending = s.pending ∧
    (s.beginReset k straps).write = none := by
  obtain ⟨layout, staging, now, pins, pending, -, -⟩ := s.kept_resetAxes k
  rw [State.beginReset_eq, State.cutWrite_eq]
  exact ⟨layout, staging, now, pins, pending, rfl⟩

theorem State.chan_beginReset : (s.beginReset k straps).chan n = freshChannel .empty false := by
  rw [State.beginReset_eq]
  exact Vector.getElem_replicate ..

theorem State.paceRec_beginReset : (s.beginReset k straps).paceRec n = clearedPace := by
  rw [State.beginReset_eq]
  exact Vector.getElem_replicate ..

theorem State.port_beginReset : (s.beginReset k straps).port p = freshPort := by
  rw [State.beginReset_eq]
  exact Vector.getElem_replicate ..

theorem State.lines_beginReset (n : Chan) : (s.beginReset k straps).lines[n] = freshLines := by
  rw [State.beginReset_eq]
  exact Vector.getElem_replicate ..

theorem State.line_beginReset : (s.beginReset k straps).line l = freshLine := by
  cases l with
  | hom n | sea n | seb n | knd1 n | knd0 n => simp only [State.line, State.lines_beginReset, freshLines]
  | park | ign =>
    rw [State.beginReset_eq]
    rfl

end

/-- Settles O4: a reset of either kind clears every record but the store, and the axes, of which O5 speaks. -/
theorem resetClearsTheBlock : Obligations.ResetClearsTheBlock := by
  unfold Obligations.ResetClearsTheBlock
  intro s k straps
  obtain ⟨layout, staging, now, pins, pending, -⟩ := s.beginReset_fields (k := k) (straps := straps)
  refine ⟨_, exec_resetCommand, by rw [State.beginReset_eq], by rw [State.beginReset_eq], fun n => ?_, fun l => State.line_beginReset,
    fun p => ?_, ?_, fun g => ?_, ?_⟩
  · refine ⟨?_, ?_, fun phase => ?_, ?_, State.paceRec_beginReset⟩
    · rw [State.enOut, State.chan_beginReset]
      rfl
    · rw [State.dirOut, State.chan_beginReset]
      rfl
    · rw [State.drvOut, State.chan_beginReset]
      rfl
    · rw [State.chan_beginReset]
      rfl
  · refine ⟨?_, fun phase => ?_⟩
    · rw [State.attn, State.beginReset_eq]
      rfl
    · rw [State.txOut, State.port_beginReset]
      rfl
  · rw [State.beginReset_eq]
    rfl
  · rw [State.beginReset_eq]
    exact Vector.getElem_replicate ..
  · refine ⟨?_, ?_, ?_, ?_, ?_, ?_, ?_, ?_, ?_, ?_, ?_, ?_, ?_, ?_, fun p => State.port_beginReset, layout, staging, now, pins,
      pending⟩ <;>
    · rw [State.beginReset_eq]
      rfl

section
variable {s : State} {k : ResetKind} {straps : Straps} {id : Slider} {j : JackId}

/-! ### The axis records under a reset -/

theorem State.axes_beginReset (s : State) (k : ResetKind) (straps : Straps) : (s.beginReset k straps).rooms = (s.resetAxes k).rooms ∧
    (s.beginReset k straps).awning = (s.resetAxes k).awning ∧ (s.beginReset k straps).jacks = (s.resetAxes k).jacks ∧
    (s.beginReset k straps).jackSet = (s.resetAxes k).jackSet := by
  rw [State.beginReset_eq, State.cutWrite_eq]
  exact ⟨rfl, rfl, rfl, rfl⟩

theorem State.slider_beginReset : (s.beginReset k straps).slider id = (s.resetAxes k).slider id := by
  obtain ⟨rooms, awning, -, -⟩ := s.axes_beginReset k straps
  cases id with
  | room r => exact congrArg (fun v => v[r]) rooms
  | awning => exact awning

theorem State.jack_beginReset : (s.beginReset k straps).jack j = (s.resetAxes k).jack j :=
  congrArg (fun v => v[j]) (s.axes_beginReset k straps).2.2.1

theorem State.slider_coldAxes : s.coldAxes.slider id = freshSlider := by
  cases id with
  | room r => exact Vector.getElem_replicate ..
  | awning => rfl

theorem State.slider_warmAxes : s.warmAxes.slider id = (s.slider id).warm (s.sliderInMotion id) := by
  cases id with
  | room r => exact ofFn_getElem _ r
  | awning => rfl

/-- A channel counts as just stopped within 50 ms of its last stop. -/
theorem State.justStopped_iff (o : Option Chan) : s.justStopped o = true ↔
    ∃ n l, o = some n ∧ (s.chan n).lastStop = some l ∧ s.now < l.time + ms 50 := by
  unfold State.justStopped
  cases o with
  | none => simp
  | some n =>
    cases h : (s.chan n).lastStop with
    | none => simp [h]
    | some l =>
      simp [h, coastTime]
      exact decide_eq_true_iff

/-- A room or the awning counts as in motion by an entry of its group, or a motor just stopped (R58, R103). -/
theorem State.sliderInMotion_iff : s.sliderInMotion id = true ↔ (s.entryOf id.group).isSome ∨
    ∃ m ∈ s.motors id, ∃ n l, s.motorChan id m = some n ∧ (s.chan n).lastStop = some l ∧ s.now < l.time + ms 50 := by
  simp only [State.sliderInMotion, Bool.or_eq_true, List.any_eq_true, State.justStopped_iff]

/-- A jack counts as in motion by the jack motion that names it, or a valve just stopped (R91). -/
theorem State.jackInMotion_iff : s.jackInMotion j = true ↔ (∃ e, s.jackMotion = some e ∧ j ∈ s.jacksOf e.action) ∨
    ∃ n l, s.roleChan (.jack j) = some n ∧ (s.chan n).lastStop = some l ∧ s.now < l.time + ms 50 := by
  unfold State.jackInMotion
  rw [Bool.or_eq_true, State.justStopped_iff]
  cases s.jackMotion with
  | none => simp
  | some e => simp

end

/-- Settles O5: the records are fresh after a cold reset, and those of R58 and R91 after a warm one. -/
theorem resetKeepsRestingAxes : Obligations.ResetKeepsRestingAxes := by
  unfold Obligations.ResetKeepsRestingAxes
  intro s straps
  refine ⟨⟨_, exec_resetCommand (k := .cold), fun id => ?_, fun j => ?_, ?_⟩, ⟨_, exec_resetCommand (k := .warm), fun id => ?_, fun j => ?_, ?_⟩⟩
  · simp only [State.motor, State.slider_beginReset, State.resetAxes, State.slider_coldAxes]
    exact ⟨rfl, rfl, rfl, rfl, fun m => by cases m <;> rfl⟩
  · simp only [State.jack_beginReset, State.resetAxes, State.jack_coldAxes]
    exact ⟨rfl, rfl, rfl, rfl, rfl, rfl, rfl, rfl⟩
  · exact (s.axes_beginReset .cold straps).2.2.2
  · simp only [State.motor, State.slider_beginReset, State.resetAxes, State.slider_warmAxes]
    refine ⟨rfl, rfl, rfl, fun m => by cases m <;> exact ⟨rfl, rfl, rfl⟩, fun moving => ?_, fun still rested => ?_⟩
    · rw [State.sliderInMotion_iff.mpr moving]
      exact ⟨rfl, fun m => by cases m <;> rfl⟩
    · have resting : s.sliderInMotion id = false := by
        rw [← Bool.not_eq_true, State.sliderInMotion_iff]
        rintro (moving | ⟨m, motor, n, l, channel, stopped, recent⟩)
        · simp [still] at moving
        · exact absurd (rested m motor n l channel stopped) (Nat.not_le.mpr recent)
      rw [resting]
      exact ⟨rfl, fun m => by cases m <;> rfl⟩
  · simp only [State.jack_beginReset, State.resetAxes, State.jack_warmAxes]
    refine ⟨rfl, rfl, rfl, rfl, rfl, rfl, fun moving => ?_, fun still rested => ?_⟩
    · rw [State.jackInMotion_iff.mpr moving]
      exact ⟨rfl, rfl⟩
    · have resting : s.jackInMotion j = false := by
        rw [← Bool.not_eq_true, State.jackInMotion_iff]
        rintro (⟨e, motion, jack⟩ | ⟨n, l, channel, stopped, recent⟩)
        · exact still e motion jack
        · exact absurd (rested n l channel stopped) (Nat.not_le.mpr recent)
      rw [resting]
      exact ⟨rfl, rfl⟩
  · exact (s.axes_beginReset .warm straps).2.2.2

section
variable {s : State} {k : ResetKind} {straps : Straps} {n : Chan} {c : Notice}

/-! ### A reset ends -/

theorem exec_resetEnd (resetting : s.inReset.isSome) : exec .resetEnd s = .next s.endReset := by
  change Host.Outcome.next (if s.inReset.isSome then s.endReset else s) = _
  rw [if_pos resetting]

/-- The state after the end of a reset, by the layout, the staging image and the ports that the choice of R177 leaves. -/
def State.restarted (s : State) (l : Layout) (m : Image) (ports : Vector PortRec 3) : State :=
  let s1 := { s with inReset := none, now := 0, censusStart := 0, layout := l, staging := m, ports := ports }
  { s1 with
    wind := freshWind l.wind.present
    channels := Vector.ofFn fun n => freshChannel (s1.startCensus n) (s1.startCensus n).noReads }

theorem State.endReset_good {m : Image} (good : s.stored.good = some m) :
    s.endReset = s.restarted (Layout.ofImage m) m s.ports := by
  unfold State.endReset State.chooseLayout
  simp only [good]
  rfl

theorem State.endReset_empty (bad : s.stored.good = none) :
    s.endReset = s.restarted Layout.empty emptyImage (s.raise .layout).ports := by
  unfold State.endReset State.chooseLayout
  simp only [bad]
  generalize Layout.empty = l
  generalize emptyImage = m
  rfl

theorem State.layout_restarted {l : Layout} {m : Image} {ports : Vector PortRec 3} :
    (s.restarted l m ports).layout = l := rfl

theorem State.staging_restarted {l : Layout} {m : Image} {ports : Vector PortRec 3} :
    (s.restarted l m ports).staging = m := rfl

/-- The end of a reset, whatever the store holds. -/
theorem State.endReset_eq (s : State) : ∃ l m ports, s.endReset = s.restarted l m ports := by
  cases h : s.stored.good with
  | none => exact ⟨_, _, _, State.endReset_empty h⟩
  | some m => exact ⟨_, _, _, State.endReset_good h⟩

theorem Stored.good_none {st : Stored}
    (h : st = .cutOff ∨ ∃ m, st = .record m ∧ (m.isBlank = true ∨ m.passes = false)) : st.good = none := by
  obtain rfl | ⟨m, rfl, bad⟩ := h
  · rfl
  · have fails : (m.isBlank || !m.passes) = true := by simpa using bad
    rw [Stored.good, if_pos fails]

theorem Stored.good_some {m : Image} (written : m.isBlank = false) (passes : m.passes = true) :
    (Stored.record m).good = some m := by
  simp [Stored.good, written, passes]

/-- After a reset that chose the EMPTY layout LAYOUT is pending everywhere (R177). -/
theorem State.noticed_endReset (bad : s.stored.good = none) : s.endReset.noticed .layout = true := by
  rw [State.endReset_empty bad]
  exact s.noticed_raise .layout

theorem State.chan_restarted {l : Layout} {m : Image} {ports : Vector PortRec 3} :
    (s.restarted l m ports).chan n = freshChannel
      (({ s with layout := l } : State).startCensus n) (({ s with layout := l } : State).startCensus n).noReads :=
  ofFn_getElem _ n

/-- A write in flight leaves a record that fails its check. -/
theorem State.stored_beginReset : (s.beginReset k straps).stored = if s.write.isSome then .cutOff else s.stored := by
  obtain ⟨-, -, -, -, -, write, stored⟩ := s.kept_resetAxes k
  rw [State.beginReset_eq]
  change (s.resetAxes k).cutWrite.stored = _
  unfold State.cutWrite
  rw [write]
  split
  · rfl
  · exact stored

end

/-- Settles O6: the cut leaves a record without a good image, and the end of the reset then chooses EMPTY. -/
theorem resetCutsOffTheWrite : Obligations.ResetCutsOffTheWrite := by
  unfold Obligations.ResetCutsOffTheWrite
  intro s k straps
  have resetting : (s.beginReset k straps).inReset.isSome := by
    rw [State.beginReset_eq]
    rfl
  refine ⟨_, _, exec_resetCommand, exec_resetEnd resetting, State.beginReset_fields.2.2.2.2.2, fun writing => ?_,
    fun idle => by rw [State.stored_beginReset, idle]; rfl⟩
  have bad : (s.beginReset k straps).stored.good = none := by
    rw [State.stored_beginReset, if_pos writing]
    rfl
  exact ⟨bad, by rw [State.endReset_empty bad, State.layout_restarted],
    by rw [State.endReset_empty bad, State.staging_restarted], State.noticed_endReset bad⟩

/-- Settles O7: the state after the end is the one before it with the chosen layout and what begins anew. -/
theorem resetEndChoosesTheLayout : Obligations.ResetEndChoosesTheLayout := by
  unfold Obligations.ResetEndChoosesTheLayout
  refine fun s => ⟨fun awake => ?_, fun resetting => ⟨_, exec_resetEnd resetting, ?_⟩⟩
  · change Host.Outcome.next (if s.inReset.isSome then s.endReset else s) = _
    rw [awake]
    rfl
  have good (m : Image) (record : s.stored = .record m) (written : m.isBlank = false) (passes : m.passes = true) :
      s.stored.good = some m := by rw [record, Stored.good_some written passes]
  obtain ⟨l, m, ports, restarted⟩ := s.endReset_eq
  refine ⟨?_, ?_, ?_, ?_, ?_, ?_, ?_, ?_, fun m record written passes => ?_, fun none => ?_, fun n => ?_, ?_, ?_, ?_, ?_, fun none => ?_, ?_⟩
  · rw [restarted]; rfl
  · rw [restarted]; rfl
  · rw [restarted]; rfl
  · rw [restarted]; rfl
  · rw [restarted]; rfl
  · rw [restarted]; rfl
  · rw [restarted]; rfl
  · rw [restarted]; rfl
  · rw [State.endReset_good (good m record written passes)]
    exact ⟨rfl, rfl, rfl⟩
  · have bad := Stored.good_none none
    exact ⟨by rw [State.endReset_empty bad, State.layout_restarted],
      by rw [State.endReset_empty bad, State.staging_restarted], State.noticed_endReset bad⟩
  · rw [restarted, State.chan_restarted]
    refine ⟨rfl, rfl, rfl, rfl, fun absent => ?_, fun present unused => ?_, fun present used => ?_⟩
    · have missing : ¬ n.val < variantCount s.straps.variant := Nat.not_lt.mpr absent
      simp [freshChannel, State.startCensus, State.present, missing, CensusState.noReads]
    · have role : l.roles[n.val] = .none := unused
      simp [freshChannel, State.startCensus, State.present, State.role, present, role, CensusState.noReads]
    · have role : l.roles[n.val] ≠ .none := used
      simp [freshChannel, State.startCensus, State.present, State.role, present, role, CensusState.noReads]
  · rw [restarted]; rfl
  · rw [restarted]; rfl
  · rw [restarted]; rfl
  · rw [restarted]; rfl
  · have read := State.sliderRead_stowed _ none
    have motors : s.endReset.motors .awning = [.a] := rfl
    exact ⟨by rw [State.sliderState, read]; rfl, by rw [State.positionKnown, read, motors]; rfl⟩
  · rw [restarted]
    rfl

end Sys2Proof.Machine
end

section
/-! PROOFS. The re-census pass (R4), the tilt (R82) and the corner lifts (R86). -/

namespace Sys2Proof.Machine

section
variable {s : State} {n x : Chan} {r : Levels}

/-! ### The re-census pass -/

theorem State.setChan_setChan (c d : Channel) : (s.setChan n c).setChan n d = s.setChan n d := by
  simp [State.setChan, Vector.set_set]

theorem State.setChan_chan : s.setChan n (s.chan n) = s := by
  simp [State.setChan, State.chan]

theorem State.eq_of_setChan (c : Channel) : s.setChan n c = { s with channels := (s.setChan n c).channels } := rfl

theorem mem_allChans (n : Chan) : n ∈ allChans := by revert n; decide

theorem allChans_nodup : allChans.Nodup := by decide

/-- The record of a channel after its read of a re-census pass (R4). -/
def State.passed (s : State) (n : Chan) (r : Levels) : Channel :=
  if s.needsReads n = true ∧ (s.chan n).settled = true ∧ (s.chan n).pendingRead = none ∧ (s.chan n).settledLevels ≠ some r then
    { s.chan n with pendingRead := some r, pendingAt := some s.now }
  else s.chan n

theorem State.passRead_eq (s : State) (n : Chan) (r : Levels) : s.passRead n r = s.setChan n (s.passed n r) := by
  unfold State.passRead State.passed State.holdRead
  simp only [Bool.and_eq_true, Option.isNone_iff_eq_none, decide_eq_true_eq, and_assoc]
  split
  · rfl
  · exact State.setChan_chan.symm

theorem State.passed_setChan (other : x ≠ n) (c : Channel) : (s.setChan x c).passed n r = s.passed n r := by
  have chan : (s.setChan x c).chan n = s.chan n := by rw [State.chan_setChan, if_neg other]
  unfold State.passed
  rw [chan]
  rfl

/-- The reads of a pass, channel by channel. -/
theorem forEach_passRead (reads : Vector Levels 16) (l : List Chan) (once : l.Nodup) (s : State) :
    forEach l (fun n t => t.passRead n reads[n]) s =
        { s with channels := (forEach l (fun n t => t.passRead n reads[n]) s).channels } ∧
      ∀ n, (forEach l (fun n t => t.passRead n reads[n]) s).chan n = if n ∈ l then s.passed n reads[n] else s.chan n := by
  induction l generalizing s with
  | nil => exact ⟨rfl, fun n => by simp [forEach]⟩
  | cons x rest ih =>
    obtain ⟨first, later⟩ := List.nodup_cons.mp once
    have step : forEach (x :: rest) (fun n t => t.passRead n reads[n]) s =
        forEach rest (fun n t => t.passRead n reads[n]) (s.setChan x (s.passed x reads[x])) := by
      rw [← State.passRead_eq]
      rfl
    obtain ⟨frame, chans⟩ := ih later (s.setChan x (s.passed x reads[x]))
    rw [step]
    refine ⟨by rw [frame]; rfl, fun n => ?_⟩
    rw [chans]
    by_cases same : x = n
    · subst same
      simp [first]
    · have apart : n ≠ x := fun e => same e.symm
      simp only [State.passed_setChan same, State.chan_setChan, if_neg same, List.mem_cons, apart, false_or]

end

/-- Settles O35: the pass reads each channel once, and a read changes its own channel alone. -/
theorem recensusPassHoldsNewReads : Obligations.RecensusPassHoldsNewReads := by
  unfold Obligations.RecensusPassHoldsNewReads
  intro s reads awake
  have pass : exec (.recensusPass reads) s = .next (s.recensus reads) :=
    congrArg Host.Outcome.next (exec_awake (f := fun t => t.recensus reads) awake)
  obtain ⟨frame, chans⟩ := forEach_passRead reads allChans allChans_nodup s
  refine ⟨_, pass, frame, fun n => (chans n).trans ?_⟩
  rw [if_pos (mem_allChans n)]
  simp only [State.passed, State.needsReads, Bool.and_eq_true, bne_iff_ne, ne_eq, and_assoc]

/-! ### Rounding -/

/-- The quotient rounded to the nearest whole number, halves away from zero (R82, R86). -/
theorem roundDiv_natAbs (a : Int) (d : Nat) : (roundDiv a d).natAbs = (2 * a.natAbs + d) / (2 * d) := by
  unfold roundDiv
  generalize (2 * a.natAbs + d) / (2 * d) = q
  split <;> simp

theorem roundDiv_bounds (a : Int) {d : Nat} (pos : 0 < d) : 2 * (a - roundDiv a d * d).natAbs ≤ d ∧
    (2 * (a - roundDiv a d * d).natAbs = d → a.natAbs < (roundDiv a d * d).natAbs) := by
  have quotient := Nat.div_add_mod (2 * a.natAbs + d) (2 * d)
  have remainder := Nat.mod_lt (2 * a.natAbs + d) (y := 2 * d) (by omega)
  have product : 2 * d * ((2 * a.natAbs + d) / (2 * d)) = 2 * (((2 * a.natAbs + d) / (2 * d)) * d) := by ring
  rw [product] at quotient
  unfold roundDiv
  generalize (2 * a.natAbs + d) / (2 * d) = q at quotient
  generalize (2 * a.natAbs + d) % (2 * d) = m at quotient remainder
  have cast : ((q * d : Nat) : Int) = (q : Int) * d := by push_cast; rfl
  dsimp only
  split
  · rw [neg_mul, ← cast]
    generalize q * d = p at quotient
    omega
  · rw [← cast]
    generalize q * d = p at quotient
    omega

theorem roundDiv_sign (a : Int) (d : Nat) : 0 ≤ roundDiv a d * a := by
  unfold roundDiv
  generalize (2 * a.natAbs + d) / (2 * d) = q
  dsimp only
  split
  · rename_i negative
    exact mul_nonneg_of_nonpos_of_nonpos (by omega) (by omega)
  · exact mul_nonneg (by omega) (by omega)

theorem clampInt_natAbs (bound : Nat) (a : Int) : (clampInt bound a).natAbs ≤ bound := by
  unfold clampInt
  split
  · simp
  · split
    · simp
    · omega

theorem clampInt_sign (bound : Nat) {a v : Int} (h : 0 ≤ a * v) : 0 ≤ clampInt bound a * v := by
  unfold clampInt
  split
  · rename_i above
    exact mul_nonneg (by omega) (nonneg_of_mul_nonneg_right h (by omega))
  · split
    · rename_i below
      exact mul_nonneg_of_nonpos_of_nonpos (by omega) (nonpos_of_mul_nonneg_right h (by omega))
    · exact h

/-- A rounded quotient held within a bound: it stands at the bound, or it is the nearest whole number. -/
theorem clamp_roundDiv {v : Int} {d : Nat} (pos : 0 < d) :
    (((clampInt 1500 (roundDiv v d)).natAbs = 1500 ∧ 3000 * d ≤ 2 * v.natAbs + d) ∨
      (2 * (v - clampInt 1500 (roundDiv v d) * d).natAbs ≤ d ∧
        (2 * (v - clampInt 1500 (roundDiv v d) * d).natAbs = d → v.natAbs < (clampInt 1500 (roundDiv v d) * d).natAbs))) ∧
      0 ≤ clampInt 1500 (roundDiv v d) * v := by
  refine ⟨?_, clampInt_sign 1500 (roundDiv_sign v d)⟩
  by_cases large : 1500 < (roundDiv v d).natAbs
  · have bound : (clampInt 1500 (roundDiv v d)).natAbs = 1500 := by
      unfold clampInt
      split
      · rfl
      · split
        · rfl
        · omega
    rw [roundDiv_natAbs, Nat.lt_div_iff_mul_lt (by omega)] at large
    exact .inl ⟨bound, by omega⟩
  · have same : clampInt 1500 (roundDiv v d) = roundDiv v d := by
      unfold clampInt
      rw [if_neg (by omega), if_neg (by omega)]
    rw [same]
    exact .inr (roundDiv_bounds v pos)

/-- Settles O48: a tilt value is the rounded mean, held within the bound. -/
theorem tiltIsAveraged : Obligations.TiltIsAveraged := by
  unfold Obligations.TiltIsAveraged
  intro s x y awake
  have taken : exec (.tiltSample x y) s = .next (if 0 < s.jackCount then s.tiltSample x.toNat y.toNat else s) :=
    congrArg _ (exec_awake awake)
  refine ⟨fun none => by rw [taken, none]; rfl, fun some => ⟨s.tiltSample x.toNat y.toNat, by rw [taken, if_pos some], rfl, ?_, ?_, ?_, ?_, ?_⟩⟩
  · simp [State.tiltSample, lastHundred]
  · simp [State.tiltSample, lastHundred]
  · exact ⟨clampInt_natAbs 1500 _, clampInt_natAbs 1500 _⟩
  · intro n d v count divisor pos value
    have roll : (s.tiltSample x.toNat y.toNat).tilt.roll = clampInt 1500 (roundDiv v d) := by
      rw [value, divisor, count]
      rfl
    rw [roll]
    exact clamp_roundDiv pos
  · intro n d v count divisor pos value
    have pitch : (s.tiltSample x.toNat y.toNat).tilt.pitch = clampInt 1500 (roundDiv v d) := by
      rw [value, divisor, count]
      rfl
    rw [pitch]
    exact clamp_roundDiv pos

section
variable {s : State} {j : JackId}

/-! ### The corner lifts -/

theorem mem_allJacks (j : JackId) : j ∈ allJacks := by revert j; decide

theorem State.mem_configuredJacks : j ∈ s.configuredJacks ↔ s.jackConfigured j = true := by
  simp [State.configuredJacks, mem_allJacks]

/-- The highest of the values of a list, from one of its members on. -/
theorem foldl_max (h : JackId → Int) (l : List JackId) (m : Int) :
    m ≤ l.foldl (fun m i => max m (h i)) m ∧ (∀ i ∈ l, h i ≤ l.foldl (fun m i => max m (h i)) m) ∧
      (l.foldl (fun m i => max m (h i)) m = m ∨ ∃ i ∈ l, h i = l.foldl (fun m i => max m (h i)) m) := by
  induction l generalizing m with
  | nil => simp
  | cons x rest ih =>
    obtain ⟨above, all, one⟩ := ih (max m (h x))
    rw [List.foldl_cons]
    refine ⟨le_trans (le_max_left ..) above, ?_, ?_⟩
    · intro i mem
      obtain rfl | mem := List.mem_cons.mp mem
      · exact le_trans (le_max_right ..) above
      · exact all i mem
    · obtain same | ⟨i, mem, eq⟩ := one
      · rw [same]
        obtain le | le := le_total m (h x)
        · exact .inr ⟨x, by simp, (max_eq_right le).symm⟩
        · exact .inl (max_eq_left le)
      · exact .inr ⟨i, by simp [mem], eq⟩

/-- The highest corner is the height of a configured jack's, and none stands above it. -/
theorem State.highestCorner_spec (some : s.jackConfigured j = true) :
    (∀ i, s.jackConfigured i = true → s.heightOf i ≤ s.highestCorner) ∧
      ∃ i, s.jackConfigured i = true ∧ s.heightOf i = s.highestCorner := by
  unfold State.highestCorner
  cases h : s.configuredJacks with
  | nil =>
    have mem := State.mem_configuredJacks.mpr some
    simp [h] at mem
  | cons x rest =>
    have configured (i : JackId) : i ∈ x :: rest ↔ s.jackConfigured i = true := by rw [← h, State.mem_configuredJacks]
    obtain ⟨above, all, one⟩ := foldl_max s.heightOf rest (s.heightOf x)
    dsimp only
    refine ⟨fun i mem => ?_, ?_⟩
    · obtain rfl | mem := List.mem_cons.mp ((configured i).mpr mem)
      · exact above
      · exact all i mem
    · obtain same | ⟨i, mem, eq⟩ := one
      · exact ⟨x, (configured x).mp (by simp), same.symm⟩
      · exact ⟨i, (configured i).mp (by simp [mem]), eq⟩

/-- The height of a corner is a rounded quotient (R86). -/
theorem State.heightOf_bounds (j : JackId) {a : Int}
    (h : a = (s.jackParams j).x * s.level.pitch + (s.jackParams j).y * s.level.roll := by rfl) :
    2 * (s.heightOf j * 1000000 - a * 17453).natAbs ≤ 1000000 ∧
      (2 * (s.heightOf j * 1000000 - a * 17453).natAbs = 1000000 → (a * 17453).natAbs < (s.heightOf j * 1000000).natAbs) ∧
      0 ≤ s.heightOf j * a := by
  have height : s.heightOf j = roundDiv (a * 17453) 1000000 := by
    rw [h]
    rfl
  obtain ⟨near, half⟩ := roundDiv_bounds (a * 17453) (d := 1000000) (by decide)
  have sign := roundDiv_sign (a * 17453) 1000000
  rw [← height, Nat.cast_ofNat] at near half
  rw [← height, ← mul_assoc] at sign
  refine ⟨?_, fun tie => half ?_, nonneg_of_mul_nonneg_left sign (by decide)⟩
  · rw [← Int.natAbs_neg, neg_sub]
    exact near
  · rw [← Int.natAbs_neg, neg_sub]
    exact tie

/-- The target of a jack (R86). -/
theorem State.targetOf_fst : (s.targetOf j).1 =
    if (s.jack j).atStroke = true then 0
    else match (s.jack j).count with
      | some c =>
        if 0 < (s.jackParams j).strokeMax then min (min (s.rawTarget j) 4000) ((s.jackParams j).strokeMax - c)
        else min (s.rawTarget j) 4000
      | none => min (s.rawTarget j) 4000 := by
  unfold State.targetOf
  dsimp only
  split
  · rfl
  · cases (s.jack j).count with
    | none => rfl
    | some c =>
      dsimp only
      split_ifs with h k k
      · exact (Nat.min_eq_right (by omega)).symm
      · exact absurd h.1 k
      · exact (Nat.min_eq_left (by omega)).symm
      · rfl

/-- The solution of the corner lifts, jack by jack. -/
theorem State.solveLifts_eq (s : State) : ∃ (v : Vector (Option Nat) 6) (sel : Vector Bool 6),
    s.solveLifts = { s with level := { s.level with
      targets := v, selected := sel, limited := s.level.limited || s.configuredJacks.any fun j => (s.targetOf j).2 } } ∧
    (∀ j : JackId, v[j] = if s.jackConfigured j then some (s.targetOf j).1 else none) ∧
    ∀ j : JackId, sel[j] = (s.jackConfigured j && decide (s.layout.level.deadband ≤ (s.targetOf j).1)) :=
  ⟨_, _, rfl, fun j => ofFn_getElem _ j, fun j => ofFn_getElem _ j⟩

/-- What sets the limited flag: a target above 4000, or one beyond the stroke left (R86). -/
theorem State.targetOf_snd : (s.targetOf j).2 = true ↔ 4000 < s.rawTarget j ∨ ((s.jack j).atStroke = false ∧
    ∃ c, (s.jack j).count = some c ∧ 0 < (s.jackParams j).strokeMax ∧
      (s.jackParams j).strokeMax < c + min (s.rawTarget j) 4000) := by
  unfold State.targetOf
  dsimp only
  split
  · rename_i h
    simp [h]
  · rename_i h
    cases (s.jack j).count with
    | none => simp
    | some c =>
      dsimp only
      split_ifs with k
      · simp [h, k.1, k.2]
      · have none : ¬(0 < (s.jackParams j).strokeMax ∧ (s.jackParams j).strokeMax < c + min (s.rawTarget j) 4000) := k
        simp [none]

end

/-- Settles O49: the heights are rounded quotients, and the lift is taken from the highest of them. -/
theorem cornerLiftsAreSolved : Obligations.CornerLiftsAreSolved := by
  unfold Obligations.CornerLiftsAreSolved
  intro s
  obtain ⟨v, sel, solved, target, selected⟩ := s.solveLifts_eq
  refine ⟨v, sel, _, s.heightOf, s.rawTarget, solved, fun j => ?_, fun j => ?_,
    fun j => ?_, fun j none => ?_, fun j some => ?_, ?_⟩
  · exact (State.heightOf_bounds j).1
  · exact (State.heightOf_bounds j).2.1
  · exact (State.heightOf_bounds j).2.2
  · rw [target, selected, none]
    exact ⟨rfl, rfl⟩
  · obtain ⟨above, reached⟩ := State.highestCorner_spec some
    have lift : 0 ≤ s.highestCorner - s.heightOf j := by have := above j some; omega
    refine ⟨s.highestCorner, (s.highestCorner - s.heightOf j).toNat, _, (s.targetOf j).1, above, reached,
      Int.toNat_of_nonneg lift, rfl, rfl, State.targetOf_fst, ?_⟩
    rw [target, selected, some]
    exact ⟨rfl, rfl⟩
  · simp only [Bool.or_eq_true, List.any_eq_true, State.mem_configuredJacks, State.targetOf_snd]

end Sys2Proof.Machine
end

section
/-! PROOFS. The requests that read the state: STATUS, READ_AXIS and LAYOUT_READ (R168, R169, R178). -/

namespace Sys2Proof.Machine

section
variable {s : State} {p : Port} {k : RoomId} {j : JackId} {n : Chan} {l : List Byte}

/-! ### The fields of the records -/

theorem State.channelBytes_eq (s : State) (n : Chan) : s.channelBytes n =
    [byteOf (s.chan n).census.code, byteOf (s.chan n).kindRead.code, byteOf (s.chan n).drive.code,
      flagByte (decide ((s.chan n).dir = .outward)), byteOf (s.chan n).outputDuty] ++ twoBytes (s.chan n).scaled := by
  unfold State.channelBytes
  generalize s.chan n = c
  have outward : (c.dir == .outward) = decide (c.dir = .outward) := by cases c.dir <;> rfl
  simp only [outward]

theorem State.sensedBytes_some {r : Role} (h : s.roleChan r = some n) : s.sensedBytes r = s.channelBytes n ++ s.paceBytes n := by
  rw [State.sensedBytes, h]

theorem State.sensedBytes_none {r : Role} (h : s.roleChan r = none) : s.sensedBytes r = [] := by
  rw [State.sensedBytes, h]

theorem State.axisBytes_room : s.axisBytes (.room k) = some l ↔
    (∃ n, s.roleChan (.room k .a) = some n) ∧ s.roomBytes k = l := by
  simp [State.axisBytes, State.configured, Option.isSome_iff_exists]

theorem State.axisBytes_jack : s.axisBytes (.jack j) = some l ↔ (∃ n, s.roleChan (.jack j) = some n) ∧ s.jackBytes j = l := by
  simp [State.axisBytes, State.jackConfigured, Option.isSome_iff_exists]

theorem State.axisBytes_awning : s.axisBytes .awning = some l ↔ (∃ n, s.roleChan .awning = some n) ∧ s.awningBytes = l := by
  simp [State.axisBytes, State.configured, Option.isSome_iff_exists]

theorem State.configured_jacks : s.configured .jacks = true ↔ ∃ j, s.jackConfigured j = true := by
  have some : 0 < s.jackCount ↔ ∃ j, j ∈ s.configuredJacks := List.length_pos_iff_exists_mem
  simp only [State.configured, decide_eq_true_eq, some, State.mem_configuredJacks]

/-- A record is refused exactly for an axis that the layout does not configure (R169). -/
theorem State.axisBytes_none (s : State) (a : Axis) : s.axisBytes a = none ↔
    match a with
    | .room k => s.roleChan (.room k .a) = none
    | .jack j => s.roleChan (.jack j) = none
    | .awning => s.roleChan .awning = none
    | .level => ∀ j, s.roleChan (.jack j) = none
    | _ => False := by
  have absent (o : Option Chan) (l : List Byte) : (if o.isSome = true then some l else none) = none ↔ o = none := by
    cases o <;> simp
  cases a with
  | room k => exact absent _ _
  | jack j => exact absent _ _
  | awning => exact absent _ _
  | level =>
    have none : s.axisBytes .level = none ↔ ¬ s.configured .jacks = true := by simp [State.axisBytes]
    rw [none, State.configured_jacks]
    simp [State.jackConfigured]
  | wind | supply | plan => simp [State.axisBytes]

/-- The record of a room of one motor (R60, R185). -/
theorem State.roomBytes_one (hb : s.roleChan (.room k .b) = none) : s.roomBytes k =
    [byteOf (s.rooms[k]).state.code, flagByte (s.rooms[k]).motorA.count.isSome] ++
      Machine.optional (s.rooms[k]).motorA.count ++ [0, 0, 0, byteOf (s.rooms[k]).motorA.phase.code, 0,
        codeOr FaultCode.code (s.rooms[k]).fault, codeOr MotionOutcome.code (s.rooms[k]).lastOutcome] ++
      twoBytes (min 65535 ((s.rooms[k]).runTime / 4000)) ++ [byteOf (s.rooms[k]).motorA.tally, 0] ++
      s.sensedBytes (.room k .a) := by
  have one : s.twoMotors (.room k) = false := by simp [State.twoMotors, State.motorChan, hb]
  have known : s.positionKnown (.room k) = (s.rooms[k]).motorA.count.isSome := by
    simp [State.positionKnown, State.motors, State.motorChan, hb, SliderRec.motor]
  simp only [State.roomBytes, one, known, State.sensedBytes_none hb, Bool.false_eq_true, if_false, List.append_nil,
    List.append_assoc]
  rfl

/-- The record of a room of two motors (R60). -/
theorem State.roomBytes_two (hb : (s.roleChan (.room k .b)).isSome) : s.roomBytes k =
    [byteOf (s.rooms[k]).state.code, flagByte ((s.rooms[k]).motorA.count.isSome && (s.rooms[k]).motorB.count.isSome)] ++
      Machine.optional (s.rooms[k]).motorA.count ++ Machine.optional (s.rooms[k]).motorB.count ++
      [byteOf (s.rooms[k]).motorA.phase.code, byteOf (s.rooms[k]).motorB.phase.code,
        codeOr FaultCode.code (s.rooms[k]).fault, codeOr MotionOutcome.code (s.rooms[k]).lastOutcome] ++
      twoBytes (min 65535 ((s.rooms[k]).runTime / 4000)) ++
      [byteOf (s.rooms[k]).motorA.tally, byteOf (s.rooms[k]).motorB.tally] ++
      s.sensedBytes (.room k .a) ++ s.sensedBytes (.room k .b) := by
  have two : s.twoMotors (.room k) = true := hb
  have known : s.positionKnown (.room k) = ((s.rooms[k]).motorA.count.isSome && (s.rooms[k]).motorB.count.isSome) := by
    simp [State.positionKnown, State.motors, State.motorChan, hb, SliderRec.motor]
  simp only [State.roomBytes, two, known, if_true]
  rfl

/-- The record of a configured awning (R103). -/
theorem State.awningBytes_eq (h : s.roleChan .awning = some n) : s.awningBytes =
    [byteOf s.awning.state.code, flagByte s.awning.motorA.count.isSome] ++ Machine.optional s.awning.motorA.count ++
      [byteOf s.awning.motorA.phase.code] ++
      Machine.optional (s.awning.motorA.seatDeadline.map fun t => min 65535 ((t - s.now) / 40)) ++
      [codeOr FaultCode.code s.awning.fault, codeOr MotionOutcome.code s.awning.lastOutcome] ++
      twoBytes (min 65535 (s.awning.runTime / 4000)) ++ [byteOf s.awning.motorA.tally] ++
      (s.channelBytes n ++ s.paceBytes n) := by
  have configured : s.configured .awning = true := by simp [State.configured, h]
  have read := State.sliderRead_awning s configured
  have known : s.positionKnown .awning = s.awning.motorA.count.isSome := by
    simp [State.positionKnown, State.motors, State.motorChan, read, SliderRec.motor]
  simp only [State.awningBytes, read, known, State.sensedBytes_some h]
  rfl

theorem State.jackBytes_eq (h : s.roleChan (.jack j) = some n) : s.jackBytes j =
    [byteOf (s.jackState j).code] ++ Machine.optional (s.jack j).count ++
      [flagByte (s.jack j).contact, byteOf (s.jack j).lossRun, flagByte (s.jack j).liftOff] ++
      twoBytes (s.jack j).pressure ++
      [flagByte (s.jack j).atStroke, codeOr FaultCode.code (s.jack j).fault, byteOf (s.jack j).phase.code,
        byteOf (s.jack j).dir.code, byteOf s.jackSetState.code, codeOr MotionOutcome.code s.jackSet.lastOutcome] ++
      s.channelBytes n ++ (match s.roleChan .pump with
        | some q => s.channelBytes q
        | none => List.replicate 7 0) ++ s.paceBytes n := by
  simp only [State.jackBytes, h] <;> rfl

/-! ### The reads -/

theorem exec_readAxis {number : Byte} {a : Axis} (awake : s.inReset = none) (room : s.hasRoom p)
    (range : axisOfNumber number.toNat = some a) :
    exec (.readAxis p number) s = .next (s.answered p .readAxis (s.readAxis number a)) := by
  have fields : readAxisRequest number = some (.readAxis number a) := by rw [readAxisRequest, range]; rfl
  exact congrArg _ (State.awake_takeRequest awake room fields)

end

/-- Settles O14: each read answers with the bytes of the state and leaves it. -/
theorem readsChangeNothing : Obligations.ReadsChangeNothing := by
  unfold Obligations.ReadsChangeNothing
  intro s p awake room
  refine ⟨?_, fun number a range => ⟨fun l bytes => ?_, fun none => ?_, s.axisBytes_none a⟩, fun k l bytes one => ?_,
    fun k l na nb bytes hna hnb => ?_, fun j l bytes => ?_, fun l bytes => ?_, s.channelBytes_eq, fun n => rfl, rfl, ?_, rfl,
    fun l bytes => ?_, fun segment range => ?_⟩
  · exact congrArg _ (State.awake_takeRequest (k := .status) (q := .status) awake room rfl)
  · rw [exec_readAxis awake room range, State.readAxis, bytes]
    rfl
  · rw [exec_readAxis awake room range, State.readAxis, none]
    rfl
  · obtain ⟨⟨n, hn⟩, rfl⟩ := State.axisBytes_room.mp bytes
    refine ⟨n, hn, ?_⟩
    rw [State.roomBytes_one one, State.sensedBytes_some hn]
    simp only [List.append_assoc]
  · obtain ⟨-, rfl⟩ := State.axisBytes_room.mp bytes
    rw [State.roomBytes_two (by simp [hnb]), State.sensedBytes_some hna, State.sensedBytes_some hnb]
    simp only [List.append_assoc]
  · obtain ⟨⟨n, hn⟩, rfl⟩ := State.axisBytes_jack.mp bytes
    exact ⟨n, hn, State.jackBytes_eq hn⟩
  · obtain ⟨⟨n, hn⟩, rfl⟩ := State.axisBytes_awning.mp bytes
    refine ⟨n, hn, ?_⟩
    rw [State.awningBytes_eq hn]
    simp only [List.append_assoc]
  · have later (e : Entry) : s.pausedBytes e = [byteOf (groupCode e.group), byteOf e.owner.code, byteOf e.mode.code] ++
        actionBytes e.action ++ [byteOf e.units, byteOf e.state.code] ++
          twoBytes (min 65535 ((s.now - e.pausedSince.getD s.now) / 4000)) := by
      simp only [State.pausedBytes, entryBytes, List.append_assoc]
      rfl
    refine ⟨_, _, rfl, rfl, ?_⟩
    rw [counted, funext later]
  · simp only [State.axisBytes] at bytes
    split at bytes
    · exact (Option.some.inj bytes).symm
    · exact absurd bytes nofun
  · have small : segment.toNat < 32 := by omega
    have fields : layoutReadRequest segment = some (.layoutRead ⟨segment.toNat, small⟩) := by
      simp [layoutReadRequest, segmentOfByte, small]
    have number : byteOf segment.toNat = segment := by simp [byteOf]
    have taken : exec (.layoutRead p segment) s = .next (s.queueReply p (frameOf 0x84 (0x32 :: byteOf segment.toNat ::
        (List.range 16).map fun i => s.staging.read (16 * segment.toNat + i)))) :=
      congrArg _ (State.awake_takeRequest awake room fields)
    rw [taken, number]

end Sys2Proof.Machine
end

section
/-! PROOFS. The validation of a commit (R180): the bytes that the model names against those of `Safety.FailsAt`. -/

namespace Sys2Proof.Machine

section
variable {m : Image} {count a b n c : Nat}

open Safety

/-! ### Fields with ranges of their own -/

/-- A field lies outside its range, and is named by its first byte. -/
def named (f : RangedField) (a : Nat) : Prop := a = f.first ∧ (f.value < f.least ∨ f.greatest < f.value)

theorem mem_badIf {fails : Bool} : a ∈ badIf fails b ↔ a = b ∧ fails = true := by
  cases fails <;> simp [badIf]

theorem outside_iff {lo hi v : Nat} : outside lo hi v = true ↔ v < lo ∨ hi < v := by
  simp [outside]

theorem Image.u8_lt (m : Image) (a : Nat) : m.u8 a < 256 := (m.read a).isLt

theorem Image.u24_eq (m : Image) (a : Nat) : m.u24 a = 65536 * m.u8 a + m.u16 (a + 1) := by
  simp only [Image.u24, Image.u16]
  ring

theorem mem_range {lo hi v : Nat} : a ∈ badIf (outside lo hi v) b ↔ named ⟨b, v, lo, hi⟩ a := by
  rw [mem_badIf, outside_iff, named]

theorem mem_either {x y : Bool} : a ∈ badIf (x || y) b ↔ a ∈ badIf x b ∨ a ∈ badIf y b := by
  simp only [mem_badIf, Bool.or_eq_true, and_or_left]

theorem mem_decide {p : Prop} [Decidable p] : a ∈ badIf (decide p) b ↔ a = b ∧ p := by
  rw [mem_badIf, decide_eq_true_eq]

/-- A member of a list of failures: its byte and its test, one test after another. -/
theorem mem_general : a ∈ badGeneral m ↔ ∃ f ∈ generalFields m, named f a := by
  simp only [badGeneral, badFlag, generalFields, List.mem_append, mem_range, List.mem_cons, List.not_mem_nil, or_false,
    exists_eq_or_imp, exists_eq_left, or_assoc]

theorem mem_level : a ∈ badLevel m ↔ ∃ f ∈ levelFields m, named f a := by
  simp only [badLevel, levelFields, List.mem_append, mem_range, List.mem_cons, List.not_mem_nil, or_false, exists_eq_or_imp,
    exists_eq_left, or_assoc]

theorem mem_wind : a ∈ badWind m ↔ (∃ f ∈ windFields m, named f a) ∨ (a = 439 ∧ m.u16 437 ≤ m.u16 439) := by
  have speed : m.u24 433 = 65536 * m.u8 433 + m.u16 434 := m.u24_eq 433
  simp only [badWind, badFlag, windFields, List.mem_append, mem_either, mem_range, mem_decide, List.mem_cons, speed,
    List.not_mem_nil, or_false, exists_eq_or_imp, exists_eq_left]
  grind

theorem mem_awning : a ∈ badAwning m ↔ hasRole m 16 = true ∧ ∃ f ∈ awningFields m, named f a := by
  unfold badAwning
  cases hasRole m 16 with
  | false => simp
  | true =>
    simp only [awningFields, List.mem_append, mem_range, List.mem_cons, Bool.not_true, Bool.false_eq_true,
      if_false, true_and, List.not_mem_nil, or_false, exists_eq_or_imp, exists_eq_left, or_assoc]

theorem mem_jack {j : JackId} : a ∈ badJack m j ↔ hasRole m (9 + j.val) = true ∧
    ((∃ f ∈ jackFields m (jackBase j), named f a) ∨ (a = jackBase j ∧ 1200 < (m.s16 (jackBase j)).natAbs) ∨
      (a = jackBase j + 2 ∧ 1200 < (m.s16 (jackBase j + 2)).natAbs)) := by
  unfold badJack
  cases hasRole m (9 + j.val) with
  | false => simp
  | true =>
    simp only [jackFields, List.mem_append, mem_range, mem_decide, List.mem_cons, Bool.not_true, Bool.false_eq_true,
      if_false, true_and, List.not_mem_nil, or_false, exists_eq_or_imp, exists_eq_left]
    grind

theorem mem_room {k : RoomId} : a ∈ badRoom m k ↔
    (hasRole m (2 * k.val + 1) = true ∨ hasRole m (2 * k.val + 2) = true) ∧
    ((∃ f ∈ roomFields m (roomBase k), named f a) ∨
      (a = roomBase k ∧ m.u8 (roomBase k) ≠ if hasRole m (2 * k.val + 2) then 2 else 1) ∨
      (a = roomBase k + 7 ∧ m.u8 (roomBase k + 7) ≤ m.u8 (roomBase k + 6))) := by
  unfold badRoom
  by_cases given : hasRole m (2 * k.val + 1) = true ∨ hasRole m (2 * k.val + 2) = true
  · have some : ¬(!hasRole m (2 * k.val + 1) && !hasRole m (2 * k.val + 2)) = true := by
      simp only [Bool.and_eq_true, Bool.not_eq_true', not_and_or, Bool.not_eq_false]
      exact given
    have rack : a ∈ badIf (decide (200 < m.u8 (roomBase k + 7))) (roomBase k + 7) ↔
        named ⟨roomBase k + 7, m.u8 (roomBase k + 7), 0, 200⟩ a := by
      rw [mem_decide, named]
      simp
    have motors : a ∈ badIf (m.u8 (roomBase k) != if hasRole m (2 * k.val + 2) then 2 else 1) (roomBase k) ↔
        a = roomBase k ∧ m.u8 (roomBase k) ≠ if hasRole m (2 * k.val + 2) then 2 else 1 := by
      rw [mem_badIf, bne_iff_ne]
    simp only [if_neg some, given, true_and, roomFields, badFlag, List.mem_append, mem_either, rack, motors, mem_range,
      List.mem_cons, List.not_mem_nil, or_false, exists_eq_or_imp, exists_eq_left]
    rw [mem_decide]
    grind
  · have none : (!hasRole m (2 * k.val + 1) && !hasRole m (2 * k.val + 2)) = true := by
      simpa [not_or] using given
    simp [none, given]

/-- The start duty stands above the run duty. -/
def dutyTie (m : Image) (b a : Nat) : Prop := a = b + 1 ∧ m.u8 (b + 1) < m.u8 b

/-- The depth of a pace is no power of two up to 8. -/
def depthTie (m : Image) (b a : Nat) : Prop :=
  a = b + 7 ∧ m.u8 (b + 7) ≠ 1 ∧ m.u8 (b + 7) ≠ 2 ∧ m.u8 (b + 7) ≠ 4 ∧ m.u8 (b + 7) ≠ 8

theorem mem_kind {kd : Kind} : a ∈ badKind m kd ↔
    (kd ≠ .jackValve ∧ ((∃ f ∈ dutyFields m (kindBase kd), named f a) ∨ dutyTie m (kindBase kd) a)) ∨
    (kd ≠ .pumpMotor ∧ ((∃ f ∈ pulseFields m (kindBase kd), named f a) ∨ depthTie m (kindBase kd) a)) := by
  have byte : ¬ named ⟨kindBase kd, m.u8 (kindBase kd), 0, 255⟩ a := by
    have := m.u8_lt (kindBase kd)
    simp only [named]
    omega
  have depth : a ∈ badIf (!([1, 2, 4, 8] : List Nat).contains (m.u8 (kindBase kd + 7))) (kindBase kd + 7) ↔
      depthTie m (kindBase kd) a := by simp [mem_badIf, depthTie]
  have tie : a ∈ badIf (decide (m.u8 (kindBase kd + 1) < m.u8 (kindBase kd))) (kindBase kd + 1) ↔ dutyTie m (kindBase kd) a := by
    rw [mem_decide, dutyTie]
  have duty : (∃ f ∈ dutyFields m (kindBase kd), named f a) ∨ dutyTie m (kindBase kd) a ↔
      a ∈ badIf (outside 1 255 (m.u8 (kindBase kd + 1)) || decide (m.u8 (kindBase kd + 1) < m.u8 (kindBase kd))) (kindBase kd + 1) ++
        badIf (outside 1 255 (m.u8 (kindBase kd + 2))) (kindBase kd + 2) ++
        badIf (outside 1 4095 (m.u16 (kindBase kd + 3))) (kindBase kd + 3) ++
        badIf (outside 0 2000 (m.u16 (kindBase kd + 5))) (kindBase kd + 5) := by
    simp only [dutyFields, List.mem_append, mem_either, mem_range, tie, List.mem_cons, byte,
      List.not_mem_nil, or_false, false_or, exists_eq_or_imp, exists_eq_left]
    grind
  have pulse : (∃ f ∈ pulseFields m (kindBase kd), named f a) ∨ depthTie m (kindBase kd) a ↔
      a ∈ badIf (!([1, 2, 4, 8] : List Nat).contains (m.u8 (kindBase kd + 7))) (kindBase kd + 7) ++
        badIf (outside 0 127 (m.u8 (kindBase kd + 8))) (kindBase kd + 8) ++
        badIf (outside 20 64 (m.u8 (kindBase kd + 9))) (kindBase kd + 9) ++
        badIf (outside 20 5000 (m.u16 (kindBase kd + 10))) (kindBase kd + 10) ++
        badIf (outside 200 5000 (m.u16 (kindBase kd + 12))) (kindBase kd + 12) ++
        badIf (outside 0 3 (m.u8 (kindBase kd + 14))) (kindBase kd + 14) := by
    simp only [pulseFields, List.mem_append, depth, mem_range, List.mem_cons, List.not_mem_nil, or_false, exists_eq_or_imp,
      exists_eq_left]
    grind
  rw [duty, pulse]
  unfold badKind
  cases kd with
  | slideMotor | awningMotor => simp only [List.mem_append, reduceCtorEq, ne_eq, not_false_eq_true, true_and, if_false]
  | pumpMotor => simp only [List.mem_append, reduceCtorEq, ne_eq, not_false_eq_true, not_true_eq_false, true_and, false_and,
      if_false, if_true, List.not_mem_nil]
  | jackValve => simp only [List.mem_append, reduceCtorEq, ne_eq, not_false_eq_true, not_true_eq_false, true_and, false_and,
      if_false, if_true, List.not_mem_nil]

/-! ### Roles -/

theorem roleGiven_eq (m : Image) (c : Nat) : roleGiven m c = hasRole m c := rfl

theorem hasRole_iff : hasRole m c = true ↔ ∃ n : Chan, m.u8 (2 * n.val) = c := by
  rw [← roleGiven_eq]
  simp [roleGiven, mem_allChans]

theorem jackCodes_eq (m : Image) : jackCodes m = (jacksGiven m).map fun j => 9 + j.val := by
  have codes : List.range' 9 6 = allJacks.map fun j => 9 + j.val := by decide
  unfold jackCodes jacksGiven
  rw [codes, List.filter_map]
  rfl

theorem length_jackCodes (m : Image) : (jackCodes m).length = (jacksGiven m).length := by
  rw [jackCodes_eq, List.length_map]

theorem mem_jacksGiven {j : JackId} : j ∈ jacksGiven m ↔ hasRole m (9 + j.val) = true := by
  simp [jacksGiven, mem_allJacks, roleGiven_eq]

/-- The jacks given are counted by the codes that channels have. -/
theorem jacksGiven_pos {n : Chan} (least : 9 ≤ m.u8 (2 * n.val)) (most : m.u8 (2 * n.val) ≤ 14) :
    0 < (jacksGiven m).length := by
  refine List.length_pos_of_mem (a := (⟨m.u8 (2 * n.val) - 9, by omega⟩ : JackId)) (mem_jacksGiven.mpr ?_)
  exact hasRole_iff.mpr ⟨n, by simp only; omega⟩

/-- The first channel that meets a test, if one does: its role byte, which lies no later than that of any other. -/
theorem mem_firstByte {test : Nat → Bool} :
    a ∈ ((List.range 16).find? test).toList.map (fun n => 2 * n) ↔
      ∃ n : Chan, a = 2 * n.val ∧ test n.val = true ∧ ∀ i < n.val, test i = false := by
  simp only [List.mem_map, Option.mem_toList, List.find?_range_eq_some, List.mem_range, Bool.not_eq_true']
  constructor
  · rintro ⟨x, ⟨holds, small, before⟩, rfl⟩
    exact ⟨⟨x, small⟩, rfl, holds, before⟩
  · rintro ⟨n, rfl, holds, before⟩
    exact ⟨n.val, ⟨holds, n.isLt, before⟩, rfl⟩

theorem exists_firstByte {test : Nat → Bool} {n : Chan} (holds : test n.val = true) :
    ∃ b ∈ ((List.range 16).find? test).toList.map (fun n => 2 * n), b ≤ 2 * n.val := by
  have some : ∃ i, test i = true := ⟨n.val, holds⟩
  have least : Nat.find some ≤ n.val := Nat.find_min' some holds
  refine ⟨2 * Nat.find some, mem_firstByte.mpr ⟨⟨Nat.find some, by omega⟩, rfl, Nat.find_spec some, fun i before => ?_⟩, by omega⟩
  simpa using Nat.find_min some before

theorem mem_channels : a ∈ badChannels m count ↔ ∃ n : Chan, (a = 2 * n.val ∧ 16 < m.u8 (2 * n.val)) ∨
    (a = 2 * n.val + 1 ∧ m.u8 (2 * n.val + 1) % 8 = 7) ∨ (a = 2 * n.val ∧ count ≤ n.val ∧ m.u8 (2 * n.val) ≠ 0) ∨
    (a = 2 * n.val ∧ m.u8 (2 * n.val) ≠ 0 ∧ ∃ i : Chan, i < n ∧ m.u8 (2 * i.val) = m.u8 (2 * n.val)) := by
  have scale (n : Nat) : 6 < m.u8 (2 * n + 1) % 8 ↔ m.u8 (2 * n + 1) % 8 = 7 := by omega
  have twice (n : Nat) (small : n < 16) : (∃ k < n, m.u8 (2 * k) = m.u8 (2 * n)) ↔
      ∃ i : Chan, i < (⟨n, small⟩ : Chan) ∧ m.u8 (2 * i.val) = m.u8 (2 * n) :=
    ⟨fun ⟨k, before, same⟩ => ⟨⟨k, by omega⟩, before, same⟩, fun ⟨i, before, same⟩ => ⟨i.val, before, same⟩⟩
  simp only [badChannels, List.mem_flatten, List.mem_map, List.mem_range, exists_exists_and_eq_and, List.mem_append,
    mem_badIf, Bool.and_eq_true, decide_eq_true_eq, bne_iff_ne, List.any_eq_true, beq_iff_eq, or_assoc, scale]
  simp only [roleCode]
  constructor
  · rintro ⟨n, small, h⟩
    rw [twice n small] at h
    exact ⟨⟨n, small⟩, h⟩
  · rintro ⟨n, h⟩
    refine ⟨n.val, n.isLt, ?_⟩
    rw [twice n.val n.isLt]
    exact h

theorem mem_roles : a ∈ badRoles m ↔
    (∃ k : RoomId, hasRole m (2 * k.val + 2) = true ∧ hasRole m (2 * k.val + 1) = false ∧ a ∈ roleByteOf m (2 * k.val + 2)) ∨
    (((jacksGiven m).length = 1 ∨ (jacksGiven m).length = 2) ∧ a ∈ lowestJackByte m) ∨
    (0 < (jacksGiven m).length ∧ hasRole m 15 = false ∧ a ∈ lowestJackByte m) ∨
    ((jacksGiven m).length = 0 ∧ a ∈ roleByteOf m 15) := by
  have chosen {p : Prop} [Decidable p] {l : List Nat} : a ∈ (if p then l else []) ↔ p ∧ a ∈ l := by
    by_cases p <;> simp_all
  simp only [badRoles, List.mem_append, chosen, List.mem_flatten, List.mem_map, List.mem_range, exists_exists_and_eq_and,
    Bool.and_eq_true, Bool.not_eq_true', length_jackCodes, and_assoc, or_assoc]
  refine or_congr ⟨?_, ?_⟩ Iff.rfl
  · rintro ⟨k, small, h⟩
    exact ⟨⟨k, small⟩, h⟩
  · rintro ⟨k, h⟩
    exact ⟨k.val, k.isLt, h⟩

theorem roleByte_fails (h : a ∈ badChannels m count ∨ a ∈ badRoles m) : BadChannel m count a := by
  obtain h | h := h
  · obtain ⟨n, ⟨rfl, big⟩ | ⟨rfl, scale⟩ | ⟨rfl, beyond, role⟩ | ⟨rfl, role, twice⟩⟩ := mem_channels.mp h
    · exact ⟨n, .inr ⟨rfl, _, rfl, .inl big⟩⟩
    · exact ⟨n, .inl ⟨rfl, scale⟩⟩
    · exact ⟨n, .inr ⟨rfl, _, rfl, .inr (.inl ⟨beyond, role⟩)⟩⟩
    · exact ⟨n, .inr ⟨rfl, _, rfl, .inr (.inr (.inl ⟨role, twice⟩))⟩⟩
  · have lowest (h : a ∈ lowestJackByte m) :
        ∃ n : Chan, a = 2 * n.val ∧ 9 ≤ m.u8 (2 * n.val) ∧ m.u8 (2 * n.val) ≤ 14 := by
      obtain ⟨n, rfl, holds, -⟩ := mem_firstByte.mp h
      simp only [Bool.and_eq_true, decide_eq_true_eq] at holds
      exact ⟨n, rfl, holds⟩
    have first (c : Nat) (h : a ∈ roleByteOf m c) : ∃ n : Chan, a = 2 * n.val ∧ m.u8 (2 * n.val) = c := by
      obtain ⟨n, rfl, holds, -⟩ := mem_firstByte.mp h
      exact ⟨n, rfl, by simpa [roleCode] using holds⟩
    obtain ⟨k, -, alone, h⟩ | ⟨few, h⟩ | ⟨-, pumpless, h⟩ | ⟨none, h⟩ := mem_roles.mp h
    · obtain ⟨n, rfl, code⟩ := first _ h
      exact ⟨n, .inr ⟨rfl, _, rfl, .inr (.inr (.inr (.inl ⟨k, code, alone⟩)))⟩⟩
    · obtain ⟨n, rfl, least, most⟩ := lowest h
      exact ⟨n, .inr ⟨rfl, _, rfl, .inr (.inr (.inr (.inr (.inl ⟨least, most, .inl (by omega)⟩))))⟩⟩
    · obtain ⟨n, rfl, least, most⟩ := lowest h
      exact ⟨n, .inr ⟨rfl, _, rfl, .inr (.inr (.inr (.inr (.inl ⟨least, most, .inr pumpless⟩))))⟩⟩
    · obtain ⟨n, rfl, code⟩ := first _ h
      exact ⟨n, .inr ⟨rfl, _, rfl, .inr (.inr (.inr (.inr (.inr ⟨code, List.length_eq_zero_iff.mp none⟩))))⟩⟩

/-- Of the failures that several role bytes show the model names the first. -/
theorem roleByte_named (h : BadChannel m count a) : ∃ b, (b ∈ badChannels m count ∨ b ∈ badRoles m) ∧ b ≤ a := by
  obtain ⟨n, ⟨rfl, scale⟩ | ⟨rfl, c, rfl, big | ⟨beyond, role⟩ | ⟨role, twice⟩ | ⟨k, code, alone⟩ | ⟨least, most, h⟩ |
    ⟨pump, none⟩⟩⟩ := h
  · exact ⟨_, .inl (mem_channels.mpr ⟨n, .inr (.inl ⟨rfl, scale⟩)⟩), le_rfl⟩
  · exact ⟨_, .inl (mem_channels.mpr ⟨n, .inl ⟨rfl, big⟩⟩), le_rfl⟩
  · exact ⟨_, .inl (mem_channels.mpr ⟨n, .inr (.inr (.inl ⟨rfl, beyond, role⟩))⟩), le_rfl⟩
  · exact ⟨_, .inl (mem_channels.mpr ⟨n, .inr (.inr (.inr ⟨rfl, role, twice⟩))⟩), le_rfl⟩
  · obtain ⟨b, first, before⟩ := exists_firstByte (test := fun n => roleCode m n == 2 * k.val + 2) (n := n)
      (by simpa [roleCode] using code)
    exact ⟨b, .inr (mem_roles.mpr (.inl ⟨k, hasRole_iff.mpr ⟨n, code⟩, alone, first⟩)), before⟩
  · obtain ⟨b, first, before⟩ := exists_firstByte
      (test := fun n => decide (9 ≤ roleCode m n) && decide (roleCode m n ≤ 14)) (n := n) (by simp [roleCode, least, most])
    have some := jacksGiven_pos least most
    obtain few | pumpless := h
    · exact ⟨b, .inr (mem_roles.mpr (.inr (.inl ⟨by omega, first⟩))), before⟩
    · exact ⟨b, .inr (mem_roles.mpr (.inr (.inr (.inl ⟨some, pumpless, first⟩)))), before⟩
  · obtain ⟨b, first, before⟩ := exists_firstByte (test := fun n => roleCode m n == 15) (n := n)
      (by simpa [roleCode] using pump)
    exact ⟨b, .inr (mem_roles.mpr (.inr (.inr (.inr ⟨by rw [none]; rfl, first⟩)))), before⟩

/-! ### Plans -/

theorem groupCode_of_groupOfCode {g : Group} (h : groupOfCode c = some g) : groupCode g = c := by
  unfold groupOfCode at h
  split at h <;> cases h <;> rfl

theorem groupOfCode_none : groupOfCode c = none ↔ c = 0 ∨ 6 < c := by
  match c with
  | 0 | 1 | 2 | 3 | 4 | 5 | 6 => simp [groupOfCode]
  | x + 7 => simp [groupOfCode]

theorem actionOfCode_none {g : Group} : actionOfCode g c = none ↔ c = 0 ∨ 3 < c ∨ (c = 3 ∧ g ≠ .jacks) := by
  match c with
  | 0 | 1 | 2 | 3 => simp [actionOfCode, dirOfCode]
  | x + 4 => simp [actionOfCode, dirOfCode]

/-- An entry that cannot be read (R180). -/
theorem readEntry_none : readEntry m a = none ↔ m.u8 a / 16 = 0 ∨ 6 < m.u8 a / 16 ∨ m.u8 a % 16 = 0 ∨ 3 < m.u8 a % 16 ∨
    (m.u8 a % 16 = 3 ∧ m.u8 a / 16 ≠ 5) := by
  unfold readEntry
  dsimp only
  cases group : groupOfCode (m.u8 a / 16) with
  | none =>
    have range := groupOfCode_none.mp group
    refine iff_of_true rfl ?_
    omega
  | some g =>
    have code := groupCode_of_groupOfCode group
    have range : ¬(m.u8 a / 16 = 0 ∨ 6 < m.u8 a / 16) := fun h => by
      rw [groupOfCode_none.mpr h] at group
      exact nomatch group
    have jacks : g = .jacks ↔ m.u8 a / 16 = 5 := by
      rw [← code]
      cases g with
      | room k =>
        have := k.isLt
        simp only [groupCode, reduceCtorEq, false_iff]
        omega
      | jacks => simp [groupCode]
      | awning => simp [groupCode]
    refine Option.map_eq_none_iff.trans ?_
    rw [actionOfCode_none, ne_eq, jacks]
    omega

theorem mem_plan {p : PlanName} : a ∈ badPlan m p ↔ (a = planBase p ∧ 8 < m.u8 (planBase p)) ∨
    ∃ i b, i < m.u8 (planBase p) ∧ i < 8 ∧ b = planBase p + 1 + 7 * i ∧
      ((a = b ∧ (m.u8 b = 0 ∨ 6 < m.u8 b)) ∨
        ∃ e v, e < m.u8 b ∧ e < 6 ∧ a = b + 1 + e ∧ v = m.u8 a ∧
          (v / 16 = 0 ∨ 6 < v / 16 ∨ v % 16 = 0 ∨ 3 < v % 16 ∨ (v % 16 = 3 ∧ v / 16 ≠ 5) ∨
            ∃ d, d < e ∧ m.u8 (b + 1 + d) / 16 = v / 16)) := by
  have step (i : Nat) : a ∈ badStep m p i ↔ (a = stepBase p i ∧ (m.u8 (stepBase p i) = 0 ∨ 6 < m.u8 (stepBase p i))) ∨
      ∃ e v, e < m.u8 (stepBase p i) ∧ e < 6 ∧ a = stepBase p i + 1 + e ∧ v = m.u8 a ∧
        (v / 16 = 0 ∨ 6 < v / 16 ∨ v % 16 = 0 ∨ 3 < v % 16 ∨ (v % 16 = 3 ∧ v / 16 ≠ 5) ∨
          ∃ d, d < e ∧ m.u8 (stepBase p i + 1 + d) / 16 = v / 16) := by
    simp only [badStep, List.mem_append, mem_badIf, outside_iff, Nat.lt_one_iff, List.mem_flatten, List.mem_map, List.mem_range,
      exists_exists_and_eq_and, Bool.or_eq_true, Option.isNone_iff_eq_none, readEntry_none, List.any_eq_true, beq_iff_eq,
      Nat.lt_min, or_assoc]
    simp only [and_assoc]
    refine or_congr Iff.rfl ⟨?_, ?_⟩
    · rintro ⟨e, counted, small, rfl, h⟩
      exact ⟨e, _, counted, small, rfl, rfl, h⟩
    · rintro ⟨e, v, counted, small, rfl, rfl, h⟩
      exact ⟨e, counted, small, rfl, h⟩
  simp only [badPlan, List.mem_append, mem_badIf, outside_iff, Nat.not_lt_zero, false_or, List.mem_flatten, List.mem_map,
    List.mem_range, exists_exists_and_eq_and, step, Nat.lt_min]
  simp only [and_assoc]
  refine or_congr Iff.rfl ⟨?_, ?_⟩
  · rintro ⟨i, counted, small, h⟩
    exact ⟨i, stepBase p i, counted, small, rfl, h⟩
  · rintro ⟨i, b, counted, small, rfl, h⟩
    exact ⟨i, counted, small, h⟩

theorem mem_plans : (a ∈ badPlan m .setup ∨ a ∈ badPlan m .stow) ↔ BadPlan m a := by
  rw [mem_plan, mem_plan]
  constructor
  · rintro (h | h)
    · exact ⟨304, .inl rfl, h⟩
    · exact ⟨368, .inr rfl, h⟩
  · rintro ⟨p, rfl | rfl, h⟩
    · exact .inl h
    · exact .inr h

end

end Sys2Proof.Machine
end

section
/-! PROOFS. LAYOUT_COMMIT (R179 to R181): the byte that a refusal names, and what an accepted image holds. -/

namespace Sys2Proof.Machine

section
variable {m : Image} {count a : Nat}

open Safety

/-! ### The failures together -/

/-- The failures that validation names at their own bytes, each in the words of the statements. -/
theorem mem_testedFields : (∃ f ∈ testedFields m, named f a) ↔
    (∃ b, (b = 32 ∨ b = 48 ∨ b = 64) ∧ ∃ f ∈ dutyFields m b, named f a) ∨
    (∃ b, (b = 32 ∨ b = 64 ∨ b = 80) ∧ ∃ f ∈ pulseFields m b, named f a) ∨
    (∃ f ∈ generalFields m, named f a) ∨ (∃ f ∈ levelFields m, named f a) ∨ (∃ f ∈ windFields m, named f a) ∨
    (∃ k : RoomId, (hasRole m (2 * k.val + 1) = true ∨ hasRole m (2 * k.val + 2) = true) ∧
      ∃ f ∈ roomFields m (roomBase k), named f a) ∨
    (hasRole m 16 = true ∧ ∃ f ∈ awningFields m, named f a) ∨
    (∃ j : JackId, hasRole m (9 + j.val) = true ∧ ∃ f ∈ jackFields m (jackBase j), named f a) := by
  have either {p : RangedField → Prop} {x y : List RangedField} :
      (∃ f ∈ x ++ y, p f) ↔ (∃ f ∈ x, p f) ∨ ∃ f ∈ y, p f := by
    simp only [List.mem_append, or_and_right, exists_or]
  have nested {α : Type} {p : RangedField → Prop} {x : List α} {g : α → List RangedField} :
      (∃ f ∈ (x.map g).flatten, p f) ↔ ∃ b ∈ x, ∃ f ∈ g b, p f := by
    simp only [List.mem_flatten, List.mem_map, exists_exists_and_eq_and]
    exact ⟨fun ⟨f, ⟨b, hb, hf⟩, h⟩ => ⟨b, hb, f, hf, h⟩, fun ⟨b, hb, f, hf, h⟩ => ⟨f, ⟨b, hb, hf⟩, h⟩⟩
  have chosen {p : RangedField → Prop} {c : Prop} [Decidable c] {x : List RangedField} :
      (∃ f ∈ if c then x else [], p f) ↔ c ∧ ∃ f ∈ x, p f := by
    by_cases h : c <;> simp [h]
  simp only [testedFields, List.flatten_append, either, nested, chosen, mem_jacksGiven, mem_allRooms, true_and,
    Bool.or_eq_true, List.mem_cons, List.not_mem_nil, or_false, or_assoc]
  rfl

theorem mem_kinds : (a ∈ badKind m .slideMotor ∨ a ∈ badKind m .pumpMotor ∨ a ∈ badKind m .awningMotor ∨
      a ∈ badKind m .jackValve) ↔
    ((∃ b, (b = 32 ∨ b = 48 ∨ b = 64) ∧ ∃ f ∈ dutyFields m b, named f a) ∨
      ∃ b, (b = 32 ∨ b = 48 ∨ b = 64) ∧ dutyTie m b a) ∨
    (∃ b, (b = 32 ∨ b = 64 ∨ b = 80) ∧ ∃ f ∈ pulseFields m b, named f a) ∨
      ∃ b, (b = 32 ∨ b = 64 ∨ b = 80) ∧ depthTie m b a := by
  simp only [mem_kind, kindBase, ne_eq, reduceCtorEq, not_true_eq_false, not_false_eq_true, false_and, true_and, or_false,
    false_or, or_and_right, exists_or, exists_eq_left]
  grind

theorem mem_badBytes : a ∈ badBytes m count ↔ (a ∈ badChannels m count ∨ a ∈ badRoles m) ∨
    (a ∈ badKind m .slideMotor ∨ a ∈ badKind m .pumpMotor ∨ a ∈ badKind m .awningMotor ∨ a ∈ badKind m .jackValve) ∨
    a ∈ badGeneral m ∨ (∃ k, a ∈ badRoom m k) ∨ a ∈ badAwning m ∨ (∃ j, a ∈ badJack m j) ∨ a ∈ badLevel m ∨
    (a ∈ badPlan m .setup ∨ a ∈ badPlan m .stow) ∨ a ∈ badWind m := by
  simp only [badBytes, List.mem_append, List.mem_flatten, List.mem_map, exists_exists_eq_and,
    mem_allRooms, mem_allJacks, true_and, or_assoc]

/-- The ties between two fields, each with the part of the image that it belongs to. -/
theorem badTie_iff : BadTie m a ↔ (∃ b, (b = 32 ∨ b = 48 ∨ b = 64) ∧ dutyTie m b a) ∨
    (∃ b, (b = 32 ∨ b = 64 ∨ b = 80) ∧ depthTie m b a) ∨
    (∃ k : RoomId, (hasRole m (2 * k.val + 1) = true ∨ hasRole m (2 * k.val + 2) = true) ∧
      ((a = roomBase k ∧ m.u8 (roomBase k) ≠ if hasRole m (2 * k.val + 2) then 2 else 1) ∨
        (a = roomBase k + 7 ∧ m.u8 (roomBase k + 7) ≤ m.u8 (roomBase k + 6)))) ∨
    (∃ j : JackId, hasRole m (9 + j.val) = true ∧ ((a = jackBase j ∧ 1200 < (m.s16 (jackBase j)).natAbs) ∨
      (a = jackBase j + 2 ∧ 1200 < (m.s16 (jackBase j + 2)).natAbs))) ∨
    (a = 439 ∧ m.u16 437 ≤ m.u16 439) := by
  have rack (k : RoomId) : roomBase k + 7 = 119 + 16 * k.val := by unfold roomBase; omega
  have window (k : RoomId) : roomBase k + 6 = 118 + 16 * k.val := by unfold roomBase; omega
  have second (j : JackId) : jackBase j + 2 = 194 + 16 * j.val := by unfold jackBase; omega
  simp only [rack, window, second]
  unfold BadTie roomBase jackBase
  refine or_congr Iff.rfl (or_congr ?_ (or_congr ?_ (or_congr ?_ ?_)))
  · exact exists_congr fun b => and_congr_right fun _ => and_congr_right fun e => by rw [e]
  · refine exists_congr fun k => and_congr_right fun _ => or_congr ?_ ?_
    · exact and_congr_right fun e => by rw [e]; rfl
    · exact and_congr_right fun e => by rw [e]
  · constructor
    · rintro ⟨j, given, rfl | rfl, far⟩
      · exact ⟨j, mem_jacksGiven.mp given, .inl ⟨rfl, far⟩⟩
      · exact ⟨j, mem_jacksGiven.mp given, .inr ⟨rfl, far⟩⟩
    · rintro ⟨j, given, ⟨rfl, far⟩ | ⟨rfl, far⟩⟩
      · exact ⟨j, mem_jacksGiven.mpr given, .inl rfl, far⟩
      · exact ⟨j, mem_jacksGiven.mpr given, .inr rfl, far⟩
  · exact Iff.rfl

theorem mem_rooms : (∃ k, a ∈ badRoom m k) ↔
    (∃ k : RoomId, (hasRole m (2 * k.val + 1) = true ∨ hasRole m (2 * k.val + 2) = true) ∧
      ∃ f ∈ roomFields m (roomBase k), named f a) ∨
    (∃ k : RoomId, (hasRole m (2 * k.val + 1) = true ∨ hasRole m (2 * k.val + 2) = true) ∧
      ((a = roomBase k ∧ m.u8 (roomBase k) ≠ if hasRole m (2 * k.val + 2) then 2 else 1) ∨
        (a = roomBase k + 7 ∧ m.u8 (roomBase k + 7) ≤ m.u8 (roomBase k + 6)))) := by
  simp only [mem_room, and_or_left, exists_or]

theorem mem_jacks : (∃ j, a ∈ badJack m j) ↔
    (∃ j : JackId, hasRole m (9 + j.val) = true ∧ ∃ f ∈ jackFields m (jackBase j), named f a) ∨
    (∃ j : JackId, hasRole m (9 + j.val) = true ∧ ((a = jackBase j ∧ 1200 < (m.s16 (jackBase j)).natAbs) ∨
      (a = jackBase j + 2 ∧ 1200 < (m.s16 (jackBase j + 2)).natAbs))) := by
  simp only [mem_jack, and_or_left, exists_or]

theorem failsAt_iff : FailsAt m count a ↔ BadChannel m count a ∨
    (a ∈ badKind m .slideMotor ∨ a ∈ badKind m .pumpMotor ∨ a ∈ badKind m .awningMotor ∨ a ∈ badKind m .jackValve) ∨
    a ∈ badGeneral m ∨ (∃ k, a ∈ badRoom m k) ∨ a ∈ badAwning m ∨ (∃ j, a ∈ badJack m j) ∨ a ∈ badLevel m ∨
    (a ∈ badPlan m .setup ∨ a ∈ badPlan m .stow) ∨ a ∈ badWind m := by
  have fields : FailsAt m count a ↔
      (∃ f ∈ testedFields m, named f a) ∨ BadChannel m count a ∨ BadTie m a ∨ BadPlan m a := Iff.rfl
  have regroup (duty pulse general level wind room awning jack role dutyTie depthTie roomTie jackTie windTie plan : Prop) :
      (duty ∨ pulse ∨ general ∨ level ∨ wind ∨ room ∨ awning ∨ jack) ∨ role ∨
        (dutyTie ∨ depthTie ∨ roomTie ∨ jackTie ∨ windTie) ∨ plan ↔
      role ∨ ((duty ∨ dutyTie) ∨ pulse ∨ depthTie) ∨ general ∨ (room ∨ roomTie) ∨ awning ∨ (jack ∨ jackTie) ∨ level ∨ plan ∨
        wind ∨ windTie := by grind
  rw [fields, mem_testedFields, badTie_iff, mem_kinds, mem_general, mem_rooms, mem_awning, mem_jacks, mem_level, mem_plans,
    mem_wind]
  exact regroup ..

/-- The model's first byte at fault is the lowest at which validation finds a failure (R180). -/
theorem firstBadByte_none : firstBadByte m count = none ↔ ∀ b, ¬ FailsAt m count b := by
  rw [firstBadByte, List.min?_eq_none_iff, List.eq_nil_iff_forall_not_mem]
  constructor
  · intro none b fails
    rcases failsAt_iff.mp fails with role | other
    · obtain ⟨c, named, -⟩ := roleByte_named role
      exact none c (mem_badBytes.mpr (.inl named))
    · exact none b (mem_badBytes.mpr (.inr other))
  · intro none b named
    rcases mem_badBytes.mp named with role | other
    · exact none b (failsAt_iff.mpr (.inl (roleByte_fails role)))
    · exact none b (failsAt_iff.mpr (.inr other))

theorem firstBadByte_some : firstBadByte m count = some a ↔ FailsAt m count a ∧ ∀ b, FailsAt m count b → a ≤ b := by
  have sound (b : Nat) (h : b ∈ badBytes m count) : FailsAt m count b := by
    rcases mem_badBytes.mp h with role | other
    · exact failsAt_iff.mpr (.inl (roleByte_fails role))
    · exact failsAt_iff.mpr (.inr other)
  have complete (b : Nat) (h : FailsAt m count b) : ∃ c ∈ badBytes m count, c ≤ b := by
    rcases failsAt_iff.mp h with role | other
    · obtain ⟨c, named, below⟩ := roleByte_named role
      exact ⟨c, mem_badBytes.mpr (.inl named), below⟩
    · exact ⟨b, mem_badBytes.mpr (.inr other), le_rfl⟩
  rw [firstBadByte, List.min?_eq_some_iff]
  constructor
  · rintro ⟨mem, least⟩
    refine ⟨sound a mem, fun b fails => ?_⟩
    obtain ⟨c, named, below⟩ := complete b fails
    exact (least c named).trans below
  · rintro ⟨fails, least⟩
    obtain ⟨c, named, below⟩ := complete a fails
    have same : c = a := le_antisymm below (least c (sound c named))
    exact ⟨same ▸ named, fun b mem => least b (sound b mem)⟩

end

section
variable {m : Image} {l : Layout} {r : Role} {n : Chan} {c : Nat}

/-! ### The layout of a record -/

theorem roleOfCode_code (r : Role) : roleOfCode r.code = some r := by
  cases r with
  | none => rfl
  | room k x => cases x <;> (revert k; decide)
  | jack j => revert j; decide
  | pump => rfl
  | awning => rfl

theorem code_of_roleOfCode (h : roleOfCode c = some r) : r.code = c := by
  unfold roleOfCode at h
  by_cases zero : c = 0
  · rw [if_pos zero] at h
    obtain rfl := Option.some.inj h
    exact zero.symm
  by_cases room : c ≤ 8
  · rw [if_neg zero, if_pos room] at h
    obtain rfl := Option.some.inj h
    by_cases odd : c % 2 = 1
    · simp [Role.code, odd]
      omega
    · simp [Role.code, odd]
      omega
  by_cases jack : c ≤ 14
  · rw [if_neg zero, if_neg room, if_pos jack] at h
    obtain rfl := Option.some.inj h
    simp [Role.code]
    omega
  by_cases pump : c = 15
  · rw [if_neg zero, if_neg room, if_neg jack, if_pos pump] at h
    obtain rfl := Option.some.inj h
    exact pump.symm
  by_cases awning : c = 16
  · rw [if_neg zero, if_neg room, if_neg jack, if_neg pump, if_pos awning] at h
    obtain rfl := Option.some.inj h
    exact awning.symm
  · rw [if_neg zero, if_neg room, if_neg jack, if_neg pump, if_neg awning] at h
    exact nomatch h

theorem roles_ofImage (m : Image) (n : Chan) : (Layout.ofImage m).roles[n] = (roleOfCode (m.u8 (2 * n.val))).getD .none :=
  ofFn_getElem _ n

theorem rooms_ofImage (m : Image) (k : RoomId) : (Layout.ofImage m).rooms[k] = readRoom m k := ofFn_getElem _ k

theorem jacks_ofImage (m : Image) (j : JackId) : (Layout.ofImage m).jacks[j] = readJack m j := ofFn_getElem _ j

/-- A channel has a role by its code. -/
theorem roles_eq_iff (role : r ≠ .none) : (Layout.ofImage m).roles[n] = r ↔ m.u8 (2 * n.val) = r.code := by
  rw [roles_ofImage]
  constructor
  · intro h
    cases code : roleOfCode (m.u8 (2 * n.val)) with
    | none =>
      rw [code] at h
      exact absurd h.symm role
    | some x =>
      rw [code] at h
      rw [← show x = r from h, code_of_roleOfCode code]
  · intro h
    rw [h, roleOfCode_code]
    rfl

theorem hasRole_ofImage (role : r ≠ .none) : (Layout.ofImage m).hasRole r = hasRole m r.code := by
  rw [← Bool.coe_iff_coe, hasRole_iff]
  simp only [Layout.hasRole, List.any_eq_true, mem_allChans, true_and, beq_iff_eq]
  exact exists_congr fun n => roles_eq_iff role

/-- No role is read from code 0 alone, where the code is one of a role. -/
theorem roles_none_iff (valid : m.u8 (2 * n.val) ≤ 16) : (Layout.ofImage m).roles[n] = .none ↔ m.u8 (2 * n.val) = 0 := by
  rw [roles_ofImage]
  constructor
  · intro h
    cases code : roleOfCode (m.u8 (2 * n.val)) with
    | none =>
      unfold roleOfCode at code
      split_ifs at code
      omega
    | some x =>
      rw [code] at h
      rw [← code_of_roleOfCode code, show x = .none from h]
      rfl
  · intro h
    rw [h]
    rfl

/-- The jacks that the layout configures are those that the record gives. -/
theorem filter_hasRole_jack (m : Image) :
    (allJacks.filter fun j => (Layout.ofImage m).hasRole (.jack j)) = Safety.jacksGiven m :=
  congrArg (fun p => allJacks.filter p) (funext fun _ => hasRole_ofImage (by simp))

end

section
variable {m : Image} {count : Nat}

open Safety

/-! ### What an image without a failure holds -/

/-- The roles of an image without a failure (R180). -/
theorem roles_valid (h : ∀ a, ¬ BadChannel m count a) :
    (∀ n : Chan, count ≤ n.val → (Layout.ofImage m).roles[n] = .none) ∧
    (∀ i n : Chan, i ≠ n → (Layout.ofImage m).roles[i] = (Layout.ofImage m).roles[n] → (Layout.ofImage m).roles[i] = .none) ∧
    (∀ k, (Layout.ofImage m).hasRole (.room k .b) = true → (Layout.ofImage m).hasRole (.room k .a) = true) ∧
    ((Layout.ofImage m).hasRole .pump = allJacks.any fun j => (Layout.ofImage m).hasRole (.jack j)) ∧
    (Safety.jacksGiven m).length ≠ 1 ∧ (Safety.jacksGiven m).length ≠ 2 := by
  have valid (n : Chan) : m.u8 (2 * n.val) ≤ 16 := by
    by_contra big
    exact h _ ⟨n, .inr ⟨rfl, _, rfl, .inl (by omega)⟩⟩
  have once (i n : Chan) (before : i < n) (same : m.u8 (2 * i.val) = m.u8 (2 * n.val)) : m.u8 (2 * n.val) = 0 := by
    by_contra role
    exact h _ ⟨n, .inr ⟨rfl, _, rfl, .inr (.inr (.inl ⟨role, i, before, same⟩))⟩⟩
  have jack (j : JackId) (given : hasRole m (9 + j.val) = true) : 3 ≤ (jacksGiven m).length ∧ hasRole m 15 = true := by
    obtain ⟨n, code⟩ := hasRole_iff.mp given
    have := j.isLt
    constructor
    · by_contra few
      exact h _ ⟨n, .inr ⟨rfl, _, rfl, .inr (.inr (.inr (.inr (.inl ⟨by omega, by omega, .inl (by omega)⟩))))⟩⟩
    · by_contra pumpless
      exact h _ ⟨n, .inr ⟨rfl, _, rfl, .inr (.inr (.inr (.inr (.inl ⟨by omega, by omega, .inr ((Bool.not_eq_true _).mp pumpless)⟩))))⟩⟩
  have three : jacksGiven m = [] ∨ 3 ≤ (jacksGiven m).length := by
    cases given : jacksGiven m with
    | nil => exact .inl rfl
    | cons j rest => exact .inr (given ▸ (jack j (mem_jacksGiven.mp (by simp [given]))).1)
  refine ⟨fun n beyond => ?_, fun i n apart same => ?_, fun k second => ?_, ?_, ?_⟩
  · by_contra role
    exact h _ ⟨n, .inr ⟨rfl, _, rfl, .inr (.inl ⟨beyond, fun zero => role ((roles_none_iff (valid n)).mpr zero)⟩)⟩⟩
  · by_contra role
    have code := (roles_eq_iff role).mp same.symm
    have here := (roles_eq_iff (n := i) role).mp rfl
    rcases lt_or_gt_of_ne apart with before | before
    · exact role ((roles_none_iff (valid i)).mpr (here.trans (code.symm.trans (once i n before (here.trans code.symm)))))
    · exact role ((roles_none_iff (valid i)).mpr (once n i before (code.trans here.symm)))
  · rw [hasRole_ofImage (by simp)] at second ⊢
    obtain ⟨n, code⟩ := hasRole_iff.mp second
    by_contra alone
    exact h _ ⟨n, .inr ⟨rfl, _, rfl, .inr (.inr (.inr (.inl ⟨k, code, (Bool.not_eq_true _).mp alone⟩)))⟩⟩
  · rw [← Bool.coe_iff_coe]
    simp only [List.any_eq_true, mem_allJacks, true_and]
    constructor
    · intro pump
      rw [hasRole_ofImage (by simp)] at pump
      obtain ⟨n, code⟩ := hasRole_iff.mp pump
      rcases three with none | some
      · exact absurd ⟨n, .inr ⟨rfl, _, rfl, .inr (.inr (.inr (.inr (.inr ⟨code, none⟩))))⟩⟩ (h _)
      · obtain ⟨j, given⟩ := List.exists_mem_of_length_pos (l := jacksGiven m) (by omega)
        exact ⟨j, by rw [hasRole_ofImage (by simp)]; exact mem_jacksGiven.mp given⟩
    · rintro ⟨j, given⟩
      rw [hasRole_ofImage (by simp)] at given ⊢
      exact (jack j given).2
  · rcases three with none | some
    · rw [none]
      decide
    · omega

/-- The fields of an image without a failure lie in their ranges. -/
theorem field_valid (h : ∀ a, ¬ FailsAt m count a) (f : RangedField)
    (tested : ∀ a, named f a → ∃ g ∈ testedFields m, named g a) : f.least ≤ f.value ∧ f.value ≤ f.greatest := by
  have inside : ¬(f.value < f.least ∨ f.greatest < f.value) := fun bad => h f.first (.inl (tested f.first ⟨rfl, bad⟩))
  omega

theorem general_valid (h : ∀ a, ¬ FailsAt m count a) {f : RangedField} (mem : f ∈ generalFields m) :
    f.least ≤ f.value ∧ f.value ≤ f.greatest :=
  field_valid h f fun _ bad => mem_testedFields.mpr (.inr (.inr (.inl ⟨f, mem, bad⟩)))

theorem duty_valid (h : ∀ a, ¬ FailsAt m count a) {f : RangedField} {b : Nat} (base : b = 32 ∨ b = 48 ∨ b = 64)
    (mem : f ∈ dutyFields m b) : f.least ≤ f.value ∧ f.value ≤ f.greatest :=
  field_valid h f fun _ bad => mem_testedFields.mpr (.inl ⟨b, base, f, mem, bad⟩)

theorem room_valid (h : ∀ a, ¬ FailsAt m count a) {f : RangedField} {k : RoomId} (given : hasRole m (2 * k.val + 1) = true)
    (mem : f ∈ roomFields m (112 + 16 * k.val)) : f.least ≤ f.value ∧ f.value ≤ f.greatest :=
  field_valid h f fun _ bad =>
    mem_testedFields.mpr (.inr (.inr (.inr (.inr (.inr (.inl ⟨k, .inl given, f, mem, bad⟩))))))

theorem awning_valid (h : ∀ a, ¬ FailsAt m count a) {f : RangedField} (given : hasRole m 16 = true)
    (mem : f ∈ awningFields m) : f.least ≤ f.value ∧ f.value ≤ f.greatest :=
  field_valid h f fun _ bad =>
    mem_testedFields.mpr (.inr (.inr (.inr (.inr (.inr (.inr (.inl ⟨given, f, mem, bad⟩)))))))

theorem jack_valid (h : ∀ a, ¬ FailsAt m count a) {f : RangedField} {j : JackId} (given : hasRole m (9 + j.val) = true)
    (mem : f ∈ jackFields m (192 + 16 * j.val)) : f.least ≤ f.value ∧ f.value ≤ f.greatest :=
  field_valid h f fun _ bad =>
    mem_testedFields.mpr (.inr (.inr (.inr (.inr (.inr (.inr (.inr ⟨j, given, f, mem, bad⟩)))))))

/-- A readable entry has the group of its code. -/
theorem groupCode_of_readEntry {a : Nat} {x : Group × Action} (h : readEntry m a = some x) : groupCode x.1 = m.u8 a / 16 := by
  unfold readEntry at h
  dsimp only at h
  split at h
  · exact nomatch h
  · rename_i g group
    obtain ⟨act, -, rfl⟩ := Option.map_eq_some_iff.mp h
    exact groupCode_of_groupOfCode group

/-- The steps of a plan without a failure: as many groups as each counts, no group twice (R147, R180). -/
theorem steps_valid (h : ∀ a, ¬ BadPlan m a) (p : PlanName) : (readPlan m p).length ≤ 8 ∧
    ∀ st ∈ readPlan m p, 1 ≤ st.length ∧ st.length ≤ 6 ∧ (st.map Prod.fst).Nodup := by
  refine ⟨by simp [readPlan], fun st mem => ?_⟩
  obtain ⟨i, counted, rfl⟩ := List.mem_map.mp mem
  obtain ⟨within, small⟩ := Nat.lt_min.mp (List.mem_range.mp counted)
  have base : planBase p = 304 ∨ planBase p = 368 := by cases p <;> simp [planBase]
  have count : 1 ≤ m.u8 (stepBase p i) ∧ m.u8 (stepBase p i) ≤ 6 := by
    by_contra bad
    exact h _ ⟨_, base, .inr ⟨i, _, within, small, rfl, .inl ⟨rfl, by unfold stepBase at bad; omega⟩⟩⟩
  have held : min (m.u8 (stepBase p i)) 6 = m.u8 (stepBase p i) := Nat.min_eq_left count.2
  have entry (e : Nat) (mem : e ∈ List.range (m.u8 (stepBase p i))) :
      readEntry m (stepBase p i + 1 + e) ≠ none ∧
        ∀ d < e, m.u8 (stepBase p i + 1 + d) / 16 ≠ m.u8 (stepBase p i + 1 + e) / 16 := by
    have listed := List.mem_range.mp mem
    have clean (bad : m.u8 (stepBase p i + 1 + e) / 16 = 0 ∨ 6 < m.u8 (stepBase p i + 1 + e) / 16 ∨
        m.u8 (stepBase p i + 1 + e) % 16 = 0 ∨ 3 < m.u8 (stepBase p i + 1 + e) % 16 ∨
        (m.u8 (stepBase p i + 1 + e) % 16 = 3 ∧ m.u8 (stepBase p i + 1 + e) / 16 ≠ 5) ∨
        ∃ d, d < e ∧ m.u8 (stepBase p i + 1 + d) / 16 = m.u8 (stepBase p i + 1 + e) / 16) : False :=
      h _ ⟨_, base, .inr ⟨i, _, within, small, rfl, .inr ⟨e, _, listed, by omega, rfl, rfl, bad⟩⟩⟩
    refine ⟨fun none => clean ?_, fun d before same => clean (.inr (.inr (.inr (.inr (.inr ⟨d, before, same⟩)))))⟩
    rcases readEntry_none.mp none with h | h | h | h | h
    · exact .inl h
    · exact .inr (.inl h)
    · exact .inr (.inr (.inl h))
    · exact .inr (.inr (.inr (.inl h)))
    · exact .inr (.inr (.inr (.inr (.inl h))))
  have step : readStep m p i =
      (List.range (m.u8 (stepBase p i))).filterMap fun e => readEntry m (stepBase p i + 1 + e) := by
    unfold readStep
    dsimp only
    rw [held]
  have length : (readStep m p i).length = m.u8 (stepBase p i) := by
    rw [step, List.filterMap_length_eq_length.mpr fun e mem => Option.isSome_iff_ne_none.mpr (entry e mem).1, List.length_range]
  refine ⟨by omega, by omega, ?_⟩
  rw [step, List.Nodup, List.pairwise_map, List.pairwise_filterMap]
  refine List.pairwise_lt_range.imp_of_mem fun {d e} _ mem before x first y second same => ?_
  have codes := (entry e mem).2 d before
  rw [← groupCode_of_readEntry first, ← groupCode_of_readEntry second, same] at codes
  exact codes rfl

/-- What the layout of an image without a failure keeps (R180). -/
theorem layout_valid (h : ∀ a, ¬ FailsAt m count a) {l : Layout} (read : l = Layout.ofImage m) :
    (∀ k : RoomId, l.hasRole (.room k .a) = true →
      (l.rooms[k]).motorCount = (if l.hasRole (.room k .b) then 2 else 1) ∧
      1 ≤ (l.rooms[k]).travel ∧ (l.rooms[k]).travel ≤ 20000 ∧ 1 ≤ (l.rooms[k]).endWindow ∧
      (l.rooms[k]).endWindow ≤ 500 ∧ (l.rooms[k]).seatFraction ≤ 127 ∧
      1 ≤ (l.rooms[k]).syncWindow ∧ (l.rooms[k]).syncWindow < (l.rooms[k]).rackLimit ∧ (l.rooms[k]).rackLimit ≤ 200) ∧
    (l.hasRole .awning = true → 1 ≤ l.awning.travel ∧ l.awning.travel ≤ 20000 ∧ 1 ≤ l.awning.endWindow ∧
      l.awning.endWindow ≤ 500 ∧ l.awning.seatFraction ≤ 127 ∧ 10 ≤ l.awning.runTimeout ∧ l.awning.runTimeout ≤ 300) ∧
    (∀ j : JackId, l.hasRole (.jack j) = true → (l.jacks[j]).x.natAbs ≤ 1200 ∧ (l.jacks[j]).y.natAbs ≤ 1200 ∧
      (l.jacks[j]).strokeMax ≤ 4000 ∧ 1 ≤ (l.jacks[j]).spp ∧ (l.jacks[j]).spp ≤ 50 ∧
      1 ≤ (l.jacks[j]).contactThreshold ∧ (l.jacks[j]).contactThreshold ≤ 4095 ∧ (l.jacks[j]).hysteresis ≤ 1000) ∧
    (∀ kd, kd ≠ .jackValve → 1 ≤ (l.kindParams kd).runDuty ∧ (l.kindParams kd).startDuty ≤ (l.kindParams kd).runDuty) ∧
    l.wind.calm < l.wind.gust := by
  subst read
  have tied (a : Nat) : ¬ BadTie m a := fun bad => h a (.inr (.inr (.inl bad)))
  refine ⟨fun k given => ?_, fun given => ?_, fun j given => ?_, fun kd motor => ?_, ?_⟩
  · rw [hasRole_ofImage (by simp)] at given
    have given : hasRole m (2 * k.val + 1) = true := given
    rw [hasRole_ofImage (by simp), rooms_ofImage]
    have field (f : RangedField) (mem : f ∈ roomFields m (112 + 16 * k.val)) := room_valid h given mem
    simp only [roomFields, List.forall_mem_cons, List.not_mem_nil, IsEmpty.forall_iff, implies_true, and_true] at field
    obtain ⟨travel, window, seat, sync, rack, -, -⟩ := field
    refine ⟨?_, travel.1, travel.2, window.1, window.2, seat.2, sync.1, ?_, rack.2⟩
    · by_contra motors
      exact tied _ (badTie_iff.mpr (.inr (.inr (.inl ⟨k, .inl given, .inl ⟨rfl, motors⟩⟩))))
    · by_contra order
      exact tied _ (badTie_iff.mpr (.inr (.inr (.inl ⟨k, .inl given, .inr ⟨rfl, Nat.not_lt.mp order⟩⟩))))
  · rw [hasRole_ofImage (by simp)] at given
    have field (f : RangedField) (mem : f ∈ awningFields m) := awning_valid h given mem
    simp only [awningFields, List.forall_mem_cons, List.not_mem_nil, IsEmpty.forall_iff, implies_true, and_true] at field
    obtain ⟨travel, window, seat, timeout⟩ := field
    exact ⟨travel.1, travel.2, window.1, window.2, seat.2, timeout.1, timeout.2⟩
  · rw [hasRole_ofImage (by simp)] at given
    have given : hasRole m (9 + j.val) = true := given
    rw [jacks_ofImage]
    have field (f : RangedField) (mem : f ∈ jackFields m (192 + 16 * j.val)) := jack_valid h given mem
    simp only [jackFields, List.forall_mem_cons, List.not_mem_nil, IsEmpty.forall_iff, implies_true, and_true] at field
    obtain ⟨stroke, spp, threshold, hysteresis⟩ := field
    refine ⟨?_, ?_, stroke.2, spp.1, spp.2, threshold.1, threshold.2, hysteresis.2⟩
    · by_contra far
      exact tied _ (badTie_iff.mpr (.inr (.inr (.inr (.inl ⟨j, given, .inl ⟨rfl, Nat.not_le.mp far⟩⟩)))))
    · by_contra far
      exact tied _ (badTie_iff.mpr (.inr (.inr (.inr (.inl ⟨j, given, .inr ⟨rfl, Nat.not_le.mp far⟩⟩)))))
  · have base : kindBase kd = 32 ∨ kindBase kd = 48 ∨ kindBase kd = 64 := by
      cases kd <;> simp_all [kindBase]
    have run : ((Layout.ofImage m).kindParams kd).runDuty = m.u8 (kindBase kd + 1) ∧
        ((Layout.ofImage m).kindParams kd).startDuty = m.u8 (kindBase kd) := by
      cases kd with
      | jackValve => exact absurd rfl motor
      | slideMotor | pumpMotor | awningMotor => exact ⟨rfl, rfl⟩
    rw [run.1, run.2]
    have duty := duty_valid h base (f := ⟨kindBase kd + 1, m.u8 (kindBase kd + 1), 1, 255⟩) (by simp [dutyFields])
    refine ⟨duty.1, ?_⟩
    by_contra order
    exact tied _ (badTie_iff.mpr (.inl ⟨_, base, rfl, Nat.not_le.mp order⟩))
  · by_contra order
    exact tied _ (badTie_iff.mpr (.inr (.inr (.inr (.inr ⟨rfl, Nat.not_lt.mp order⟩)))))

/-- The general parameters of an image without a failure (segment 6). -/
theorem general_layout (h : ∀ a, ¬ FailsAt m count a) {l : Layout} (read : l = Layout.ofImage m) :
    100 ≤ l.reversalDwell ∧ l.reversalDwell ≤ 2000 ∧ 150 ≤ l.holdWindow ∧ l.holdWindow ≤ 1000 ∧
    10 ≤ l.pauseLimit ∧ l.pauseLimit ≤ 300 ∧ 10 ≤ l.roomTimeout ∧ l.roomTimeout ≤ 300 ∧
    10 ≤ l.jackTimeout ∧ l.jackTimeout ≤ 600 ∧ 128 ≤ l.supplyScale ∧ l.supplyScale ≤ 512 := by
  subst read
  have field (f : RangedField) (mem : f ∈ generalFields m) := general_valid h mem
  simp only [generalFields, List.forall_mem_cons, List.not_mem_nil, IsEmpty.forall_iff, implies_true, and_true] at field
  obtain ⟨dwell, hold, pause, room, jack, scale, -⟩ := field
  exact ⟨dwell.1, dwell.2, hold.1, hold.2, pause.1, pause.2, room.1, room.2, jack.1, jack.2, scale.1, scale.2⟩

end

section
variable {s : State} {p : Port} {g : Group} {c : Claim}

/-! ### The request -/

theorem exec_layoutCommit (awake : s.inReset = none) (room : s.hasRoom p) :
    exec (.layoutCommit p) s = .next (s.commit.1.answered p .layoutCommit s.commit.2) :=
  congrArg _ (State.awake_takeRequest (k := .layoutCommit) (q := .layoutCommit) awake room rfl)

/-- Of the claimed groups of a list in the order of the codes, the first gives the owner (R149, R179). -/
theorem State.firstOwner_some {l : List Group} (ordered : l.Pairwise fun g h => groupCode g < groupCode h) (mem : g ∈ l)
    (claimed : s.claim g = some c) (before : ∀ h ∈ l, groupCode h < groupCode g → s.claim h = none) :
    s.firstOwner l = some c.owner := by
  induction l with
  | nil => exact absurd mem List.not_mem_nil
  | cons x rest ih =>
    obtain ⟨first, later⟩ := List.pairwise_cons.mp ordered
    unfold State.firstOwner at ih ⊢
    rw [List.findSome?_cons]
    rcases List.mem_cons.mp mem with rfl | mem
    · rw [claimed]
      rfl
    · rw [before x (by simp) (first g mem)]
      exact ih later mem fun h mem below => before h (by simp [mem]) below

theorem allGroups_ordered : allGroups.Pairwise fun g h => groupCode g < groupCode h := by decide

theorem State.firstOwner_free {l : List Group} (free : ∀ g ∈ l, s.claim g = none) : s.firstOwner l = none := by
  unfold State.firstOwner
  rw [List.findSome?_eq_none_iff]
  intro g mem
  rw [free g mem]
  rfl

end

/-- Settles O16: the checks come in their order, and the byte named is the lowest at which validation finds a failure. -/
theorem commitBeginsTheWrite : Obligations.CommitBeginsTheWrite := by
  unfold Obligations.CommitBeginsTheWrite
  intro s p awake room canonical
  rw [exec_layoutCommit awake room]
  refine ⟨fun writing => ?_, fun idle road => ?_, fun g c idle road claimed before => ?_, fun a idle road free bad => ?_,
    fun idle road free clean => ⟨s.staging.withCrc, ?_, Image.wf_withCrc canonical, fun a below => ?_, ?_, ?_,
      Image.passes_withCrc canonical⟩, fun l read clean => ?_, fun first found => ?_⟩
  · rw [State.commit, if_pos writing]
    rfl
  · rw [State.commit, if_neg (by simp [idle]), if_pos road]
    rfl
  · rw [State.commit, if_neg (by simp [idle]), if_neg (by simp [road]),
      State.firstOwner_some allGroups_ordered (mem_allGroups g) claimed fun h _ => before h]
    rfl
  · rw [State.commit, if_neg (by simp [idle]), if_neg (by simp [road]), State.firstOwner_free fun g _ => free g]
    simp only [bad]
  · rw [State.commit, if_neg (by simp [idle]), if_neg (by simp [road]), State.firstOwner_free fun g _ => free g]
    simp only [clean]
    rfl
  · rw [Image.read_withCrc canonical, if_neg (by omega), if_neg (by omega)]
  · rw [Image.read_withCrc canonical, if_pos rfl]
  · rw [Image.read_withCrc canonical, if_neg (by omega), if_pos rfl]
  · have passes := firstBadByte_none.mp clean
    obtain ⟨absent, once, second, pump, notOne, notTwo⟩ := roles_valid fun a bad => passes a (.inr (.inl bad))
    obtain ⟨rooms, awning, jacks, duties, wind⟩ := layout_valid passes read
    obtain ⟨dwell, dwell', hold, hold', pause, pause', slow, slow', jack, jack', scale, scale'⟩ := general_layout passes read
    have plans (n : PlanName) : l.planSteps n = readPlan s.staging n := by
      rw [read]
      cases n <;> rfl
    rw [← read] at absent once second pump
    have given : (allJacks.filter fun j => l.hasRole (.jack j)) = Safety.jacksGiven s.staging := by
      rw [read, filter_hasRole_jack]
    refine ⟨absent, once, second, pump, ?_, rooms, awning, jacks, dwell, dwell', hold, hold', pause, pause', slow, slow', jack,
      jack', scale, scale', duties, wind, fun n => ?_⟩
    · rw [given]
      exact ⟨notOne, notTwo⟩
    · rw [plans]
      exact steps_valid (fun a bad => passes a (.inr (.inr (.inr bad)))) n
  · rw [found]
    exact ⟨firstBadByte_none, fun a => firstBadByte_some⟩

end Sys2Proof.Machine
end

section
/-! PROOFS. What an ending leaves of the channels and of the axis records of its group, and the statements on RELEASE,
deadlines, STOP and PARK. -/

namespace Sys2Proof.Machine

section
variable {F : Group → Prop} {s t : State} {g : Group} {e : Ending} {id : Slider} {m : Motor} {n : Chan}

/-! ### Stopped channels -/

/-- A channel record after a stop (R13, R15). -/
def Channel.stopped (c : Channel) (now : Time) : Channel :=
  match c.drive with
  | .ramping | .atSpeed => c.halted now
  | .dwelling => c.cancelled now
  | .off | .stopping => c

theorem State.stopChan_eq : s.stopChan n = s.setChan n ((s.chan n).stopped s.now) := by
  unfold State.stopChan Channel.stopped
  split <;> rename_i drive <;> simp only [drive, State.setChan_chan]

@[simp] theorem Channel.driven_stopped (c : Channel) (now : Time) : (c.stopped now).driven = false := by
  unfold Channel.stopped
  split
  · rfl
  · rfl
  · exact Channel.driven_cancelled c now
  · rename_i off
    simp [Channel.driven, off]
  · rename_i stopping
    simp [Channel.driven, stopping]

@[simp] theorem Channel.stopped_stopped (c : Channel) (now : Time) : (c.stopped now).stopped now = c.stopped now := by
  have rest (c : Channel) (h : c.drive = .off ∨ c.drive = .stopping) : c.stopped now = c := by
    unfold Channel.stopped
    obtain h | h := h <;> rw [h]
  have resting : (c.stopped now).drive = .off ∨ (c.stopped now).drive = .stopping := by
    unfold Channel.stopped
    split
    · exact .inr rfl
    · exact .inr rfl
    · unfold Channel.cancelled
      split
      · dsimp only
        split
        · exact .inr rfl
        · exact .inl rfl
      · exact .inl rfl
    · exact .inl ‹_›
    · exact .inr ‹_›
  exact rest _ resting

/-- Stops of channels change their records and nothing else. -/
theorem stops_spec (l : List Chan) (s : State) :
    forEach l (fun n t => t.stopChan n) s = { s with channels := (forEach l (fun n t => t.stopChan n) s).channels } ∧
    ∀ x, (forEach l (fun n t => t.stopChan n) s).chan x = if x ∈ l then (s.chan x).stopped s.now else s.chan x := by
  induction l generalizing s with
  | nil => exact ⟨rfl, fun x => rfl⟩
  | cons n rest ih =>
    obtain ⟨frame, chans⟩ := ih (s.stopChan n)
    have step : forEach (n :: rest) (fun n t => t.stopChan n) s =
        forEach rest (fun n t => t.stopChan n) (s.stopChan n) := rfl
    rw [step]
    refine ⟨frame.trans (by rw [State.stopChan_eq]; rfl), fun x => ?_⟩
    rw [chans x, State.stopChan_eq, State.chan_setChan]
    change (if x ∈ rest then Channel.stopped _ s.now else _) = _
    by_cases same : n = x
    · subst same
      simp
    · simp [same, Ne.symm same]

/-- Stopping the motors of a list stops their channels. -/
theorem stopMotors_eq (l : List Motor) (same : t.layout = s.layout) :
    forEach l (fun m u => u.stopMotor id m) t = forEach (l.filterMap (s.motorChan id)) (fun n u => u.stopChan n) t := by
  induction l generalizing t with
  | nil => rfl
  | cons m rest ih =>
    have chan : t.motorChan id m = s.motorChan id m := by
      cases id <;> cases m <;> simp [State.motorChan, State.roleChan, State.role, same]
    have stop : forEach (m :: rest) (fun m u => u.stopMotor id m) t =
        forEach rest (fun m u => u.stopMotor id m) (t.stopMotor id m) := rfl
    rw [stop, State.stopMotor, chan]
    cases h : s.motorChan id m with
    | none => simpa only [List.filterMap_cons, h] using ih same
    | some n =>
      have kept : (t.stopChan n).layout = s.layout := by rw [State.stopChan_eq]; exact same
      simp only [List.filterMap_cons, h]
      exact ih kept

/-- Stopping the valves of a list stops their channels. -/
theorem stopValves_eq (l : List JackId) (same : t.layout = s.layout) :
    forEach l (fun j u => u.stopValve j) t =
      forEach (l.filterMap fun j => s.roleChan (.jack j)) (fun n u => u.stopChan n) t := by
  induction l generalizing t with
  | nil => rfl
  | cons j rest ih =>
    have chan : t.roleChan (.jack j) = s.roleChan (.jack j) := by simp [State.roleChan, State.role, same]
    have stop : forEach (j :: rest) (fun j u => u.stopValve j) t =
        forEach rest (fun j u => u.stopValve j) (t.stopValve j) := rfl
    rw [stop, State.stopValve, chan]
    cases h : s.roleChan (.jack j) with
    | none => simpa only [List.filterMap_cons, h] using ih same
    | some n =>
      have kept : (t.stopChan n).layout = s.layout := by rw [State.stopChan_eq]; exact same
      simp only [List.filterMap_cons, h]
      exact ih kept

/-! ### A room's or the awning's record -/

/-- A record with new phases and no seat deadlines. -/
def SliderRec.phased (r : SliderRec) (two : Bool) (f : Motor → MotorPhase) : SliderRec :=
  { r with
    motorA := { r.motorA with phase := f .a, seatDeadline := none }
    motorB := if two then { r.motorB with phase := f .b, seatDeadline := none } else r.motorB }

theorem State.setSlider_setSlider (r q : SliderRec) : (s.setSlider id r).setSlider id q = s.setSlider id q := by
  cases id <;> simp [State.setSlider]

theorem State.setSlider_slider : s.setSlider id (s.slider id) = s := by
  cases id <;> simp [State.setSlider, State.slider]

theorem State.setPhases_eq (f : Motor → MotorPhase) :
    s.setPhases id f = s.setSlider id ((s.slider id).phased (s.twoMotors id) f) := by
  unfold State.setPhases State.motors State.twoMotors forEach
  cases (s.motorChan id .b).isSome <;>
    simp [State.setMotor, State.setSlider_setSlider, SliderRec.phased, SliderRec.setMotor, SliderRec.motor, State.motor]

/-- The record after an ending (R52, R100). -/
def SliderRec.ended (r : SliderRec) (two : Bool) (state : AxisState) (e : Ending) : SliderRec :=
  { r.phased two (fun _ => .idle) with
    state := state
    fault := if r.fault.isSome then r.fault else e.fault
    lastOutcome := some e.outcome }

theorem State.allHome_congr (layout : t.layout = s.layout) (lines : t.lines = s.lines) : t.allHome id = s.allHome id := by
  have chan (m : Motor) : t.motorChan id m = s.motorChan id m := by
    cases id <;> cases m <;> simp [State.motorChan, State.roleChan, State.role, layout]
  simp only [State.allHome, State.motors, chan, State.motorHome_congr layout lines]

theorem State.positionKnown_congr (layout : t.layout = s.layout)
    (counts : ∀ m, ((t.slider id).motor m).count = ((s.slider id).motor m).count) :
    t.positionKnown id = s.positionKnown id := by
  have motors : t.motors id = s.motors id := by
    cases id <;> simp [State.motors, State.motorChan, State.roleChan, State.role, layout]
  have read (m : Motor) : ((t.sliderRead id).motor m).count = ((s.sliderRead id).motor m).count := by
    cases id with
    | room k => exact counts m
    | awning =>
      have configured : t.configured .awning = s.configured .awning := by
        simp [State.configured, State.roleChan, State.role, layout]
      change ((if t.configured .awning = true then t.awning else stowedAwning).motor m).count =
        ((if s.configured .awning = true then s.awning else stowedAwning).motor m).count
      rw [configured]
      split_ifs
      · exact counts m
      · rfl
  simp only [State.positionKnown, motors, read]

theorem State.endState_congr (layout : t.layout = s.layout) (lines : t.lines = s.lines)
    (counts : ∀ m, ((t.slider id).motor m).count = ((s.slider id).motor m).count) : t.endState id e = s.endState id e := by
  unfold State.endState State.restState
  rw [State.allHome_congr layout lines, State.positionKnown_congr layout counts]

/-- The channels of the motors of a room or the awning. -/
def State.slideChans (s : State) (id : Slider) : List Chan := (s.motors id).filterMap (s.motorChan id)

/-- The controller's part of an ending: the motors stopped, the record ended. -/
theorem State.slideEnd_eq : s.slideEnd id e =
    (forEach (s.slideChans id) (fun n t => t.stopChan n) s).setSlider id
      ((s.slider id).ended (s.twoMotors id) (s.endState id e) e) := by
  have stopped : forEach (s.motors id) (fun m t => t.stopMotor id m) s =
      forEach (s.slideChans id) (fun n t => t.stopChan n) s := stopMotors_eq _ rfl
  obtain ⟨frame, -⟩ := stops_spec (s.slideChans id) s
  unfold State.slideEnd
  rw [stopped]
  generalize forEach (s.slideChans id) (fun n t => t.stopChan n) s = w at frame
  have slider : w.slider id = s.slider id := by rw [frame]; cases id <;> rfl
  have two : w.twoMotors id = s.twoMotors id := by rw [frame]; cases id <;> rfl
  have counts (m : Motor) : (((w.setPhases id fun _ => .idle).slider id).motor m).count = ((s.slider id).motor m).count := by
    rw [State.setPhases_eq, State.slider_setSlider_same, slider]
    cases m <;> unfold SliderRec.phased SliderRec.motor
    · rfl
    · dsimp only
      split <;> rfl
  have layout : (w.setPhases id fun _ => .idle).layout = s.layout := by
    rw [State.setPhases_eq, frame]; cases id <;> rfl
  have lines : (w.setPhases id fun _ => .idle).lines = s.lines := by
    rw [State.setPhases_eq, frame]; cases id <;> rfl
  dsimp only
  rw [State.endState_congr layout lines counts, State.setPhases_eq, State.slider_setSlider_same, State.setSlider_setSlider,
    slider, two]
  rfl

theorem State.mem_slideChans : n ∈ s.slideChans id ↔ ∃ m ∈ s.motors id, s.motorChan id m = some n := by
  simp [State.slideChans]

theorem State.slider_slideEnd : (s.slideEnd id e).slider id = (s.slider id).ended (s.twoMotors id) (s.endState id e) e := by
  rw [State.slideEnd_eq, State.slider_setSlider_same]

theorem State.chan_slideEnd : (s.slideEnd id e).chan n =
    if n ∈ s.slideChans id then (s.chan n).stopped s.now else s.chan n := by
  rw [State.slideEnd_eq, State.chan_setSlider, (stops_spec _ s).2]

theorem SliderRec.count_ended (r : SliderRec) (two : Bool) (st : AxisState) (e : Ending) (m : Motor) :
    ((r.ended two st e).motor m).count = (r.motor m).count := by
  cases m <;> cases two <;> rfl

/-! ### The records of the jacks -/

/-- The channels of the valves of a jack motion, and the pump's. -/
def State.jackChans (s : State) (a : Action) : List Chan :=
  (s.jacksOf a).filterMap (fun j => s.roleChan (.jack j)) ++ (s.roleChan .pump).toList

theorem idleJacks_spec (s : State) : s.idleJacks = { s with jacks := s.idleJacks.jacks } ∧
    ∀ j, s.idleJacks.jack j = { s.jack j with phase := .idle } := by
  have each (l : List JackId) (s : State) :
      forEach l (fun j t => t.onJack j fun r => { r with phase := .idle }) s =
        { s with jacks := (forEach l (fun j t => t.onJack j fun r => { r with phase := .idle }) s).jacks } ∧
      ∀ j, (forEach l (fun j t => t.onJack j fun r => { r with phase := .idle }) s).jack j =
        if j ∈ l then { s.jack j with phase := .idle } else s.jack j := by
    induction l generalizing s with
    | nil => exact ⟨rfl, fun j => rfl⟩
    | cons i rest ih =>
      obtain ⟨frame, jacks⟩ := ih (s.onJack i fun r => { r with phase := .idle })
      refine ⟨frame.trans rfl, fun j => (jacks j).trans ?_⟩
      rw [State.jack_onJack]
      by_cases same : i = j
      · subst same
        simp
      · simp [same, Ne.symm same]
  obtain ⟨frame, jacks⟩ := each allJacks s
  exact ⟨frame, fun j => (jacks j).trans (if_pos (mem_allJacks j))⟩

/-- A fault is stored in the jacks named that hold none, and takes the level mark (R70, R78). -/
theorem storeFaults_spec (f : FaultCode) (l : List JackId) (s : State) :
    (∃ x, forEach l (fun j t => t.storeJackFault f j) s =
      { s with jacks := (forEach l (fun j t => t.storeJackFault f j) s).jacks, jackSet := { s.jackSet with levelMark := x } }) ∧
    ∀ j, (forEach l (fun j t => t.storeJackFault f j) s).jack j =
      if j ∈ l then { s.jack j with fault := some ((s.jack j).fault.getD f) } else s.jack j := by
  induction l generalizing s with
  | nil => exact ⟨⟨s.jackSet.levelMark, rfl⟩, fun j => rfl⟩
  | cons i rest ih =>
    obtain ⟨⟨x, frame⟩, jacks⟩ := ih (s.storeJackFault f i)
    have one : (∃ y, s.storeJackFault f i =
          { s with jacks := (s.storeJackFault f i).jacks, jackSet := { s.jackSet with levelMark := y } }) ∧
        ∀ j, (s.storeJackFault f i).jack j =
          if i = j then { s.jack j with fault := some ((s.jack j).fault.getD f) } else s.jack j := by
      cases held : (s.jack i).fault with
      | none =>
        have stored : s.storeJackFault f i = { s.onJack i (fun r => { r with fault := some f }) with
            jackSet := { s.jackSet with levelMark := false } } := by simp [State.storeJackFault, held]
        rw [stored]
        refine ⟨⟨false, rfl⟩, fun j => Eq.trans (State.jack_onJack s i j fun r => { r with fault := some f }) ?_⟩
        by_cases same : i = j
        · subst same
          simp [held]
        · simp [same]
      | some x =>
        have stands : s.storeJackFault f i = s := by simp [State.storeJackFault, held]
        rw [stands]
        refine ⟨⟨s.jackSet.levelMark, rfl⟩, fun j => ?_⟩
        by_cases same : i = j
        · subst same
          rw [if_pos rfl, held, Option.getD_some, ← held]
        · simp [same]
    obtain ⟨⟨y, first⟩, stored⟩ := one
    have step : forEach (i :: rest) (fun j t => t.storeJackFault f j) s =
        forEach rest (fun j t => t.storeJackFault f j) (s.storeJackFault f i) := rfl
    refine ⟨⟨x, ?_⟩, fun j => ?_⟩
    · rw [step]
      refine frame.trans ?_
      generalize (forEach rest (fun j t => t.storeJackFault f j) (s.storeJackFault f i)).jacks = table
      rw [first]
    · rw [step, jacks j, stored j]
      by_cases same : i = j
      · subst same
        simp
      · simp [same, Ne.symm same]

theorem recordJackEnd_spec (a : Action) (o : MotionOutcome) (s : State) :
    s.recordJackEnd a o = { s with
      jackSet := (s.recordJackEnd a o).jackSet
      level := if a = .level then { s.level with status := .ended, outcome := some o } else s.level } ∧
    (s.recordJackEnd a o).jackSet.lastOutcome = some o := by
  unfold State.recordJackEnd
  split <;> exact ⟨rfl, rfl⟩

/-- The fault of a jack after an ending: the one it held, or that of the ending if it is named for it (R78). -/
def Ending.jackFault (e : Ending) (j : JackId) (held : Option FaultCode) : Option FaultCode :=
  match e.fault with
  | some f => if j ∈ e.jacks then some (held.getD f) else held
  | none => held

/-- The controller's part of the ending of a jack motion: valves and pump stopped, the jacks IDLE, the fault stored in those
named for it (R78, R89). -/
theorem jackEnd_spec (a : Action) (e : Ending) (s : State) :
    (∃ table x, s.jackEnd a e = { s with
      channels := (forEach (s.jackChans a) (fun n t => t.stopChan n) s).channels, jacks := table, jackSet := x
      level := if a = .level then { s.level with status := .ended, outcome := some e.outcome } else s.level }) ∧
    ∀ j, (s.jackEnd a e).jack j = { s.jack j with phase := .idle, fault := e.jackFault j (s.jack j).fault } := by
  have stopped : (forEach (s.jacksOf a) (fun j t => t.stopValve j) s).stopPump =
      forEach (s.jackChans a) (fun n t => t.stopChan n) s := by
    have pump (w : State) (layout : w.layout = s.layout) : w.stopPump =
        forEach (s.roleChan .pump).toList (fun n t => t.stopChan n) w := by
      have chan : w.roleChan .pump = s.roleChan .pump := by simp [State.roleChan, State.role, layout]
      unfold State.stopPump
      rw [chan]
      cases s.roleChan .pump <;> rfl
    rw [stopValves_eq _ rfl, pump _ (by rw [(stops_spec _ s).1]), State.jackChans]
    exact (List.foldl_append ..).symm
  obtain ⟨frame, chans⟩ := stops_spec (s.jackChans a) s
  unfold State.jackEnd
  rw [stopped]
  generalize table : (forEach (s.jackChans a) (fun n t => t.stopChan n) s).channels = channels at frame
  rw [frame]
  obtain ⟨idled, idle⟩ := idleJacks_spec { s with channels := channels }
  generalize ({ s with channels := channels } : State).idleJacks = w at idled idle
  have stored : (∃ jacks x, w.storeEndFault e = { w with jacks := jacks, jackSet := x }) ∧
      ∀ j, (w.storeEndFault e).jack j = { w.jack j with fault := e.jackFault j (w.jack j).fault } := by
    unfold State.storeEndFault Ending.jackFault
    cases e.fault with
    | none => exact ⟨⟨w.jacks, w.jackSet, rfl⟩, fun j => rfl⟩
    | some f =>
      obtain ⟨⟨x, rest⟩, each⟩ := storeFaults_spec f e.jacks w
      refine ⟨⟨_, _, rest⟩, fun j => (each j).trans ?_⟩
      dsimp only
      split <;> rfl
  obtain ⟨⟨jacks, x, rest⟩, each⟩ := stored
  obtain ⟨record, -⟩ := recordJackEnd_spec a e.outcome (w.storeEndFault e)
  have level : (w.storeEndFault e).level = s.level := by rw [rest, idled]
  refine ⟨⟨jacks, ((w.storeEndFault e).recordJackEnd a e.outcome).jackSet, record.trans ?_⟩, fun j => ?_⟩
  · rw [level]
    generalize ((w.storeEndFault e).recordJackEnd a e.outcome).jackSet = set
    rw [rest, idled]
  · have same : ((w.storeEndFault e).recordJackEnd a e.outcome).jack j = (w.storeEndFault e).jack j := by
      rw [record]
      rfl
    rw [same, each j, idle j]
    unfold State.jack
    rfl

theorem State.chan_jackEnd (a : Action) : (s.jackEnd a e).chan n =
    if n ∈ s.jackChans a then (s.chan n).stopped s.now else s.chan n := by
  obtain ⟨⟨table, x, frame⟩, -⟩ := jackEnd_spec a e s
  have chan : (s.jackEnd a e).chan n = (forEach (s.jackChans a) (fun n t => t.stopChan n) s).chan n := by
    rw [frame]
    rfl
  rw [chan, (stops_spec _ s).2]

end

end Sys2Proof.Machine
end

section
/-! PROOFS. What the ending of a motion leaves of the rest of the block, and the statements on RELEASE (R117), deadlines
(R118, R143), STOP (R121) and PARK (R123). -/

namespace Sys2Proof.Machine

section
variable {F : Group → Prop} {s t : State} {g : Group} {e : Ending} {id : Slider} {m : Motor} {n : Chan} {x : Entry}

/-! ### The ending of a motion -/

theorem State.not_still_iff : ¬ s.still g ↔ ∃ x, s.entryOf g = some x := by
  constructor
  · intro moving
    cases found : s.entryOf g with
    | some x => exact ⟨x, rfl⟩
    | none =>
      refine absurd (fun y mem => ?_) moving
      obtain ⟨x, member, rfl⟩ := mem_motions.mp mem
      have other := List.find?_eq_none.mp found x member
      simpa [Entry.motion] using other
  · rintro ⟨x, found⟩
    exact State.not_still found

theorem State.still_iff_entryOf : s.still g ↔ s.entryOf g = none := by
  have h := State.not_still_iff (s := s) (g := g)
  cases found : s.entryOf g <;> simp_all

theorem State.endNotices_frame : s.endNotices e = { s with
    faultCount := (s.endNotices e).faultCount, faultPattern := (s.endNotices e).faultPattern
    ports := (s.endNotices e).ports } := by
  have counted (w : State) : w.countFault = { w with
      faultCount := w.countFault.faultCount, faultPattern := w.countFault.faultPattern } := by
    unfold State.countFault State.buzzKick
    dsimp only
    split <;> rfl
  have first : ∃ n f, (if e.outcome = .fault then ((s.raise .motionEnd).raise .fault).countFault else s.raise .motionEnd) =
      { s with faultCount := n, faultPattern := f, ports := (if e.outcome = .fault then
        ((s.raise .motionEnd).raise .fault).countFault else s.raise .motionEnd).ports } := by
    split_ifs
    · refine ⟨((s.raise .motionEnd).raise .fault).countFault.faultCount,
        ((s.raise .motionEnd).raise .fault).countFault.faultPattern, ?_⟩
      have h := counted ((s.raise .motionEnd).raise .fault)
      generalize ((s.raise .motionEnd).raise .fault).countFault = w at h ⊢
      rw [h]
      rfl
    · exact ⟨s.faultCount, s.faultPattern, rfl⟩
  obtain ⟨n, f, first⟩ := first
  unfold State.endNotices
  dsimp only
  generalize (if e.outcome = .fault then ((s.raise .motionEnd).raise .fault).countFault else s.raise .motionEnd) = w at first ⊢
  rw [first]
  split <;> rfl

theorem State.endClaim_frame {c : ClaimEffect} : s.endClaim g c = { s with claims := (s.endClaim g c).claims } := by
  unfold State.endClaim
  split
  · split <;> rfl
  · rfl
  · rfl

/-- The ending of a motion is the controller's part, with notices, the claim and the lists. -/
theorem State.motionEnd_frame (found : s.entryOf g = some x) : (s.motionEnd g e).1 = { s.controllerEnd g x.action e with
    claims := (s.motionEnd g e).1.claims, load := (s.motionEnd g e).1.load, paused := (s.motionEnd g e).1.paused
    motionPeriod := (s.motionEnd g e).1.motionPeriod, motionPulse := (s.motionEnd g e).1.motionPulse
    faultCount := (s.motionEnd g e).1.faultCount, faultPattern := (s.motionEnd g e).1.faultPattern
    ports := (s.motionEnd g e).1.ports } := by
  have shape : (s.motionEnd g e).1 =
      (((s.controllerEnd g x.action e).endNotices e).endClaim g e.claim).removeEntry g := by
    unfold State.motionEnd
    simp only [found]
  rw [shape]
  generalize s.controllerEnd g x.action e = c
  have notices := c.endNotices_frame (e := e)
  generalize c.endNotices e = u at notices ⊢
  have claims := u.endClaim_frame (g := g) (c := e.claim)
  generalize u.endClaim g e.claim = v at claims ⊢
  rw [claims, notices]
  rfl

theorem State.motionEnd_still (still : s.still g) : s.motionEnd g e = (s, []) := by
  unfold State.motionEnd
  rw [State.still_iff_entryOf.mp still]

/-- An ending leaves the plan, and every group at rest, alone. -/
theorem State.motionEnd_rests : Rests s (s.motionEnd g e).1 := by
  by_cases still : s.still g
  · rw [State.motionEnd_still still]
    exact .refl s
  obtain ⟨x, found⟩ := State.not_still_iff.mp still
  have part : Rests s (s.controllerEnd g x.action e) := State.controllerEnd_controls.rests still
  have frame := State.motionEnd_frame (e := e) found
  obtain ⟨load, paused⟩ := s.lists_motionEnd (g := g) (e := e)
  generalize (s.motionEnd g e).1 = w at frame load paused ⊢
  refine { plan := ?_, orders := ?_, entries := fun y mem => ?_, axes := fun h rest => ?_, chans := fun n rest => ?_ }
  · rw [frame]
    exact part.plan
  · rw [frame]
    exact part.orders
  · obtain ⟨z, member, rfl⟩ := mem_motions.mp mem
    refine mem_motions.mpr ⟨z, ?_, rfl⟩
    rw [load, paused, ← List.filter_append] at member
    exact List.mem_of_mem_filter member
  · refine axisSame_trans (part.axes h rest) ?_
    rw [frame]
    exact Rests.axisSame_all rfl rfl rfl rfl rfl
  · rw [frame]
    exact part.chans n rest

theorem State.motor_motionEnd_count : ((s.motionEnd g e).1.motor id m).count = (s.motor id m).count := by
  by_cases still : s.still g
  · rw [State.motionEnd_still still]
  obtain ⟨x, found⟩ := State.not_still_iff.mp still
  have same : ((s.motionEnd g e).1.motor id m) = (s.controllerEnd g x.action e).motor id m := by
    rw [State.motionEnd_frame found]
    cases id <;> rfl
  have slides (i : Slider) : ((s.slideEnd i e).motor id m).count = (s.motor id m).count := by
    rw [State.slideEnd_eq]
    unfold State.motor
    rw [State.slider_setSlider]
    split
    · rename_i own
      rw [own]
      exact SliderRec.count_ended ..
    · rw [(stops_spec _ s).1]
      cases id <;> rfl
  rw [same]
  cases g with
  | room k => exact slides (.room k)
  | awning => exact slides .awning
  | jacks =>
    obtain ⟨⟨table, y, frame⟩, -⟩ := jackEnd_spec x.action e s
    change ((s.jackEnd x.action e).motor id m).count = _
    rw [frame]
    cases id <;> rfl

/-- The channel of a motor of an ended motion is stopped. -/
theorem State.chan_motionEnd_slide (found : s.entryOf id.group = some x) : (s.motionEnd id.group e).1.chan n =
    if n ∈ s.slideChans id then (s.chan n).stopped s.now else s.chan n := by
  have same : (s.motionEnd id.group e).1.chan n = (s.slideEnd id e).chan n := by
    rw [State.motionEnd_frame found]
    cases id <;> rfl
  rw [same, State.chan_slideEnd]

theorem State.slider_motionEnd (found : s.entryOf id.group = some x) : (s.motionEnd id.group e).1.slider id =
    (s.slider id).ended (s.twoMotors id) (s.endState id e) e := by
  have same : (s.motionEnd id.group e).1.slider id = (s.slideEnd id e).slider id := by
    rw [State.motionEnd_frame found]
    cases id <;> rfl
  rw [same, State.slider_slideEnd]

theorem State.chan_motionEnd_jacks (found : s.entryOf .jacks = some x) : (s.motionEnd .jacks e).1.chan n =
    if n ∈ s.jackChans x.action then (s.chan n).stopped s.now else s.chan n := by
  have same : (s.motionEnd .jacks e).1.chan n = (s.jackEnd x.action e).chan n := by
    rw [State.motionEnd_frame found]
    rfl
  rw [same, State.chan_jackEnd]

theorem State.jack_motionEnd (found : s.entryOf .jacks = some x) (j : JackId) : (s.motionEnd .jacks e).1.jack j =
    { s.jack j with phase := .idle, fault := e.jackFault j (s.jack j).fault } := by
  have same : (s.motionEnd .jacks e).1.jack j = (s.jackEnd x.action e).jack j := by
    rw [State.motionEnd_frame found]
    rfl
  rw [same, (jackEnd_spec x.action e s).2 j]

theorem State.motorDriven_of_stopped (l : t.layout = s.layout)
    (stopped : ∀ n, s.motorChan id m = some n → (t.chan n).driven = false) : t.motorDriven id m = false := by
  have chan : t.motorChan id m = s.motorChan id m := by
    cases id <;> cases m <;> simp [State.motorChan, State.roleChan, State.role, l]
  unfold State.motorDriven
  rw [chan]
  cases h : s.motorChan id m with
  | none => rfl
  | some n => exact stopped n h

/-! ### The claim after an ending -/

/-- A claim that the ending frees, or that its rule frees (R117, R118, R120), is free after it. -/
theorem State.claim_motionEnd_free (found : s.entryOf g = some x)
    (frees : e.claim = .free ∨ (e.claim = .byRule ∧ ∀ b, s.claim g = some b → b.mode = .auto ∧ b.owner ≠ .sequencer)) :
    (s.motionEnd g e).1.claim g = none := by
  have shape : (s.motionEnd g e).1 =
      (((s.controllerEnd g x.action e).endNotices e).endClaim g e.claim).removeEntry g := by
    unfold State.motionEnd
    simp only [found]
  rw [shape, State.claim_removeEntry]
  have claims : ((s.controllerEnd g x.action e).endNotices e).claim g = s.claim g := by
    have outer := congrArg State.claims (State.controllerEnd_controls (s := s) (g := g) (a := x.action) (e := e)).outer
    have same : (s.controllerEnd g x.action e).claims = s.claims := outer
    rw [State.endNotices_frame]
    unfold State.claim
    exact congrArg (fun table : Vector (Option Claim) 6 => table[groupIndex g]) same
  generalize (s.controllerEnd g x.action e).endNotices e = w at claims ⊢
  unfold State.endClaim
  obtain free | ⟨rule, auto⟩ := frees
  · rw [free]
    exact State.claim_setClaim_same ..
  · rw [rule, claims]
    cases held : s.claim g with
    | none => exact claims.trans held
    | some b =>
      obtain ⟨mode, owner⟩ := auto b held
      dsimp only
      rw [State.claim_setClaim_same, endedByRule, mode]
      exact if_neg owner

/-- What an event that ends a motion does: the ending, then what it leaves to do. -/
theorem drain_endMotion_free {k : Nat} {rest : List Task} (found : s.entryOf g = some x) (plain : Plain rest)
    (frees : e.claim = .free ∨ (e.claim = .byRule ∧ ∀ b, s.claim g = some b → b.mode = .auto ∧ b.owner ≠ .sequencer)) :
    (drain (k + 1) (s, .endMotion g e :: rest)).claim g = none := by
  rw [drain_cons]
  exact (drain_does (F := fun _ => True) (State.motionEnd_plain.append plain)).follows.free g
    (State.claim_motionEnd_free found frees)

end

section
variable {s t : State} {p : Port} {g : Group}

/-- The outcome with which the motion of a group ends when its claim is freed (R117, R118). -/
theorem State.endAndFree_ends (moving : ¬ s.still g) (o : MotionOutcome) :
    (s.endAndFree g o).claim g = none ∧ Ended g o s (s.endAndFree g o) := by
  obtain ⟨x, found⟩ := State.not_still_iff.mp moving
  unfold State.endAndFree
  rw [found]
  exact ⟨drain_endMotion_free found .nil (.inl rfl),
    (drain_endMotion (F := fun _ => True) (n := 9999) (e := { outcome := o, claim := .free }) found (fun _ => trivial) .nil).2⟩

theorem State.endAndFree_still (still : s.still g) (o : MotionOutcome) : s.endAndFree g o = s.setClaim g none := by
  unfold State.endAndFree
  rw [State.still_iff_entryOf.mp still]
  rfl

theorem requestOfFields_release : requestOfFields .release [byteOf (groupCode g)] = some (.release g) := by
  simp [requestOfFields, releaseRequest, fieldByte, groupOfCode_groupCode]

theorem exec_release (awake : s.inReset = none) (room : s.hasRoom p) : exec (.release p (byteOf (groupCode g))) s =
    .next ((s.releaseGroup p g).1.answered p .release (s.releaseGroup p g).2) :=
  exec_decided rfl requestOfFields_release awake room

end

/-- Settles O26: the four rows are the model's, and a motion that ends frees its claim. -/
theorem releaseFreesTheClaim : Obligations.ReleaseFreesTheClaim := by
  unfold Obligations.ReleaseFreesTheClaim
  intro s p g awake room
  rw [exec_release awake room, State.releaseGroup]
  refine ⟨fun free => ?_, fun b held other => ?_, fun b held own still => ?_, fun b held own moving => ?_⟩
  · rw [free]
    rfl
  · rw [held]
    simp only [if_neg other]
    rfl
  · rw [held]
    simp only [if_pos own, State.endAndFree_still still]
    rfl
  · rw [held]
    simp only [if_pos own]
    obtain ⟨free, ended⟩ := State.endAndFree_ends moving .released
    exact ⟨_, _, rfl, rfl, free, ended⟩

section
variable {s t : State} {g : Group} {x : Entry}

theorem State.entryOf_advanceTo (due : Time) : (s.advanceTo due).entryOf g = s.entryOf g := by
  simp [State.entryOf]

theorem State.still_advanceTo (due : Time) : (s.advanceTo due).still g ↔ s.still g := by
  simp [State.still, State.motions]

theorem State.claim_advanceTo (due : Time) : (s.advanceTo due).claim g = s.claim g := by
  simp [State.claim]

theorem State.entryOf_paused (found : s.paused.find? (fun e => e.group == g) = some x) :
    ∃ y, s.entryOf g = some y := by
  unfold State.entryOf
  rw [List.find?_append, found]
  cases s.load.find? fun e => e.group == g <;> simp

end

/-- Settles O27: each deadline has a moment that the clock is moved on to, and ends the motion there. -/
theorem deadlinesEndMotions : Obligations.DeadlinesEndMotions := by
  unfold Obligations.DeadlinesEndMotions
  intro s g awake
  have hold : exec (.holdDeadline g) s = .next (s.holdReached g) := congrArg _ (exec_awake (f := fun t => t.holdReached g) awake)
  have pause : exec (.pauseLimit g) s = .next (s.pauseReached g) :=
    congrArg _ (exec_awake (f := fun t => t.pauseReached g) awake)
  have find : (fun x : Entry => decide (x.group = g)) = fun x => x.group == g := rfl
  rw [hold, pause, find]
  unfold State.holdReached State.holdDue State.pauseReached State.pauseDue
  refine ⟨fun b due held mode deadline => ?_, fun none => ?_, fun e since due found mode sinceThen moment => ?_, fun holds => ?_⟩
  · rw [held]
    simp only [if_pos mode, deadline]
    refine ⟨fun late => by rw [late]; rfl, fun now => ?_⟩
    rw [now, if_pos rfl, State.holdLapse]
    by_cases still : s.still g
    · rw [State.endAndFree_still ((State.still_advanceTo due).mpr still)]
      exact ⟨_, rfl, State.claim_setClaim_same .., fun _ => rfl, fun moving => absurd still moving⟩
    · obtain ⟨free, ended⟩ := State.endAndFree_ends (mt (State.still_advanceTo due).mp still) .holdLapsed
      exact ⟨_, rfl, free, fun rest => absurd rest still, fun _ => ended⟩
  · cases held : s.claim g with
    | none => rfl
    | some b =>
      dsimp only
      split_ifs with mode
      · rw [none b held mode]
      · rfl
  · rw [found]
    simp only [if_pos mode, sinceThen, Option.map_some, State.pauseTime, ← moment]
    refine ⟨fun late => by rw [late]; rfl, fun now => ?_⟩
    rw [now, if_pos rfl]
    obtain ⟨y, entry⟩ := State.entryOf_paused found
    rw [← State.entryOf_advanceTo due] at entry
    refine ⟨_, rfl, (drain_endMotion (F := fun _ => True) (n := 9999) (e := { outcome := .supplyLow }) entry
      (fun _ => trivial) .nil).2, fun b held auto owner => ?_⟩
    refine drain_endMotion_free entry .nil (.inr ⟨rfl, fun c claimed => ?_⟩)
    rw [State.claim_advanceTo, held] at claimed
    obtain rfl := Option.some.inj claimed
    exact ⟨auto, owner⟩
  · cases found : s.paused.find? fun e => e.group == g with
    | none => rfl
    | some e =>
      have mode : e.mode ≠ .auto := by
        rw [holds e found]
        simp
      simp only [if_neg mode]

end Sys2Proof.Machine
end

section
/-! PROOFS. STOP (R121) and the changes of PARK (R123 to R125). -/

namespace Sys2Proof.Machine

section
variable {s t u : State} {g h : Group} {o : MotionOutcome} {e : Ending}

theorem State.noticed_of_ports {c : Notice} (ports : t.ports = s.ports) : t.noticed c = s.noticed c := by
  unfold State.noticed State.port
  rw [ports]

theorem axisRecords_of_same (same : axisSame s t g) : axisRecords t g = axisRecords s g := by
  cases g with
  | room k => exact congrArg (fun r => (some r, none)) same
  | awning => exact congrArg (fun r => (some r, none)) same
  | jacks =>
    obtain ⟨jacks, set, level⟩ := same
    simp only [axisRecords, jacks, set, level]

theorem State.alarm_motionEnd : (s.motionEnd g e).1.alarm = s.alarm := by
  by_cases still : s.still g
  · rw [State.motionEnd_still still]
  obtain ⟨x, found⟩ := State.not_still_iff.mp still
  have outer := congrArg State.alarm (State.controllerEnd_controls (s := s) (g := g) (a := x.action) (e := e)).outer
  have same : (s.controllerEnd g x.action e).alarm = s.alarm := outer
  rw [State.motionEnd_frame found]
  exact same

/-- The ending of one group's motion leaves the motions of the others. -/
theorem State.still_motionEnd (other : h ≠ g) : (s.motionEnd g e).1.still h ↔ s.still h := by
  obtain ⟨load, paused⟩ := s.lists_motionEnd (g := g) (e := e)
  unfold State.still State.motions
  rw [load, paused, ← List.filter_append]
  constructor
  · rintro still y mem rfl
    obtain ⟨x, member, rfl⟩ := List.mem_map.mp mem
    exact still x.motion (List.mem_map.mpr ⟨x, List.mem_filter.mpr ⟨member, by simpa [Entry.motion] using other⟩, rfl⟩) rfl
  · rintro still y mem rfl
    obtain ⟨x, member, rfl⟩ := List.mem_map.mp mem
    exact still x.motion (List.mem_map.mpr ⟨x, List.mem_of_mem_filter member, rfl⟩) rfl

/-- What the endings of all motions of some groups leave. -/
structure Halted (groups : List Group) (o : MotionOutcome) (s t : State) : Prop where
  rests : Rests s t
  does : Does (fun _ => True) s t
  ended : ∀ g ∈ groups, ¬ s.still g → t.outcomeOf g = some o ∧ t.noticed .motionEnd = true
  driven : ∀ id : Slider, id.group ∈ groups → ¬ s.still id.group → ∀ m ∈ s.motors id, t.motorDriven id m = false
  counts : ∀ id m, (t.motor id m).count = (s.motor id m).count
  alarm : t.alarm = s.alarm

/-- Endings of the motions of a list of groups, one after another. -/
theorem forEach_motionEnd_halted (groups : List Group) (o : MotionOutcome) (s : State) :
    Halted groups o s (forEach groups (fun g t => (t.motionEnd g { outcome := o, claim := .keep }).1) s) := by
  induction groups generalizing s with
  | nil => exact ⟨.refl s, .refl _ s, by simp, by simp, fun _ _ => rfl, rfl⟩
  | cons g rest ih =>
    have after := ih (s.motionEnd g { outcome := o, claim := .keep }).1
    have first : Rests s (s.motionEnd g { outcome := o, claim := .keep }).1 := State.motionEnd_rests
    have does : Does (fun _ => True) s (s.motionEnd g { outcome := o, claim := .keep }).1 :=
      State.motionEnd_does fun _ => trivial
    have alarm := s.alarm_motionEnd (g := g) (e := { outcome := o, claim := .keep })
    have others (h : Group) (other : h ≠ g) := s.still_motionEnd (e := { outcome := o, claim := .keep }) other
    have own (moving : ¬ s.still g) : EndedNow g { outcome := o, claim := .keep } s
        (s.motionEnd g { outcome := o, claim := .keep }).1 := by
      obtain ⟨x, found⟩ := State.not_still_iff.mp moving
      exact State.motionEnd_now found
    have stops (id : Slider) (same : id.group = g) (moving : ¬ s.still g) (n : Chan) (m : Motor) (mem : m ∈ s.motors id)
        (chan : s.motorChan id m = some n) :
        ((s.motionEnd g { outcome := o, claim := .keep }).1.chan n).driven = false := by
      subst same
      obtain ⟨x, found⟩ := State.not_still_iff.mp moving
      rw [State.chan_motionEnd_slide found, if_pos (State.mem_slideChans.mpr ⟨m, mem, chan⟩)]
      exact Channel.driven_stopped ..
    have counts (id : Slider) (m : Motor) :=
      s.motor_motionEnd_count (id := id) (m := m) (g := g) (e := { outcome := o, claim := .keep })
    change Halted (g :: rest) o s (forEach rest (fun g t => (t.motionEnd g { outcome := o, claim := .keep }).1)
      (s.motionEnd g { outcome := o, claim := .keep }).1)
    generalize (s.motionEnd g { outcome := o, claim := .keep }).1 = w at *
    generalize forEach rest (fun g t => (t.motionEnd g { outcome := o, claim := .keep }).1) w = t at *
    have layout : w.layout = s.layout := does.follows.layout
    refine {
      rests := first.trans layout after.rests
      does := does.trans after.does
      ended := fun h mem moving => ?_
      driven := fun id mem moving m motor => ?_
      counts := fun id m => (after.counts id m).trans (counts id m)
      alarm := after.alarm.trans alarm }
    · by_cases same : h = g
      · subst same
        refine ⟨?_, after.does.follows.noticed (own moving).motionEnd⟩
        rw [State.outcomeOf_of_axisSame (after.rests.axes h (own moving).still)]
        exact (own moving).outcome
      · exact after.ended h ((List.mem_cons.mp mem).resolve_left same) (mt (others h same).mp moving)
    · by_cases same : id.group = g
      · refine State.motorDriven_of_stopped (s := s) (after.does.follows.layout.trans layout) fun n chan => ?_
        have still : w.still id.group := by rw [same]; exact (own (same ▸ moving)).still
        have role : (w.role n).group = some id.group := by
          rw [does.follows.role]
          exact State.group_motorChan chan
        rw [(after.rests.chans n fun h group => by
          obtain rfl := Option.some.inj (role.symm.trans group)
          exact still).1]
        exact stops id same (same ▸ moving) n m motor chan
      · have motors : w.motors id = s.motors id := by
          cases id <;> simp [State.motors, State.motorChan, State.roleChan, State.role, layout]
        exact after.driven id ((List.mem_cons.mp mem).resolve_left same) (mt (others id.group same).mp moving) m
          (motors ▸ motor)

/-- What STOP and the change to ROAD leave (R121, R124, R155). -/
structure StoppedAll (o : MotionOutcome) (s t : State) : Prop where
  load : t.load = []
  paused : t.paused = []
  free : ∀ g, t.claim g = none
  ended : ∀ g, ¬ s.still g → t.outcomeOf g = some o ∧ t.noticed .motionEnd = true
  axes : ∀ g, s.still g → axisSame s t g
  driven : ∀ id m, ¬ s.still id.group → m ∈ s.motors id → t.motorDriven id m = false
  running : s.planRunning = true → t.plan = { s.plan with status := .stopped } ∧ t.noticed .plan = true
  resting : s.planRunning = false → t.plan = s.plan
  counts : ∀ id m, (t.motor id m).count = (s.motor id m).count
  fixed : t.fixedPart = s.fixedPart

theorem State.stopAll_spec : StoppedAll o s (s.stopAll o) := by
  have halted := forEach_motionEnd_halted ((s.paused ++ s.load).map fun e => e.group) o s
  obtain ⟨load, paused⟩ := s.lists_endAllMotions (o := o)
  unfold State.stopAll
  change Halted ((s.paused ++ s.load).map fun e => e.group) o s (s.endAllMotions o) at halted
  dsimp only
  generalize s.endAllMotions o = w at halted load paused ⊢
  have plan : w.plan = s.plan := halted.rests.plan
  have running : w.planRunning = s.planRunning := by simp only [State.planRunning, plan]
  have listed (g : Group) (moving : ¬ s.still g) : g ∈ (s.paused ++ s.load).map fun e => e.group := by
    obtain ⟨x, found⟩ := State.not_still_iff.mp moving
    have mem := List.mem_of_find?_eq_some found
    have group := List.find?_some found
    refine List.mem_map.mpr ⟨x, ?_, by simpa using group⟩
    simpa [or_comm] using mem
  have stopped : (if w.planRunning = true then ({ w with plan := { w.plan with status := .stopped } } : State).raise .plan
      else w) = { w with
        plan := if s.planRunning = true then { s.plan with status := .stopped } else s.plan
        ports := (if s.planRunning = true then (w.raise .plan).ports else w.ports) } := by
    rw [running]
    split_ifs
    · rw [plan]
      rfl
    · rw [← plan]
  rw [stopped]
  have notices (c : Notice) (noticed : w.noticed c = true) :
      ({ w with ports := if s.planRunning = true then (w.raise .plan).ports else w.ports } : State).noticed c = true := by
    split_ifs
    · exact (Does.raise (F := fun _ => True) (s := w) .plan).follows.noticed noticed
    · exact noticed
  exact {
    load := load
    paused := paused
    free := fun g => State.claim_freeAllClaims ..
    ended := fun g moving => by
      obtain ⟨outcome, noticed⟩ := halted.ended g (listed g moving) moving
      refine ⟨?_, notices .motionEnd noticed⟩
      rw [← outcome]
      cases g <;> rfl
    axes := fun g still => axisSame_trans (halted.rests.axes g still) (Rests.axisSame_all rfl rfl rfl rfl rfl)
    driven := fun id m moving motor => halted.driven id (listed _ moving) moving m motor
    running := fun runs => by
      refine ⟨if_pos runs, ?_⟩
      exact (State.noticed_of_ports (if_pos runs)).trans (w.noticed_raise .plan)
    resting := fun rests => if_neg (by simp [rests])
    counts := halted.counts
    fixed := halted.does.follows.fixed }

theorem State.alarm_stopAll : (s.stopAll o).alarm = s.alarm := by
  have halted := (forEach_motionEnd_halted ((s.paused ++ s.load).map fun e => e.group) o s).alarm
  change (s.endAllMotions o).alarm = s.alarm at halted
  unfold State.stopAll
  dsimp only
  generalize s.endAllMotions o = w at halted
  split_ifs <;> exact halted

/-- What differs by the alarm alone is stopped as well. -/
theorem StoppedAll.butAlarm (a : StoppedAll o s t) (same : t.butAlarm u) (does : Does (fun _ => True) t u) : StoppedAll o s u := by
  obtain ⟨frame, -⟩ := same
  have axes (g : Group) : axisSame t u g := by
    rw [frame]
    exact Rests.axisSame_all rfl rfl rfl rfl rfl
  have motors (id : Slider) (m : Motor) : u.motor id m = t.motor id m := by
    rw [frame]
    cases id <;> rfl
  exact {
    load := by rw [frame]; exact a.load
    paused := by rw [frame]; exact a.paused
    free := fun g => by rw [frame]; exact a.free g
    ended := fun g moving => ⟨(State.outcomeOf_of_axisSame (axes g)).trans (a.ended g moving).1,
      does.follows.noticed (a.ended g moving).2⟩
    axes := fun g still => axisSame_trans (a.axes g still) (axes g)
    driven := fun id m moving motor => by rw [frame]; exact a.driven id m moving motor
    running := fun runs => ⟨by rw [frame]; exact (a.running runs).1, does.follows.noticed (a.running runs).2⟩
    resting := fun rests => by rw [frame]; exact a.resting rests
    counts := fun id m => by rw [motors]; exact a.counts id m
    fixed := by rw [frame]; exact a.fixed }

/-! ### The alarm -/

theorem State.notStowed_iff : s.notStowed = true ↔
    (∃ k, s.configured (.room k) = true ∧ (s.rooms[k]).state ≠ .closed) ∨ s.jackSetState ≠ .stowed ∨
      s.sliderState .awning ≠ .closed := by
  simp [State.notStowed, mem_allRooms, or_assoc]

theorem State.alarm_evalAlarm : s.evalAlarm.alarm = true ↔ s.road = .road ∧ s.notStowed = true := by
  unfold State.evalAlarm State.buzzKick
  cases s.notStowed <;> cases alarm : s.alarm <;> by_cases road : s.road = .road <;> simp [road, alarm, State.raise]
  all_goals split_ifs <;> rfl

end

/-- Settles O28: the endings of all motions, then the plan and the claims. -/
theorem stopEndsEverything : Obligations.StopEndsEverything := by
  unfold Obligations.StopEndsEverything
  intro s p awake room
  rw [exec_decided (q := .stop) rfl rfl awake room]
  have idle : (s.stopAll .stopped).load = [] ∧ (s.stopAll .stopped).paused = [] :=
    ⟨State.stopAll_spec.load, State.stopAll_spec.paused⟩
  have after : StoppedAll .stopped s (s.change fun t => t.stopAll .stopped) :=
    State.stopAll_spec.butAlarm (State.event_idle rfl idle.1 idle.2)
      (State.change_does (s := s) (f := fun t => t.stopAll .stopped))
  refine ⟨_, s.change fun t => t.stopAll .stopped, rfl, rfl, after.load, after.paused, after.free, after.ended,
    fun g still => axisRecords_of_same (after.axes g still), after.driven, after.running, after.resting, after.counts, ?_, after.fixed⟩
  simp [State.lamp, after.load]

/-- Settles O29: the change to ROAD is a STOP and an evaluation of the alarm, the change to PARKED is the second alone. -/
theorem parkLineSetsTheRoadState : Obligations.ParkLineSetsTheRoadState := by
  unfold Obligations.ParkLineSetsTheRoadState
  intro s awake
  have low : exec .parkReleased s = .next s.parkLow := congrArg _ (exec_awake (f := fun t => t.parkLow) awake)
  have high : exec .parkSet s = .next s.parkHigh := congrArg _ (exec_awake (f := fun t => t.parkHigh) awake)
  rw [low, high]
  refine ⟨⟨_, rfl, ?_⟩, ⟨_, rfl, ?_⟩⟩
  · unfold State.parkLow State.roadBegins
    have kept : s.accept .park false = { s with park := { s.park with accepted := some false } } := rfl
    rw [kept]
    have before : StoppedAll .road { s with park := { s.park with accepted := some false } }
      (({ s with park := { s.park with accepted := some false } } : State).stopAll .road) := State.stopAll_spec
    have after := before.butAlarm (State.butAlarm_evalAlarm _) Does.evalAlarm
    have road : ∀ t : State, t.fixedPart = ({ s with park := { s.park with accepted := some false } } : State).fixedPart →
        t.road = .road := fun t fixed => by
      have park : t.park = { s.park with accepted := some false } := by have e := congrArg State.park fixed; exact e
      simp [State.road, park]
    have alarm := State.alarm_stopAll (s := { s with park := { s.park with accepted := some false } }) (o := .road)
    generalize ({ s with park := { s.park with accepted := some false } } : State).stopAll .road = w at before after alarm ⊢
    have views : w.evalAlarm.notStowed = w.notStowed := by
      rw [w.butAlarm_evalAlarm.1]
      rfl
    refine ⟨road _ after.fixed, after.load, after.paused, after.free, after.ended, after.running, after.resting, ?_,
      fun silent sounds => ?_, after.counts, ?_, ?_⟩
    · rw [State.alarm_evalAlarm, ← State.notStowed_iff, views]
      simp [road w before.fixed]
    · have stowed := State.alarm_evalAlarm.mp sounds
      have start : w.evalAlarm = ({ w with alarm := true, faultPattern := none, faultCount := 0 } : State).raise .road := by
        have quiet : w.alarm = false := alarm.trans silent
        simp [State.evalAlarm, stowed.1, stowed.2, quiet]
      rw [start]
      exact ⟨State.noticed_raise _ _, rfl, rfl⟩
    · have e := congrArg State.layout after.fixed
      exact e
    · have e := congrArg State.write after.fixed
      exact e
  · unfold State.parkHigh
    have kept : s.accept .park true = { s with park := { s.park with accepted := some true } } := rfl
    rw [kept]
    have parked : ({ s with park := { s.park with accepted := some true } } : State).road = .parked := rfl
    generalize woken : ({ s with park := { s.park with accepted := some true } } : State) = w at parked ⊢
    have same := w.butAlarm_evalAlarm
    have silent : w.evalAlarm.alarm = false := by
      cases alarm : w.evalAlarm.alarm
      · rfl
      · have road := (State.alarm_evalAlarm.mp alarm).1
        rw [parked] at road
        exact absurd road (by simp)
    have ports : w.evalAlarm.ports = w.ports := by
      unfold State.evalAlarm State.buzzKick
      simp only [parked, reduceCtorEq, decide_false, Bool.false_and, Bool.false_eq_true, if_false]
      split_ifs <;> rfl
    have park : w.evalAlarm.park = w.park := by rw [same.1]
    have road : w.evalAlarm.road = w.road := by simp only [State.road, park]
    refine ⟨road.trans parked, silent, ?_, ?_⟩
    · rw [park]
      have own : ({ s with park := w.park } : State) = w := by rw [← woken]
      rw [own]
      exact same
    · rw [ports, ← woken]

end Sys2Proof.Machine
end

section
/-! PROOFS. The permits as the views give them, events that hand states over and end no motion, and CLEAR_FAULT (R122). -/

namespace Sys2Proof.Machine

section
variable {F : Group → Prop} {s t w : State} {g : Group} {a : Action} {k : Nat} {rest : List Task} {v : View}

/-! ### Permits -/

theorem State.room_of_view (view : t.view = s.view) (k : RoomId) : (t.rooms[k]).state = (s.rooms[k]).state := by
  have one := congrArg View.room1 view
  have two := congrArg View.room2 view
  have three := congrArg View.room3 view
  have four := congrArg View.room4 view
  fin_cases k
  · exact one
  · exact two
  · exact three
  · exact four

/-- The permit table reads the layout and the views alone. -/
theorem State.permitCause_congr (layout : t.layout = s.layout) (view : t.view = s.view) :
    t.permitCause g a = s.permitCause g a := by
  have set : t.jackSetState = s.jackSetState := congrArg View.jackSet view
  have awning : t.sliderState .awning = s.sliderState .awning := congrArg View.awning view
  have wind : t.wind.state = s.wind.state := congrArg View.wind view
  have configured (k : RoomId) : t.configured (.room k) = s.configured (.room k) := by
    simp [State.configured, State.roleChan, State.role, layout]
  have rooms := State.room_of_view view
  unfold State.permitCause State.supported State.awningNotStowed State.windy State.roomsOut
  simp only [layout, set, awning, wind, configured, rooms]

theorem State.notStowed_congr (layout : t.layout = s.layout) (view : t.view = s.view) : t.notStowed = s.notStowed := by
  have set : t.jackSetState = s.jackSetState := congrArg View.jackSet view
  have awning : t.sliderState .awning = s.sliderState .awning := congrArg View.awning view
  have configured (k : RoomId) : t.configured (.room k) = s.configured (.room k) := by
    simp [State.configured, State.roleChan, State.role, layout]
  have rooms := State.room_of_view view
  unfold State.notStowed
  simp only [set, awning, configured, rooms]

theorem State.fallenPermit_congr (layout : t.layout = s.layout) (view : t.view = s.view) (load : t.load = s.load)
    (paused : t.paused = s.paused) : t.fallenPermit = s.fallenPermit := by
  unfold State.fallenPermit
  simp only [load, paused, State.permitCause_congr layout view]

theorem State.view_butAlarm (same : s.butAlarm t) : t.view = s.view := by
  rw [same.1]
  rfl

theorem State.fallenPermit_butAlarm (same : s.butAlarm t) : t.fallenPermit = s.fallenPermit := by
  refine State.fallenPermit_congr ?_ (State.view_butAlarm same) ?_ ?_ <;> rw [same.1]

theorem State.butAlarm.trans (a : s.butAlarm t) (b : t.butAlarm w) : s.butAlarm w := by
  obtain ⟨first, links⟩ := a
  obtain ⟨second, more⟩ := b
  refine ⟨?_, fun p => (more p).trans (links p)⟩
  rw [second, first]

/-! ### Handing over -/

theorem drain_permits (calm : s.fallenPermit = none) : drain (k + 1) (s, .permits :: rest) = drain k (s, rest) := by
  rw [drain_cons]
  simp [State.runTask, State.checkPermits, calm]

theorem drain_handover_same (same : s.view = v) : drain (k + 1) (s, .handover v :: rest) = drain k (s, rest) := by
  rw [drain_cons]
  simp [State.runTask, State.handOver, same]

/-- States handed over while every permit stands change the alarm at most. -/
theorem drain_handover_calm (calm : s.fallenPermit = none) : ∃ w i, s.butAlarm w ∧ Does F s w ∧ k ≤ i ∧
    (w = s ∨ w = s.evalAlarm) ∧ drain (k + 2) (s, .handover v :: rest) = drain i (w, rest) := by
  by_cases same : s.view = v
  · exact ⟨s, k + 1, s.butAlarm_refl, .refl F s, Nat.le_succ k, .inl rfl, drain_handover_same same⟩
  · have quiet : s.evalAlarm.fallenPermit = none := (State.fallenPermit_butAlarm s.butAlarm_evalAlarm).trans calm
    refine ⟨s.evalAlarm, k, s.butAlarm_evalAlarm, .evalAlarm, Nat.le_refl k, .inr rfl, ?_⟩
    rw [drain_cons]
    simp only [State.runTask, State.handOver, if_neg same]
    exact drain_permits quiet

/-- An event that leaves no work and lets no permit fall comes to its own change, but for the alarm. -/
theorem State.event_calm {f : State → Work} (work : (f s).2 = []) (calm : (f s).1.fallenPermit = none) :
    (f s).1.butAlarm (s.event f) ∧ Does F (f s).1 (s.event f) := by
  have whole : s.event f = drain (9998 + 2) ((f s).1, [.handover s.view]) := by
    unfold State.event State.handing
    dsimp only
    rw [work]
    rfl
  obtain ⟨w, i, same, does, -, -, run⟩ := drain_handover_calm (F := F) (k := 9998) (v := s.view) (rest := []) calm
  rw [whole, run, drain_nil]
  exact ⟨same, does⟩

end

section
variable {s : State} {p : Port} {g h : Group}

/-! ### CLEAR_FAULT -/

theorem requestOfFields_clearFault : requestOfFields .clearFault [byteOf (groupCode g)] = some (.clearFault g) := by
  simp [requestOfFields, clearFaultRequest, fieldByte, groupOfCode_groupCode]

theorem exec_clearFault (awake : s.inReset = none) (room : s.hasRoom p) : exec (.clearFault p (byteOf (groupCode g))) s =
    .next ((s.clearFault g).1.answered p .clearFault (s.clearFault g).2) :=
  exec_decided rfl requestOfFields_clearFault awake room

/-- A change of the records of some jacks, one after another, changes each once. -/
theorem forEach_onJack (f : JackId → Jack → Jack) (l : List JackId) (once : l.Nodup) (s : State) :
    forEach l (fun j t => t.onJack j (f j)) s =
      { s with jacks := (forEach l (fun j t => t.onJack j (f j)) s).jacks } ∧
    ∀ j, (forEach l (fun j t => t.onJack j (f j)) s).jack j = if j ∈ l then f j (s.jack j) else s.jack j := by
  induction l generalizing s with
  | nil => exact ⟨rfl, fun j => rfl⟩
  | cons i rest ih =>
    obtain ⟨fresh, once⟩ := List.nodup_cons.mp once
    obtain ⟨frame, jacks⟩ := ih once (s.onJack i (f i))
    refine ⟨frame.trans rfl, fun j => (jacks j).trans ?_⟩
    rw [State.jack_onJack]
    by_cases same : i = j
    · subst same
      simp [fresh]
    · simp [same, Ne.symm same]

theorem allJacks_nodup : allJacks.Nodup := by decide

theorem jacksClearFault_spec (s : State) : s.jacksClearFault = { s with jacks := s.jacksClearFault.jacks } ∧
    ∀ j, s.jacksClearFault.jack j = { s.jack j with fault := none } := by
  obtain ⟨frame, jacks⟩ := forEach_onJack (fun _ r => { r with fault := none }) allJacks allJacks_nodup s
  exact ⟨frame, fun j => (jacks j).trans (if_pos (mem_allJacks j))⟩

/-- What the removal of a fault leaves (R56, R81, R102). -/
structure FaultCleared (g : Group) (s u : State) : Prop where
  faulted : u.groupFaulted g = false
  others : ∀ h, h ≠ g → axisRecords u h = axisRecords s h
  sound : ∀ id : Slider, id.group = g → s.racked id = false → u.slider id = { s.slider id with fault := none }
  racked : ∀ id : Slider, id.group = g → s.racked id = true → (u.motor id .a).count = none ∧ (u.motor id .b).count = none ∧
    ((u.slider id).state = .unknown ∨ s.allHome id = true)
  jacks : ∀ j, u.jack j = { s.jack j with fault := (u.jack j).fault }
  rest : u = { s with rooms := u.rooms, awning := u.awning, jacks := u.jacks }

theorem State.axisRecords_setSlider (id : Slider) (r : SliderRec) (other : h ≠ id.group) :
    axisRecords (s.setSlider id r) h = axisRecords s h := by
  cases id with
  | awning => cases h <;> simp_all [axisRecords, State.setSlider, Slider.group]
  | room k =>
    cases h with
    | awning => rfl
    | jacks => rfl
    | room i =>
      have apart : k.val ≠ i.val := fun same => other (by rw [Fin.ext same]; rfl)
      simp [axisRecords, State.setSlider, apart]

theorem State.clearFaultOf_slide (id : Slider) : FaultCleared id.group s (s.slideClearFault id) := by
  have shape : ∃ r : SliderRec, s.slideClearFault id = s.setSlider id r ∧ r.fault = none ∧
      (s.racked id = false → r = { s.slider id with fault := none }) ∧
      (s.racked id = true → r.motorA.count = none ∧ r.motorB.count = none ∧ (r.state = .unknown ∨ s.allHome id = true)) := by
    unfold State.slideClearFault
    dsimp only
    cases racked : s.racked id with
    | false => exact ⟨_, if_neg (by simp), rfl, fun _ => rfl, by simp⟩
    | true =>
      rw [if_pos rfl]
      simp only [State.setMotor, State.setSlider_setSlider, State.slider_setSlider_same]
      refine ⟨_, rfl, rfl, by simp, fun _ => ⟨rfl, rfl, ?_⟩⟩
      have home (q : SliderRec) : (s.setSlider id q).allHome id = s.allHome id :=
        State.allHome_congr (by cases id <;> rfl) (by cases id <;> rfl)
      rw [home]
      cases s.allHome id
      · exact .inl rfl
      · exact .inr rfl
  obtain ⟨r, eq, fault, sound, racked⟩ := shape
  have unique (i : Slider) (same : i.group = id.group) : i = id := by
    cases i <;> cases id <;> simp_all [Slider.group]
  rw [eq]
  exact {
    faulted := by
      cases id with
      | room k => simp [Slider.group, State.groupFaulted, State.setSlider, fault]
      | awning => simp [Slider.group, State.groupFaulted, State.setSlider, fault]
    others := fun h other => State.axisRecords_setSlider id r other
    sound := fun i same free => by
      obtain rfl := unique i same
      rw [State.slider_setSlider_same, sound free]
    racked := fun i same holds => by
      obtain rfl := unique i same
      unfold State.motor
      rw [State.slider_setSlider_same]
      exact racked holds
    jacks := fun j => by rw [State.jack_setSlider]
    rest := by cases id <;> rfl }

theorem State.clearFaultOf_jacks : FaultCleared .jacks s s.jacksClearFault := by
  obtain ⟨frame, jacks⟩ := jacksClearFault_spec s
  have none (id : Slider) : ¬ id.group = .jacks := by cases id <;> simp [Slider.group]
  generalize s.jacksClearFault = w at frame jacks ⊢
  have rooms : w.rooms = s.rooms := by have e := congrArg State.rooms frame; exact e
  have awning : w.awning = s.awning := by have e := congrArg State.awning frame; exact e
  exact {
    faulted := by simp [State.groupFaulted, State.jacksFaulted, jacks]
    others := fun h other => by
      rw [frame]
      cases h with
      | jacks => exact absurd rfl other
      | room k => rfl
      | awning => rfl
    sound := fun id same => absurd same (none id)
    racked := fun id same => absurd same (none id)
    jacks := fun j => by rw [jacks j]
    rest := by rw [rooms, awning]; exact frame }

theorem State.clearFaultOf_spec : FaultCleared g s (s.clearFaultOf g) := by
  cases g with
  | room k => exact State.clearFaultOf_slide (.room k)
  | awning => exact State.clearFaultOf_slide .awning
  | jacks => exact State.clearFaultOf_jacks

end

/-- Settles O30: the checks are the model's, and where every permit stands the fault's removal is all that happens. -/
theorem clearFaultRemovesTheFault : Obligations.ClearFaultRemovesTheFault := by
  unfold Obligations.ClearFaultRemovesTheFault
  intro s p g awake room
  rw [exec_clearFault awake room, State.clearFault]
  refine ⟨fun absent => ?_, fun b present held => ?_, fun present free calm => ?_⟩
  · rw [if_pos absent]
    rfl
  · rw [if_neg (by simp [present]), held]
    rfl
  · rw [if_neg (by simp [present]), free]
    have after : (s.clearFaultOf g).butAlarm (s.event fun t => (t.clearFaultOf g, [.permits])) := by
      obtain ⟨w, i, same, -, more, -, run⟩ := drain_handover_calm (F := fun _ => True) (k := 9998) (v := s.view)
        (rest := [.permits]) calm
      have whole : s.event (fun t => (t.clearFaultOf g, [.permits])) = drain i (w, [.permits]) := run
      obtain ⟨i, rfl⟩ := Nat.exists_eq_add_of_le more
      rw [whole, Nat.add_comm, drain_permits ((State.fallenPermit_butAlarm same).trans calm), drain_nil]
      exact same
    have cleared : FaultCleared g s (s.clearFaultOf g) := State.clearFaultOf_spec
    refine ⟨_, s.event fun t => (t.clearFaultOf g, [.permits]), rfl, rfl, ?_⟩
    generalize s.event (fun t => (t.clearFaultOf g, [.permits])) = u at after ⊢
    generalize s.clearFaultOf g = w at after cleared
    obtain ⟨frame, -⟩ := after
    have axes (h : Group) : axisRecords u h = axisRecords w h := by
      rw [frame]
      cases h <;> rfl
    have slides (id : Slider) : u.slider id = w.slider id := by
      rw [frame]
      cases id <;> rfl
    have outer := cleared.rest
    refine ⟨?_, fun h other => (axes h).trans (cleared.others h other),
      fun id same sound => (slides id).trans (cleared.sound id same sound), fun id same racked => ?_, fun j => ?_, ?_⟩
    · rw [frame, ← cleared.faulted]
      cases g <;> rfl
    · unfold State.motor
      rw [slides]
      exact cleared.racked id same racked
    · rw [frame]
      exact cleared.jacks j
    · rw [frame]
      clear axes slides frame
      generalize w.rooms = rooms at outer
      generalize w.awning = awning at outer
      generalize w.jacks = jacks at outer
      subst outer
      exact ⟨rfl, rfl, rfl, rfl, rfl, rfl⟩

end Sys2Proof.Machine
end

section
/-! PROOFS. Events that end one motion: what the ending leaves in the group's records, and the faults of channels (R17, R34)
and timeouts (R45, R77, R84, R87) that bring one about. -/

namespace Sys2Proof.Machine

section
variable {F : Group → Prop} {s t u w : State} {g h : Group} {e : Ending} {id : Slider} {m : Motor} {n : Chan} {x : Entry}
  {j : JackId} {f : FaultCode} {rest : List Task} {k : Nat}

/-! ### The ending of a motion as the cause of all that follows -/

/-- An event's work has ended the motion of a group, and what followed is what the endings of an event can bring about. -/
structure Ends (g : Group) (e : Ending) (s t : State) : Prop where
  ended : Ended g e.outcome s t
  follows : Follows (fun _ => True) (s.motionEnd g e).1 t
  rests : s.planRunning = false → Rests (s.motionEnd g e).1 t

theorem drain_ends (found : s.entryOf g = some x) (plain : Plain rest) :
    Ends g e s (drain (k + 1) (s, .endMotion g e :: rest)) := by
  have after : Does (fun _ => True) (s.motionEnd g e).1 (drain (k + 1) (s, .endMotion g e :: rest)) := by
    rw [drain_cons]
    exact drain_does (State.motionEnd_plain.append plain)
  refine ⟨(drain_endMotion (F := fun _ => True) found (fun _ => trivial) plain).2, after.follows, fun silent => after.rests ?_⟩
  simpa [State.planRunning, (State.motionEnd_rests (s := s) (g := g) (e := e)).plan] using silent

/-- An event that changes no view and then ends a motion. -/
theorem State.event_ends {f : State → Work} (work : (f s).2 = .endMotion g e :: rest) (view : (f s).1.view = s.view)
    (found : (f s).1.entryOf g = some x) (plain : Plain rest) : Ends g e (f s).1 (s.event f) := by
  have whole : s.event f = drain (9998 + 1) ((f s).1, .endMotion g e :: rest) := by
    unfold State.event State.handing
    dsimp only
    rw [work]
    exact drain_handover_same view
  rw [whole]
  exact drain_ends found plain

theorem Ends.slider_fault (a : Ends id.group e s t) (found : s.entryOf id.group = some x) (fault : e.fault = some f) :
    (t.slider id).fault = some ((s.slider id).fault.getD f) := by
  refine a.follows.sliderFault id _ ?_
  rw [State.slider_motionEnd found]
  unfold SliderRec.ended
  cases held : (s.slider id).fault <;> simp [fault]

theorem Ends.jack_fault (a : Ends .jacks e s t) (found : s.entryOf .jacks = some x) (fault : e.fault = some f)
    (named : j ∈ e.jacks) : (t.jack j).fault = some ((s.jack j).fault.getD f) := by
  refine a.follows.jackFault j _ ?_
  rw [State.jack_motionEnd found]
  simp [Ending.jackFault, fault, named]

/-- While no plan runs, the record of the group stays as its ending left it. -/
theorem Ends.slider (a : Ends id.group e s t) (found : s.entryOf id.group = some x) (silent : s.planRunning = false) :
    t.slider id = (s.slider id).ended (s.twoMotors id) (s.endState id e) e := by
  rw [← State.slider_motionEnd found]
  have same := (a.rests silent).axes _ (State.motionEnd_now found).still
  cases id <;> exact same

theorem Ends.jack (a : Ends .jacks e s t) (found : s.entryOf .jacks = some x) (silent : s.planRunning = false) (j : JackId) :
    t.jack j = (s.motionEnd .jacks e).1.jack j := by
  obtain ⟨jacks, -, -⟩ := (a.rests silent).axes _ (State.motionEnd_now found).still
  unfold State.jack
  rw [jacks]

theorem Ends.chan (a : Ends g e s t) (found : s.entryOf g = some x) (silent : s.planRunning = false)
    (own : (s.role n).group = some g) : t.chan n = (s.motionEnd g e).1.chan n ∧ t.paceRec n = (s.motionEnd g e).1.paceRec n := by
  refine (a.rests silent).chans n fun h group => ?_
  have does : Does (fun _ => True) s (s.motionEnd g e).1 := State.motionEnd_does fun _ => trivial
  rw [does.follows.role, own] at group
  obtain rfl := Option.some.inj group
  exact (State.motionEnd_now found).still

/-- An ending may be told from before what a controller did in its event. -/
theorem Ended.from_controls {o : MotionOutcome} (a : Ended g o u t) (c : Controls h s u) : Ended g o s t := by
  have now : u.nextOrder = s.nextOrder := by have e := congrArg State.nextOrder c.outer; exact e
  have plan : u.plan = s.plan := by have e := congrArg State.plan c.outer; exact e
  have alarm : u.alarm = s.alarm := by have e := congrArg State.alarm c.outer; exact e
  have pattern : u.faultPattern = s.faultPattern := by have e := congrArg State.faultPattern c.outer; exact e
  have count : u.faultCount = s.faultCount := by have e := congrArg State.faultCount c.outer; exact e
  have ports : u.ports = s.ports := by have e := congrArg State.ports c.outer; exact e
  have fixed : u.fixedPart = s.fixedPart := by have e := congrArg State.fixedPart c.outer; exact e
  refine a.from now plan c.counts c.jackReading (fun p => ?_) (State.soundsOn_same alarm pattern count) fixed
  unfold State.port
  rw [ports]

theorem Controls.entryOf (c : Controls h s u) : u.entryOf g = s.entryOf g := by
  have load : u.load = s.load := by have e := congrArg State.load c.outer; exact e
  have paused : u.paused = s.paused := by have e := congrArg State.paused c.outer; exact e
  simp only [State.entryOf, load, paused]

/-! ### Faults of a channel -/

theorem State.view_channels {table : Vector Channel 16} : ({ s with channels := table } : State).view = s.view := rfl

theorem State.stopChan_frame : s.stopChan n = { s with channels := (s.stopChan n).channels } := by
  rw [State.stopChan_eq]
  rfl

/-- A fault of a channel goes to the motion of its group (R7, R17, R34, R69). -/
theorem State.channelFaultTasks_eq (own : (s.role n).group = some g) (found : s.entryOf g = some x) (f : FaultCode) :
    ∃ js, s.channelFaultTasks n f = [.endMotion g { outcome := .fault, fault := some f, jacks := js }] ∧
      (∀ j, s.role n = .jack j → js = [j]) ∧ (s.role n = .pump → js = s.jacksOf x.action) := by
  unfold State.channelFaultTasks
  cases role : s.role n with
  | none => simp [role, Role.group] at own
  | room k m =>
    obtain rfl : Group.room k = g := by simpa [role, Role.group] using own
    exact ⟨[], rfl, by simp, by simp⟩
  | awning =>
    obtain rfl : Group.awning = g := by simpa [role, Role.group] using own
    exact ⟨[], rfl, by simp, by simp⟩
  | jack j =>
    obtain rfl : Group.jacks = g := by simpa [role, Role.group] using own
    unfold State.jackChannelFault State.jackMotion
    rw [found]
    exact ⟨[j], rfl, by simp, by simp⟩
  | pump =>
    obtain rfl : Group.jacks = g := by simpa [role, Role.group] using own
    unfold State.jackChannelFault State.jackMotion
    rw [found]
    exact ⟨s.jacksOf x.action, rfl, by simp, by simp⟩

theorem State.view_setPace (r : PaceRecord) : (s.setPace n r).view = s.view := rfl

theorem State.mirrorTally_fault : ((s.mirrorTally n).slider id).fault = (s.slider id).fault := by
  unfold State.mirrorTally
  split
  · rw [State.slider_setMotor]
    split
    · rename_i same
      subst same
      exact SliderRec.fault_setMotor ..
    · rfl
  · rw [State.slider_setMotor]
    split
    · rename_i same
      subst same
      exact SliderRec.fault_setMotor ..
    · rfl
  · rfl

theorem State.view_setSlider (r : SliderRec) (same : r.state = (s.slider id).state) : (s.setSlider id r).view = s.view := by
  have rooms (k : RoomId) : ((s.setSlider id r).rooms[k]).state = (s.rooms[k]).state := by
    cases id with
    | awning => rfl
    | room i =>
      by_cases own : i = k
      · subst own
        simpa [State.setSlider, State.slider] using same
      · have apart : i.val ≠ k.val := fun e => own (Fin.ext e)
        simp [State.setSlider, apart]
  have awning : (s.setSlider id r).sliderState .awning = s.sliderState .awning := by
    cases id with
    | room i => rfl
    | awning =>
      change (if s.configured .awning = true then r else stowedAwning).state =
        (if s.configured .awning = true then s.awning else stowedAwning).state
      split
      · exact same
      · rfl
  have set : (s.setSlider id r).jackSetState = s.jackSetState := by cases id <;> rfl
  have wind : (s.setSlider id r).wind = s.wind := by cases id <;> rfl
  unfold State.view
  rw [awning, set, wind]
  congr 1
  · exact rooms 0
  · exact rooms 1
  · exact rooms 2
  · exact rooms 3

theorem State.view_setMotor (r : MotorRec) : (s.setMotor id m r).view = s.view :=
  State.view_setSlider _ (by simp)

theorem State.view_mirrorTally : (s.mirrorTally n).view = s.view := by
  unfold State.mirrorTally
  split
  · exact State.view_setMotor _
  · exact State.view_setMotor _
  · rfl

/-- A watch that finds its fault: what it changes of the channel's own records, the stop and the ending of the motion. -/
theorem State.event_channelFault {c : State → State} (own : (s.role n).group = some g) (found : s.entryOf g = some x)
    (part : Controls g s (c s)) (view : (c s).view = s.view) (fault : ∀ id, ((c s).slider id).fault = (s.slider id).fault)
    (jacks : (c s).jacks = s.jacks) : ∃ js,
    Ends g { outcome := .fault, fault := some f, jacks := js } ((c s).stopChan n)
      (s.event fun t => (c t).channelFault n f) ∧
    Ended g .fault s (s.event fun t => (c t).channelFault n f) ∧
    (∀ id, id.group = g → ((s.event fun t => (c t).channelFault n f).slider id).fault = some ((s.slider id).fault.getD f)) ∧
    (∀ j, s.role n = .jack j →
      ((s.event fun t => (c t).channelFault n f).jack j).fault = some ((s.jack j).fault.getD f)) ∧
    (s.role n = .pump → ∀ j ∈ s.jacksOf x.action,
      ((s.event fun t => (c t).channelFault n f).jack j).fault = some ((s.jack j).fault.getD f)) := by
  have role : (c s).role n = s.role n := part.role n
  have all : (c s).jacksOf x.action = s.jacksOf x.action := by
    have layout := part.layout
    unfold State.jacksOf State.configuredJacks State.jackConfigured State.roleChan State.role
    rw [layout]
  have same : Controls g (c s) ((c s).stopChan n) := State.stopChan_controls (by rw [role, own])
  obtain ⟨js, tasks, valve, pump⟩ := State.channelFaultTasks_eq (s := c s) (f := f) (by rw [role, own])
    (part.entryOf.trans found)
  have there : ((c s).stopChan n).entryOf g = some x := same.entryOf.trans (part.entryOf.trans found)
  have ends : Ends g { outcome := .fault, fault := some f, jacks := js } ((c s).stopChan n)
      (s.event fun t => (c t).channelFault n f) :=
    State.event_ends (f := fun t => (c t).channelFault n f) tasks
      (Eq.trans (by simp only [State.channelFault]; rw [State.stopChan_frame]; rfl) view) there .nil
  have slider (id : Slider) : (((c s).stopChan n).slider id).fault = (s.slider id).fault := by
    rw [State.stopChan_frame, ← fault id]
    cases id <;> rfl
  have jack (j : JackId) : ((c s).stopChan n).jack j = s.jack j := by
    rw [State.stopChan_frame]
    unfold State.jack
    rw [← jacks]
  generalize (s.event fun t => (c t).channelFault n f) = t at ends ⊢
  have own_jacks (j : JackId) (mem : j ∈ js) (group : g = .jacks) : (t.jack j).fault = some ((s.jack j).fault.getD f) := by
    subst group
    rw [ends.jack_fault there rfl mem, jack]
  refine ⟨js, ends, ends.ended.from_controls (part.trans same), fun id group => ?_, fun j isJack => ?_, fun isPump j mem => ?_⟩
  · subst group
    rw [ends.slider_fault there rfl, slider]
  · refine own_jacks j (by rw [valve j (role.trans isJack)]; exact List.mem_singleton_self j) ?_
    simpa [isJack, Role.group] using own.symm
  · refine own_jacks j (by rw [pump (role.trans isPump), all]; exact mem) ?_
    simpa [isPump, Role.group] using own.symm

end

/-- Settles O38: each watch stops its channel and hands its fault to the motion of the channel's group. -/
theorem channelFaultsEndTheMotion : Obligations.ChannelFaultsEndTheMotion := by
  unfold Obligations.ChannelFaultsEndTheMotion
  intro s n g e awake own found
  have current : exec (.overcurrent n) s = .next (s.overcurrent n) :=
    congrArg _ (exec_awake (f := fun t => t.overcurrent n) awake)
  have noise : exec (.pulseNoise n) s = .next (s.noiseReached n) :=
    congrArg _ (exec_awake (f := fun t => t.noiseReached n) awake)
  rw [current, noise, State.overcurrent, State.noiseReached]
  have exceeded : (((s.role n).isMotor && s.countsCurrent n && decide (2 ≤ (s.chan n).overRun)) = true) =
      ((s.role n).isMotor = true ∧ s.countsCurrent n = true ∧ 2 ≤ (s.chan n).overRun) := by simp [and_assoc]
  have noisy : ((s.hasPulses n && (s.chan n).driven && decide (63 ≤ (s.paceRec n).tally)) = true) =
      (s.hasPulses n = true ∧ (s.chan n).driven = true ∧ 63 ≤ (s.paceRec n).tally) := by simp [and_assoc]
  simp only [exceeded, noisy]
  refine ⟨fun holds => ?_, fun fails => by rw [if_neg fails], fun holds => ?_, fun fails => by rw [if_neg fails]⟩
  · rw [if_pos holds]
    obtain ⟨js, -, ended, sliders, -, pump⟩ := State.event_channelFault (f := .overcurrent) (s := s)
      (c := fun t => t.setChan n { t.chan n with overRun := 3 }) own found
      (.setChan own rfl fun driven => .inl driven) rfl (fun id => by cases id <;> rfl) rfl
    refine ⟨_, rfl, ended, sliders, fun jacks => pump ?_⟩
    subst jacks
    cases role : s.role n with
    | pump => rfl
    | jack j => simp [role, Role.isMotor] at holds
    | room k m => simp [role, Role.group] at own
    | awning => simp [role, Role.group] at own
    | none => simp [role, Role.group] at own
  · rw [if_pos holds]
    have pace : Controls g s (s.setPace n { s.paceRec n with tally := 64 }) := .setPace own
    obtain ⟨js, -, ended, sliders, jacks, -⟩ := State.event_channelFault (f := .pulseNoise) (s := s)
      (c := fun t => (t.setPace n { t.paceRec n with tally := 64 }).mirrorTally n) own found
      (pace.trans (State.mirrorTally_controls own)) State.view_mirrorTally
      (fun id => State.mirrorTally_fault.trans (by cases id <;> rfl)) (by unfold State.mirrorTally; split <;> rfl)
    exact ⟨_, rfl, ended, sliders, jacks⟩

end Sys2Proof.Machine
end

section
/-! PROOFS. What the clock's moving on leaves of the state, and the timeouts of jack motions (R77, R84, R87). -/

namespace Sys2Proof.Machine

section
variable {s t w : State} {g : Group} {id : Slider} {m : Motor} {n : Chan} {x : Entry} {j : JackId}

/-- The jack set state reads the layout, the lines, the jacks and the level mark (R70). -/
theorem State.jackSetState_congr (layout : t.layout = s.layout) (lines : t.lines = s.lines) (jacks : t.jacks = s.jacks)
    (mark : t.jackSet.levelMark = s.jackSet.levelMark) : t.jackSetState = s.jackSetState := by
  have role (r : Role) : t.roleChan r = s.roleChan r := by simp only [State.roleChan, State.role, layout]
  have all : t.configuredJacks = s.configuredJacks := by simp only [State.configuredJacks, State.jackConfigured, role]
  have record (j : JackId) : t.jack j = s.jack j := by simp only [State.jack, jacks]
  have state : t.jackState = s.jackState := by
    funext j
    unfold State.jackState State.jackHome State.homeClosed
    rw [record, role, lines]
  have planted : t.planted = s.planted := by
    funext j
    unfold State.planted
    rw [record, state]
  have faulted : t.jacksFaulted = s.jacksFaulted := by simp only [State.jacksFaulted, all, record]
  unfold State.jackSetState State.jackCount
  rw [all, faulted, planted, state, mark]

/-! ### A later state -/

/-- A state that differs from another by what the clock drives, and by nothing else. -/
structure Later (s w : State) : Prop where
  frame : w = { s with
    now := w.now, channels := w.channels, pace := w.pace, rooms := w.rooms, awning := w.awning, jackSet := w.jackSet
    level := w.level, wind := w.wind }
  chan : ∀ n, w.chan n = { s.chan n with waveDuty := (w.chan n).waveDuty }
  paceRec : ∀ n, w.paceRec n = { s.paceRec n with counter := (w.paceRec n).counter }
  slider : ∀ id, w.slider id = { s.slider id with runTime := (w.slider id).runTime }
  jackSet : w.jackSet = { s.jackSet with runTime := w.jackSet.runTime }
  level : w.level = { s.level with phaseTime := w.level.phaseTime }
  wind : w.wind = { s.wind with counter := w.wind.counter, timer := w.wind.timer }

namespace Later

theorem refl (s : State) : Later s s where
  frame := rfl
  chan _ := rfl
  paceRec _ := rfl
  slider _ := rfl
  jackSet := rfl
  level := rfl
  wind := rfl

theorem elapse (s : State) (span : Time) : Later s (s.elapse span) where
  frame := by
    have eq := s.elapse_eq span
    generalize s.elapse span = w at eq
    rw [eq]
  chan n := by rw [State.chan_elapse]
  paceRec n := by
    rw [State.paceRec_elapse]
    split <;> rfl
  slider id := by
    obtain ⟨r, eq⟩ := s.slider_elapse span id
    rw [eq]
  jackSet := by rw [State.jackSet_elapse]
  level := by rw [State.level_elapse]
  wind := by rw [State.wind_elapse]

theorem advanceTo (s : State) (due : Time) : Later s (s.advanceTo due) := by
  unfold State.advanceTo
  split
  · exact elapse s _
  · exact refl s

theorem advanceRun (s : State) (run limit : Time) : Later s (s.advanceRun run limit) := by
  unfold State.advanceRun
  split
  · exact elapse s _
  · exact refl s

theorem advanceCounter (s : State) (n : Chan) (value : Nat) : Later s (s.advanceCounter n value) := by
  unfold State.advanceCounter
  dsimp only
  split
  · exact advanceTo s _
  · exact refl s

variable (a : Later s w)
include a

theorem layout : w.layout = s.layout := by rw [a.frame]
theorem lines : w.lines = s.lines := by rw [a.frame]
theorem load : w.load = s.load := by rw [a.frame]
theorem paused : w.paused = s.paused := by rw [a.frame]
theorem claims : w.claims = s.claims := by rw [a.frame]
theorem plan : w.plan = s.plan := by rw [a.frame]
theorem ports : w.ports = s.ports := by rw [a.frame]
theorem jacks : w.jacks = s.jacks := by rw [a.frame]
theorem supply : w.supply = s.supply := by rw [a.frame]
theorem write : w.write = s.write := by rw [a.frame]
theorem park : w.park = s.park := by rw [a.frame]
theorem alarm : w.alarm = s.alarm := by rw [a.frame]
theorem faultCount : w.faultCount = s.faultCount := by rw [a.frame]
theorem faultPattern : w.faultPattern = s.faultPattern := by rw [a.frame]
theorem nextOrder : w.nextOrder = s.nextOrder := by rw [a.frame]

theorem road : w.road = s.road := by simp only [State.road, a.park]
theorem jack (j : JackId) : w.jack j = s.jack j := by simp only [State.jack, a.jacks]
theorem claim (g : Group) : w.claim g = s.claim g := by simp only [State.claim, a.claims]
theorem planRunning : w.planRunning = s.planRunning := by simp only [State.planRunning, a.plan]
theorem entryOf (g : Group) : w.entryOf g = s.entryOf g := by simp only [State.entryOf, a.load, a.paused]
theorem running (g : Group) : w.running g = s.running g := by simp only [State.running, a.load]
theorem motions : w.motions = s.motions := by simp only [State.motions, a.load, a.paused]
theorem still (g : Group) : w.still g ↔ s.still g := by simp only [State.still, a.motions]
theorem role (n : Chan) : w.role n = s.role n := by simp only [State.role, a.layout]
theorem roleChan (r : Role) : w.roleChan r = s.roleChan r := by simp only [State.roleChan, a.role]

theorem motorChan (id : Slider) (m : Motor) : w.motorChan id m = s.motorChan id m := by
  cases id <;> cases m <;> simp only [State.motorChan, a.roleChan]

theorem motors (id : Slider) : w.motors id = s.motors id := by simp only [State.motors, a.motorChan]
theorem twoMotors (id : Slider) : w.twoMotors id = s.twoMotors id := by simp only [State.twoMotors, a.motorChan]

theorem configuredJacks : w.configuredJacks = s.configuredJacks := by
  simp only [State.configuredJacks, State.jackConfigured, a.roleChan]

theorem jacksOf (x : Action) : w.jacksOf x = s.jacksOf x := by
  cases x <;> simp only [State.jacksOf, a.configuredJacks]

theorem motor (id : Slider) (m : Motor) : w.motor id m = s.motor id m := by
  unfold State.motor
  rw [a.slider]
  cases m <;> rfl

theorem driven (n : Chan) : (w.chan n).driven = (s.chan n).driven := by
  rw [a.chan]
  rfl

theorem view : w.view = s.view := by
  have rooms (k : RoomId) : (w.rooms[k]).state = (s.rooms[k]).state := by
    have eq := a.slider (.room k)
    change w.rooms[k] = { s.rooms[k] with runTime := (w.rooms[k]).runTime } at eq
    rw [eq]
  have configured : w.configured .awning = s.configured .awning := by
    simp only [State.configured, a.roleChan]
  have awning : w.sliderState .awning = s.sliderState .awning := by
    have eq := a.slider .awning
    change w.awning = { s.awning with runTime := w.awning.runTime } at eq
    change (if w.configured .awning = true then w.awning else stowedAwning).state =
      (if s.configured .awning = true then s.awning else stowedAwning).state
    rw [configured, eq]
    split <;> rfl
  have mark : w.jackSet.levelMark = s.jackSet.levelMark := by rw [a.jackSet]
  have set : w.jackSetState = s.jackSetState := State.jackSetState_congr a.layout a.lines a.jacks mark
  have wind : w.wind.state = s.wind.state := by rw [a.wind]
  unfold State.view
  rw [awning, set, wind]
  congr 1
  · exact rooms 0
  · exact rooms 1
  · exact rooms 2
  · exact rooms 3

end Later

end

section
variable {s t w : State} {x : Entry} {j : JackId} {f : FaultCode} {run limit : Time}

/-! ### The timeouts of jack motions -/

theorem State.timesOut_none {g : Group} (stays : s.mayReach run limit = false ∨ s.still g ∨ (s.running g = false ∧ run < limit)) :
    s.timesOut g run limit = false := by
  have early (h : s.mayReach run limit = false) : run < limit := by
    by_contra reached
    rw [s.mayReach_of_le (Nat.not_lt.mp reached)] at h
    exact absurd h (by simp)
  cases out : s.timesOut g run limit with
  | false => rfl
  | true =>
    obtain ⟨found, reached⟩ | ⟨runs, may⟩ := s.timesOut_iff.mp out
    · obtain never | still | ⟨-, short⟩ := stays
      · exact absurd reached (Nat.not_le.mpr (early never))
      · rw [State.still_iff_entryOf.mp still] at found
        exact absurd found (by simp)
      · exact absurd reached (Nat.not_le.mpr short)
    · obtain never | still | ⟨rests, -⟩ := stays
      · exact absurd may (by simp [never])
      · obtain ⟨y, mem, group⟩ := List.any_eq_true.mp runs
        exact absurd (by simpa [Entry.motion] using group)
          (still y.motion (mem_motions.mpr ⟨y, List.mem_append_left _ mem, rfl⟩))
      · exact absurd runs (by simp [rests])

theorem State.mem_activeJacks (found : s.entryOf .jacks = some x) :
    j ∈ s.activeJacks ↔ j ∈ s.jacksOf x.action ∧ (s.jack j).phase = .active := by
  unfold State.activeJacks State.jackMotion
  rw [found]
  simp

/-- The ending that a timeout of a jack motion brings, with its fault in every ACTIVE jack. -/
theorem Ends.activeFault (later : Later s w) (found : s.entryOf .jacks = some x)
    (a : Ends .jacks { outcome := .fault, fault := some f, jacks := w.activeJacks } w t) (mem : j ∈ s.jacksOf x.action)
    (active : (s.jack j).phase = .active) : (t.jack j).fault = some ((s.jack j).fault.getD f) := by
  have there : w.entryOf .jacks = some x := (later.entryOf _).trans found
  rw [a.jack_fault there rfl ((State.mem_activeJacks there).mpr ⟨by rw [later.jacksOf]; exact mem, by rw [later.jack]; exact active⟩),
    later.jack]

end

/-- Settles O47: the three timeouts are one rule with its own limit, running time and fault. -/
theorem jackTimeoutsEndTheMotion : Obligations.JackTimeoutsEndTheMotion := by
  unfold Obligations.JackTimeoutsEndTheMotion
  have runOut (s : State) (awake : s.inReset = none) : exec .jackRunTimeout s = .next s.jackRunOut :=
    congrArg _ (exec_awake (f := fun t => t.jackRunOut) awake)
  have contactOut (s : State) (awake : s.inReset = none) : exec .contactPhaseTimeout s = .next s.contactPhaseOut :=
    congrArg _ (exec_awake (f := fun t => t.contactPhaseOut) awake)
  have settled (s : State) (awake : s.inReset = none) : exec .settleEnd s = .next s.settleDone :=
    congrArg _ (exec_awake (f := fun t => t.settleDone) awake)
  have passOut (s : State) (awake : s.inReset = none) : exec .passTimeout s = .next s.passOut :=
    congrArg _ (exec_awake (f := fun t => t.passOut) awake)
  refine ⟨fun s c limit run f e awake command => ?_, fun s awake => ⟨fun active => ?_, fun other => ?_, fun other => ?_, fun other => ?_⟩⟩
  · have whole : exec c s = .next (if s.timesOut .jacks run limit = true then
        drain workBound ((s.advanceRun run limit).activeFault f) else s) ∨
        exec c s = .next (if s.timesOut .jacks run limit = true then
          (s.advanceRun run limit).event fun t => t.activeFault f else s) := by
      obtain ⟨rfl, idle, rfl, rfl, rfl⟩ | ⟨rfl, active, phase, rfl, rfl, rfl⟩ | ⟨rfl, active, phase, rfl, rfl, rfl⟩ := command
      · left
        rw [runOut s awake, State.jackRunOut]
        simp [State.levelActive, idle, State.jackTimeout]
      · right
        rw [contactOut s awake, State.contactPhaseOut, State.atPhaseLimit]
        simp [State.levelActive, active, phase, State.phaseTimesOut, State.phaseLimit, State.jackTimeout]
      · right
        rw [passOut s awake, State.passOut, State.atPhaseLimit]
        simp [State.levelActive, active, phase, State.phaseTimesOut, State.phaseLimit]
    refine ⟨fun stays => ?_, fun due found => ?_⟩
    · rw [State.timesOut_none stays] at whole
      obtain whole | whole := whole <;> exact whole
    · have out : s.timesOut .jacks run limit = true := s.timesOut_iff.mpr
        (due.elim .inr fun reached => .inl ⟨by rw [found]; rfl, reached⟩)
      have later := Later.advanceRun s run limit
      have there : (s.advanceRun run limit).entryOf .jacks = some e := (later.entryOf _).trans found
      have ends : ∃ t, exec c s = .next t ∧
          Ends .jacks { outcome := .fault, fault := some f, jacks := (s.advanceRun run limit).activeJacks }
            (s.advanceRun run limit) t := by
        rw [if_pos out, if_pos out] at whole
        obtain whole | whole := whole
        · exact ⟨_, whole, drain_ends (k := 9999) there .nil⟩
        · exact ⟨_, whole, State.event_ends (f := fun t => t.activeFault f) rfl rfl there .nil⟩
      obtain ⟨t, run, ends⟩ := ends
      exact ⟨t, _, run, rfl, ends.ended, fun j mem active => ends.activeFault later found mem active⟩
  · rw [runOut s awake, State.jackRunOut]
    simp [State.levelActive, active]
  · rw [contactOut s awake, State.contactPhaseOut, State.atPhaseLimit]
    obtain idle | phase := other
    · simp [State.levelActive, idle]
    · simp [phase]
  · rw [settled s awake, State.settleDone, State.atPhaseLimit]
    by_cases active : s.level.status = .active
    · by_cases phase : s.level.phase = .settle
      · have limit : s.phaseLimit = ms s.layout.level.settleTime := by simp only [State.phaseLimit, phase]
        obtain idle | other | rests | never := other
        · exact absurd active idle
        · exact absurd phase other
        · simp [rests]
        · rw [limit, never]
          simp
      · simp [phase]
    · simp [State.levelActive, active]
  · rw [passOut s awake, State.passOut, State.atPhaseLimit]
    obtain idle | phase := other
    · simp [State.levelActive, idle]
    · simp [phase]

end Sys2Proof.Machine
end

section
/-! PROOFS. The fault count and the patterns of BUZZ (R130): work that brings about no ending FAULT leaves them. -/

namespace Sys2Proof.Machine

section
variable {s t : State} {g : Group} {e : Ending} {x : Entry} {k : Nat} {l : List Task}

/-! ### Work without a further FAULT -/

/-- Work that ends motions STOPPED or INTERLOCK at most, starts none, and begins no step of a plan. -/
def Task.tame : Task → Prop
  | .endMotion _ e => e.outcome = .stopped ∨ e.outcome = .interlock
  | .planTakes _ a e _ => stepSuccess a e.outcome = false
  | .handover _ | .permits | .scan | .endPlan => True
  | .resume _ _ _ | .beginStep | .place _ => False

/-- Work left in an event that can neither sound the alarm, nor end a motion FAULT, nor take one up from the pause list. -/
structure Tame (w : Work) : Prop where
  alarm : w.1.alarm = false
  road : w.1.road ≠ .road
  tasks : ∀ t ∈ w.2, t.tame
  lists : w.1.paused = [] ∨ (w.1.load = [] ∧ .scan ∉ w.2)

theorem Tame.more {k : List Task} (w : Tame (s, l)) (tasks : ∀ t ∈ k, t.tame) (noScan : .scan ∉ k) : Tame (s, k ++ l) where
  alarm := w.alarm
  road := w.road
  tasks t mem := (List.mem_append.mp mem).elim (tasks t) (w.tasks t)
  lists := w.lists.imp_right fun ⟨empty, without⟩ => ⟨empty, fun mem => (List.mem_append.mp mem).elim noScan without⟩

/-- BUZZ's fault count and pattern stand. -/
def SameFaults (s t : State) : Prop := t.faultCount = s.faultCount ∧ t.faultPattern = s.faultPattern

theorem State.evalAlarm_silent (silent : s.alarm = false) (road : s.road ≠ .road) : s.evalAlarm = s := by
  unfold State.evalAlarm
  simp [silent, road]

theorem State.fixed_motionEnd : (s.motionEnd g e).1.fixedPart = s.fixedPart :=
  (State.motionEnd_does (F := fun _ => True) (s := s) (g := g) (e := e) fun _ => trivial).follows.fixed

theorem State.road_of_fixed (fixed : t.fixedPart = s.fixedPart) : t.road = s.road := by
  have park : t.park = s.park := by have e := congrArg State.park fixed; exact e
  simp only [State.road, park]

/-- What an ending with a given outcome leaves to do. -/
theorem State.motionEnd_tasks (found : s.entryOf g = some x) : ∃ v f, (s.motionEnd g e).2 = .handover v ::
    ((if s.running g then [.scan] else []) ++
      (if x.owner = .sequencer then [.planTakes g x.action e f] else [])) := by
  unfold State.motionEnd
  simp only [found]
  exact ⟨_, _, rfl⟩

theorem State.running_of_load (empty : s.load = []) : s.running g = false := by
  simp [State.running, empty]

/-- After an ending that is no success of a step the rest of the work stays tame. -/
theorem Tame.motionEnd (silent : s.alarm = false) (road : s.road ≠ .road) (tasks : ∀ t ∈ l, t.tame)
    (lists : s.paused = [] ∨ (s.load = [] ∧ .scan ∉ l)) (fails : ∀ a, stepSuccess a e.outcome = false) :
    Tame ((s.motionEnd g e).1, (s.motionEnd g e).2 ++ l) := by
  by_cases still : s.still g
  · rw [State.motionEnd_still still]
    exact ⟨silent, road, tasks, lists⟩
  obtain ⟨x, found⟩ := State.not_still_iff.mp still
  obtain ⟨v, f, work⟩ := State.motionEnd_tasks (e := e) found
  obtain ⟨load, paused⟩ := s.lists_motionEnd (g := g) (e := e)
  refine ⟨State.alarm_motionEnd.trans silent, ?_, fun t mem => ?_, ?_⟩
  · rw [State.road_of_fixed State.fixed_motionEnd]
    exact road
  · rw [work] at mem
    simp only [List.cons_append, List.mem_cons, List.mem_append, List.append_assoc] at mem
    obtain rfl | scan | takes | other := mem
    · trivial
    · split at scan
      · rw [List.mem_singleton.mp scan]
        trivial
      · simp at scan
    · split at takes
      · rw [List.mem_singleton.mp takes]
        exact fails _
      · simp at takes
    · exact tasks t other
  · refine lists.imp (fun empty => ?_) fun ⟨empty, without⟩ => ⟨?_, ?_⟩
    · change (s.motionEnd g e).1.paused = []
      rw [paused, empty]
      rfl
    · change (s.motionEnd g e).1.load = []
      rw [load, empty]
      rfl
    · rw [work, State.running_of_load empty]
      simp only [Bool.false_eq_true, if_false, List.nil_append, List.cons_append, List.mem_cons, reduceCtorEq, false_or,
        List.mem_append, not_or]
      refine ⟨?_, without⟩
      split <;> simp

theorem State.faults_endNotices (other : e.outcome ≠ .fault) : SameFaults s (s.endNotices e) := by
  unfold State.endNotices
  simp only [if_neg other]
  split <;> exact ⟨rfl, rfl⟩

/-- What an ending leaves of BUZZ's record is what its notices leave. -/
theorem State.motionEnd_faults (found : s.entryOf g = some x) :
    SameFaults ((s.controllerEnd g x.action e).endNotices e) (s.motionEnd g e).1 := by
  have shape : (s.motionEnd g e).1 =
      (((s.controllerEnd g x.action e).endNotices e).endClaim g e.claim).removeEntry g := by
    unfold State.motionEnd
    simp only [found]
  rw [shape]
  generalize (s.controllerEnd g x.action e).endNotices e = c
  have claims := c.endClaim_frame (g := g) (c := e.claim)
  generalize c.endClaim g e.claim = v at claims
  rw [claims]
  exact ⟨rfl, rfl⟩

theorem State.controllerEnd_faults {a : Action} : SameFaults s (s.controllerEnd g a e) := by
  have outer := (State.controllerEnd_controls (s := s) (g := g) (a := a) (e := e)).outer
  have count := congrArg State.faultCount outer
  have pattern := congrArg State.faultPattern outer
  exact ⟨count, pattern⟩

theorem State.faults_motionEnd (other : e.outcome ≠ .fault) : SameFaults s (s.motionEnd g e).1 := by
  by_cases still : s.still g
  · rw [State.motionEnd_still still]
    exact ⟨rfl, rfl⟩
  obtain ⟨x, found⟩ := State.not_still_iff.mp still
  obtain ⟨count, pattern⟩ := State.motionEnd_faults (e := e) found
  obtain ⟨noticed, sounded⟩ := (s.controllerEnd g x.action e).faults_endNotices other
  obtain ⟨first, begun⟩ := s.controllerEnd_faults (g := g) (a := x.action) (e := e)
  exact ⟨count.trans (noticed.trans first), pattern.trans (sounded.trans begun)⟩

theorem State.planEnd_tame {st : PlanStatus} {f : Option PlanFailure} (w : Tame (s, l)) :
    Tame ((s.planEnd st f).1, (s.planEnd st f).2 ++ l) ∧ SameFaults s (s.planEnd st f).1 :=
  have ended : Tame ((s.planEnd st f).1, l) := ⟨w.alarm, w.road, w.tasks, w.lists⟩
  ⟨ended.more (by simp [State.planEnd, Task.tame]) (by simp [State.planEnd]), rfl, rfl⟩

/-- A group's claim is freed if it is the sequencer's (R154). -/
def State.freeIfPlanned (s : State) (g : Group) : State :=
  match s.claim g with
  | some c => if c.owner = .sequencer then s.setClaim g none else s
  | none => s

theorem State.freeIfPlanned_spec : (∃ table, s.freeIfPlanned g = { s with claims := table }) ∧
    ∀ h, (s.freeIfPlanned g).claim h =
      if h = g then (s.claim h).filter (fun c => decide (c.owner ≠ .sequencer)) else s.claim h := by
  unfold State.freeIfPlanned
  cases held : s.claim g with
  | none =>
    refine ⟨⟨s.claims, rfl⟩, fun h => ?_⟩
    by_cases same : h = g
    · subst same
      simp [held]
    · simp [same]
  | some c =>
    by_cases planned : c.owner = .sequencer
    · simp only [if_pos planned]
      refine ⟨⟨_, rfl⟩, fun h => ?_⟩
      rw [State.claim_setClaim]
      by_cases same : h = g
      · subst same
        simp [held, Option.filter, planned]
      · simp [same, Ne.symm same]
    · simp only [if_neg planned]
      refine ⟨⟨s.claims, rfl⟩, fun h => ?_⟩
      by_cases same : h = g
      · subst same
        simp [held, Option.filter, planned]
      · simp [same]

/-- As a plan ends, the sequencer's claims are freed and no others (R154). -/
theorem freePlanClaims_spec (s : State) : (∃ table, s.freePlanClaims = { s with claims := table }) ∧
    ∀ g, s.freePlanClaims.claim g = (s.claim g).filter fun c => decide (c.owner ≠ .sequencer) := by
  have each (l : List Group) (s : State) : (∃ table, forEach l (fun g t => t.freeIfPlanned g) s = { s with claims := table }) ∧
      ∀ g, (forEach l (fun g t => t.freeIfPlanned g) s).claim g =
        if g ∈ l then (s.claim g).filter (fun c => decide (c.owner ≠ .sequencer)) else s.claim g := by
    induction l generalizing s with
    | nil => exact ⟨⟨s.claims, rfl⟩, fun g => rfl⟩
    | cons h rest ih =>
      obtain ⟨⟨first, eq⟩, freed⟩ := s.freeIfPlanned_spec (g := h)
      obtain ⟨⟨table, frame⟩, all⟩ := ih (s.freeIfPlanned h)
      refine ⟨⟨table, frame.trans (by rw [eq])⟩, fun g => (all g).trans ?_⟩
      rw [freed g]
      by_cases same : g = h
      · subst same
        cases s.claim g with
        | none => simp
        | some c => by_cases planned : c.owner = .sequencer <;> simp [Option.filter, planned]
      · simp [same]
  obtain ⟨frame, freed⟩ := each allGroups s
  exact ⟨frame, fun g => (freed g).trans (if_pos (mem_allGroups g))⟩

/-- One piece of tame work leaves the work tame and the fault count as it was. -/
theorem State.runTask_tame {t : Task} (w : Tame (s, t :: l)) :
    Tame ((s.runTask t).1, (s.runTask t).2 ++ l) ∧ SameFaults s (s.runTask t).1 := by
  have own : t.tame := w.tasks t List.mem_cons_self
  have rest : Tame (s, l) := ⟨w.alarm, w.road, fun u mem => w.tasks u (List.mem_cons_of_mem _ mem),
    w.lists.imp_right fun ⟨empty, without⟩ => ⟨empty, fun mem => without (List.mem_cons_of_mem _ mem)⟩⟩
  have only (k : List Task) (work : s.runTask t = (s, k)) (tasks : ∀ t ∈ k, t.tame) (noScan : .scan ∉ k) :
      Tame ((s.runTask t).1, (s.runTask t).2 ++ l) ∧ SameFaults s (s.runTask t).1 := by
    rw [work]
    exact ⟨rest.more tasks noScan, rfl, rfl⟩
  cases t with
  | endMotion g e =>
    have fails (a : Action) : stepSuccess a e.outcome = false := by
      obtain stopped | interlock := own
      · rw [stopped]; rfl
      · rw [interlock]; rfl
    refine ⟨.motionEnd w.alarm w.road rest.tasks rest.lists fails, State.faults_motionEnd ?_⟩
    obtain stopped | interlock := own
    · simp [stopped]
    · simp [interlock]
  | handover v =>
    by_cases same : s.view = v
    · exact only [] (if_pos same) (by simp) (by simp)
    · refine only [.permits] ((if_neg same).trans ?_) (by simp [Task.tame]) (by simp)
      rw [State.evalAlarm_silent w.alarm w.road]
  | permits =>
    cases fallen : s.fallenPermit with
    | none => exact only [] (by simp [State.runTask, State.checkPermits, fallen]) (by simp) (by simp)
    | some y =>
      exact only [.endMotion y.1 { outcome := .interlock, cause := some y.2 }, .permits]
        (by simp [State.runTask, State.checkPermits, fallen]) (by simp [Task.tame]) (by simp)
  | scan =>
    obtain empty | ⟨-, without⟩ := w.lists
    · have empty : s.paused = [] := empty
      exact only [] (by simp [State.runTask, State.scan, empty, scanOrder, State.scanMoves]) (by simp) (by simp)
    · exact absurd List.mem_cons_self without
  | resume g order first => exact own.elim
  | planTakes g a e f =>
    have fails : stepSuccess a e.outcome = false := own
    by_cases ignored : s.planRunning = false ∨ e.outcome = .stopped ∨ e.outcome = .road
    · exact only [] (if_pos ignored) (by simp) (by simp)
    · obtain ⟨st, failure, work⟩ : ∃ st failure, s.runTask (.planTakes g a e f) = s.planEnd st failure :=
        ⟨_, _, (if_neg ignored).trans (if_neg (by simp [fails]))⟩
      rw [work]
      exact State.planEnd_tame rest
  | beginStep => exact own.elim
  | place rest => exact own.elim
  | endPlan =>
    have work : s.runTask .endPlan = s.planEndNext := rfl
    unfold State.planEndNext at work
    cases found : (s.paused ++ s.load).find? fun e => e.owner == .sequencer with
    | some e =>
      rw [found] at work
      exact only _ work (by simp [Task.tame]) (by simp)
    | none =>
      rw [found] at work
      obtain ⟨⟨table, eq⟩, -⟩ := freePlanClaims_spec s
      rw [work]
      dsimp only
      rw [eq]
      exact ⟨⟨w.alarm, w.road, rest.tasks, rest.lists⟩, rfl, rfl⟩

theorem drain_tame (w : Tame (s, l)) : SameFaults s (drain k (s, l)) := by
  induction k generalizing s l with
  | zero => exact ⟨rfl, rfl⟩
  | succ k ih =>
    cases l with
    | nil => exact ⟨rfl, rfl⟩
    | cons t rest =>
      obtain ⟨tame, count, pattern⟩ := State.runTask_tame w
      obtain ⟨more, further⟩ := ih tame
      rw [drain_cons]
      exact ⟨more.trans count, further.trans pattern⟩

/-- An ending FAULT adds 1 to the fault count, and where none plays a pattern starts (R130). -/
theorem State.faults_motionEnd_fault (found : s.entryOf g = some x) (fault : e.outcome = .fault) (silent : s.alarm = false) :
    (s.motionEnd g e).1.faultPattern = some (s.faultPattern.getD s.now) ∧
    (s.motionEnd g e).1.faultCount = min 4 (s.faultCount + 1) - if s.faultPattern = none then 1 else 0 := by
  obtain ⟨count, pattern⟩ := State.motionEnd_faults (e := e) found
  obtain ⟨counted, played⟩ := s.controllerEnd_faults (g := g) (a := x.action) (e := e)
  have outer := (State.controllerEnd_controls (s := s) (g := g) (a := x.action) (e := e)).outer
  have alarm : (s.controllerEnd g x.action e).alarm = s.alarm := by
    have h := congrArg State.alarm outer; exact h
  have now : (s.controllerEnd g x.action e).now = s.now := by
    have h := congrArg State.now outer; exact h
  rw [count, pattern]
  generalize s.controllerEnd g x.action e = c at counted played alarm now
  rw [← counted, ← played, ← now]
  rw [← alarm] at silent
  unfold State.endNotices State.countFault State.buzzKick State.raise
  cases playing : c.faultPattern <;> simp [silent, fault]

/-- A motion that ends FAULT while no motion can be taken up again counts as the only one (R130). -/
theorem drain_fault_count (found : s.entryOf g = some x) (fault : e.outcome = .fault) (silent : s.alarm = false)
    (road : s.road ≠ .road) (lists : s.load = [] ∨ s.paused = []) :
    (drain (k + 1) (s, [.endMotion g e])).faultPattern = some (s.faultPattern.getD s.now) ∧
    (drain (k + 1) (s, [.endMotion g e])).faultCount = min 4 (s.faultCount + 1) - if s.faultPattern = none then 1 else 0 := by
  obtain ⟨pattern, count⟩ := State.faults_motionEnd_fault found fault silent
  have tame : Tame ((s.motionEnd g e).1, (s.motionEnd g e).2 ++ []) :=
    .motionEnd silent road (by simp) (lists.symm.imp_right fun empty => ⟨empty, by simp⟩) fun a => by rw [fault]; rfl
  obtain ⟨more, further⟩ := drain_tame (k := k) tame
  rw [drain_cons]
  exact ⟨further.trans pattern, more.trans count⟩

end

end Sys2Proof.Machine
end

section
/-! PROOFS. Trims and seats, the ending of a plan's only motion, and the deadlines of rooms and the awning (R45 to R47, R97,
R98, R153, R154). -/

namespace Sys2Proof.Machine

section
variable {s t w : State} {g : Group} {e : Ending} {x : Entry} {id : Slider} {m : Motor} {n : Chan} {k : Nat}

/-! ### Trims -/

/-- From one state to the other trims of channels have been set, and nothing else. -/
structure Retrimmed (s w : State) : Prop where
  frame : w = { s with channels := w.channels }
  chan : ∀ n, w.chan n = { s.chan n with trimmed := (w.chan n).trimmed }

theorem Retrimmed.refl (s : State) : Retrimmed s s := ⟨rfl, fun _ => rfl⟩

theorem Retrimmed.trans (a : Retrimmed s w) (b : Retrimmed w t) : Retrimmed s t := by
  refine ⟨?_, fun n => ?_⟩
  · rw [b.frame, a.frame]
  · rw [b.chan n, a.chan n]

theorem State.trimMotor_retrimmed (trim : Option Nat) : Retrimmed s (s.trimMotor id m trim) := by
  unfold State.trimMotor
  split
  · rename_i i _
    refine ⟨rfl, fun n => ?_⟩
    unfold State.setTrim
    rw [State.chan_setChan]
    split
    · rename_i same
      subst same
      rfl
    · rfl
  · exact .refl s

theorem State.retrim_retrimmed : Retrimmed s (s.retrim id) := by
  unfold State.retrim
  split
  · split
    · exact State.trimMotor_retrimmed _ |>.trans (State.trimMotor_retrimmed _)
    · exact State.trimMotor_retrimmed _ |>.trans (State.trimMotor_retrimmed _)
    · exact State.trimMotor_retrimmed _ |>.trans (State.trimMotor_retrimmed _)
  · exact .refl s

theorem Retrimmed.driven (a : Retrimmed s w) (n : Chan) : (w.chan n).driven = (s.chan n).driven := by
  rw [a.chan]
  rfl

/-! ### Seats -/

/-- The seat of a motor ends: the motor is stopped and FINISHED, and trims may follow (R46, R98). -/
theorem State.seatDone_spec (s : State) (id : Slider) (m : Motor) :
    (∃ channels, (s.seatDone id m).1 = ({ s with channels := channels } : State).setMotor id m
      { s.motor id m with phase := .finished, seatDeadline := none }) ∧
    (s.seatDone id m).2 = (if (s.seatDone id m).1.allFinished id then
      [.endMotion id.group { outcome := .homeReached }] else []) ∧
    (s.seatDone id m).1.motorDriven id m = false := by
  have stopped : s.stopMotor id m = { s with channels := (s.stopMotor id m).channels } := by
    unfold State.stopMotor
    split
    · exact State.stopChan_frame
    · rfl
  have motor : (s.stopMotor id m).motor id m = s.motor id m := by
    rw [stopped]
    cases id <;> rfl
  have finished : Retrimmed ((s.stopMotor id m).setMotor id m { (s.stopMotor id m).motor id m with
      phase := .finished, seatDeadline := none }) (s.seatDone id m).1 := State.retrim_retrimmed
  rw [motor] at finished
  refine ⟨⟨(s.seatDone id m).1.channels, ?_⟩, rfl, ?_⟩
  · have frame := finished.frame
    generalize (s.seatDone id m).1 = w at frame
    rw [frame, stopped]
    cases id <;> rfl
  · refine State.motorDriven_of_stopped (s := s) ?_ fun n chan => ?_
    · rw [finished.frame, stopped]
      cases id <;> rfl
    · rw [finished.driven, State.chan_setMotor, State.stopMotor, chan]
      dsimp only
      rw [State.stopChan_eq, State.chan_setChan, if_pos rfl]
      exact Channel.driven_stopped ..

theorem State.view_seatDone : (s.seatDone id m).1.view = s.view := by
  obtain ⟨⟨channels, eq⟩, -, -⟩ := s.seatDone_spec id m
  rw [eq, State.view_setMotor]
  rfl

theorem State.motor_seatDone (s : State) (id : Slider) (m : Motor) (y : Motor) : (s.seatDone id m).1.motor id y =
    if y = m then { s.motor id m with phase := .finished, seatDeadline := none } else s.motor id y := by
  obtain ⟨⟨channels, eq⟩, -, -⟩ := s.seatDone_spec id m
  rw [eq, State.motor_setMotor]
  by_cases same : y = m
  · subst same
    simp
  · simp only [same, Ne.symm same, and_false, if_false]
    cases id <;> rfl

theorem State.motors_seatDone : (s.seatDone id m).1.motors id = s.motors id := by
  obtain ⟨⟨channels, eq⟩, -, -⟩ := s.seatDone_spec id m
  rw [eq, State.motors_setMotor]
  cases id <;> rfl

theorem State.allFinished_seatDone : (s.seatDone id m).1.allFinished id = true ↔
    ∀ x ∈ s.motors id, x ≠ m → (s.motor id x).phase = .finished := by
  unfold State.allFinished
  rw [State.motors_seatDone, List.all_eq_true]
  refine forall₂_congr fun x _ => ?_
  rw [State.motor_seatDone]
  by_cases same : x = m
  · simp [same]
  · simp [same]

/-! ### The ending of a plan's only motion -/

theorem State.motionEnd_work (found : s.entryOf g = some x) : (s.motionEnd g e).2 = .handover s.view ::
    ((if s.running g then [.scan] else []) ++ (if x.owner = .sequencer then
      [.planTakes g x.action e ((s.controllerEnd g x.action e).storedFault g e)] else [])) := by
  unfold State.motionEnd
  simp only [found]

theorem drain_scan_idle {rest : List Task} (paused : s.paused = []) :
    drain (k + 1) (s, .scan :: rest) = drain k (s, rest) := by
  rw [drain_cons]
  simp [State.runTask, State.scan, paused, scanOrder, State.scanMoves]

/-- Where a motion was the only one, its ending leaves the sequencer's part to do, and nothing that could move again. -/
theorem drain_sole_end (sole : s.load ++ s.paused = [x]) (group : x.group = g) (owner : x.owner = .sequencer) :
    ∃ w i, k ≤ i ∧ (s.motionEnd g e).1.butAlarm w ∧ Does (fun _ => True) (s.motionEnd g e).1 w ∧ w.load = [] ∧ w.paused = [] ∧
      drain (k + 4) (s, [.endMotion g e]) =
        drain i (w, [.planTakes g x.action e ((s.controllerEnd g x.action e).storedFault g e)]) := by
  have found : s.entryOf g = some x := by
    unfold State.entryOf
    rw [sole]
    simp [group]
  obtain ⟨load, paused⟩ := s.lists_motionEnd (g := g) (e := e)
  have none (l : List Entry) (inside : ∀ y ∈ l, y = x) : l.filter (fun y => y.group != g) = [] :=
    List.filter_eq_nil_iff.mpr fun y mem => by simp [inside y mem, group]
  have all (y : Entry) (mem : y ∈ s.load ++ s.paused) : y = x := by simpa [sole] using mem
  have empty : (s.motionEnd g e).1.load = [] := by rw [load, none _ fun y mem => all y (List.mem_append_left _ mem)]
  have empty' : (s.motionEnd g e).1.paused = [] := by rw [paused, none _ fun y mem => all y (List.mem_append_right _ mem)]
  obtain ⟨w, i, same, does, more, -, run⟩ := drain_handover_calm (F := fun _ => True) (k := k + 1) (v := s.view)
    (rest := (if s.running g then [.scan] else []) ++
      [.planTakes g x.action e ((s.controllerEnd g x.action e).storedFault g e)])
    (State.fallenPermit_none empty empty')
  have rest : w.load = [] ∧ w.paused = [] := by rw [same.1]; exact ⟨empty, empty'⟩
  obtain ⟨i, rfl⟩ : ∃ j, i = j + 1 := ⟨i - 1, by omega⟩
  have start : drain (k + 4) (s, [.endMotion g e]) = drain (k + 1 + 2) ((s.motionEnd g e).1, .handover s.view ::
      ((if s.running g then [.scan] else []) ++
        [.planTakes g x.action e ((s.controllerEnd g x.action e).storedFault g e)])) := by
    rw [drain_cons]
    change drain (k + 3) ((s.motionEnd g e).1, (s.motionEnd g e).2 ++ []) = _
    rw [List.append_nil, State.motionEnd_work found, if_pos owner]
  rw [start, run]
  by_cases runs : s.running g = true
  · rw [if_pos runs]
    exact ⟨w, i, by omega, same, does, rest.1, rest.2, drain_scan_idle rest.2⟩
  · rw [if_neg runs]
    exact ⟨w, i + 1, by omega, same, does, rest.1, rest.2, rfl⟩

/-- A plan that ends with nothing in motion frees its claims, and that is all (R154). -/
theorem drain_planEnd_idle {st : PlanStatus} {f : Option PlanFailure} (load : s.load = []) (paused : s.paused = []) :
    drain (k + 1) (s.planEnd st f) = (s.planEnd st f).1.freePlanClaims := by
  have next : (s.planEnd st f).1.planEndNext = ((s.planEnd st f).1.freePlanClaims, []) := by
    unfold State.planEndNext
    have none : ((s.planEnd st f).1.paused ++ (s.planEnd st f).1.load).find? (fun e => e.owner == .sequencer) = none := by
      change (s.paused ++ s.load).find? _ = none
      rw [load, paused]
      rfl
    rw [none]
  change drain (k + 1) ((s.planEnd st f).1, [.endPlan]) = _
  rw [drain_cons]
  change drain k ((s.planEnd st f).1.planEndNext.1, (s.planEnd st f).1.planEndNext.2 ++ []) = _
  rw [next, List.append_nil, drain_nil]

/-- What the end of a plan with nothing left in motion leaves. -/
structure PlanOver (st : PlanStatus) (f : Option PlanFailure) (s t : State) : Prop where
  noticed : t.noticed .plan = true
  plan : t.plan = { s.plan with status := st, failure := f }
  freed : ∀ g b, s.claim g = some b → b.owner = .sequencer → t.claim g = none

theorem drain_planEnd_over {st : PlanStatus} {f : Option PlanFailure} (load : s.load = []) (paused : s.paused = []) :
    PlanOver st f s (drain (k + 1) (s.planEnd st f)) := by
  rw [drain_planEnd_idle load paused]
  obtain ⟨⟨table, frame⟩, freed⟩ := freePlanClaims_spec (s.planEnd st f).1
  have claims (g : Group) : (s.planEnd st f).1.claim g = s.claim g := rfl
  have pending : (s.planEnd st f).1.noticed .plan = true := State.noticed_raise _ _
  have plan : (s.planEnd st f).1.plan = { s.plan with status := st, failure := f } := rfl
  generalize (s.planEnd st f).1 = w at *
  refine ⟨?_, ?_, fun g b held planned => ?_⟩
  · rw [← pending]
    exact State.noticed_of_ports (by rw [frame])
  · rw [frame]
    exact plan
  · rw [freed, claims, held]
    simp [Option.filter, planned]

/-! ### The place of a plan -/

theorem Controls.plan (c : Controls g s t) : t.plan = s.plan := by
  have e := congrArg State.plan c.outer
  exact e

theorem State.plan_evalAlarm : s.evalAlarm.plan = s.plan := by rw [s.butAlarm_evalAlarm.1]

theorem State.plan_scan : s.scan.1.plan = s.plan := by
  have offers (l : List Entry) (s : State) : (l.foldl offerUnits s).plan = s.plan := by
    induction l generalizing s with
    | nil => rfl
    | cons e rest ih =>
      refine (ih (offerUnits s e)).trans ?_
      unfold offerUnits
      split <;> rfl
  exact offers _ s

theorem State.plan_resumeEntry {order : Nat} {first : Bool} : (s.resumeEntry g order first).1.plan = s.plan := by
  unfold State.resumeEntry State.handing
  dsimp only
  split
  · split
    · exact State.slideResume_controls.plan
    · exact State.jackResume_controls.plan
  · rfl

theorem State.plan_placeEntry {o : Owner} {m : Mode} {a : Action} : (s.placeEntry g o m a).1.plan = s.plan := by
  unfold State.placeEntry
  dsimp only
  split <;> rfl

theorem State.plan_admitMotion {o : Owner} {m : Mode} {a : Action} : (s.admitMotion g o m a).1.plan = s.plan :=
  (State.controllerAdmit_controls (s := (s.placeEntry g o m a).1) (g := g) (a := a)).plan.trans State.plan_placeEntry

theorem State.plan_aimClaim {a : Action} : (s.aimClaim g a).plan = s.plan := by
  unfold State.aimClaim
  split
  · split <;> rfl
  · rfl

theorem State.stepAdvance_climbs : s.plan.stepIndex ≤ s.stepAdvance.1.plan.stepIndex := by
  unfold State.stepAdvance
  split
  · split
    · exact Nat.le_succ _
    · exact Nat.le_refl _
  · exact Nat.le_refl _

/-- No piece of work takes a plan back to an earlier step. -/
theorem State.runTask_climbs {u : Task} : s.plan.stepIndex ≤ (s.runTask u).1.plan.stepIndex := by
  cases u with
  | endMotion g e =>
    change _ ≤ (s.motionEnd g e).1.plan.stepIndex
    rw [State.motionEnd_rests.plan]
  | handover v =>
    change _ ≤ (s.handOver v).1.plan.stepIndex
    unfold State.handOver
    split
    · exact Nat.le_refl _
    · dsimp only
      rw [State.plan_evalAlarm]
  | permits =>
    change _ ≤ s.checkPermits.1.plan.stepIndex
    rw [State.checkPermits_fst]
  | scan =>
    change _ ≤ s.scan.1.plan.stepIndex
    rw [State.plan_scan]
  | resume g order first =>
    change _ ≤ (s.resumeEntry g order first).1.plan.stepIndex
    rw [State.plan_resumeEntry]
  | planTakes g a e f =>
    change _ ≤ (s.planTakes g a e f).1.plan.stepIndex
    unfold State.planTakes
    split
    · exact Nat.le_refl _
    · split
      · dsimp only
        refine Nat.le_trans ?_ State.stepAdvance_climbs
        exact Nat.le_refl _
      · exact Nat.le_refl _
  | beginStep =>
    change _ ≤ (s.stepBegin).1.plan.stepIndex
    unfold State.stepBegin
    split
    · dsimp only
      split
      · exact Nat.le_refl _
      · exact Nat.le_refl _
    · exact Nat.le_refl _
  | place l =>
    cases l with
    | nil => exact State.stepAdvance_climbs
    | cons y rest =>
      change _ ≤ (s.placeNext (y :: rest)).1.plan.stepIndex
      unfold State.placeNext
      dsimp only
      split
      · split
        · exact Nat.le_refl _
        · dsimp only
          rw [State.plan_admitMotion]
          change _ ≤ (s.aimClaim y.1 y.2).plan.stepIndex
          rw [State.plan_aimClaim]
      · exact Nat.le_refl _
  | endPlan =>
    change _ ≤ (s.planEndNext).1.plan.stepIndex
    unfold State.planEndNext
    split
    · exact Nat.le_refl _
    · obtain ⟨⟨table, frame⟩, -⟩ := freePlanClaims_spec s
      dsimp only
      rw [frame]

theorem drain_climbs {l : List Task} : s.plan.stepIndex ≤ (drain k (s, l)).plan.stepIndex := by
  induction k generalizing s l with
  | zero => exact Nat.le_refl _
  | succ k ih =>
    cases l with
    | nil => exact Nat.le_refl _
    | cons u rest =>
      rw [drain_cons]
      exact Nat.le_trans State.runTask_climbs ih

/-- The success of the last motion of a step that was still to succeed completes the step: the plan passes on to the next,
or ends DONE (R153). -/
theorem drain_planTakes_success {a : Action} {f : Option FaultCode} (runs : s.planRunning = true)
    (success : stepSuccess a e.outcome = true) (load : s.load = []) (paused : s.paused = [])
    (placed : s.plan.slots.length = s.presentStep.length) (others : ∀ y ∈ s.plan.slots, y.group = g ∨ y.outcome.isSome) :
    (drain (k + 3) (s, [.planTakes g a e f])).noticed .plan = true ∧
    (s.plan.stepIndex < s.plan.stepCount → s.plan.stepIndex + 1 ≤ (drain (k + 3) (s, [.planTakes g a e f])).plan.stepIndex) ∧
    (s.plan.stepCount ≤ s.plan.stepIndex → (drain (k + 3) (s, [.planTakes g a e f])).plan.status = .done ∧
      (drain (k + 3) (s, [.planTakes g a e f])).plan.failure = none ∧
      (drain (k + 3) (s, [.planTakes g a e f])).plan.stepIndex = s.plan.stepIndex ∧
      ∀ h b, s.claim h = some b → b.owner = .sequencer → (drain (k + 3) (s, [.planTakes g a e f])).claim h = none) := by
  obtain ⟨p, taken, next, running, index, count, complete⟩ : ∃ p : Plan,
      s.runTask (.planTakes g a e f) = ({ s with plan := p } : State).stepAdvance ∧
      p.name = s.plan.name ∧ p.status = s.plan.status ∧ p.stepIndex = s.plan.stepIndex ∧ p.stepCount = s.plan.stepCount ∧
      p.slots = s.plan.slots.map fun y => if y.group = g then { y with outcome := some e.outcome } else y := by
    have moves : ¬(s.planRunning = false ∨ e.outcome = .stopped ∨ e.outcome = .road) := by
      rintro (silent | stopped | road)
      · rw [runs] at silent
        exact absurd silent (by simp)
      · rw [stopped] at success
        exact absurd success (by simp [stepSuccess])
      · rw [road] at success
        exact absurd success (by simp [stepSuccess])
    exact ⟨_, (if_neg moves).trans (if_pos success), rfl, rfl, rfl, rfl, rfl⟩
  have step : ({ s with plan := p } : State).presentStep = s.presentStep := by
    simp only [State.presentStep, next, index]
  have done : ({ s with plan := p } : State).planRunning && ({ s with plan := p } : State).stepComplete := by
    have status : ({ s with plan := p } : State).planRunning = true := by
      rw [← runs]
      simp only [State.planRunning, running]
    have all : ({ s with plan := p } : State).stepComplete = true := by
      unfold State.stepComplete
      rw [step, complete]
      simp only [List.length_map, placed, decide_true, Bool.true_and, List.all_map, List.all_eq_true, Function.comp]
      intro y mem
      obtain own | had := others y mem
      · simp [own]
      · split
        · rfl
        · exact had
    rw [status, all]
    rfl
  have advance : ({ s with plan := p } : State).stepAdvance =
      if p.stepIndex < p.stepCount then
        ({ s with plan := { p with stepIndex := p.stepIndex + 1 } }, [.beginStep])
      else ({ s with plan := p } : State).planEnd .done none := if_pos done
  rw [drain_cons, taken, advance, List.append_nil, ← index, ← count]
  by_cases more : p.stepIndex < p.stepCount
  · rw [if_pos more]
    refine ⟨?_, fun _ => drain_climbs (s := { s with plan := { p with stepIndex := p.stepIndex + 1 } }),
      fun last => absurd more (Nat.not_lt.mpr last)⟩
    rw [drain_cons]
    have begun : ({ s with plan := { p with stepIndex := p.stepIndex + 1 } } : State).planRunning = true := by
      rw [← runs]
      simp only [State.planRunning, running]
    generalize ({ s with plan := { p with stepIndex := p.stepIndex + 1 } } : State) = u at begun
    refine (drain_does (F := fun _ => True) ?_).follows.noticed ?_
    · exact State.stepBegin_plain.append .nil
    · change u.stepBegin.1.noticed .plan = true
      unfold State.stepBegin
      rw [if_pos begun]
      dsimp only
      split
      · exact State.noticed_raise _ _
      · exact State.noticed_raise _ _
  · rw [if_neg more]
    have ended := drain_planEnd_over (k := k + 1) (s := { s with plan := p }) (st := .done) (f := none) load paused
    exact ⟨ended.noticed, fun less => absurd less more, fun _ => ⟨by rw [ended.plan], by rw [ended.plan],
      by rw [ended.plan], ended.freed⟩⟩

/-! ### The deadlines of rooms and the awning -/

theorem exec_seatCommand (awake : s.inReset = none) (only : id = .awning → m = .a) :
    exec (seatCommand id m) s = .next (s.seatReached id m) := by
  cases id with
  | room k => exact congrArg _ (exec_awake (f := fun t => t.seatReached (.room k) m) awake)
  | awning =>
    rw [only rfl]
    exact congrArg _ (exec_awake (f := fun t => t.seatReached .awning .a) awake)

theorem exec_runTimeoutCommand (awake : s.inReset = none) : exec (runTimeoutCommand id) s = .next (s.slideTimeout id) := by
  cases id with
  | room k => exact congrArg _ (exec_awake (f := fun t => t.slideTimeout (.room k)) awake)
  | awning => exact congrArg _ (exec_awake (f := fun t => t.slideTimeout .awning) awake)

theorem sliderOf_group (id : Slider) : sliderOf id.group = some id := by cases id <;> rfl

theorem State.storedFault_slide (a : Action) :
    (s.controllerEnd id.group a e).storedFault id.group e =
      if (s.slider id).fault.isSome then (s.slider id).fault else e.fault := by
  unfold State.storedFault State.controllerEnd
  rw [sliderOf_group]
  dsimp only
  rw [State.slider_slideEnd]
  rfl

/-- A presentation of the plan and its step that the alarm and an ending leave. -/
theorem State.presentStep_congr (plan : t.plan = s.plan) (layout : t.layout = s.layout) : t.presentStep = s.presentStep := by
  unfold State.presentStep
  rw [plan, layout]

end

end Sys2Proof.Machine
end

section
/-! PROOFS. The seat deadlines and run timeouts of rooms and the awning (R45, R46, R97, R98). -/

namespace Sys2Proof.Machine

section
variable {s t u w : State} {g : Group} {e : Ending} {x : Entry} {id : Slider} {m : Motor} {k : Nat}

/-- An ending of the sequencer's motion that is no success ends the plan (R154). -/
theorem drain_planTakes_failure {a : Action} {f : Option FaultCode} (runs : s.planRunning = true)
    (fault : e.outcome = .fault) (load : s.load = []) (paused : s.paused = []) :
    PlanOver .failed (some { step := s.plan.stepIndex, group := g, reason := none, cause := e.cause
                             outcome := some .fault, fault := f }) s
      (drain (k + 2) (s, [.planTakes g a e f])) := by
  have taken : s.runTask (.planTakes g a e f) = s.planEnd .failed (some
      { step := s.plan.stepIndex, group := g, reason := none, cause := e.cause, outcome := some .fault, fault := f }) := by
    change s.planTakes g a e f = _
    unfold State.planTakes
    simp [runs, fault, stepSuccess]
  rw [drain_cons, taken, List.append_nil]
  exact drain_planEnd_over load paused

/-- The sequencer's claims that stood before an event are free after it, where what was left of them has been freed. -/
theorem Follows.freed {F : Group → Prop} {b : Claim} (before : Follows F s w) (after : Follows F w t)
    (freed : ∀ g b, w.claim g = some b → b.owner = .sequencer → t.claim g = none) (held : s.claim g = some b)
    (planned : b.owner = .sequencer) : t.claim g = none := by
  cases kept : w.claim g with
  | none => exact after.free g kept
  | some c =>
    obtain ⟨d, stood, owner, -⟩ := before.claimed g c kept
    rw [held] at stood
    obtain rfl := Option.some.inj stood
    exact freed g c kept (owner.trans planned)

/-- What follows an ending that has the sequencer's part left to do. -/
structure SoleEnd (s w : State) : Prop where
  plan : w.plan = s.plan
  layout : w.layout = s.layout
  load : w.load = []
  paused : w.paused = []
  follows : Follows (fun _ => True) s w

theorem drain_sole_end' (sole : s.load ++ s.paused = [x]) (group : x.group = g) (owner : x.owner = .sequencer) :
    ∃ w i, SoleEnd s w ∧ drain (k + 7) (s, [.endMotion g e]) =
      drain (i + 3) (w, [.planTakes g x.action e ((s.controllerEnd g x.action e).storedFault g e)]) := by
  obtain ⟨w, i, more, same, does, load, paused, run⟩ := drain_sole_end (e := e) (k := k + 3) sole group owner
  have first : Does (fun _ => True) s (s.motionEnd g e).1 := State.motionEnd_does fun _ => trivial
  obtain ⟨i, rfl⟩ := Nat.exists_eq_add_of_le' (Nat.le_trans (Nat.le_add_left 3 k) more)
  refine ⟨w, i, { plan := ?_, layout := ?_, load := load, paused := paused, follows := first.follows.trans does.follows }, run⟩
  · rw [same.1]
    exact State.motionEnd_rests.plan
  · exact does.follows.layout.trans first.follows.layout

theorem Plain.planTakes {a : Action} {f : Option FaultCode} : Plain [.planTakes g a e f] :=
  Plain.cons (t := .planTakes g a e f) trivial .nil

/-- What a reached seat deadline comes to at its moment. -/
theorem State.seatReached_due {due : Time} (phase : (s.motor id m).phase = .seat)
    (deadline : (s.motor id m).seatDeadline = some due) : s.seatReached id m =
      if s.comes due then (s.advanceTo due).event fun t => t.seatDone id m else s := by
  unfold State.seatReached State.seatDue
  rw [if_pos phase, deadline]

theorem Ended.from_seat {o : MotionOutcome} (a : Ended g o (s.seatDone id m).1 t) : Ended g o s t :=
  a.from_controls State.seatDone_controls

end

section
variable {s : State} {id : Slider} {m : Motor} {x : Entry}

/-- The last seat of a motion that ends: the motion ends HOME_REACHED (R46, R98). -/
theorem State.event_seatDone_ends (all : ∀ x ∈ s.motors id, x ≠ m → (s.motor id x).phase = .finished)
    (found : s.entryOf id.group = some x) : Ends id.group { outcome := .homeReached } (s.seatDone id m).1
      (s.event fun t => t.seatDone id m) := by
  have work : (s.seatDone id m).2 = [.endMotion id.group { outcome := .homeReached }] := by
    rw [(s.seatDone_spec id m).2.1, if_pos (State.allFinished_seatDone.mpr all)]
  exact State.event_ends (f := fun t => t.seatDone id m) work State.view_seatDone
    (State.seatDone_controls.entryOf.trans found) .nil

theorem State.slider_seatDone_fault : ((s.seatDone id m).1.slider id).fault = (s.slider id).fault := by
  obtain ⟨⟨channels, eq⟩, -, -⟩ := s.seatDone_spec id m
  rw [eq, State.slider_setMotor, if_pos rfl, SliderRec.fault_setMotor]
  cases id <;> rfl

/-- A seat that is not the last of its motion (R46). -/
theorem State.event_seatDone_quiet (some_left : ∃ x ∈ s.motors id, x ≠ m ∧ (s.motor id x).phase ≠ .finished) :
    (s.event fun t => t.seatDone id m) = (s.seatDone id m).1 := by
  refine State.event_quiet (f := fun t => t.seatDone id m) ?_ State.view_seatDone
  have unfinished : ¬(s.seatDone id m).1.allFinished id = true := fun all => by
    obtain ⟨x, mem, other, left⟩ := some_left
    exact left (State.allFinished_seatDone.mp all x mem other)
  exact (s.seatDone_spec id m).2.1.trans (if_neg unfinished)

end

/-- Settles O45: a seat deadline finishes its motor and with the last one the motion, a run timeout ends it FAULT; of a
plan's only motion the sequencer takes the ending in that event. -/
theorem slideDeadlinesEndTheMotion : Obligations.SlideDeadlinesEndTheMotion := by
  unfold Obligations.SlideDeadlinesEndTheMotion
  intro s id m awake only
  rw [exec_seatCommand awake only, exec_runTimeoutCommand awake]
  refine ⟨fun due u phase deadline moment => ?_, fun never => ?_, fun due => ?_, fun never => ?_⟩
  · rw [State.seatReached_due phase deadline, ← moment]
    have later : Later s u := moment ▸ Later.advanceTo s due
    refine ⟨fun late => by rw [late]; rfl, fun now all moving => ?_, fun now left => ?_⟩
    · rw [now, if_pos rfl]
      obtain ⟨x, found⟩ := State.not_still_iff.mp moving
      have there : u.entryOf id.group = some x := (later.entryOf _).trans found
      have finished : ∀ y ∈ u.motors id, y ≠ m → (u.motor id y).phase = .finished := by
        simpa only [later.motors, later.motor] using all
      have ends := State.event_seatDone_ends (m := m) finished there
      have part : Controls id.group u (u.seatDone id m).1 := State.seatDone_controls
      have plan : (u.seatDone id m).1.plan = s.plan := part.plan.trans later.plan
      have inside : (u.seatDone id m).1.entryOf id.group = some x := part.entryOf.trans there
      have load : (u.seatDone id m).1.load = s.load := by
        have e := congrArg State.load part.outer
        exact Eq.trans e later.load
      have paused : (u.seatDone id m).1.paused = s.paused := by
        have e := congrArg State.paused part.outer
        exact Eq.trans e later.paused
      refine ⟨_, rfl, ends.ended.from_seat, fun silent => ?_, fun e runs loaded held group owner placed others => ?_⟩
      · rw [ends.slider inside (by simpa only [State.planRunning, plan] using silent)]
        refine ⟨rfl, ?_⟩
        unfold SliderRec.ended
        dsimp only
        rw [State.slider_seatDone_fault, later.slider]
        cases (s.slider id).fault <;> rfl
      · have whole : (u.event fun t => t.seatDone id m) = drain (9992 + 7)
            ((u.seatDone id m).1, [.endMotion id.group { outcome := .homeReached }]) := by
          unfold State.event State.handing
          dsimp only
          rw [(u.seatDone_spec id m).2.1, if_pos (State.allFinished_seatDone.mpr finished)]
          exact drain_handover_same State.view_seatDone
        obtain ⟨w, i, sole, run⟩ := drain_sole_end' (k := 9992) (e := { outcome := .homeReached })
          (s := (u.seatDone id m).1) (x := e) (by rw [load, paused, loaded, held]; rfl) group owner
        have same : w.plan = s.plan := sole.plan.trans plan
        have layout : w.layout = s.layout := sole.layout.trans (part.layout.trans later.layout)
        obtain ⟨noticed, next, last⟩ := drain_planTakes_success (s := w) (g := id.group) (k := i)
          (e := { outcome := .homeReached }) (a := e.action)
          (f := ((u.seatDone id m).1.controllerEnd id.group e.action { outcome := .homeReached }).storedFault id.group
            { outcome := .homeReached })
          (by simpa only [State.planRunning, same] using runs) rfl sole.load sole.paused
          (by rw [State.presentStep_congr same layout, same]; exact placed) (by rw [same]; exact others)
        rw [whole, run]
        rw [same] at next last
        refine ⟨noticed, next, fun done => ?_⟩
        obtain ⟨status, failure, index, freed⟩ := last done
        refine ⟨status, failure, index, fun g b claimed planned => ?_⟩
        have before : Follows (fun _ => True) u w := part.follows.trans sole.follows
        refine before.freed (drain_does Plain.planTakes).follows freed ?_ planned
        rw [later.claim]
        exact claimed
    · rw [now, if_pos rfl, State.event_seatDone_quiet (by simpa only [later.motors, later.motor] using left)]
      have part : Controls id.group u (u.seatDone id m).1 := State.seatDone_controls
      have motor := u.motor_seatDone id m m
      rw [if_pos rfl, later.motor] at motor
      have e := part.outer
      refine ⟨_, rfl, by rw [motor], by rw [motor], by rw [motor], (u.seatDone_spec id m).2.2, ?_, ?_, ?_, ?_⟩
      · have h := congrArg State.load e
        exact Eq.trans h later.load
      · have h := congrArg State.paused e
        exact Eq.trans h later.paused
      · have h := congrArg State.claims e
        exact Eq.trans h later.claims
      · have h := congrArg State.fixedPart e
        exact h
  · unfold State.seatReached State.seatDue
    obtain other | absent := never
    · rw [if_neg other]
    · rw [absent]
      split_ifs <;> rfl
  · have later := Later.advanceRun s (s.slider id).runTime (s.sliderTimeout id)
    obtain ⟨x, found⟩ : ∃ x, s.entryOf id.group = some x := by
      obtain ⟨runs, -⟩ | ⟨moving, -⟩ := due
      · refine State.not_still_iff.mp fun still => ?_
        obtain ⟨y, mem, group⟩ := List.any_eq_true.mp runs
        exact still y.motion (mem_motions.mpr ⟨y, List.mem_append_left _ mem, rfl⟩) (by simpa [Entry.motion] using group)
      · exact State.not_still_iff.mp moving
    have out : s.timesOut id.group (s.slider id).runTime (s.sliderTimeout id) = true := s.timesOut_iff.mpr
      (due.elim .inr fun ⟨_, reached⟩ => .inl ⟨by rw [found]; rfl, reached⟩)
    unfold State.slideTimeout
    rw [if_pos out]
    generalize at_ : s.advanceRun (s.slider id).runTime (s.sliderTimeout id) = u at later
    have there : u.entryOf id.group = some x := (later.entryOf _).trans found
    have fault : (u.slider id).fault = (s.slider id).fault := by rw [later.slider]
    have ends : Ends id.group { outcome := .fault, fault := some .runTimeout } u
        (drain workBound (u, slideFault id .runTimeout)) := drain_ends (k := 9999) there .nil
    refine ⟨_, u, rfl, rfl, ends.ended, ?_, fun e runs lone owner => ?_⟩
    · rw [ends.slider_fault there rfl, fault]
    · have sole : u.load ++ u.paused = [e] := by rw [later.load, later.paused, lone]
      have group : e.group = id.group := by
        have hit := found
        unfold State.entryOf at hit
        rw [lone] at hit
        have which := List.find?_some hit
        have same : e = x := (List.mem_singleton.mp (List.mem_of_find?_eq_some hit)).symm
        rw [same]
        simpa using which
      obtain ⟨w, i, after, run⟩ := drain_sole_end' (k := 9993)
        (e := { outcome := .fault, fault := some .runTimeout }) sole group owner
      have same : w.plan = s.plan := after.plan.trans later.plan
      have whole : drain workBound (u, slideFault id .runTimeout) =
          drain (9993 + 7) (u, [.endMotion id.group { outcome := .fault, fault := some .runTimeout }]) := rfl
      have over_ := drain_planTakes_failure (s := w) (k := i + 1) (g := id.group) (a := e.action)
        (e := { outcome := .fault, fault := some .runTimeout })
        (f := (u.controllerEnd id.group e.action { outcome := .fault, fault := some .runTimeout }).storedFault id.group
            { outcome := .fault, fault := some .runTimeout })
        (by simpa only [State.planRunning, same] using runs) rfl after.load after.paused
      rw [State.storedFault_slide, fault] at over_
      rw [whole, run, State.storedFault_slide, fault]
      refine ⟨over_.noticed, ?_, fun g b claimed planned => ?_⟩
      · rw [over_.plan, same]
        cases (s.slider id).fault <;> rfl
      · refine after.follows.freed (drain_does Plain.planTakes).follows over_.freed ?_ planned
        rw [later.claim]
        exact claimed
  · unfold State.slideTimeout
    rw [State.timesOut_none never]
    rfl

end Sys2Proof.Machine
end

section
/-! PROOFS. LAMP and BUZZ (R129, R130). -/

namespace Sys2Proof.Machine

section
variable {s t u w : State} {g : Group} {e : Ending} {x : Entry} {id : Slider} {n : Chan}

/-- An event that changes no view, ends a motion FAULT and can take up no other counts as one fault. -/
theorem State.event_fault_count {f : State → Work} (work : (f s).2 = [.endMotion g e]) (view : (f s).1.view = s.view)
    (part : Controls g s (f s).1) (found : s.entryOf g = some x) (fault : e.outcome = .fault) (silent : s.alarm = false)
    (road : s.road ≠ .road) (lists : s.load = [] ∨ s.paused = []) :
    (s.event f).faultPattern = some (s.faultPattern.getD s.now) ∧
    (s.event f).faultCount = min 4 (s.faultCount + 1) - if s.faultPattern = none then 1 else 0 := by
  have whole : s.event f = drain (9998 + 1) ((f s).1, [.endMotion g e]) := by
    unfold State.event State.handing
    dsimp only
    rw [work]
    exact drain_handover_same view
  have there : (f s).1.entryOf g = some x := part.entryOf.trans found
  have outer := part.outer
  rw [whole]
  generalize (f s).1 = v at there outer
  have alarm : v.alarm = s.alarm := by have h := congrArg State.alarm outer; exact h
  have park : v.road = s.road := by have h := congrArg State.road outer; exact h
  have load : v.load = s.load := by have h := congrArg State.load outer; exact h
  have paused : v.paused = s.paused := by have h := congrArg State.paused outer; exact h
  have pattern : v.faultPattern = s.faultPattern := by have h := congrArg State.faultPattern outer; exact h
  have now : v.now = s.now := by have h := congrArg State.now outer; exact h
  have count : v.faultCount = s.faultCount := by have h := congrArg State.faultCount outer; exact h
  have counted := drain_fault_count (k := 9998) there fault (alarm.trans silent) (by rwa [park])
    (by rwa [load, paused])
  rwa [pattern, now, count] at counted

theorem State.advanceRun_reached {run limit : Time} (reached : limit ≤ run) : s.advanceRun run limit = s :=
  if_neg (Nat.not_lt.mpr reached)

/-- Every fault pattern that plays has three pulses (R130). -/
theorem patternLevel_iff {past : Time} :
    patternLevel past = true ↔ past < ms 100 ∨ (ms 200 ≤ past ∧ past < ms 300) ∨ (ms 400 ≤ past ∧ past < ms 500) := by
  simp [patternLevel, or_assoc]

/-- A fault pattern that ends, at its moment. -/
theorem State.buzzKick_patternEnd : { s with faultPattern := none, motionPulse := false }.buzzKick =
    { s with
      motionPulse := false
      faultCount := if s.alarm = false then s.faultCount - 1 else s.faultCount
      faultPattern := if 0 < s.faultCount ∧ s.alarm = false then some s.now else none } := by
  unfold State.buzzKick
  cases silent : s.alarm
  · by_cases left : 0 < s.faultCount
    · simp [left]
    · simp [Nat.eq_zero_of_not_pos left]
  · simp

end

/-- Settles O51: the moments of BUZZ by the definitions of its commands, the fault count by the ending of a motion that no
other follows, and the motion periods by what every step keeps. -/
theorem buzzerFollowsItsPatterns : Obligations.BuzzerFollowsItsPatterns := by
  unfold Obligations.BuzzerFollowsItsPatterns
  intro s awake
  have pattern : exec .faultPatternEnd s = .next s.patternEnd :=
    congrArg _ (exec_awake (f := fun t => t.patternEnd) awake)
  have period : exec .motionPeriod s = .next s.periodBegins :=
    congrArg _ (exec_awake (f := fun t => t.periodBegins) awake)
  rw [pattern, period]
  refine ⟨?_, fun quiet => ?_, ?_, fun quiet => ?_, ?_, ?_, fun alarm => ?_, ?_, ?_, fun silent quiet rests => ?_, ?_⟩
  · rintro start due u plays rfl rfl
    have later := Later.advanceTo s (start + ms 1000)
    unfold State.patternEnd
    rw [plays]
    refine ⟨fun late => congrArg _ (if_neg (by rw [patternTime, late]; simp)), fun comes => ?_⟩
    refine congrArg _ ((if_pos comes).trans ?_)
    rw [← later.alarm, ← later.faultCount]
    exact State.buzzKick_patternEnd
  · unfold State.patternEnd
    rw [quiet]
  · rintro start due u runs rfl rfl
    unfold State.periodBegins
    rw [runs]
    exact ⟨fun late => congrArg _ (if_neg (by rw [periodTime, late]; simp)), fun comes => congrArg _ (if_pos comes)⟩
  · unfold State.periodBegins
    rw [quiet]
  · simp [State.lamp]
  · rintro c silent road lists (⟨n, g, rfl, motor, counts, thrice, own, moving⟩ | ⟨id, rfl, moving, reached⟩ |
      ⟨rfl, idle, moving, reached⟩)
    · obtain ⟨x, found⟩ := State.not_still_iff.mp moving
      have counting : Controls g s (s.setChan n { s.chan n with overRun := 3 }) :=
        .setChan own rfl fun driven => .inl driven
      obtain ⟨js, tasks, -⟩ := State.channelFaultTasks_eq (n := n) (s := s.setChan n { s.chan n with overRun := 3 })
        (counting.role n ▸ own) (counting.entryOf.trans found) .overcurrent
      have taken : exec (.overcurrent n) s = .next (s.overcurrent n) :=
        congrArg _ (exec_awake (f := fun t => t.overcurrent n) awake)
      refine ⟨_, taken, ?_⟩
      rw [State.overcurrent, if_pos (by simp [motor, counts, thrice])]
      refine State.event_fault_count (f := fun t => (t.setChan n { t.chan n with overRun := 3 }).channelFault n .overcurrent)
        tasks ?_ (counting.trans (State.stopChan_controls (counting.role n ▸ own))) found rfl silent road lists
      simp only [State.channelFault]
      rw [State.stopChan_frame]
      rfl
    · obtain ⟨x, found⟩ := State.not_still_iff.mp moving
      refine ⟨_, exec_runTimeoutCommand awake, ?_⟩
      rw [State.slideTimeout, if_pos (s.timesOut_iff.mpr (.inl ⟨by rw [found]; rfl, reached⟩)),
        State.advanceRun_reached reached]
      exact drain_fault_count (k := 9999) found rfl silent road lists
    · obtain ⟨x, found⟩ := State.not_still_iff.mp moving
      have taken : exec .jackRunTimeout s = .next s.jackRunOut :=
        congrArg _ (exec_awake (f := fun t => t.jackRunOut) awake)
      refine ⟨_, taken, ?_⟩
      have out : (!s.levelActive && s.timesOut .jacks s.jackSet.runTime s.jackTimeout) = true := by
        simp [State.levelActive, idle, s.timesOut_iff.mpr (.inl ⟨by rw [found]; rfl, reached⟩), State.jackTimeout]
      rw [State.jackRunOut, if_pos out, State.jackTimeout, State.advanceRun_reached reached]
      exact drain_fault_count (k := 9999) found rfl silent road lists
  · simp [State.buzz, alarm]
  · rintro start past silent plays rfl
    simp [State.buzz, silent, plays, patternLevel_iff]
  · intro start silent quiet runs
    simp [State.buzz, silent, quiet, runs]
  · simp [State.buzz, silent, quiet, rests]
  · intro t timed step
    exact (step_keeps step).period timed

end Sys2Proof.Machine
end

section
/-! PROOFS. A group whose fault is stored moves no more within the event: no step of a plan begins with it (R151), and what
is not in a list is neither resumed nor driven. -/

namespace Sys2Proof.Machine

section
variable {s t u w : State} {g h : Group} {e : Ending} {x : Entry} {id : Slider} {n : Chan} {k : Nat} {l rest : List Task}

/-! ### What a controller leaves to do -/

/-- All work of a list ends motions of one group, with what the ending by itself does to the claim. -/
def EndsOnly (g : Group) (l : List Task) : Prop := ∀ u ∈ l, ∃ e, u = .endMotion g e ∧ e.claim = .byRule

theorem EndsOnly.nil : EndsOnly g [] := fun _ mem => absurd mem (by simp)

theorem EndsOnly.one (rule : e.claim = .byRule := by rfl) : EndsOnly g [.endMotion g e] :=
  fun _ mem => ⟨e, List.mem_singleton.mp mem, rule⟩

theorem slideFault_own {f : FaultCode} : EndsOnly id.group (slideFault id f) := .one

theorem State.seatDone_own {m : Motor} : EndsOnly id.group (s.seatDone id m).2 := by
  rw [(s.seatDone_spec id m).2.1]
  split
  · exact .one
  · exact .nil

theorem State.beginSeat_own {m : Motor} : EndsOnly id.group (s.beginSeat id m).2 := by
  unfold State.beginSeat
  dsimp only
  split
  · exact State.seatDone_own
  · exact .nil

theorem State.rackCheck_own {w : Work} (own : EndsOnly id.group w.2) : EndsOnly id.group (s.rackCheck id w).2 := by
  unfold State.rackCheck
  split
  · exact slideFault_own
  · exact own

theorem State.motorStarted_own {m : Motor} : EndsOnly id.group (s.motorStarted id m).2 := by
  unfold State.motorStarted
  split
  · exact .nil
  · refine State.rackCheck_own ?_
    split
    · split
      · dsimp only
        split
        · exact slideFault_own
        · exact .nil
      · exact .nil
    · split
      · exact State.rackCheck_own State.beginSeat_own
      · exact .nil

theorem State.startMotor_own {m : Motor} {d : Dir} : EndsOnly id.group (s.startMotor id m d).2 := by
  unfold State.startMotor
  split
  · dsimp only
    split
    · exact State.motorStarted_own
    · exact .nil
  · exact .nil

theorem State.startMotors_own {d : Dir} : EndsOnly id.group (s.startMotors id d).2 := by
  have fold (l : List Motor) (w : Work) (own : EndsOnly id.group w.2) : EndsOnly id.group (l.foldl (fun (w : Work) m =>
      if w.2.isEmpty && (w.1.motor id m).phase == .travel then w.1.startMotor id m d else w) w).2 := by
    induction l generalizing w with
    | nil => exact own
    | cons m rest ih =>
      refine ih _ ?_
      beta_reduce
      split
      · exact State.startMotor_own
      · exact own
  exact fold _ _ .nil

theorem State.slideAdmit_own {d : Dir} {run : Bool} : EndsOnly id.group (s.slideAdmit id d run).2 := by
  unfold State.slideAdmit
  dsimp only
  split
  · exact .one
  · split
    · exact State.startMotors_own
    · exact .nil

theorem State.slideResume_own : EndsOnly id.group (s.slideResume id).2 := by
  unfold State.slideResume
  split
  · exact State.startMotors_own
  · exact .nil

theorem State.jackCheck_own : EndsOnly .jacks s.jackCheck.2 := by
  unfold State.jackCheck
  split
  · exact .nil
  · split
    · exact .nil
    · split
      · split
        · split <;> exact .nil
        · exact .nil
      · exact .one

theorem State.jackAdmit_own {a : Action} {run : Bool} : EndsOnly .jacks (s.jackAdmit a run).2 := by
  unfold State.jackAdmit
  dsimp only
  split
  · exact .nil
  · split
    · exact .nil
    · exact State.jackCheck_own

theorem State.jackResume_own {first : Bool} : EndsOnly .jacks (s.jackResume first).2 := by
  unfold State.jackResume
  split
  · exact .nil
  · split
    · split
      · exact .nil
      · split
        · exact .nil
        · exact State.jackCheck_own
    · exact State.jackCheck_own

theorem State.controllerAdmit_own {a : Action} {run : Bool} : EndsOnly g (s.controllerAdmit g a run).2 := by
  cases g with
  | room k => exact State.slideAdmit_own (id := .room k)
  | jacks => exact State.jackAdmit_own
  | awning => exact State.slideAdmit_own (id := .awning)

/-- A faulted group without a motion, one of whose channels is not driven. -/
structure Downed (g : Group) (n : Chan) (s : State) : Prop where
  own : (s.role n).group = some g
  faulted : s.groupFaulted g = true
  still : s.still g
  off : (s.chan n).driven = false

/-- A piece of work that is not the placing of a step's motion of the group. -/
def Task.spares (g : Group) : Task → Prop
  | .place rest => ∀ y ∈ rest, y.1 ≠ g
  | _ => True

theorem still_congr (load : t.load = s.load) (paused : t.paused = s.paused) : t.still g ↔ s.still g := by
  unfold State.still State.motions
  rw [load, paused]

theorem State.configuredJacks_congr (layout : t.layout = s.layout) : t.configuredJacks = s.configuredJacks := by
  unfold State.configuredJacks State.jackConfigured State.roleChan State.role
  rw [layout]

theorem State.groupFaulted_congr (layout : t.layout = s.layout) (rooms : t.rooms = s.rooms) (awning : t.awning = s.awning)
    (jacks : t.jacks = s.jacks) : t.groupFaulted g = s.groupFaulted g := by
  cases g <;> simp only [State.groupFaulted, State.jacksFaulted, State.jack, State.configuredJacks_congr layout, rooms,
    awning, jacks]

/-! ### What the lists hold after each piece of work on them -/

/-- Freed units offered to an entry change the lists and the motion period alone. -/
theorem offerUnits_frame : offerUnits s x = { s with
    load := (offerUnits s x).load, paused := (offerUnits s x).paused, motionPeriod := (offerUnits s x).motionPeriod
    motionPulse := (offerUnits s x).motionPulse } := by
  unfold offerUnits
  split <;> rfl

theorem offerUnits_still (still : s.still g) (mem : x.group ≠ g) : (offerUnits s x).still g := by
  unfold offerUnits
  split
  · intro e he
    obtain ⟨y, hy, rfl⟩ := mem_motions.mp he
    simp only [State.enterLoad, State.setLoad, List.mem_append, List.mem_singleton, List.mem_filter] at hy
    rcases hy with (a | rfl) | ⟨a, -⟩
    · exact still _ (mem_motions.mpr ⟨y, List.mem_append_left _ a, rfl⟩)
    · exact mem
    · exact still _ (mem_motions.mpr ⟨y, List.mem_append_right _ a, rfl⟩)
  · exact still

/-- A scan changes the lists and the motion period alone, and moves entries from one list to the other. -/
theorem State.scan_frame : s.scan.1 = { s with
    load := s.scan.1.load, paused := s.scan.1.paused, motionPeriod := s.scan.1.motionPeriod
    motionPulse := s.scan.1.motionPulse } := by
  have offers (l : List Entry) (s : State) : l.foldl offerUnits s = { s with
      load := (l.foldl offerUnits s).load, paused := (l.foldl offerUnits s).paused
      motionPeriod := (l.foldl offerUnits s).motionPeriod, motionPulse := (l.foldl offerUnits s).motionPulse } := by
    induction l generalizing s with
    | nil => rfl
    | cons y rest ih =>
      have later := ih (offerUnits s y)
      rw [List.foldl_cons]
      generalize rest.foldl offerUnits (offerUnits s y) = w at later ⊢
      rw [later, offerUnits_frame]
  exact offers _ s

theorem State.scan_still (still : s.still g) : s.scan.1.still g := by
  have offers (l : List Entry) (s : State) (still : s.still g) (others : ∀ y ∈ l, y.group ≠ g) :
      (l.foldl offerUnits s).still g := by
    induction l generalizing s with
    | nil => exact still
    | cons y rest ih =>
      exact ih _ (offerUnits_still still (others y (by simp))) fun z mem => others z (by simp [mem])
  refine offers _ s still fun y mem => ?_
  exact still y.motion (mem_motions.mpr ⟨y, List.mem_append_right _ (mem_scanOrder mem), rfl⟩)

/-- The placing of a motion changes the lists, their order and the motion period alone. -/
theorem State.placeEntry_frame {o : Owner} {m : Mode} {a : Action} : (s.placeEntry h o m a).1 = { s with
    load := (s.placeEntry h o m a).1.load, paused := (s.placeEntry h o m a).1.paused
    motionPeriod := (s.placeEntry h o m a).1.motionPeriod, motionPulse := (s.placeEntry h o m a).1.motionPulse
    nextOrder := (s.placeEntry h o m a).1.nextOrder } := by
  unfold State.placeEntry
  dsimp only
  split <;> rfl

theorem State.placeEntry_still {o : Owner} {m : Mode} {a : Action} (still : s.still g) (other : h ≠ g) :
    (s.placeEntry h o m a).1.still g := by
  intro e he
  obtain ⟨y, hy, rfl⟩ := mem_motions.mp he
  have old (y : Entry) (mem : y ∈ s.load ++ s.paused) : y.motion.group ≠ g := still _ (mem_motions.mpr ⟨y, mem, rfl⟩)
  unfold State.placeEntry at hy
  dsimp only at hy
  split at hy
  · simp only [State.enterLoad, State.setLoad, List.mem_append, List.mem_singleton] at hy
    rcases hy with (a | rfl) | a
    · exact old y (List.mem_append_left _ a)
    · exact other
    · exact old y (List.mem_append_right _ a)
  · simp only [State.enterPause, List.mem_append, mem_insertByOrder] at hy
    rcases hy with a | rfl | a
    · exact old y (List.mem_append_left _ a)
    · exact other
    · exact old y (List.mem_append_right _ a)

theorem State.aimClaim_frame {a : Action} : s.aimClaim h a = { s with claims := (s.aimClaim h a).claims } := by
  unfold State.aimClaim
  split
  · split <;> rfl
  · rfl

namespace Downed

/-- The controller of another group leaves a downed group alone. -/
theorem controls (a : Downed g n s) (c : Controls h s t) (other : g ≠ h) : Downed g n t where
  own := by rw [c.role, a.own]
  faulted := by
    rw [← a.faulted]
    have same := c.axes g other
    cases g with
    | room k => exact congrArg (fun r : SliderRec => r.fault.isSome) same
    | awning => exact congrArg (fun r : SliderRec => r.fault.isSome) same
    | jacks =>
      have jacks : t.jacks = s.jacks := same.1
      simp only [State.groupFaulted, State.jacksFaulted, State.jack, State.configuredJacks_congr c.layout, jacks]
  still := by
    have load : t.load = s.load := by have e := congrArg State.load c.outer; exact e
    have paused : t.paused = s.paused := by have e := congrArg State.paused c.outer; exact e
    exact (still_congr load paused).mpr a.still
  off := by
    rw [c.chans n (by rw [a.own]; simpa using other), a.off]

/-- Anything but the channels, the axes, the lists and the layout may change. -/
theorem congr (a : Downed g n s) (layout : t.layout = s.layout) (channels : t.channels = s.channels)
    (rooms : t.rooms = s.rooms) (awning : t.awning = s.awning) (jacks : t.jacks = s.jacks) (still : t.still g) :
    Downed g n t where
  own := by
    have e := a.own
    unfold State.role at e ⊢
    rwa [layout]
  faulted := (State.groupFaulted_congr layout rooms awning jacks).trans a.faulted
  still := still
  off := by
    have e := a.off
    unfold State.chan at e ⊢
    rwa [channels]

theorem motionEnd (a : Downed g n s) : Downed g n (s.motionEnd h e).1 := by
  by_cases rests : s.still h
  · rwa [State.motionEnd_still rests]
  obtain ⟨x, found⟩ := State.not_still_iff.mp rests
  have other : g ≠ h := fun same => rests (same ▸ a.still)
  have controlled : Downed g n (s.controllerEnd h x.action e) := a.controls State.controllerEnd_controls other
  have frame := State.motionEnd_frame (e := e) found
  obtain ⟨load, paused⟩ := s.lists_motionEnd (g := h) (e := e)
  have still : (s.motionEnd h e).1.still g := by
    intro y mem
    obtain ⟨z, hz, rfl⟩ := mem_motions.mp mem
    rw [load, paused, ← List.filter_append] at hz
    exact a.still _ (mem_motions.mpr ⟨z, (List.mem_filter.mp hz).1, rfl⟩)
  generalize (s.motionEnd h e).1 = w at frame still
  refine controlled.congr ?_ ?_ ?_ ?_ ?_ still <;> rw [frame]

theorem plan (a : Downed g n s) (p : Plan) : Downed g n { s with plan := p } :=
  a.congr rfl rfl rfl rfl rfl a.still

theorem planEnd (a : Downed g n s) {st : PlanStatus} {f : Option PlanFailure} : Downed g n (s.planEnd st f).1 :=
  a.congr rfl rfl rfl rfl rfl a.still

end Downed

theorem spares_motionEnd : ∀ u ∈ (s.motionEnd h e).2, u.spares g := by
  unfold State.motionEnd
  split
  · exact fun u mem => absurd mem (by simp)
  · intro u mem
    simp only [List.mem_cons, List.mem_append] at mem
    rcases mem with rfl | mem | mem
    · trivial
    · split at mem
      · obtain rfl := List.mem_singleton.mp mem
        trivial
      · simp at mem
    · split at mem
      · obtain rfl := List.mem_singleton.mp mem
        trivial
      · simp at mem

theorem EndsOnly.spares (own : EndsOnly h l) : ∀ u ∈ l, u.spares g := fun u mem => by
  obtain ⟨e, rfl, -⟩ := own u mem
  trivial

/-- Work that leaves a downed group alone. -/
def Spared (g : Group) (n : Chan) (w : Work) : Prop := Downed g n w.1 ∧ ∀ u ∈ w.2, u.spares g

theorem Spared.planEnd (a : Downed g n s) {st : PlanStatus} {f : Option PlanFailure} : Spared g n (s.planEnd st f) :=
  ⟨a.planEnd, fun u mem => by
    obtain rfl := List.mem_singleton.mp mem
    trivial⟩

theorem Spared.none (a : Downed g n s) : Spared g n (s, []) := ⟨a, fun u mem => absurd mem (by simp)⟩

theorem Spared.one {u : Task} (a : Downed g n s) (spares : u.spares g) : Spared g n (s, [u]) :=
  ⟨a, fun v mem => by
    obtain rfl := List.mem_singleton.mp mem
    exact spares⟩

theorem Spared.stepAdvance (a : Downed g n s) : Spared g n s.stepAdvance := by
  unfold State.stepAdvance
  split
  · split
    · exact .one (a.plan _) trivial
    · exact .planEnd a
  · exact .none a

/-- No step begins with a faulted group (R151). -/
theorem Spared.stepBegin (a : Downed g n s) : Spared g n s.stepBegin := by
  unfold State.stepBegin
  split
  · dsimp only
    have emptied : Downed g n ({ s with plan := { s.plan with slots := [] } }.raise .plan) :=
      a.congr rfl rfl rfl rfl rfl a.still
    generalize ({ s with plan := { s.plan with slots := [] } } : State).raise .plan = w at emptied ⊢
    split
    · exact .planEnd emptied
    · rename_i passes
      refine .one emptied fun y mem same => ?_
      have passed := List.findSome?_eq_none_iff.mp passes y mem
      simp only [Option.map_eq_none_iff] at passed
      have faulted : w.groupFaulted y.1 = true := same ▸ emptied.faulted
      unfold State.stepTest at passed
      split_ifs at passed
  · exact .none a

/-- No piece of work moves a downed group. -/
theorem State.runTask_spared {u : Task} (a : Downed g n s) (spare : u.spares g) : Spared g n (s.runTask u) := by
  cases u with
  | endMotion h e => exact ⟨a.motionEnd, spares_motionEnd⟩
  | handover v =>
    change Spared g n (s.handOver v)
    unfold State.handOver
    split
    · exact .none a
    · have same := s.butAlarm_evalAlarm.1
      refine .one ?_ trivial
      generalize s.evalAlarm = w at same
      rw [same]
      exact a.congr rfl rfl rfl rfl rfl a.still
  | permits =>
    change Spared g n s.checkPermits
    unfold State.checkPermits
    split
    · refine ⟨a, fun u mem => ?_⟩
      simp only [List.mem_cons, List.not_mem_nil, or_false] at mem
      obtain rfl | rfl := mem <;> trivial
    · exact .none a
  | scan =>
    have frame := s.scan_frame
    have still := State.scan_still a.still
    refine ⟨?_, fun u mem => ?_⟩
    · change Downed g n s.scan.1
      generalize s.scan.1 = w at frame still
      refine a.congr ?_ ?_ ?_ ?_ ?_ still <;> rw [frame]
    · obtain ⟨y, -, rfl⟩ := List.mem_map.mp mem
      trivial
  | resume h order first =>
    change Spared g n (s.resumeEntry h order first)
    unfold State.resumeEntry
    split
    · rename_i runs
      have other : g ≠ h := by
        rintro rfl
        obtain ⟨e, mem, hit⟩ := List.any_eq_true.mp runs
        simp only [Bool.and_eq_true, beq_iff_eq] at hit
        exact a.still e.motion (mem_motions.mpr ⟨e, List.mem_append_left _ mem, rfl⟩) hit.1
      have resumed (w : Work) (c : Controls h s w.1) (own : EndsOnly h w.2) : Spared g n (w.1, .handover s.view :: w.2) :=
        ⟨a.controls c other, fun u mem => by
          obtain rfl | mem := List.mem_cons.mp mem
          · trivial
          · exact own.spares u mem⟩
      cases h with
      | room k => exact resumed _ (State.slideResume_controls (id := .room k)) (State.slideResume_own (id := .room k))
      | jacks => exact resumed _ State.jackResume_controls State.jackResume_own
      | awning => exact resumed _ (State.slideResume_controls (id := .awning)) (State.slideResume_own (id := .awning))
    · exact .none a
  | planTakes h b e f =>
    change Spared g n (s.planTakes h b e f)
    unfold State.planTakes
    split
    · exact .none a
    · split
      · exact .stepAdvance (a.plan _)
      · exact .planEnd a
  | beginStep => exact .stepBegin a
  | place step =>
    cases step with
    | nil => exact .stepAdvance a
    | cons y later =>
      change Spared g n (s.placeNext (y :: later))
      have other : y.1 ≠ g := spare y List.mem_cons_self
      unfold State.placeNext
      dsimp only
      split
      · split
        · exact .planEnd a
        · have aimed := s.aimClaim_frame (h := y.1) (a := y.2)
          have opened : Downed g n ((s.aimClaim y.1 y.2).openSlot y.1) := by
            unfold State.openSlot
            generalize s.aimClaim y.1 y.2 = w at aimed
            rw [aimed]
            exact a.congr rfl rfl rfl rfl rfl a.still
          generalize (s.aimClaim y.1 y.2).openSlot y.1 = w at opened ⊢
          have frame := w.placeEntry_frame (h := y.1) (o := .sequencer) (m := .auto) (a := y.2)
          have still := State.placeEntry_still (o := .sequencer) (m := .auto) (a := y.2) opened.still other
          have placed : Downed g n (w.placeEntry y.1 .sequencer .auto y.2).1 := by
            generalize (w.placeEntry y.1 .sequencer .auto y.2).1 = v at frame still
            refine opened.congr ?_ ?_ ?_ ?_ ?_ still <;> rw [frame]
          refine ⟨placed.controls State.controllerAdmit_controls other.symm, fun u mem => ?_⟩
          simp only [State.admitMotion, State.placeAndStart, List.mem_append, List.mem_singleton] at mem
          obtain (mem | rfl) | rfl := mem
          · exact State.controllerAdmit_own.spares u mem
          · trivial
          · exact fun z mem => spare z (List.mem_cons_of_mem _ mem)
      · exact .none a
  | endPlan =>
    change Spared g n s.planEndNext
    unfold State.planEndNext
    split
    · refine ⟨a, fun u mem => ?_⟩
      simp only [List.mem_cons, List.not_mem_nil, or_false] at mem
      obtain rfl | rfl := mem <;> trivial
    · obtain ⟨⟨table, freed⟩, -⟩ := freePlanClaims_spec s
      rw [freed]
      exact .none (a.congr rfl rfl rfl rfl rfl a.still)

/-- A downed group stays down to the end of the event. -/
theorem drain_downed (a : Downed g n s) (spare : ∀ u ∈ l, u.spares g) : Downed g n (drain k (s, l)) := by
  induction k generalizing s l with
  | zero => exact a
  | succ k ih =>
    cases l with
    | nil => exact a
    | cons u rest =>
      obtain ⟨one, tasks⟩ := State.runTask_spared a (spare u List.mem_cons_self)
      rw [drain_cons]
      refine ih one fun v mem => ?_
      obtain mem | mem := List.mem_append.mp mem
      · exact tasks v mem
      · exact spare v (List.mem_cons_of_mem _ mem)

end

end Sys2Proof.Machine
end

section
/-! PROOFS. The timers of a channel: the end of a stop, of a reversal dwell and of a ramp step, and the lines DIRn and DRVn
(R9 to R14, R50, R51). -/

namespace Sys2Proof.Machine

section
variable {s t u w : State} {g h : Group} {e : Ending} {x : Entry} {id : Slider} {m : Motor} {n i : Chan} {k : Nat} {d : Dir}

/-! ### Trims -/

/-- The other motor of a room. -/
def otherMotor : Motor → Motor
  | .a => .b
  | .b => .a

/-- The trim of one motor that R51 asks for now. -/
def State.trimOf (s : State) (id : Slider) (m : Motor) : Option Nat :=
  (s.wantedTrim id).bind fun x => if x.1 = m then some x.2 else none

theorem State.trimOf_eq (two : s.twoMotors id = true) : s.trimOf id m =
    if s.motorDriven id .a = true ∧ s.motorDriven id .b = true then
      (s.slideDir id).bind fun d =>
        trimFor d (s.syncWindow id) (s.motorRamped id m) (s.motor id m).count (s.motor id (otherMotor m)).count
    else none := by
  unfold State.trimOf State.wantedTrim State.bothCounts
  rw [if_pos two]
  by_cases both : s.motorDriven id .a = true ∧ s.motorDriven id .b = true
  · rw [if_pos both]
    cases a : (s.motor id .a).count with
    | none => cases m <;> cases s.slideDir id <;> simp [otherMotor, a, trimFor]
    | some ca =>
      cases b : (s.motor id .b).count with
      | none => cases m <;> cases s.slideDir id <;> simp [otherMotor, b, trimFor]
      | some cb =>
        cases s.slideDir id with
        | none => simp
        | some d =>
          simp only [both, Bool.and_self, Bool.true_and, decide_eq_true_eq, Option.bind_some]
          by_cases wide : s.syncWindow id < leadOf ca cb
          · rw [if_pos wide]
            have lead : s.syncWindow id < max ca cb - min ca cb := wide
            have apart : ca ≠ cb := by
              rintro rfl
              simp at lead
            unfold leaderOf
            rw [if_neg apart]
            obtain less | more := Nat.lt_or_gt_of_ne apart
            · cases m <;> cases d <;>
                simp [trimFor, trimDuty, otherMotor, a, b, leadOf, less, Nat.not_lt.mpr less.le, lead, Nat.max_comm cb,
                  Nat.min_comm cb]
            · cases m <;> cases d <;>
                simp [trimFor, trimDuty, otherMotor, a, b, leadOf, more, Nat.not_lt.mpr more.le, lead, Nat.max_comm cb,
                  Nat.min_comm cb]
          · rw [if_neg wide]
            have close : ¬s.syncWindow id < max ca cb - min ca cb := wide
            cases m <;> simp [trimFor, otherMotor, a, b, close, Nat.max_comm cb, Nat.min_comm cb]
  · rw [if_neg both]
    split
    · rw [if_neg (by simpa [and_assoc] using fun a b => absurd ⟨a, b⟩ both)]
      rfl
    · rfl

theorem State.motorChan_injective (a : s.motorChan id m = some n) {y : Motor} (b : s.motorChan id y = some n) : m = y := by
  cases id with
  | room k =>
    have one := State.role_of_roleChan a
    have two := State.role_of_roleChan b
    rw [one] at two
    exact (Role.room.inj two).2
  | awning => cases m <;> cases y <;> simp [State.motorChan] at a b ⊢

theorem State.chan_trimMotor (trim : Option Nat) : (s.trimMotor id m trim).chan n =
    if s.motorChan id m = some n then { s.chan n with trimmed := trim } else s.chan n := by
  unfold State.trimMotor
  cases chan : s.motorChan id m with
  | none => simp
  | some i =>
    simp only [State.setTrim, State.chan_setChan, Option.some.injEq]
    split
    · rename_i same
      rw [same]
    · rfl

theorem State.motorChan_trimMotor (trim : Option Nat) {y : Motor} :
    (s.trimMotor id m trim).motorChan id y = s.motorChan id y := by
  unfold State.trimMotor
  split
  · exact State.motorChan_setTrim ..
  · rfl

/-- Trims are set anew: each motor's own, and of no other channel (R51). -/
theorem State.trimmed_retrim (two : s.twoMotors id = true) :
    (∀ m n, s.motorChan id m = some n → ((s.retrim id).chan n).trimmed = s.trimOf id m) ∧
    ∀ n, (∀ m, s.motorChan id m ≠ some n) → (s.retrim id).chan n = s.chan n := by
  have both : s.retrim id = ((s.trimMotor id .b (s.trimOf id .b)).trimMotor id .a (s.trimOf id .a)) ∨
      s.retrim id = ((s.trimMotor id .a (s.trimOf id .a)).trimMotor id .b (s.trimOf id .b)) := by
    unfold State.retrim State.trimOf
    rw [if_pos two]
    cases s.wantedTrim id with
    | none => exact .inr rfl
    | some y =>
      obtain ⟨leader, duty⟩ := y
      cases leader
      · exact .inl rfl
      · exact .inr rfl
  have only (m : Motor) (n : Chan) (chan : s.motorChan id m = some n) : s.motorChan id (otherMotor m) ≠ some n :=
    fun same => by
      have equal := State.motorChan_injective chan same
      cases m <;> cases equal
  refine ⟨fun m n chan => ?_, fun n none => ?_⟩
  · have distinct := only m n chan
    obtain eq | eq := both <;> rw [eq]
    all_goals
      rw [State.chan_trimMotor, State.motorChan_trimMotor, State.chan_trimMotor]
      cases m <;> simp only [otherMotor] at distinct <;> simp [chan, distinct]
  · obtain eq | eq := both <;> rw [eq, State.chan_trimMotor, State.motorChan_trimMotor, if_neg (none _),
      State.chan_trimMotor, if_neg (none _)]

theorem Retrimmed.view (a : Retrimmed s w) : w.view = s.view := by
  rw [a.frame]
  rfl

theorem Retrimmed.slider (a : Retrimmed s w) (id : Slider) : w.slider id = s.slider id := by
  rw [a.frame]
  cases id <;> rfl

/-! ### Drive starts -/

theorem State.chan_mirrorTally : (s.mirrorTally n).chan i = s.chan i := by
  unfold State.mirrorTally
  split <;> simp

theorem State.paceRec_mirrorTally : (s.mirrorTally n).paceRec i = s.paceRec i := by
  unfold State.mirrorTally
  split <;> simp

theorem State.chan_driveStart : (s.driveStart n d).chan i =
    if n = i then (s.chan n).driveStarted (s.kindParams n) d s.now else s.chan i := by
  have mirrored : (((s.setChan n ((s.chan n).driveStarted (s.kindParams n) d s.now)).setPace n clearedPace).mirrorTally
      n).chan i = if n = i then (s.chan n).driveStarted (s.kindParams n) d s.now else s.chan i := by
    rw [State.chan_mirrorTally]
    simp [State.chan_setChan]
  unfold State.driveStart
  dsimp only
  split <;> exact mirrored

theorem State.paceRec_driveStart : (s.driveStart n d).paceRec i = if n = i then clearedPace else s.paceRec i := by
  have mirrored : (((s.setChan n ((s.chan n).driveStarted (s.kindParams n) d s.now)).setPace n clearedPace).mirrorTally
      n).paceRec i = if n = i then clearedPace else s.paceRec i := by
    rw [State.paceRec_mirrorTally]
    simp [State.paceRec_setPace]
  unfold State.driveStart
  dsimp only
  split <;> exact mirrored

/-- A drive start hands nothing over, but for the level mark that a jack's takes. -/
theorem State.view_driveStart (mark : (∃ j, s.role n = .jack j) → s.jackSet.levelMark = false) :
    (s.driveStart n d).view = s.view := by
  have mirrored : (((s.setChan n ((s.chan n).driveStarted (s.kindParams n) d s.now)).setPace n clearedPace).mirrorTally
      n).view = s.view := State.view_mirrorTally
  unfold State.driveStart
  dsimp only
  split
  · rename_i j jack
    have unmarked := mark ⟨j, jack⟩
    generalize same : ((s.setChan n ((s.chan n).driveStarted (s.kindParams n) d s.now)).setPace n clearedPace).mirrorTally n = w
      at mirrored
    have set : w.jackSet = s.jackSet := by
      rw [← same]
      unfold State.mirrorTally
      split <;> simp
    rw [← mirrored]
    have level : ({ w.jackSet with levelMark := false } : JackSet) = w.jackSet := by
      rw [set, ← unmarked]
    rw [level]
  · exact mirrored

/-- A channel of a room or the awning that may be driven belongs to a motion of its group. -/
theorem State.mayDrive_slider (own : (s.role n).group = some id.group) (may : s.mayDrive n = true) :
    ∃ x, s.entryOf id.group = some x := by
  unfold State.mayDrive at may
  simp only [Bool.and_eq_true, List.any_eq_true] at may
  obtain ⟨-, y, mem, has⟩ := may
  refine State.not_still_iff.mp fun still => still y.motion (mem_motions.mpr ⟨y, List.mem_append_left _ mem, rfl⟩) ?_
  change y.group = id.group
  have chan : n ∈ s.motionChans y := by simpa using has
  unfold State.motionChans at chan
  split at chan
  · simp only [List.mem_filter, Bool.or_eq_true, beq_iff_eq] at chan
    obtain ⟨-, role | role⟩ := chan
    · rw [role] at own
      cases id <;> cases own
    · rw [role] at own
      cases id <;> cases own
  · simp only [State.groupChans, List.mem_filter, beq_iff_eq] at chan
    rw [own] at chan
    exact (Option.some.inj chan.2).symm

/-- A drive start writes a motor's tally, and no other field of its record. -/
theorem State.motor_driveStart : ∃ t, (s.driveStart n d).motor id m = { s.motor id m with tally := t } := by
  have mirrored : ∃ t, (((s.setChan n ((s.chan n).driveStarted (s.kindParams n) d s.now)).setPace n clearedPace).mirrorTally
      n).motor id m = { s.motor id m with tally := t } := by
    generalize same : (s.setChan n ((s.chan n).driveStarted (s.kindParams n) d s.now)).setPace n clearedPace = w
    have motor : w.motor id m = s.motor id m := by rw [← same]; simp
    rw [← motor]
    have set (i : Slider) (y : Motor) (v : Nat) : ∃ t, (w.setMotor i y { w.motor i y with tally := v }).motor id m =
        { w.motor id m with tally := t } := by
      rw [State.motor_setMotor]
      split
      · rename_i own
        obtain ⟨rfl, rfl⟩ := own
        exact ⟨v, rfl⟩
      · exact ⟨_, rfl⟩
    unfold State.mirrorTally
    split
    · exact set _ _ _
    · exact set _ _ _
    · exact ⟨_, rfl⟩
  obtain ⟨t, eq⟩ := mirrored
  refine ⟨t, ?_⟩
  unfold State.driveStart
  dsimp only
  split
  · rw [← eq]
    cases id <;> rfl
  · exact eq

theorem State.fault_driveStart : ((s.driveStart n d).slider id).fault = (s.slider id).fault := by
  have mirrored : ((((s.setChan n ((s.chan n).driveStarted (s.kindParams n) d s.now)).setPace n clearedPace).mirrorTally
      n).slider id).fault = (s.slider id).fault := State.mirrorTally_fault.trans (by simp)
  unfold State.driveStart
  dsimp only
  split
  · rw [← mirrored]
    cases id <;> rfl
  · exact mirrored

/-- A stop of a channel writes that channel's record at most. -/
theorem State.stopChan_cases : s.stopChan n = s ∨ ∃ c, s.stopChan n = s.setChan n c := by
  unfold State.stopChan
  split
  · exact .inr ⟨_, rfl⟩
  · exact .inr ⟨_, rfl⟩
  · exact .inr ⟨_, rfl⟩
  · exact .inl rfl
  · exact .inl rfl

/-- What a start request can come to: nothing, a dwell, or a drive start. -/
theorem State.startChan_cases : (s.startChan n d).1 = s ∨ (∃ c, (s.startChan n d).1 = s.setChan n c) ∨
    (s.startChan n d).1 = s.driveStart n d ∨ ∃ c, (s.startChan n d).1 = (s.setChan n c).driveStart n d := by
  have held (w : State) (same : w = s ∨ ∃ c, w = s.setChan n c) : (w.startHeld n d).1 = s ∨
      (∃ c, (w.startHeld n d).1 = s.setChan n c) ∨ (w.startHeld n d).1 = s.driveStart n d ∨
      ∃ c, (w.startHeld n d).1 = (s.setChan n c).driveStart n d := by
    unfold State.startHeld
    split
    · obtain rfl | ⟨c, rfl⟩ := same
      · exact .inr (.inl ⟨_, rfl⟩)
      · exact .inr (.inl ⟨_, State.setChan_setChan ..⟩)
    · obtain rfl | ⟨c, rfl⟩ := same
      · exact .inr (.inr (.inl rfl))
      · exact .inr (.inr (.inr ⟨c, rfl⟩))
  unfold State.startChan
  split
  · split
    · exact held s (.inl rfl)
    · exact held s (.inl rfl)
    · split
      · exact .inl rfl
      · exact held _ State.stopChan_cases
    · split
      · exact .inl rfl
      · exact held _ State.stopChan_cases
    · split
      · exact .inl rfl
      · exact .inr (.inr (.inl rfl))
  · exact .inl rfl

/-- A start request to the pump writes the pump's channel and pace records alone. -/
theorem State.startChan_pump (pump : s.role n = .pump) :
    (s.startChan n d).1 = { s with channels := (s.startChan n d).1.channels, pace := (s.startChan n d).1.pace } ∧
    ∀ i, i ≠ n → (s.startChan n d).1.chan i = s.chan i ∧ (s.startChan n d).1.paceRec i = s.paceRec i := by
  have started (w : State) (role : w.role n = .pump) :
      w.driveStart n d = { w with channels := (w.driveStart n d).channels, pace := (w.driveStart n d).pace } := by
    have tally : ((w.setChan n ((w.chan n).driveStarted (w.kindParams n) d w.now)).setPace n clearedPace).mirrorTally n =
        (w.setChan n ((w.chan n).driveStarted (w.kindParams n) d w.now)).setPace n clearedPace := by
      have kept : ((w.setChan n ((w.chan n).driveStarted (w.kindParams n) d w.now)).setPace n clearedPace).role n =
        .pump := role
      unfold State.mirrorTally
      rw [kept]
    have eq : w.driveStart n d = (w.setChan n ((w.chan n).driveStarted (w.kindParams n) d w.now)).setPace n clearedPace := by
      unfold State.driveStart
      dsimp only
      rw [role, tally]
    rw [eq]
    rfl
  have others (w : State) (i : Chan) (other : i ≠ n) :
      (w.driveStart n d).chan i = w.chan i ∧ (w.driveStart n d).paceRec i = w.paceRec i := by
    rw [State.chan_driveStart, State.paceRec_driveStart, if_neg other.symm, if_neg other.symm]
    exact ⟨rfl, rfl⟩
  obtain eq | ⟨c, eq⟩ | eq | ⟨c, eq⟩ := s.startChan_cases (n := n) (d := d) <;> rw [eq]
  · exact ⟨rfl, fun _ _ => ⟨rfl, rfl⟩⟩
  · exact ⟨rfl, fun i other => ⟨by rw [State.chan_setChan, if_neg other.symm], rfl⟩⟩
  · exact ⟨started s pump, others s⟩
  · refine ⟨?_, fun i other => ?_⟩
    · have frame := started (s.setChan n c) pump
      generalize (s.setChan n c).driveStart n d = w at frame
      rw [frame]
      rfl
    · obtain ⟨chan, pace⟩ := others (s.setChan n c) i other
      rw [chan, pace, State.chan_setChan, if_neg other.symm]
      exact ⟨rfl, rfl⟩

/-- The pump's following writes the pump's channel and pace records alone. -/
theorem State.pumpFollow_spec : s.pumpFollow = { s with channels := s.pumpFollow.channels, pace := s.pumpFollow.pace } ∧
    ∀ i, s.role i ≠ .pump → s.pumpFollow.chan i = s.chan i ∧ s.pumpFollow.paceRec i = s.paceRec i := by
  unfold State.pumpFollow
  split
  · rename_i x n moving pump
    have role := State.role_of_roleChan pump
    have other (i : Chan) (no : s.role i ≠ .pump) : i ≠ n := fun same => no (same ▸ role)
    split
    · split
      · exact ⟨rfl, fun _ _ => ⟨rfl, rfl⟩⟩
      · obtain ⟨frame, others⟩ := s.startChan_pump (d := .outward) role
        exact ⟨frame, fun i no => others i (other i no)⟩
    · obtain eq | ⟨c, eq⟩ := s.stopChan_cases (n := n) <;> rw [eq]
      · exact ⟨rfl, fun _ _ => ⟨rfl, rfl⟩⟩
      · exact ⟨rfl, fun i no => ⟨by rw [State.chan_setChan, if_neg (other i no).symm], rfl⟩⟩
  · exact ⟨rfl, fun _ _ => ⟨rfl, rfl⟩⟩

theorem State.racked_congr (layout : t.layout = s.layout)
    (counts : ∀ m, (t.motor id m).count = (s.motor id m).count) : t.racked id = s.racked id := by
  have two : t.twoMotors id = s.twoMotors id := by
    unfold State.twoMotors
    rw [State.motorChan_layout layout]
  have limit : t.rackLimit id = s.rackLimit id := by cases id <;> simp [State.rackLimit, layout]
  unfold State.racked State.bothCounts
  rw [two, counts, counts, limit]

/-- The controller finds nothing to do at the drive start of a motor (R44, R46, R50). -/
theorem State.motorStarted_free (apart : s.racked id = false)
    (short : s.slideDir id = some .outward → ∀ c, (s.motor id m).count = some c → c < s.travelLimit id)
    (away : s.slideDir id = some .stowing → s.motorHome id m = false) : s.motorStarted id m = (s, []) := by
  unfold State.motorStarted State.rackCheck
  split
  · rfl
  · rename_i d dir
    rw [if_neg (by simp [apart])]
    cases d with
    | outward =>
      cases count : (s.motor id m).count with
      | none => rfl
      | some c => simp [short dir c count]
    | stowing => simp [away dir]

/-- The controller ends a motion whose counts stand the rack limit apart at a drive start (R50). -/
theorem State.motorStarted_racked (moving : s.entryOf id.group = some x) (racked : s.racked id = true) :
    s.motorStarted id m = (s, slideFault id .racked) := by
  unfold State.motorStarted State.rackCheck State.slideDir
  rw [moving]
  exact if_pos racked

/-- A drive start that ends a dwell is the controller's, with the trims that follow (R51). -/
theorem State.startedLate_slider (chan : s.motorChan id m = some n) :
    Retrimmed (s.motorStarted id m).1 (s.startedLate n).1 ∧ (s.startedLate n).2 = (s.motorStarted id m).2 := by
  cases id with
  | room k =>
    have role := State.role_of_roleChan chan
    unfold State.startedLate
    rw [role]
    exact ⟨State.retrim_retrimmed, rfl⟩
  | awning =>
    cases m with
    | a =>
      have role : s.role n = .awning := State.role_of_roleChan chan
      unfold State.startedLate
      rw [role]
      exact ⟨.refl _, rfl⟩
    | b => simp [State.motorChan] at chan

/-- The dwell of a motor's channel ends in a drive start (R14): the start, what the controller finds at it, and the trims. -/
theorem State.dwellEnd_slider (chan : s.motorChan id m = some n) (may : s.mayDrive n = true) :
    ∃ x, s.entryOf id.group = some x ∧
      Controls id.group s ((s.driveStart n (s.chan n).dir).startedLate n).1 ∧
      ((s.driveStart n (s.chan n).dir).entryOf id.group = some x) ∧
      (∀ y, ((s.driveStart n (s.chan n).dir).motor id y).count = (s.motor id y).count) ∧
      (s.driveStart n (s.chan n).dir).layout = s.layout ∧
      (∀ y, (s.driveStart n (s.chan n).dir).motorHome id y = s.motorHome id y) ∧
      (s.driveStart n (s.chan n).dir).view = s.view := by
  have own := State.group_motorChan chan
  obtain ⟨x, found⟩ := State.mayDrive_slider own may
  have started : Controls id.group s (s.driveStart n (s.chan n).dir) :=
    State.driveStart_controls own (State.mayDrive_seated may)
  have late : Controls id.group (s.driveStart n (s.chan n).dir) ((s.driveStart n (s.chan n).dir).startedLate n).1 := by
    unfold State.startedLate
    rw [started.role]
    cases id with
    | room k =>
      rw [State.role_of_roleChan chan]
      exact State.motorStarted_controls.trans State.retrim_controls
    | awning =>
      cases m with
      | a =>
        rw [State.role_of_roleChan (r := .awning) chan]
        exact State.motorStarted_controls
      | b => simp [State.motorChan] at chan
  refine ⟨x, found, started.trans late, started.entryOf.trans found, fun y => ?_, started.layout, started.motorHome id, ?_⟩
  · obtain ⟨t, eq⟩ := s.motor_driveStart (n := n) (d := (s.chan n).dir) (id := id) (m := y)
    rw [eq]
  · refine State.view_driveStart fun ⟨j, jack⟩ => ?_
    rw [jack] at own
    cases id <;> cases own

/-- The channel of a motor whose motion ends with a stored fault is not driven after the event. -/
theorem drain_fault_off (found : s.entryOf id.group = some x) (chan : s.motorChan id m = some n) {f : FaultCode}
    (fault : e.fault = some f) : ((drain (k + 1) (s, [.endMotion id.group e])).chan n).driven = false := by
  have member : m ∈ s.motors id := by
    unfold State.motors
    cases m with
    | a => split <;> simp
    | b => simp [chan]
  have ended := State.motionEnd_now (e := e) found
  have down : Downed id.group n (s.motionEnd id.group e).1 :=
    { own := by
        have does : Does (fun _ => True) s (s.motionEnd id.group e).1 := State.motionEnd_does fun _ => trivial
        have own := State.group_motorChan chan
        unfold State.role at own ⊢
        rwa [does.follows.layout]
      faulted := by
        have slider := congrArg (fun r : SliderRec => r.fault.isSome) (State.slider_motionEnd (e := e) found)
        have some : ((s.slider id).ended (s.twoMotors id) (s.endState id e) e).fault.isSome = true := by
          unfold SliderRec.ended
          dsimp only
          split
          · assumption
          · rw [fault]
            rfl
        rw [← some]
        cases id <;> exact slider
      still := ended.still
      off := by
        rw [State.chan_motionEnd_slide found, if_pos (State.mem_slideChans.mpr ⟨m, member, chan⟩)]
        exact Channel.driven_stopped .. }
  rw [drain_cons]
  exact (drain_downed down fun u mem => by
    rw [List.append_nil] at mem
    exact spares_motionEnd u mem).off

end

/-- Settles O36: each timer at its moment, the drive start that ends a dwell by what its controller finds, and the two
lines by their definitions. -/
theorem channelTimersRunOut : Obligations.ChannelTimersRunOut := by
  unfold Obligations.ChannelTimersRunOut
  intro s n awake
  have stop : exec (.stoppingEnd n) s = .next (s.stoppingEnd n) :=
    congrArg _ (exec_awake (f := fun t => t.stoppingEnd n) awake)
  have dwell : exec (.dwellEnd n) s = .next (s.dwellEnd n) := congrArg _ (exec_awake (f := fun t => t.dwellEnd n) awake)
  have ramp : exec (.rampStep n) s = .next (s.rampStep n) := congrArg _ (exec_awake (f := fun t => t.rampStep n) awake)
  rw [stop, dwell, ramp]
  refine ⟨?_, fun other => ?_, ?_, fun other => ?_, ?_, fun other => ?_, ?_, fun rests phase => ?_, fun runs phase short => ?_,
    fun span => ?_⟩
  · rintro l due u stopping last rfl rfl
    have moment : (s.chan n).stoppingDue = some (l.time + ms 50) := by
      simp [Channel.stoppingDue, stopping, last, coastTime]
    unfold State.stoppingEnd
    rw [moment]
    exact ⟨fun late => congrArg _ (if_neg (by rw [late]; simp)), fun comes => congrArg _ (if_pos comes)⟩
  · simp [State.stoppingEnd, Channel.stoppingDue, other]
  · intro l due u dwelling last due_eq moment
    have later : Later s u := moment ▸ Later.advanceTo s due
    have at_ : s.dwellEnd n = if s.comes due then
        if u.mayDrive n then u.event fun v => (v.driveStart n (v.chan n).dir).startedLate n else u else s := by
      have dwells : s.dwellDue n = some due := by
        rw [due_eq]
        simp [State.dwellDue, dwelling, last, State.dwellTime]
      unfold State.dwellEnd
      rw [dwells, moment]
    have params : u.kindParams n = s.kindParams n := by
      unfold State.kindParams
      rw [later.role, later.layout]
    have dir : (u.chan n).dir = (s.chan n).dir := by rw [later.chan]
    rw [at_]
    refine ⟨fun late => by rw [late]; rfl, fun comes still => by rw [comes, still]; rfl, fun id m comes may chan apart out home => ?_,
      fun k m a b comes may role chan two countA countB wide => ?_, fun j comes may role mark => ?_⟩
    · rw [comes, may, if_pos rfl, if_pos rfl]
      have there : u.motorChan id m = some n := (later.motorChan id m).trans chan
      obtain ⟨x, found, part, moving, counts, layout, homes, view⟩ := State.dwellEnd_slider there may
      have chan' : (u.driveStart n (u.chan n).dir).motorChan id m = some n := (State.motorChan_layout layout id m).trans there
      have dirs : (u.driveStart n (u.chan n).dir).slideDir id = s.slideDir id := by
        unfold State.slideDir
        rw [moving, ← later.entryOf, found]
      have free : (u.driveStart n (u.chan n).dir).motorStarted id m = (u.driveStart n (u.chan n).dir, []) :=
        State.motorStarted_free (by rw [State.racked_congr layout counts, apart])
          (by rw [dirs, counts, later.motor, State.travelLimit_layout (layout.trans later.layout)]; exact out)
          (by rw [dirs, homes, State.motorHome_congr later.layout later.lines]; exact home)
      obtain ⟨trims, work⟩ := State.startedLate_slider chan'
      rw [free] at trims work
      have quiet : (u.event fun v => (v.driveStart n (v.chan n).dir).startedLate n) =
          ((u.driveStart n (u.chan n).dir).startedLate n).1 :=
        State.event_quiet (f := fun v => (v.driveStart n (v.chan n).dir).startedLate n) work (trims.view.trans view)
      rw [quiet]
      have chanAfter := trims.chan n
      rw [State.chan_driveStart, if_pos rfl] at chanAfter
      have pace : ((u.driveStart n (u.chan n).dir).startedLate n).1.paceRec n = clearedPace := by
        have frame := trims.frame
        generalize ((u.driveStart n (u.chan n).dir).startedLate n).1 = t at frame
        rw [frame]
        change (u.driveStart n (u.chan n).dir).paceRec n = _
        rw [State.paceRec_driveStart, if_pos rfl]
      refine ⟨_, rfl, ?_, ?_, ?_, ?_, pace, ?_, ?_, ?_⟩
      · rw [chanAfter, ← params]
        rfl
      · rw [chanAfter, ← dir]
        rfl
      · rw [chanAfter, ← params]
        rfl
      · rw [chanAfter]
        rfl
      · have e := congrArg State.fixedPart part.outer
        exact e
      · have e := congrArg State.load part.outer
        exact Eq.trans e later.load
      · have e := congrArg State.claims part.outer
        exact Eq.trans e later.claims
    · rw [comes, may, if_pos rfl, if_pos rfl]
      have there : u.motorChan (.room k) m = some n := (later.motorChan _ m).trans chan
      obtain ⟨x, found, part, moving, counts, layout, homes, view⟩ := State.dwellEnd_slider there may
      have chan' : (u.driveStart n (u.chan n).dir).motorChan (.room k) m = some n :=
        (State.motorChan_layout layout _ m).trans there
      have racked : (u.driveStart n (u.chan n).dir).racked (.room k) = true := by
        rw [State.racked_congr layout counts, State.racked_congr later.layout fun y => by rw [later.motor]]
        have both : s.bothCounts (.room k) = some (a, b) := by
          unfold State.bothCounts
          have twice : s.twoMotors (.room k) = true := Option.isSome_iff_ne_none.mpr two
          have first : (s.motor (.room k) .a).count = some a := countA
          have second : (s.motor (.room k) .b).count = some b := countB
          rw [if_pos twice, first, second]
        unfold State.racked
        rw [both]
        exact decide_eq_true wide
      obtain ⟨trims, work⟩ := State.startedLate_slider chan'
      rw [State.motorStarted_racked moving racked] at trims work
      have same : ((u.driveStart n (u.chan n).dir).startedLate n).1.entryOf (.room k) = some x := part.entryOf.trans found
      have ends : Ends (.room k) { outcome := .fault, fault := some .racked }
          ((u.driveStart n (u.chan n).dir).startedLate n).1 (u.event fun v => (v.driveStart n (v.chan n).dir).startedLate n) :=
        State.event_ends (f := fun v => (v.driveStart n (v.chan n).dir).startedLate n) work (trims.view.trans view) same .nil
      refine ⟨_, rfl, ends.ended.from_controls part, ?_, ?_⟩
      · have whole : (u.event fun v => (v.driveStart n (v.chan n).dir).startedLate n) = drain (9998 + 1)
            (((u.driveStart n (u.chan n).dir).startedLate n).1,
              [.endMotion (Slider.room k).group { outcome := .fault, fault := some .racked }]) := by
          unfold State.event State.handing
          dsimp only
          rw [work]
          exact drain_handover_same (trims.view.trans view)
        rw [whole]
        exact drain_fault_off same ((State.motorChan_layout part.layout _ m).trans there) rfl
      · have fault := ends.slider_fault (id := .room k) same rfl
        refine Eq.trans fault ?_
        have kept : (((u.driveStart n (u.chan n).dir).startedLate n).1.slider (.room k)).fault =
            (s.slider (.room k)).fault := by
          rw [trims.slider]
          exact State.fault_driveStart.trans (by rw [later.slider])
        rw [kept]
        rfl
    · rw [comes, may, if_pos rfl, if_pos rfl]
      have role' : u.role n = .jack j := (later.role n).trans role
      have own : (u.role n).group = some .jacks := by rw [role']; rfl
      have started : Controls .jacks u (u.driveStart n (u.chan n).dir) :=
        State.driveStart_controls own (State.mayDrive_seated may)
      have late : (u.driveStart n (u.chan n).dir).startedLate n = ((u.driveStart n (u.chan n).dir).pumpFollow, []) := by
        unfold State.startedLate
        rw [started.role, role']
      obtain ⟨frame, chans⟩ := (u.driveStart n (u.chan n).dir).pumpFollow_spec
      have view : (u.driveStart n (u.chan n).dir).pumpFollow.view = u.view := by
        have same : (u.driveStart n (u.chan n).dir).pumpFollow.view = (u.driveStart n (u.chan n).dir).view := by
          generalize (u.driveStart n (u.chan n).dir).pumpFollow = w at frame
          rw [frame]
          rfl
        refine same.trans (State.view_driveStart fun _ => ?_)
        rw [later.jackSet]
        exact mark
      have quiet : (u.event fun v => (v.driveStart n (v.chan n).dir).startedLate n) =
          (u.driveStart n (u.chan n).dir).pumpFollow := by
        rw [State.event_quiet (f := fun v => (v.driveStart n (v.chan n).dir).startedLate n) (by rw [late])
          (by rw [late]; exact view), late]
      have part := started.trans State.pumpFollow_controls
      have chanAfter := (chans n (by rw [started.role, role']; simp)).1
      rw [State.chan_driveStart, if_pos rfl] at chanAfter
      have full : u.kindParams n = { s.layout.valve with startDuty := 255, runDuty := 255 } := by
        rw [params]
        unfold State.kindParams
        rw [role]
        rfl
      rw [quiet]
      refine ⟨_, rfl, ?_, ?_, ?_, ?_, ?_, ?_⟩
      · rw [chanAfter, full]
        rfl
      · rw [chanAfter, ← dir]
        rfl
      · rw [chanAfter, full]
        rfl
      · have e := congrArg State.fixedPart part.outer
        exact e
      · have e := congrArg State.load part.outer
        exact Eq.trans e later.load
      · have e := congrArg State.claims part.outer
        exact Eq.trans e later.claims
  · simp [State.dwellEnd, State.dwellDue, other]
  · intro start due u ramping started due_eq moment
    have later : Later s u := moment ▸ Later.advanceTo s due
    have at_ : s.rampStep n = if s.comes due then (u.setChan n ((u.chan n).ramp (u.kindParams n))).retrimOf n else s := by
      have steps : (s.chan n).rampDue = some due := by
        rw [due_eq]
        simp [Channel.rampDue, ramping, started]
      unfold State.rampStep
      rw [steps, moment]
    rw [at_]
    refine ⟨fun late => by rw [late]; rfl, fun comes => ?_⟩
    rw [comes, if_pos rfl]
    have params : u.kindParams n = s.kindParams n := by
      unfold State.kindParams
      rw [later.role, later.layout]
    generalize next : u.setChan n ((u.chan n).ramp (u.kindParams n)) = v
    have frame : v = { u with channels := v.channels } := by rw [← next]; rfl
    have chanV (i : Chan) : v.chan i = if n = i then (u.chan n).ramp (u.kindParams n) else u.chan i := by
      rw [← next, State.chan_setChan]
    have roleV : v.role n = s.role n := by rw [frame]; exact later.role n
    have trims : Retrimmed v (v.retrimOf n) := by
      unfold State.retrimOf
      split
      · exact State.retrim_retrimmed
      · exact .refl v
    have chanN := trims.chan n
    rw [chanV, if_pos rfl, params, later.chan] at chanN
    have twice (k : RoomId) (two : s.roleChan (.room k .b) ≠ none) : v.twoMotors (.room k) = true := by
      have chan : v.motorChan (.room k) .b = s.roleChan (.room k .b) := by
        rw [frame]
        exact later.motorChan (.room k) .b
      unfold State.twoMotors
      rw [chan]
      exact Option.isSome_iff_ne_none.mpr two
    have chans (k : RoomId) (y : Motor) : v.motorChan (.room k) y = s.roleChan (.room k y) := by
      rw [frame]
      cases y <;> exact later.motorChan (.room k) _
    refine ⟨_, rfl, ?_, ?_, ?_, ?_, ?_, ?_, fun i other => ?_, fun i outside => ?_, fun k m y i role two chan => ?_⟩
    · rw [chanN]
      rfl
    · rw [chanN]
      simp only [Channel.ramp, le_min_iff, le_refl, true_and]
    · rw [chanN]
      rfl
    · rw [chanN]
      rfl
    · rw [trims.frame, frame]
    · rw [chanN, later.chan n]
      rfl
    · rw [trims.chan i, chanV, if_neg other.symm]
    · have kept : (v.chan i).trimmed = (s.chan i).trimmed := by
        rw [chanV]
        split
        · rename_i same
          rw [← same, later.chan n]
          rfl
        · rw [later.chan i]
      rw [← kept]
      unfold State.retrimOf
      split
      · rename_i k m role
        rw [roleV] at role
        by_cases two : s.roleChan (.room k .b) ≠ none
        · rw [(State.trimmed_retrim (twice k two)).2 i fun y => by rw [chans]; exact outside k m y role two]
        · have one : v.twoMotors (.room k) = false := by
            have absent : v.motorChan (.room k) .b = none := (chans k .b).trans (not_not.mp two)
            unfold State.twoMotors
            rw [absent]
            rfl
          unfold State.retrim
          rw [one]
          rfl
      · rfl
    · have own : v.retrimOf n = v.retrim (.room k) := by
        unfold State.retrimOf
        rw [roleV, role]
      have same (y : Motor) : v.motor (.room k) y = s.motor (.room k) y := by
        rw [frame]
        exact later.motor (.room k) y
      have drivenV (i : Chan) : (v.chan i).driven = (s.chan i).driven := by
        rw [chanV]
        split
        · rename_i same
          subst same
          have runs : ((u.chan n).ramp (u.kindParams n)).driven = true := by
            simp only [Channel.ramp, Channel.driven]
            split <;> rfl
          rw [runs]
          simp [Channel.driven, ramping]
        · exact later.driven i
      have drives (y : Motor) : v.motorDriven (.room k) y = s.motorDriven (.room k) y := by
        unfold State.motorDriven
        have there : v.motorChan (.room k) y = s.motorChan (.room k) y := (chans k y).trans (by cases y <;> rfl)
        rw [there]
        cases s.motorChan (.room k) y with
        | none => rfl
        | some i => exact drivenV i
      have moving : v.entryOf (.room k) = s.entryOf (.room k) := by
        rw [frame]
        exact later.entryOf _
      have window : v.syncWindow (.room k) = (s.layout.rooms[k]).syncWindow := by
        rw [frame, ← later.layout]
        rfl
      have there : v.motorChan (.room k) y = some i := (chans k y).trans chan
      have ramped : ((v.retrimOf n).chan i).ramped = v.motorRamped (.room k) y := by
        rw [trims.chan i]
        unfold State.motorRamped
        rw [there]
      rw [ramped, own, (State.trimmed_retrim (twice k two)).1 y i there, State.trimOf_eq (twice k two), drives, drives, same,
        same, window]
      unfold State.slideDir
      rw [show v.entryOf (Slider.room k).group = s.entryOf (.room k) from moving]
      cases s.entryOf (.room k) with
      | none => rfl
      | some e => cases y <;> rfl
  · simp [State.rampStep, Channel.rampDue, other]
  · intro level levels
    have same (d : Dir) : dirLevel s.layout.dirFlags[n] d = level d := by
      rw [levels d]
      unfold dirLevel
      cases d <;> cases s.layout.dirFlags[n] <;> rfl
    refine ⟨fun off => by simp [State.dirOut, off], fun runs => ?_, fun l last => ⟨fun stopping => ?_, fun dwelling => ?_⟩⟩
    · simp only [Channel.driven, Bool.or_eq_true, beq_iff_eq] at runs
      unfold State.dirOut
      dsimp only
      obtain runs | runs := runs <;> rw [runs] <;> exact same _
    · unfold State.dirOut
      dsimp only
      rw [stopping, last]
      exact same _
    · unfold State.dirOut
      dsimp only
      rw [dwelling, last, ← same]
      change (decide (s.now < l.time + ms 50) && dirLevel s.layout.dirFlags[n] l.dir) = _
      by_cases early : s.now < l.time + ms 50 <;> simp [early]
  · simp [State.drvOut, rests]
  · simp [State.drvOut, runs]
  · rw [State.chan_elapse]
    dsimp only
    split
    · unfold Channel.outputDuty
      cases (s.chan n).trimmed <;> simp [Nat.min_comm]
    · rfl

end Sys2Proof.Machine
end

section
/-! PROOFS. The reads of the census (R2 to R5, R7). -/

namespace Sys2Proof.Machine

section
variable {s t u w : State} {g h : Group} {e : Ending} {x : Entry} {id : Slider} {m : Motor} {n i : Chan} {k : Nat} {d : Dir}
  {r : Levels}

/-- The state in which an agreed read has been taken, before the loss of a channel is handed on (R3, R4, R5). -/
def State.readTaken (s : State) (n : Chan) (r : Levels) : State :=
  let c := (s.chan n).confirmed (s.role n) r
  if c.census ≠ (s.chan n).census then (s.setChan n c).raise .census else s.setChan n c

theorem State.readTaken_frame : s.readTaken n r =
    { s.setChan n ((s.chan n).confirmed (s.role n) r) with ports := (s.readTaken n r).ports } := by
  unfold State.readTaken
  dsimp only
  split <;> rfl

theorem State.confirmRead_eq : s.confirmRead n r =
    if (s.chan n).census = .seated ∧ readState (s.role n) r ≠ .seated ∧ (s.motionOfChan n).isSome = true then
      (s.readTaken n r).channelFault n (lossFault (readState (s.role n) r))
    else (s.readTaken n r, []) := rfl

/-- From the state before a read to that after its event the channel's reading is the read's, and nothing of the other
channels' readings has changed. -/
theorem State.chan_readTaken : (s.readTaken n r).chan i =
    if n = i then (s.chan n).confirmed (s.role n) r else s.chan i := by
  rw [State.readTaken_frame]
  exact State.chan_setChan ..

/-- A confirmed read leaves plain work (R7). -/
theorem State.confirmRead_plain : Plain (s.confirmRead n r).2 := State.confirmRead_orderly.2

theorem Channel.reading_stopped (c : Channel) (now : Time) : (c.stopped now).reading = c.reading := by
  unfold Channel.stopped
  split
  · exact Channel.reading_halted c now
  · exact Channel.reading_halted c now
  · exact Channel.reading_cancelled c now
  · rfl
  · rfl

/-- What an agreed read leaves of its channel's reading, whatever follows in the event. -/
theorem State.reading_confirmRead : ((s.confirmRead n r).1.chan n).reading =
    ((s.chan n).confirmed (s.role n) r).reading := by
  rw [State.confirmRead_eq]
  split
  · simp only [State.channelFault]
    have same : ((s.readTaken n r).stopChan n).chan n = ((s.readTaken n r).chan n).stopped (s.readTaken n r).now := by
      rw [State.stopChan_eq]
      exact State.chan_setChan_same ..
    rw [same, State.chan_readTaken, if_pos rfl]
    exact Channel.reading_stopped ..
  · rw [State.chan_readTaken, if_pos rfl]

/-- The loss of a channel ends its motion (R7). -/
theorem State.event_readLoss (own : (s.role n).group = some g) (found : s.entryOf g = some x) (belongs : n ∈ s.motionChans x)
    (seated : (s.chan n).census = .seated) (lost : readState (s.role n) r ≠ .seated) :
    Ended g .fault s (s.event fun t => t.confirmRead n r) ∧ ∀ id, id.group = g →
      ((s.event fun t => t.confirmRead n r).slider id).fault =
        some ((s.slider id).fault.getD (lossFault (readState (s.role n) r))) := by
  have moving : (s.motionOfChan n).isSome = true := by
    unfold State.motionOfChan
    rw [List.find?_isSome]
    exact ⟨x, List.mem_of_find?_eq_some found, by simpa using belongs⟩
  have work : s.confirmRead n r = (s.readTaken n r).channelFault n (lossFault (readState (s.role n) r)) := by
    rw [State.confirmRead_eq, if_pos ⟨seated, lost, moving⟩]
  have frame := s.readTaken_frame (n := n) (r := r)
  have links : ∀ p, ((s.readTaken n r).port p).link = (s.port p).link := fun p => by
    unfold State.readTaken
    dsimp only
    split
    · simp [PortRec.link]
    · rfl
  generalize taken : s.readTaken n r = v at frame links work
  have role : v.role n = s.role n := by rw [frame]; rfl
  have found' : v.entryOf g = some x := by rw [frame]; exact found
  obtain ⟨js, tasks, -, -⟩ := State.channelFaultTasks_eq (s := v) (role ▸ own) found'
    (lossFault (readState (s.role n) r))
  have stopped : Controls g v (v.stopChan n) := State.stopChan_controls (by rw [role, own])
  have same : (s.confirmRead n r).1 = v.stopChan n := by rw [work]; rfl
  have view : (s.confirmRead n r).1.view = s.view := by
    rw [same, State.stopChan_frame, frame]
    rfl
  have ends : Ends g { outcome := .fault, fault := some (lossFault (readState (s.role n) r)), jacks := js }
      (s.confirmRead n r).1 (s.event fun t => t.confirmRead n r) :=
    State.event_ends (f := fun t => t.confirmRead n r) (by rw [work]; exact tasks) view
      (by rw [same]; exact stopped.entryOf.trans found') .nil
  have ended : Ended g .fault v (s.event fun t => t.confirmRead n r) := by
    have e := ends.ended
    rw [same] at e
    exact e.from_controls stopped
  refine ⟨ended.from ?_ ?_ (fun id m => .inl ?_) (fun j => ?_) links (State.soundsOn_same ?_ ?_ ?_) ?_, fun id group => ?_⟩
  · rw [frame]; rfl
  · rw [frame]; rfl
  · rw [frame]; cases id <;> rfl
  · rw [frame]; rfl
  · rw [frame]; rfl
  · rw [frame]; rfl
  · rw [frame]; rfl
  · rw [frame]; rfl
  · subst group
    have fault := ends.slider_fault (by rw [same]; exact stopped.entryOf.trans found') rfl
    have kept : ((s.confirmRead n r).1.slider id).fault = (s.slider id).fault := by
      rw [same, State.stopChan_frame, frame]
      cases id <;> rfl
    rw [fault, kept]

end

/-- Both kinds of read are taken by one rule, where they fall to the channel (R3, R4). -/
theorem exec_read {s : State} {c : Instr} {n : Chan} {r : Levels} (awake : s.inReset = none)
    (command : c = .censusRead n r ∨ c = .confirmingRead n r) :
    exec c s = .next (if (c = .censusRead n r ∧ s.startingUp n = true) ∨ (c = .confirmingRead n r ∧ s.confirming n = true)
      then s.takeRead n r else s) := by
  obtain rfl | rfl := command
  · have taken : exec (.censusRead n r) s = .next (s.censusRead n r) :=
      congrArg _ (exec_awake (f := fun t => t.censusRead n r) awake)
    rw [taken, State.censusRead]
    simp
  · have taken : exec (.confirmingRead n r) s = .next (s.confirmingRead n r) :=
      congrArg _ (exec_awake (f := fun t => t.confirmingRead n r) awake)
    rw [taken, State.confirmingRead]
    simp

end Sys2Proof.Machine
end

section
/-! PROOFS. The idle step: what it samples and what it puts in the queue (R21 to R26, R183, log 2, 4, 10). -/

namespace Sys2Proof.Machine

section
variable {s t u w : State} {g h : Group} {n i : Chan} {l k : Line} {x : DiscreteLine} {c d : Instr} {p : Port}

/-! ### Lines -/

theorem State.lines_setLines (v : ChannelLines) : (s.setLines n v).lines[i] = if n = i then v else s.lines[i] := by
  unfold State.setLines
  simp only [Fin.getElem_fin, Vector.getElem_set, Fin.val_inj]

/-- Replacing the record of one line leaves every other line. -/
theorem State.line_setLine : (s.setLine x l).line k = if k = l then x else s.line k := by
  cases l with
  | park => cases k <;> rfl
  | ign => cases k <;> rfl
  | _ n =>
    cases k with
    | park => rfl
    | ign => rfl
    | _ i =>
      simp only [State.setLine, State.line, State.lines_setLines]
      by_cases same : n = i
      · subst same
        simp
      · simp [same, Ne.symm same]

theorem State.setLine_setLine (y : DiscreteLine) : (s.setLine x l).setLine y l = s.setLine y l := by
  cases l <;> simp [State.setLine, State.setLines]

/-- Replacing the record of a line replaces lines alone. -/
theorem State.setLine_frame : s.setLine x l =
    { s with lines := (s.setLine x l).lines, park := (s.setLine x l).park, ign := (s.setLine x l).ign } := by
  cases l <;> rfl

/-- A line whose accepted levels change without an event: a seat or kind line, and IGN to low (R22). -/
def quietLevel (l : Line) (v : Bool) : Bool :=
  match l with
  | .sea _ | .seb _ | .knd1 _ | .knd0 _ => true
  | .ign => !v
  | .hom _ | .park => false

/-- The record of a line after a sample, its quiet levels taken (R21, R22). -/
def DiscreteLine.sampled (d : DiscreteLine) (l : Line) (pin : Bool) : DiscreteLine :=
  match (d.push pin).wanted, (d.push pin).accepted with
  | some v, some _ => if quietLevel l v then { d.push pin with accepted := some v } else d.push pin
  | _, _ => d.push pin

theorem State.sampleLine_eq : s.sampleLine l = s.setLine ((s.line l).sampled l (s.pinOf l)) l := by
  have own : (s.setLine ((s.line l).push (s.pinOf l)) l).line l = (s.line l).push (s.pinOf l) := by
    rw [State.line_setLine, if_pos rfl]
  have accepts (v : Bool) : (s.setLine ((s.line l).push (s.pinOf l)) l).accept l v =
      s.setLine { (s.line l).push (s.pinOf l) with accepted := some v } l := by
    unfold State.accept
    rw [own, State.setLine_setLine]
  unfold State.sampleLine State.settleQuiet DiscreteLine.sampled
  rw [own]
  generalize (s.line l).push (s.pinOf l) = after at accepts ⊢
  cases wanted : after.wanted with
  | none => cases l <;> rfl
  | some v =>
    cases accepted : after.accepted with
    | none => cases l <;> cases v <;> rfl
    | some a => cases l <;> cases v <;> simp [quietLevel, accepts]

theorem State.pinOf_congr (pins : t.pins = s.pins) : t.pinOf l = s.pinOf l := by
  cases l <;> simp only [State.pinOf, pins]

/-- Each line of a list is sampled once. -/
theorem forEach_sampleLine {lines : List Line} (nodup : lines.Nodup) (s : State) :
    (∀ k, (forEach lines (fun l t => t.sampleLine l) s).line k =
      if k ∈ lines then (s.line k).sampled k (s.pinOf k) else s.line k) ∧
    forEach lines (fun l t => t.sampleLine l) s = { s with
      lines := (forEach lines (fun l t => t.sampleLine l) s).lines
      park := (forEach lines (fun l t => t.sampleLine l) s).park
      ign := (forEach lines (fun l t => t.sampleLine l) s).ign } := by
  induction lines generalizing s with
  | nil => exact ⟨fun k => by simp [forEach], rfl⟩
  | cons l rest ih =>
    obtain ⟨fresh, others⟩ := List.nodup_cons.mp nodup
    obtain ⟨after, frame⟩ := ih others (s.sampleLine l)
    have one : s.sampleLine l = { s with
        lines := (s.sampleLine l).lines, park := (s.sampleLine l).park, ign := (s.sampleLine l).ign } := by
      rw [State.sampleLine_eq]
      exact State.setLine_frame
    have whole : forEach (l :: rest) (fun l t => t.sampleLine l) s = forEach rest (fun l t => t.sampleLine l) (s.sampleLine l) :=
      rfl
    rw [whole]
    refine ⟨fun k => ?_, ?_⟩
    · have pins : (s.sampleLine l).pinOf k = s.pinOf k := State.pinOf_congr (by rw [one])
      have line : (s.sampleLine l).line k = if k = l then (s.line l).sampled l (s.pinOf l) else s.line k := by
        rw [State.sampleLine_eq, State.line_setLine]
      rw [after, pins, line]
      by_cases same : k = l
      · subst same
        simp [fresh]
      · simp [same]
    · generalize forEach rest (fun l t => t.sampleLine l) (s.sampleLine l) = w at frame
      rw [frame, one]

theorem State.discreteLines_nodup : s.discreteLines.Nodup := by
  refine List.Nodup.filter _ (List.Nodup.append ?_ (by decide) ?_)
  · refine List.nodup_flatten.mpr ⟨fun l mem => ?_, ?_⟩
    · obtain ⟨n, -, rfl⟩ := List.mem_map.mp mem
      simp [channelLines]
    · refine List.pairwise_map.mpr (allChans_nodup.imp fun {a b} other => ?_)
      simpa [channelLines, List.Disjoint] using other
  · intro l mem last
    obtain ⟨m, lines, has⟩ := List.mem_flatten.mp mem
    obtain ⟨n, -, rfl⟩ := List.mem_map.mp lines
    simp only [List.mem_cons, List.not_mem_nil, or_false] at last
    obtain rfl | rfl := last <;> simp [channelLines] at has

theorem State.mem_discreteLines : l ∈ s.discreteLines ↔ s.conditioned l = true := by
  have listed : l ∈ (allChans.map channelLines).flatten ++ [Line.park, Line.ign] := by
    cases l with
    | park => simp
    | ign => simp
    | _ n =>
      refine List.mem_append_left _ (List.mem_flatten.mpr ⟨channelLines n, List.mem_map.mpr ⟨n, mem_allChans n, rfl⟩, ?_⟩)
      simp [channelLines]
  unfold State.discreteLines
  rw [List.mem_filter]
  exact ⟨fun h => h.2, fun h => ⟨listed, h⟩⟩

theorem State.mem_sampledLines : l ∈ s.sampledLines ↔
    s.conditioned l = true ∧ s.lineOrigin l < s.now ∧ (s.now - s.lineOrigin l) % ms 1 = 0 := by
  unfold State.sampledLines
  rw [List.mem_filter, State.mem_discreteLines]
  simp

theorem State.sampledLines_nodup (s : State) : s.sampledLines.Nodup := State.discreteLines_nodup.filter _

/-! ### The state after a sample -/

/-- The state of an idle step once the pins are sampled. -/
def State.sampledNow (s : State) : State :=
  { (s.elapse 1).samplePulses.sampleDiscrete with tickedAt := some (s.elapse 1).now }

/-- What an idle step puts in the queue (log 10). -/
def State.idleEvents (s : State) : List Instr :=
  (s.elapse 1).pulseEvents ++ s.sampledNow.firstLevels ++ s.sampledNow.lineEvents ++ s.sampledNow.dueEvents ++
    if s.pins.reset then [] else dueIf (decide (s.resetLow + 1 = ms 1)) (.warmReset s.pins.straps)

/-- Of the state that time has passed to a sample changes the lines and the moment of the last sample. -/
theorem State.sampledNow_frame : s.sampledNow = { s.elapse 1 with
    tickedAt := some (s.now + 1), lines := s.sampledNow.lines, park := s.sampledNow.park, ign := s.sampledNow.ign
    wndLine := s.sampledNow.wndLine } := by
  have lines := (forEach_sampleLine (s.elapse 1).samplePulses.sampledLines_nodup (s.elapse 1).samplePulses).2
  unfold State.sampledNow State.sampleDiscrete
  generalize forEach (s.elapse 1).samplePulses.sampledLines (fun l t => t.sampleLine l) (s.elapse 1).samplePulses = w
    at lines
  rw [lines]
  rfl

theorem State.tickRunning_eq : s.tickRunning = { s.sampledNow with
    resetLow := if s.pins.reset then 0 else min (ms 1) (s.resetLow + 1), pending := s.pending ++ s.idleEvents } := by
  have frame := s.sampledNow_frame
  have whole : s.tickRunning = s.sampledNow.watchReset.1.enqueue ((s.elapse 1).pulseEvents ++ s.sampledNow.firstLevels ++
      s.sampledNow.lineEvents ++ s.sampledNow.dueEvents ++ s.sampledNow.watchReset.2) := rfl
  rw [whole]
  unfold State.idleEvents
  generalize s.sampledNow = v at frame ⊢
  have pins : v.pins = s.pins := by rw [frame, State.elapse_eq]
  have low : v.resetLow = s.resetLow := by rw [frame, State.elapse_eq]
  have pending : v.pending = s.pending := by rw [frame, State.elapse_eq]
  unfold State.watchReset State.enqueue
  rw [← pins, ← low, ← pending]
  split <;> rfl

/-! ### The sources of the events queued -/

/-- The kind of an event that an idle step may queue, by what raises it. -/
def idleSource : Instr → Nat
  | .plsPulse _ | .wndPulse => 0
  | .initialAcceptedLevel _ => 1
  | .roomHomeClosed _ _ | .roomHomeOpened _ _ | .jackHomeClosed _ | .jackHomeOpened _ | .awningHomeClosed
  | .awningHomeOpened | .parkSet | .parkReleased | .ignRise => 2
  | .stall _ | .stoppingEnd _ | .dwellEnd _ | .rampStep _ => 3
  | .roomSeatDeadline _ _ | .roomRunTimeout _ => 4
  | .awningSeatDeadline | .awningRunTimeout | .jackRunTimeout | .contactPhaseTimeout | .settleEnd | .passTimeout => 5
  | .holdDeadline _ | .pauseLimit _ => 6
  | .partialFrameTimeout _ | .replySent _ => 7
  | .gustHoldReached | .calmHoldReached | .faultPatternEnd | .motionPeriod | .storeWriteComplete => 8
  | .censusRead _ _ | .confirmingRead _ _ | .analogSample _ _ => 9
  | .tiltSample _ _ | .supplySample _ | .windSpeedTick | .recensusPass _ => 10
  | .warmReset _ => 11
  | _ => 12

/-- The events of a kind that an idle step queues. -/
def State.idleEventsOf (s : State) : Nat → List Instr
  | 0 => (s.elapse 1).pulseEvents
  | 1 => s.sampledNow.firstLevels
  | 2 => s.sampledNow.lineEvents
  | 3 => (allChans.map s.sampledNow.channelEvents).flatten
  | 4 => (allRooms.map s.sampledNow.roomEvents).flatten
  | 5 => s.sampledNow.axisEvents
  | 6 => (allGroups.map s.sampledNow.groupEvents).flatten
  | 7 => (allPorts.map s.sampledNow.portEvents).flatten
  | 8 => s.sampledNow.otherEvents
  | 9 => (allChans.map s.sampledNow.channelPeriodic).flatten
  | 10 => s.sampledNow.periodic
  | 11 => if s.pins.reset then [] else dueIf (decide (s.resetLow + 1 = ms 1)) (.warmReset s.pins.straps)
  | _ => []

theorem mem_dueIf {b : Bool} : c ∈ dueIf b d ↔ b = true ∧ c = d := by
  unfold dueIf
  split <;> simp [*]

/-- Each list of events that an idle step queues holds events of its own kind. -/
theorem State.source_idleEventsOf (k : Nat) (mem : c ∈ s.idleEventsOf k) : idleSource c = k := by
  unfold State.idleEventsOf at mem
  split at mem
  · simp only [State.pulseEvents, List.mem_append, List.mem_map] at mem
    obtain ⟨n, -, rfl⟩ | mem := mem
    · rfl
    · split at mem
      · obtain rfl := List.mem_singleton.mp mem
        rfl
      · simp at mem
  · unfold State.firstLevels at mem
    dsimp only at mem
    split at mem
    · simp at mem
    · obtain rfl := List.mem_singleton.mp mem
      rfl
  · unfold State.lineEvents at mem
    obtain ⟨m, listed, mem⟩ := List.mem_flatten.mp mem
    obtain ⟨l, -, rfl⟩ := List.mem_map.mp listed
    split at mem
    · unfold State.lineEvent at mem
      split at mem
      · split at mem <;> simp at mem <;> subst mem <;> rfl
      · obtain rfl := List.mem_singleton.mp mem
        split <;> rfl
      · split at mem
        · obtain rfl := List.mem_singleton.mp mem
          rfl
        · simp at mem
      all_goals simp at mem
    · simp at mem
  · simp only [State.channelEvents, List.mem_flatten, List.mem_map] at mem
    obtain ⟨l, ⟨n, -, rfl⟩, mem⟩ := mem
    simp only [List.mem_append, mem_dueIf] at mem
    obtain ((⟨-, rfl⟩ | ⟨-, rfl⟩) | ⟨-, rfl⟩) | ⟨-, rfl⟩ := mem <;> rfl
  · simp only [State.roomEvents, List.mem_flatten, List.mem_map] at mem
    obtain ⟨l, ⟨n, -, rfl⟩, mem⟩ := mem
    simp only [List.mem_append, mem_dueIf, List.mem_flatten, List.mem_map] at mem
    obtain ⟨l, ⟨m, -, rfl⟩, mem⟩ | ⟨-, rfl⟩ := mem
    · obtain ⟨-, rfl⟩ := mem_dueIf.mp mem
      rfl
    · rfl
  · simp only [State.axisEvents, List.mem_append, mem_dueIf] at mem
    obtain ((⟨-, rfl⟩ | ⟨-, rfl⟩) | ⟨-, rfl⟩) | mem := mem
    · rfl
    · rfl
    · rfl
    · split at mem
      · split at mem
        · obtain rfl := List.mem_singleton.mp mem
          rfl
        · obtain ⟨-, rfl⟩ := mem_dueIf.mp mem
          rfl
        · obtain rfl := List.mem_singleton.mp mem
          rfl
      · simp at mem
  · simp only [State.groupEvents, List.mem_flatten, List.mem_map] at mem
    obtain ⟨l, ⟨n, -, rfl⟩, mem⟩ := mem
    simp only [List.mem_append, mem_dueIf] at mem
    obtain ⟨-, rfl⟩ | ⟨-, rfl⟩ := mem <;> rfl
  · simp only [State.portEvents, List.mem_flatten, List.mem_map] at mem
    obtain ⟨l, ⟨n, -, rfl⟩, mem⟩ := mem
    simp only [List.mem_append, mem_dueIf] at mem
    obtain ⟨-, rfl⟩ | ⟨-, rfl⟩ := mem <;> rfl
  · simp only [State.otherEvents, List.mem_append, mem_dueIf] at mem
    obtain (((⟨-, rfl⟩ | ⟨-, rfl⟩) | ⟨-, rfl⟩) | ⟨-, rfl⟩) | ⟨-, rfl⟩ := mem <;> rfl
  · simp only [State.channelPeriodic, List.mem_flatten, List.mem_map] at mem
    obtain ⟨l, ⟨n, -, rfl⟩, mem⟩ := mem
    simp only [List.mem_append, mem_dueIf] at mem
    obtain (⟨-, rfl⟩ | ⟨-, rfl⟩) | ⟨-, rfl⟩ := mem <;> rfl
  · simp only [State.periodic, List.mem_append, mem_dueIf] at mem
    obtain ((⟨-, rfl⟩ | ⟨-, rfl⟩) | ⟨-, rfl⟩) | ⟨-, rfl⟩ := mem <;> rfl
  · split at mem
    · simp at mem
    · obtain ⟨-, rfl⟩ := mem_dueIf.mp mem
      rfl
  · simp at mem

theorem State.mem_idleEvents : c ∈ s.idleEvents ↔ c ∈ s.idleEventsOf (idleSource c) := by
  have each (k : Nat) (mem : c ∈ s.idleEventsOf k) : c ∈ s.idleEventsOf (idleSource c) := by
    rw [State.source_idleEventsOf k mem]
    exact mem
  unfold State.idleEvents State.dueEvents
  simp only [List.mem_append]
  constructor
  · rintro ((((mem | mem) | mem) | (((((((mem | mem) | mem) | mem) | mem) | mem) | mem) | mem)) | mem)
    · exact each 0 mem
    · exact each 1 mem
    · exact each 2 mem
    · exact each 3 mem
    · exact each 4 mem
    · exact each 5 mem
    · exact each 6 mem
    · exact each 7 mem
    · exact each 8 mem
    · exact each 9 mem
    · exact each 10 mem
    · exact each 11 mem
  · generalize idleSource c = k
    intro mem
    unfold State.idleEventsOf at mem
    split at mem <;> simp_all

end

end Sys2Proof.Machine
end

section
/-! PROOFS. The census reads are taken at their moments and raised by the idle step (R2 to R5, R7). -/

namespace Sys2Proof.Machine

section
variable {s t u : State} {n : Chan} {r : Levels} {c d : Instr}

theorem step_idle (empty : s.pending = []) (awake : s.inReset = none) : step s = .next s.tickRunning := by
  unfold step
  rw [empty]
  simp only [State.tick, awake]

theorem mem_flatten_allChans {f : Chan → List Instr} : c ∈ (allChans.map f).flatten ↔ ∃ n, c ∈ f n := by
  simp [mem_allChans]

theorem Later.motionChans (later : Later s u) (e : Entry) : u.motionChans e = s.motionChans e := by
  rw [later.frame]
  rfl

theorem Later.motionOfChan (later : Later s u) : u.motionOfChan n = s.motionOfChan n := by
  rw [later.frame]
  rfl

theorem State.noticed_confirmRead (changed : readState (s.role n) r ≠ (s.chan n).census) :
    (s.confirmRead n r).1.noticed .census = true := by
  have taken : (s.readTaken n r).noticed .census = true := by
    unfold State.readTaken
    dsimp only
    rw [if_pos (show ((s.chan n).confirmed (s.role n) r).census ≠ (s.chan n).census from changed)]
    exact State.noticed_raise ..
  rw [State.confirmRead_eq]
  split
  · rw [State.channelFault]
    rw [State.noticed_iff] at taken ⊢
    intro p
    rw [State.stopChan_frame]
    exact taken p
  · exact taken

theorem State.readTaken_outer : s.readTaken n r =
    { s with channels := (s.readTaken n r).channels, ports := (s.readTaken n r).ports } := by
  have frame := s.readTaken_frame (n := n) (r := r)
  have channels : (s.readTaken n r).channels = (s.setChan n ((s.chan n).confirmed (s.role n) r)).channels := by
    rw [frame]
  generalize s.readTaken n r = v at frame channels ⊢
  rw [frame]
  rfl

/-- A read of a channel that no motion drives touches its channel and the notices only. -/
theorem State.event_confirmRead_still (idle : s.motionOfChan n = none) (taken : (s.event fun t => t.confirmRead n r) = t) :
    t = { s with channels := t.channels, ports := t.ports } ∧ (∀ x, x ≠ n → t.chan x = s.chan x) ∧
      (t.chan n).drive = (s.chan n).drive := by
  have work : s.confirmRead n r = (s.readTaken n r, []) := by
    rw [State.confirmRead_eq, if_neg]
    simp [idle]
  have quiet : (s.event fun t => t.confirmRead n r) = (s.confirmRead n r).1 :=
    State.event_quiet (f := fun t => t.confirmRead n r) (by rw [work]) (by rw [work, State.readTaken_frame]; rfl)
  have same : s.readTaken n r = t := by rw [← taken, quiet, work]
  have outer := s.readTaken_outer (n := n) (r := r)
  have chan := fun i => s.chan_readTaken (n := n) (r := r) (i := i)
  rw [same] at outer chan
  refine ⟨outer, fun x other => ?_, ?_⟩
  · rw [chan, if_neg (Ne.symm other)]
  · rw [chan, if_pos rfl]
    rfl

/-- What the clock and a sample leave of the records that time drives. -/
theorem State.later_sampledNow : ∃ u, Later s u ∧ u.now = s.now + 1 ∧ s.sampledNow = { u with
    tickedAt := some (s.now + 1), lines := s.sampledNow.lines, park := s.sampledNow.park, ign := s.sampledNow.ign
    wndLine := s.sampledNow.wndLine } :=
  ⟨s.elapse 1, Later.elapse s 1, rfl, s.sampledNow_frame⟩

theorem State.now_sampledNow : s.sampledNow.now = s.now + 1 := by
  rw [s.sampledNow_frame]
  rfl

theorem State.layout_sampledNow : s.sampledNow.layout = s.layout := by
  obtain ⟨u, later, now, frame⟩ := s.later_sampledNow
  rw [frame, later.frame]

theorem State.straps_sampledNow : s.sampledNow.straps = s.straps := by
  obtain ⟨u, later, now, frame⟩ := s.later_sampledNow
  rw [frame, later.frame]

theorem State.chan_sampledNow : ∃ duty, s.sampledNow.chan n = { s.chan n with waveDuty := duty } := by
  obtain ⟨u, later, now, frame⟩ := s.later_sampledNow
  exact ⟨(u.chan n).waveDuty, by rw [frame]; exact later.chan n⟩

theorem State.role_sampledNow : s.sampledNow.role n = s.role n := by
  unfold State.role
  rw [State.layout_sampledNow]

theorem State.needsReads_sampledNow : s.sampledNow.needsReads n = s.needsReads n := by
  unfold State.needsReads State.present
  rw [State.role_sampledNow, State.straps_sampledNow]

theorem State.reads_sampledNow : s.sampledNow.startingUp n = s.startingUp n ∧ s.sampledNow.confirming n = s.confirming n ∧
    s.sampledNow.readDue n = s.readDue n := by
  obtain ⟨duty, chan⟩ := s.chan_sampledNow (n := n)
  have start : s.sampledNow.censusStart = s.censusStart := by
    obtain ⟨u, later, now, frame⟩ := s.later_sampledNow
    rw [frame, later.frame]
  unfold State.startingUp State.confirming State.readDue
  rw [State.needsReads_sampledNow, chan, start]
  exact ⟨rfl, rfl, rfl⟩

/-- The census reads that an idle step raises (R3, R4). -/
theorem mem_idleEvents_read : (.censusRead n r ∈ s.idleEvents ↔
      s.startingUp n = true ∧ s.readDue n ≤ s.now + 1 ∧ r = s.sampledNow.readLevels n) ∧
    (.confirmingRead n r ∈ s.idleEvents ↔
      s.confirming n = true ∧ s.readDue n ≤ s.now + 1 ∧ r = s.sampledNow.readLevels n) := by
  obtain ⟨starts, confirms, due⟩ := s.reads_sampledNow (n := n)
  constructor
  · rw [State.mem_idleEvents]
    change _ ∈ (allChans.map s.sampledNow.channelPeriodic).flatten ↔ _
    rw [mem_flatten_allChans]
    constructor
    · rintro ⟨i, mem⟩
      simp only [State.channelPeriodic, List.mem_append, mem_dueIf, Bool.and_eq_true, decide_eq_true_eq, reduceCtorEq,
        and_false, or_false, Instr.censusRead.injEq] at mem
      obtain ⟨⟨starting, moment⟩, rfl, levels⟩ := mem
      rw [starts] at starting
      rw [due, State.now_sampledNow] at moment
      exact ⟨starting, moment, levels⟩
    · rintro ⟨starting, moment, rfl⟩
      refine ⟨n, List.mem_append_left _ (List.mem_append_left _ (mem_dueIf.mpr ⟨?_, rfl⟩))⟩
      rw [starts, starting, due, State.now_sampledNow, decide_eq_true moment]
      rfl
  · rw [State.mem_idleEvents]
    change _ ∈ (allChans.map s.sampledNow.channelPeriodic).flatten ↔ _
    rw [mem_flatten_allChans]
    constructor
    · rintro ⟨i, mem⟩
      simp only [State.channelPeriodic, List.mem_append, mem_dueIf, Bool.and_eq_true, decide_eq_true_eq, reduceCtorEq,
        and_false, or_false, false_or, Instr.confirmingRead.injEq] at mem
      obtain ⟨⟨confirming, moment⟩, rfl, levels⟩ := mem
      rw [confirms] at confirming
      rw [due, State.now_sampledNow] at moment
      exact ⟨confirming, moment, levels⟩
    · rintro ⟨confirming, moment, rfl⟩
      refine ⟨n, List.mem_append_left _ (List.mem_append_right _ (mem_dueIf.mpr ⟨?_, rfl⟩))⟩
      rw [confirms, confirming, due, State.now_sampledNow, decide_eq_true moment]
      rfl

end

/-- Settles O34: a read is compared at its moment; two that agree are taken, and what a channel's loss ends is R7's; the
idle step raises the reads that fall due. -/
theorem readsThatAgreeSettleAChannel : Obligations.ReadsThatAgreeSettleAChannel := by
  unfold Obligations.ReadsThatAgreeSettleAChannel
  refine ⟨fun s c n r awake command => ?_, fun s empty awake => ?_⟩
  · rw [exec_read awake command]
    have needs : s.needsReads n = true ↔ s.present n = true ∧ s.role n ≠ .none := by simp [State.needsReads]
    have starts : s.startingUp n = true ↔ s.needsReads n = true ∧ (s.chan n).settled = false := by simp [State.startingUp]
    have confirms : s.confirming n = true ↔ s.needsReads n = true ∧ (s.chan n).settled = true ∧
        (s.chan n).pendingRead ≠ none := by simp [State.confirming, Option.isSome_iff_ne_none, and_assoc]
    refine ⟨fun never => ?_, fun present role falls moment u moment_eq u_eq => ?_⟩
    · rw [if_neg]
      rintro (⟨same, starting⟩ | ⟨same, confirming⟩)
      · obtain ⟨needed, settled⟩ := starts.mp starting
        obtain absent | ⟨-, done⟩ | ⟨other, -⟩ := never
        · exact absent.elim (fun a => by simp [(needs.mp needed).1] at a) (needs.mp needed).2
        · rw [settled] at done
          exact absurd done (by simp)
        · rw [same] at other
          exact absurd other (by simp)
      · obtain ⟨needed, settled, waits⟩ := confirms.mp confirming
        obtain absent | ⟨other, -⟩ | ⟨-, done⟩ := never
        · exact absent.elim (fun a => by simp [(needs.mp needed).1] at a) (needs.mp needed).2
        · rw [same] at other
          exact absurd other (by simp)
        · exact done.elim (fun a => by rw [settled] at a; exact absurd a (by simp)) waits
    · have taken : (c = .censusRead n r ∧ s.startingUp n = true) ∨ (c = .confirmingRead n r ∧ s.confirming n = true) :=
        falls.imp (fun ⟨same, settled⟩ => ⟨same, starts.mpr ⟨needs.mpr ⟨present, role⟩, settled⟩⟩)
          fun ⟨same, settled⟩ => ⟨same, confirms.mpr ⟨needs.mpr ⟨present, role⟩, settled⟩⟩
      have later : Later s u := u_eq ▸ Later.advanceTo s moment
      have same : s.takeRead n r = if s.comes moment then u.event fun t => t.compareRead n r else s := by
        unfold State.takeRead State.readDue
        rw [u_eq, moment_eq]
      have waiting : (u.chan n).pendingRead = (s.chan n).pendingRead := by rw [later.chan]
      have comes := (clockMovesToTheMoment s moment).1
      rw [if_pos taken, same]
      refine ⟨fun ahead ticked => ?_, fun due => ?_⟩
      · rw [if_neg fun h => (comes.mp h).elim (Nat.not_le.mpr ahead) fun other => other ticked]
      · rw [if_pos (comes.mpr due)]
        refine ⟨fun differs => ?_, fun agrees => ?_⟩
        · rw [State.compareRead_waits u n r (waiting ▸ differs)]
          rfl
        · have confirmed : (u.event fun t => t.compareRead n r) = u.event fun t => t.confirmRead n r := by
            unfold State.event State.handing
            dsimp only
            unfold State.compareRead
            rw [if_pos (waiting.trans agrees)]
          rw [confirmed]
          have roleU : u.role n = s.role n := later.role n
          have does : Does (fun _ => False) (u.confirmRead n r).1 (u.event fun t => t.confirmRead n r) :=
            State.event_does (F := fun _ => False) (f := fun t => t.confirmRead n r) (s := u) State.confirmRead_plain
          generalize taken : (u.event fun t => t.confirmRead n r) = t at does
          have reading : (t.chan n).reading = ((u.chan n).confirmed (s.role n) r).reading := by
            rw [does.follows.readings, State.reading_confirmRead, roleU]
          have census : (t.chan n).census = readState (s.role n) r := by
            have e := congrArg Channel.census reading
            exact e
          refine ⟨t, rfl, ?_, ?_, ?_, ?_, ?_, ?_, fun changed => ?_, fun idle => ?_, fun g e own found belongs seated lost => ?_⟩
          · have e := congrArg Channel.settled reading
            exact e
          · have e := congrArg Channel.pendingRead reading
            exact e
          · have e := congrArg Channel.pendingAt reading
            exact e
          · have e := congrArg Channel.settledLevels reading
            exact e
          · have e := congrArg Channel.kindRead reading
            exact e
          · rw [census]
            unfold readState levelsKind
            simp only [Bool.and_eq_true, Bool.or_eq_true]
          · refine does.follows.noticed ?_
            refine State.noticed_confirmRead fun same => changed ?_
            rw [census, ← roleU, same, later.chan]
          · have none : u.motionOfChan n = none := by rw [later.motionOfChan]; exact idle
            obtain ⟨frame, others, drive⟩ := State.event_confirmRead_still (r := r) none taken
            exact ⟨frame, others, drive.trans (by rw [later.chan])⟩
          · have old : (u.chan n).census = .seated := by rw [later.chan]; exact seated
            have belongsU : n ∈ u.motionChans e := by rw [later.motionChans]; exact belongs
            obtain ⟨ended, fault⟩ := State.event_readLoss (r := r) (roleU ▸ own) ((later.entryOf g).trans found) belongsU old
              (by rw [roleU, ← census]; exact lost)
            rw [taken] at ended fault
            refine ⟨ended, fun id group => ?_⟩
            rw [fault id group, later.slider, roleU, census]
            rfl
  · refine ⟨_, step_idle empty awake, fun n r moment moment_eq => ?_⟩
    have pending : s.tickRunning.pending = s.idleEvents := by
      rw [State.tickRunning_eq, empty]
      rfl
    have levels : s.tickRunning.readLevels n = s.sampledNow.readLevels n := by
      rw [State.tickRunning_eq]
      rfl
    have now : s.tickRunning.now = s.now + 1 := by
      rw [State.tickRunning_eq]
      exact State.now_sampledNow
    obtain ⟨starting, confirming⟩ := mem_idleEvents_read (s := s) (n := n) (r := r)
    rw [pending, levels, now, starting, confirming, moment_eq]
    unfold State.startingUp State.confirming State.needsReads State.readDue
    simp [and_assoc, Option.isSome_iff_ne_none]

end Sys2Proof.Machine
end

section
/-! PROOFS. The idle step is one sample of every line, and what it queues (R21 to R26, R183, log 2, 10, 29, 31). -/

namespace Sys2Proof.Machine

section
variable {s t u : State} {n i : Chan} {l : Line} {x : DiscreteLine} {c : Instr} {p : Port} {g : Group}

/-! ### Samples of a discrete line -/

theorem DiscreteLine.samples_sampled (pin : Bool) :
    (x.sampled l pin).samples = (x.samples ++ [pin]).drop (x.samples.length + 1 - 3) := by
  have pushed : (x.push pin).samples = (x.samples ++ [pin]).drop (x.samples.length + 1 - 3) := by
    simp [DiscreteLine.push, lastThree]
  unfold DiscreteLine.sampled
  split
  · split <;> exact pushed
  · exact pushed

/-- The level that a history calls for takes three samples. -/
theorem DiscreteLine.wanted_samples {v : Bool} (wanted : x.wanted = some v) :
    ∃ a b c, x.samples = [a, b, c] ∧ v = ((a && b) || (a && c) || (b && c)) ∧ x.accepted ≠ some v := by
  unfold DiscreteLine.wanted majority at wanted
  split at wanted
  · next m held =>
    split at held
    · next a b c samples =>
      injection held with held
      subst held
      split at wanted
      · exact absurd wanted (by simp)
      · next other =>
        injection wanted with same
        subst same
        exact ⟨a, b, c, samples, rfl, other⟩
    · exact absurd held (by simp)
  · exact absurd wanted (by simp)

theorem DiscreteLine.wanted_of_samples {a b c : Bool} (samples : x.samples = [a, b, c]) :
    x.wanted = if x.accepted = some ((a && b) || (a && c) || (b && c)) then none
      else some ((a && b) || (a && c) || (b && c)) := by
  simp only [DiscreteLine.wanted, majority, samples]

theorem DiscreteLine.accepted_sampled_short {pin : Bool} (short : (x.sampled l pin).samples.length < 3) :
    (x.sampled l pin).accepted = x.accepted := by
  have pushed : (x.push pin).samples.length < 3 := by
    rw [DiscreteLine.samples_sampled] at short
    simpa [DiscreteLine.push, lastThree] using short
  have none : (x.push pin).wanted = none := by
    cases wanted : (x.push pin).wanted with
    | none => rfl
    | some v =>
      obtain ⟨a, b, c, samples, -, -⟩ := DiscreteLine.wanted_samples wanted
      rw [samples] at pushed
      simp at pushed
  unfold DiscreteLine.sampled
  rw [none]
  rfl

/-- The accepted level after a sample: a quiet level is the majority's at once. -/
theorem DiscreteLine.accepted_sampled {pin a b c : Bool} (samples : (x.sampled l pin).samples = [a, b, c]) :
    (x.sampled l pin).accepted = x.accepted.map fun old =>
      if quietLevel l ((a && b) || (a && c) || (b && c)) then (a && b) || (a && c) || (b && c) else old := by
  have pushed : (x.push pin).samples = [a, b, c] := by
    rw [DiscreteLine.samples_sampled] at samples
    simpa [DiscreteLine.push, lastThree] using samples
  have kept : (x.push pin).accepted = x.accepted := rfl
  unfold DiscreteLine.sampled
  rw [DiscreteLine.wanted_of_samples pushed, kept]
  generalize ((a && b) || (a && c) || (b && c)) = m
  cases held : x.accepted with
  | none =>
    split
    · contradiction
    · simp [kept, held]
  | some old =>
    by_cases same : old = m
    · subst same
      simp [kept, held]
    · simp only [Option.some.injEq, same, if_false]
      split <;> simp [kept, held]

theorem DiscreteLine.accepted_sampled_loud {pin : Bool} (loud : ∀ v, quietLevel l v = false) :
    (x.sampled l pin).accepted = x.accepted := by
  unfold DiscreteLine.sampled
  split
  · rw [loud]
    rfl
  · rfl

/-! ### Samples of a pulse line -/

/-- A pulse line's record after a sample (R24, R26). -/
theorem PulseLine.sample_eq (old : PulseLine) (count : Nat) (pin : Bool) : (old.sample count pin).1 =
    (match old.accepted with
      | none => { accepted := some pin, run := 0 }
      | some a =>
        if pin = a then { accepted := some a, run := 0 }
        else if count ≤ old.run + 1 then { accepted := some pin, run := 0 }
        else { accepted := some a, run := old.run + 1 }) := by
  unfold PulseLine.sample
  cases held : old.accepted with
  | none => rfl
  | some a =>
    dsimp only
    split
    · rfl
    · split <;> rfl

/-- A pulse is accepted at a rising edge (R25). -/
theorem PulseLine.sample_rises (old : PulseLine) (count : Nat) (pin : Bool) : (old.sample count pin).2 = true ↔
    old.accepted = some false ∧ (old.sample count pin).1.accepted = some true := by
  unfold PulseLine.sample
  cases held : old.accepted with
  | none => simp
  | some a =>
    dsimp only
    split
    · cases a <;> simp_all
    · split
      · cases a <;> cases pin <;> simp_all
      · cases a <;> simp

/-! ### The lines after an idle step -/

theorem State.line_samplePulses : s.samplePulses.line l = s.line l := by
  cases l with
  | park => rfl
  | ign => rfl
  | _ n =>
    simp only [State.line, State.samplePulses, Fin.getElem_fin, Vector.getElem_ofFn, Fin.eta]
    split <;> rfl

theorem State.line_elapse : (s.elapse 1).line l = s.line l := by
  rw [State.elapse_eq]
  cases l <;> rfl

theorem State.conditioned_elapse : (s.elapse 1).samplePulses.conditioned l = s.conditioned l := by
  unfold State.samplePulses
  rw [State.elapse_eq]
  cases l <;> rfl

theorem State.lineOrigin_elapse : (s.elapse 1).samplePulses.lineOrigin l = s.lineOrigin l := by
  unfold State.samplePulses
  rw [State.elapse_eq]
  cases l <;> rfl

/-- A line is sampled at its moments (R21, R23). -/
theorem State.line_sampledNow : s.sampledNow.line l =
    if s.conditioned l = true ∧ s.lineOrigin l < s.now + 1 ∧ (s.now + 1 - s.lineOrigin l) % 40 = 0 then
      (s.line l).sampled l (s.pinOf l)
    else s.line l := by
  obtain ⟨after, -⟩ := forEach_sampleLine (s.elapse 1).samplePulses.sampledLines_nodup (s.elapse 1).samplePulses
  have now : s.sampledNow.line l = (s.elapse 1).samplePulses.sampleDiscrete.line l := by cases l <;> rfl
  have old : (s.elapse 1).samplePulses.line l = s.line l := by
    rw [State.line_samplePulses, State.line_elapse]
  have pin : (s.elapse 1).samplePulses.pinOf l = s.pinOf l := State.pinOf_congr (by rw [State.elapse_eq]; rfl)
  have member : l ∈ (s.elapse 1).samplePulses.sampledLines ↔
      s.conditioned l = true ∧ s.lineOrigin l < s.now + 1 ∧ (s.now + 1 - s.lineOrigin l) % 40 = 0 := by
    rw [State.mem_sampledLines, State.conditioned_elapse, State.lineOrigin_elapse]
    rfl
  rw [now, State.sampleDiscrete, after, old, pin]
  simp only [member]

theorem State.pls_setLine : ((s.setLine x l).lines[n]).pls = (s.lines[n]).pls := by
  cases l with
  | park => rfl
  | ign => rfl
  | _ i =>
    simp only [State.setLine, State.lines_setLines]
    split
    · next same => rw [same]
    · rfl

theorem pls_forEach_sampleLine (lines : List Line) (s : State) :
    ((forEach lines (fun l t => t.sampleLine l) s).lines[n]).pls = (s.lines[n]).pls := by
  induction lines generalizing s with
  | nil => rfl
  | cons l rest ih =>
    have one : ((s.sampleLine l).lines[n]).pls = (s.lines[n]).pls := by
      rw [State.sampleLine_eq]
      exact State.pls_setLine
    exact (ih (s.sampleLine l)).trans one

/-- The pulse line of a channel after a sample (R24, R26). -/
theorem State.pls_sampledNow : (s.sampledNow.lines[n]).pls =
    if s.hasPulses n = true then ((s.lines[n]).pls.sample (s.filterCount n) (s.pins.channels[n]).pls).1
    else (s.lines[n]).pls := by
  have discrete : (s.sampledNow.lines[n]).pls = ((s.elapse 1).samplePulses.lines[n]).pls :=
    pls_forEach_sampleLine (s.elapse 1).samplePulses.sampledLines (s.elapse 1).samplePulses
  rw [discrete]
  unfold State.samplePulses
  rw [State.elapse_eq]
  simp only [Fin.getElem_fin, Vector.getElem_ofFn, Fin.eta]
  generalize held : State.hasPulses _ n = b
  have same : s.hasPulses n = b := held
  rw [same]
  cases b <;> rfl

theorem State.wndLine_sampledNow : s.sampledNow.wndLine =
    if s.layout.wind.present = true then (s.wndLine.sample (acceptanceCount s.layout.wind.filter) s.pins.wnd).1
    else s.wndLine := by
  have frame := (forEach_sampleLine (s.elapse 1).samplePulses.sampledLines_nodup (s.elapse 1).samplePulses).2
  have discrete : s.sampledNow.wndLine = (s.elapse 1).samplePulses.wndLine := by
    unfold State.sampledNow State.sampleDiscrete
    rw [frame]
  rw [discrete]
  unfold State.samplePulses
  rw [State.elapse_eq]
  rfl

/-! ### The events of an idle step -/

theorem mem_idleEvents_pulse : (.plsPulse n ∈ s.idleEvents ↔ s.hasPulses n = true ∧ (s.lines[n]).pls.accepted = some false ∧
      (s.sampledNow.lines[n]).pls.accepted = some true) ∧
    (.wndPulse ∈ s.idleEvents ↔ s.layout.wind.present = true ∧ s.wndLine.accepted = some false ∧
      s.sampledNow.wndLine.accepted = some true) := by
  have layout : (s.elapse 1).layout = s.layout := by rw [State.elapse_eq]
  have pulses : (s.elapse 1).hasPulses = s.hasPulses := by rw [State.elapse_eq]; rfl
  have samples : (s.elapse 1).plsSample n = (s.lines[n]).pls.sample (s.filterCount n) (s.pins.channels[n]).pls := by
    rw [State.elapse_eq]; rfl
  have wind : (s.elapse 1).wndSample = s.wndLine.sample (acceptanceCount s.layout.wind.filter) s.pins.wnd := by
    rw [State.elapse_eq]; rfl
  constructor
  · rw [State.mem_idleEvents]
    change _ ∈ (s.elapse 1).pulseEvents ↔ _
    unfold State.pulseEvents
    have mem : Instr.plsPulse n ∈ ((allChans.filter fun n => (s.elapse 1).hasPulses n && ((s.elapse 1).plsSample n).2).map
        Instr.plsPulse) ↔ s.hasPulses n = true ∧
          ((s.lines[n]).pls.sample (s.filterCount n) (s.pins.channels[n]).pls).2 = true := by
      simp [mem_allChans, pulses, samples]
    rw [List.mem_append, mem, PulseLine.sample_rises, State.pls_sampledNow]
    constructor
    · rintro (⟨has, old, new⟩ | other)
      · exact ⟨has, old, by rw [if_pos has]; exact new⟩
      · split at other <;> simp at other
    · rintro ⟨has, old, new⟩
      rw [if_pos has] at new
      exact .inl ⟨has, old, new⟩
  · rw [State.mem_idleEvents]
    change _ ∈ (s.elapse 1).pulseEvents ↔ _
    unfold State.pulseEvents
    rw [List.mem_append, layout, wind, State.wndLine_sampledNow]
    constructor
    · rintro (other | mem)
      · simp at other
      · split at mem
        · next rises =>
          obtain ⟨has, rises⟩ := Bool.and_eq_true_iff.mp rises
          obtain ⟨old, new⟩ := (PulseLine.sample_rises ..).mp rises
          exact ⟨has, old, by rw [if_pos has]; exact new⟩
        · simp at mem
    · rintro ⟨has, old, new⟩
      rw [if_pos has] at new
      refine .inr ?_
      rw [if_pos (Bool.and_eq_true_iff.mpr ⟨has, (PulseLine.sample_rises ..).mpr ⟨old, new⟩⟩)]
      exact List.mem_singleton_self _

/-- Two of three samples are at a level where the majority is (R21). -/
theorem majority_iff {samples : List Bool} {up : Bool} :
    majority samples = some up ↔ samples.length = 3 ∧ 2 ≤ (samples.filter fun x => x == up).length := by
  match samples with
  | [] | [_] | [_, _] => simp [majority]
  | [a, b, c] => cases a <;> cases b <;> cases c <;> cases up <;> decide
  | _ :: _ :: _ :: _ :: _ => simp [majority]

theorem DiscreteLine.wanted_iff {v : Bool} : x.wanted = some v ↔ majority x.samples = some v ∧ x.accepted ≠ some v := by
  unfold DiscreteLine.wanted
  cases majority x.samples with
  | none => simp
  | some m =>
    dsimp only
    split
    · next same =>
      simp only [reduceCtorEq, Option.some.injEq, false_iff, not_and, not_not]
      rintro rfl
      exact same
    · next other =>
      simp only [Option.some.injEq]
      refine ⟨?_, fun h => h.1⟩
      rintro rfl
      exact ⟨rfl, other⟩

theorem State.mem_lineEvents : c ∈ s.lineEvents ↔ ∃ l v, l ∈ s.sampledLines ∧ (s.line l).accepted = some (!v) ∧
    majority (s.line l).samples = some v ∧ c ∈ s.lineEvent l v := by
  unfold State.lineEvents
  constructor
  · intro mem
    obtain ⟨m, listed, mem⟩ := List.mem_flatten.mp mem
    obtain ⟨l, sampled, rfl⟩ := List.mem_map.mp listed
    split at mem
    · next a v accepted wanted =>
      obtain ⟨held, other⟩ := DiscreteLine.wanted_iff.mp wanted
      refine ⟨l, v, sampled, ?_, held, mem⟩
      rw [accepted] at other ⊢
      cases a <;> cases v <;> simp_all
    · simp at mem
  · rintro ⟨l, v, sampled, accepted, held, mem⟩
    have wanted : (s.line l).wanted = some v := DiscreteLine.wanted_iff.mpr ⟨held, by rw [accepted]; cases v <;> simp⟩
    refine List.mem_flatten.mpr ⟨s.lineEvent l v, List.mem_map.mpr ⟨l, sampled, ?_⟩, mem⟩
    simp only [accepted, wanted]

theorem mem_lineEvent_park {v up : Bool} :
    (if up = true then Instr.parkSet else Instr.parkReleased) ∈ s.lineEvent l v ↔ l = .park ∧ v = up := by
  cases l with
  | park => cases v <;> cases up <;> simp [State.lineEvent]
  | ign => cases v <;> cases up <;> simp [State.lineEvent]
  | hom n =>
    simp only [State.lineEvent, reduceCtorEq, false_and, iff_false]
    intro mem
    split at mem <;> cases up <;> simp at mem
  | _ => simp [State.lineEvent]

theorem mem_idleEvents_park {up : Bool} : (if up = true then Instr.parkSet else Instr.parkReleased) ∈ s.idleEvents ↔
    (s.now + 1) % 40 = 0 ∧ s.park.accepted = some !up ∧ s.sampledNow.park.samples.length = 3 ∧
      2 ≤ (s.sampledNow.park.samples.filter fun x => x == up).length := by
  have line : s.sampledNow.line .park = s.sampledNow.park := rfl
  have source : idleSource (if up = true then Instr.parkSet else Instr.parkReleased) = 2 := by cases up <;> rfl
  have sampled : Line.park ∈ s.sampledNow.sampledLines ↔ (s.now + 1) % 40 = 0 := by
    rw [State.mem_sampledLines, State.now_sampledNow]
    simp [State.conditioned, State.lineOrigin, ms]
  have accepted : s.sampledNow.park.accepted = s.park.accepted := by
    rw [← line, State.line_sampledNow]
    split
    · exact DiscreteLine.accepted_sampled_loud fun v => rfl
    · rfl
  rw [State.mem_idleEvents, source]
  change _ ∈ s.sampledNow.lineEvents ↔ _
  rw [State.mem_lineEvents, ← sampled, ← accepted, ← majority_iff]
  constructor
  · rintro ⟨l, v, member, old, held, mem⟩
    obtain ⟨rfl, rfl⟩ := mem_lineEvent_park.mp mem
    exact ⟨member, old, held⟩
  · rintro ⟨member, old, held⟩
    exact ⟨.park, up, member, old, held, mem_lineEvent_park.mpr ⟨rfl, rfl⟩⟩

theorem mem_idleEvents_stall : .stall n ∈ s.idleEvents ↔
    s.sampledNow.mayStall n = true ∧ s.sampledNow.stallLimit n ≤ (s.sampledNow.paceRec n).counter := by
  rw [State.mem_idleEvents]
  change _ ∈ (allChans.map s.sampledNow.channelEvents).flatten ↔ _
  rw [mem_flatten_allChans]
  constructor
  · rintro ⟨i, mem⟩
    simp only [State.channelEvents, List.mem_append, mem_dueIf, Bool.and_eq_true, decide_eq_true_eq, reduceCtorEq,
      and_false, or_false, Instr.stall.injEq] at mem
    obtain ⟨due, rfl⟩ := mem
    exact due
  · rintro ⟨may, reached⟩
    refine ⟨n, ?_⟩
    simp only [State.channelEvents, List.mem_append, mem_dueIf, Bool.and_eq_true, decide_eq_true_eq, and_true]
    exact .inl (.inl (.inl ⟨may, reached⟩))

theorem mem_idleEvents_holdDeadline : .holdDeadline g ∈ s.idleEvents ↔
    ∃ b due, s.claim g = some b ∧ b.mode = .hold ∧ b.deadline = some due ∧ due ≤ s.now + 1 := by
  have claims : s.sampledNow.holdDue g = s.holdDue g := by
    rw [s.sampledNow_frame, State.elapse_eq]
    rfl
  have due : s.sampledNow.due (s.holdDue g) = true ↔
      ∃ b due, s.claim g = some b ∧ b.mode = .hold ∧ b.deadline = some due ∧ due ≤ s.now + 1 := by
    unfold State.due State.holdDue
    rw [State.now_sampledNow]
    cases claimed : s.claim g with
    | none => simp
    | some b =>
      by_cases held : b.mode = .hold
      · cases deadline : b.deadline <;> simp [held, deadline]
      · simp [held]
  rw [← due, ← claims, State.mem_idleEvents]
  change _ ∈ (allGroups.map s.sampledNow.groupEvents).flatten ↔ _
  constructor
  · intro mem
    obtain ⟨m, listed, mem⟩ := List.mem_flatten.mp mem
    obtain ⟨i, -, rfl⟩ := List.mem_map.mp listed
    simp only [State.groupEvents, List.mem_append, mem_dueIf, reduceCtorEq, and_false, or_false,
      Instr.holdDeadline.injEq] at mem
    obtain ⟨due, rfl⟩ := mem
    exact due
  · intro due
    refine List.mem_flatten.mpr ⟨_, List.mem_map.mpr ⟨g, mem_allGroups g, rfl⟩, ?_⟩
    exact List.mem_append_left _ (mem_dueIf.mpr ⟨due, rfl⟩)

theorem mem_idleEvents_replySent : .replySent p ∈ s.idleEvents ↔ ∃ r rest start, (s.port p).replies = r :: rest ∧
    (s.port p).headSince = some start ∧ start + sendTime s.straps.rate r.length ≤ s.now + 1 := by
  have ports : s.sampledNow.replyDue p = s.replyDue p := by
    rw [s.sampledNow_frame, State.elapse_eq]
    rfl
  have due : s.sampledNow.due (s.replyDue p) = true ↔ ∃ r rest start, (s.port p).replies = r :: rest ∧
      (s.port p).headSince = some start ∧ start + sendTime s.straps.rate r.length ≤ s.now + 1 := by
    unfold State.due State.replyDue
    rw [State.now_sampledNow]
    cases replies : (s.port p).replies with
    | nil => simp
    | cons r rest => cases since : (s.port p).headSince <;> simp
  rw [← due, ← ports, State.mem_idleEvents]
  change _ ∈ (allPorts.map s.sampledNow.portEvents).flatten ↔ _
  constructor
  · intro mem
    obtain ⟨m, listed, mem⟩ := List.mem_flatten.mp mem
    obtain ⟨i, -, rfl⟩ := List.mem_map.mp listed
    simp only [State.portEvents, List.mem_append, mem_dueIf, reduceCtorEq, and_false, false_or,
      Instr.replySent.injEq] at mem
    obtain ⟨due, rfl⟩ := mem
    exact due
  · intro due
    refine List.mem_flatten.mpr ⟨_, List.mem_map.mpr ⟨p, by cases p <;> decide, rfl⟩, ?_⟩
    exact List.mem_append_right _ (mem_dueIf.mpr ⟨due, rfl⟩)

theorem mem_idleEvents_supplySample {raw : Sample} : .supplySample raw ∈ s.idleEvents ↔
    (s.now + 1) % 400 = 0 ∧ raw = s.pins.vsup := by
  have pins : s.sampledNow.pins = s.pins := by rw [s.sampledNow_frame, State.elapse_eq]
  rw [State.mem_idleEvents]
  change _ ∈ s.sampledNow.periodic ↔ _
  simp [State.periodic, mem_dueIf, State.onGrid, State.now_sampledNow, pins, ms]

theorem mem_idleEvents_warmReset {straps : Straps} : .warmReset straps ∈ s.idleEvents ↔
    s.pins.reset = false ∧ s.resetLow + 1 = 40 ∧ straps = s.pins.straps := by
  rw [State.mem_idleEvents]
  change _ ∈ (if s.pins.reset = true then [] else dueIf (decide (s.resetLow + 1 = ms 1)) (.warmReset s.pins.straps)) ↔ _
  cases s.pins.reset <;> simp [mem_dueIf, ms]

/-! ### Commands in a reset -/

theorem asleep {f : State → State} (resetting : s.inReset.isSome = true) : s.awake f = s := by
  simp [State.awake, resetting]

/-- In a reset no command but a reset or its end acts (log 31). -/
theorem exec_asleep (resetting : s.inReset.isSome = true) (other : ∀ k straps, c ≠ resetCommand k straps)
    (running : c ≠ .resetEnd) : exec c s = .next s := by
  cases c with
  | coldReset straps => exact absurd rfl (other .cold straps)
  | warmReset straps => exact absurd rfl (other .warm straps)
  | resetEnd => exact absurd rfl running
  | _ => exact congrArg _ (asleep resetting)

/-! ### The state after an idle step -/

/-- Of the state of an idle step changes what an idle step may change. -/
theorem State.tickRunning_frame : { s.tickRunning with
    pending := s.pending, now := s.now, tickedAt := s.tickedAt, resetLow := s.resetLow, channels := s.channels
    lines := s.lines
    park := s.park, ign := s.ign, wndLine := s.wndLine, pace := s.pace, rooms := s.rooms
    awning := s.awning, jackSet := s.jackSet, level := s.level, wind := s.wind } = s := by
  rw [State.tickRunning_eq]
  have frame := s.sampledNow_frame
  generalize s.sampledNow = v at frame ⊢
  rw [frame, State.elapse_eq]

theorem State.timePassed_tickRunning : TimePassed s s.tickRunning 1 := by
  have passed := s.timePassed_elapse (span := 1)
  rw [State.tickRunning_eq]
  have frame := s.sampledNow_frame
  generalize s.sampledNow = v at frame ⊢
  generalize s.elapse 1 = w at passed frame
  rw [frame]
  exact ⟨passed.now, passed.channels, passed.pace, passed.rooms, passed.awning, passed.jacks, passed.jackSet, passed.level,
    passed.wind⟩

theorem State.line_tickRunning : s.tickRunning.line l = s.sampledNow.line l := by
  rw [State.tickRunning_eq]
  cases l <;> rfl

end

/-- Settles O2: each record after an idle step by its own law, and the events it queues by their sources. -/
theorem idleStepIsOneSample : Obligations.IdleStepIsOneSample := by
  unfold Obligations.IdleStepIsOneSample
  refine fun s empty => ⟨fun awake => ⟨_, step_idle empty awake, s.timePassed_tickRunning, ?_⟩, fun cold => ?_, fun warm => ?_,
    fun c resetting other running => exec_asleep resetting other running⟩
  · have pending : s.tickRunning.pending = s.idleEvents := by
      rw [State.tickRunning_eq, empty]
      rfl
    have now : s.tickRunning.now = s.now + 1 := by
      rw [State.tickRunning_eq]
      exact State.now_sampledNow
    have lines : ∀ n : Chan, (s.tickRunning.lines[n]).pls = (s.sampledNow.lines[n]).pls := fun n => by rw [State.tickRunning_eq]
    have park : s.tickRunning.park = s.sampledNow.park := by rw [State.tickRunning_eq]
    have wnd : s.tickRunning.wndLine = s.sampledNow.wndLine := by rw [State.tickRunning_eq]
    have mayStall : ∀ n, s.tickRunning.mayStall n = s.sampledNow.mayStall n := fun n => by rw [State.tickRunning_eq]; rfl
    have stallLimit : ∀ n, s.tickRunning.stallLimit n = s.sampledNow.stallLimit n := fun n => by
      rw [State.tickRunning_eq]; rfl
    have paceRec : ∀ n, s.tickRunning.paceRec n = s.sampledNow.paceRec n := fun n => by rw [State.tickRunning_eq]; rfl
    have ticked : s.tickRunning.tickedAt = some (s.now + 1) := by rw [State.tickRunning_eq, State.sampledNow_frame]
    have low : s.tickRunning.resetLow = if s.pins.reset then 0 else min 40 (s.resetLow + 1) := by
      rw [State.tickRunning_eq]; rfl
    have frame := s.tickRunning_frame
    have lineOf := fun l => s.line_tickRunning (l := l)
    generalize s.tickRunning = t at pending now lines park wnd mayStall stallLimit paceRec ticked low frame lineOf ⊢
    have loud : ∀ l, (∀ v, quietLevel l v = false) → (t.line l).accepted = (s.line l).accepted := fun l loud => by
      rw [lineOf, State.line_sampledNow]
      split
      · exact DiscreteLine.accepted_sampled_loud loud
      · rfl
    rw [pending, now]
    refine ⟨ticked, low, fun l other => ?_, fun l lined begun moment => ?_, loud .park fun v => rfl,
      fun n => loud (.hom n) fun v => rfl, fun l a b c lined begun moment samples => ?_,
      fun old new pin count source => ?_, fun n absent => ?_, fun absent => ?_, fun n => ?_, ?_, fun up => ?_,
      fun straps => mem_idleEvents_warmReset, fun n => ?_, fun g => mem_idleEvents_holdDeadline,
      fun p => mem_idleEvents_replySent, fun raw => mem_idleEvents_supplySample, frame⟩
    · rw [lineOf, State.line_sampledNow, if_neg other]
    · rw [lineOf, State.line_sampledNow, if_pos ⟨lined, begun, moment⟩]
      exact ⟨DiscreteLine.samples_sampled .., DiscreteLine.accepted_sampled_short⟩
    · rw [lineOf, State.line_sampledNow, if_pos ⟨lined, begun, moment⟩] at samples ⊢
      rw [DiscreteLine.accepted_sampled samples]
      refine ⟨?_, ?_⟩
      · rintro ⟨n, rfl | rfl | rfl | rfl⟩ <;> rfl
      · rintro rfl
        congr 1
        funext old
        cases (a && b || a && c || b && c) <;> simp [quietLevel]
    · have sampled : new = (old.sample count pin).1 := by
        obtain ⟨n, has, rfl, rfl, rfl, rfl⟩ | ⟨has, rfl, rfl, rfl, rfl⟩ := source
        · rw [lines, State.pls_sampledNow, if_pos has]
          rfl
        · rw [wnd, State.wndLine_sampledNow, if_pos has]
          rfl
      exact sampled.trans (PulseLine.sample_eq old count pin)
    · rw [lines, State.pls_sampledNow, absent]
      rfl
    · rw [wnd, State.wndLine_sampledNow, absent]
      rfl
    · rw [lines]
      exact mem_idleEvents_pulse.1
    · rw [wnd]
      exact (mem_idleEvents_pulse (n := 0)).2
    · rw [park]
      exact mem_idleEvents_park
    · rw [mayStall, stallLimit, paceRec]
      exact mem_idleEvents_stall
  · unfold step
    rw [empty]
    simp only [State.tick, cold, State.tickInReset]
  · unfold step
    rw [empty]
    have slept : s.tick = s.tickInReset .warm := by simp only [State.tick, warm]
    rw [slept]
    simp only [State.tickInReset, State.enqueue, empty, List.nil_append]

end Sys2Proof.Machine
end

section
/-! PROOFS. A jack that becomes DONE: its valve stops, the pump follows, and the motion is checked (R68, R72 to R76, R84,
R87, R88). -/

namespace Sys2Proof.Machine

section
variable {s t u w p : State} {g : Group} {n i q : Chan} {j k : JackId} {e : Entry} {x : Ending} {a : Action}
  {F : Group → Prop}

/-! ### Events that hand over and then end a motion -/

/-- An event under which every permit stands, and that then ends a motion. -/
theorem State.event_calm_ends {f : State → Work} {rest : List Task} {y : Entry}
    (work : (f s).2 = .endMotion g x :: rest) (calm : (f s).1.fallenPermit = none) (found : (f s).1.entryOf g = some y)
    (plain : Plain rest) : ∃ w, (f s).1.butAlarm w ∧ Ends g x w (s.event f) ∧ Ended g x.outcome (f s).1 (s.event f) := by
  have whole : s.event f = drain (9998 + 2) ((f s).1, .handover s.view :: .endMotion g x :: rest) := by
    unfold State.event State.handing
    dsimp only
    rw [work]
    rfl
  obtain ⟨w, i, same, does, more, -, run⟩ := drain_handover_calm (F := fun _ => True) (k := 9998) (v := s.view)
    (rest := .endMotion g x :: rest) calm
  obtain ⟨i, rfl⟩ := Nat.exists_eq_add_of_le' (Nat.le_trans (by decide : 1 ≤ 9998) more)
  have found' : w.entryOf g = some y := by rw [same.1]; exact found
  have ends : Ends g x w (s.event f) := by
    rw [whole, run]
    exact drain_ends found' plain
  refine ⟨w, same, ends, ends.ended.from ?_ ?_ does.follows.counts does.follows.jackReading does.follows.links
    does.follows.sounds does.follows.fixed⟩
  · rw [same.1]
  · rw [same.1]

/-! ### Valves and the pump -/

theorem State.jacksOf_congr (layout : t.layout = s.layout) : t.jacksOf a = s.jacksOf a := by
  unfold State.jacksOf
  rw [State.configuredJacks_congr layout]

theorem State.valveDriven_congr (layout : t.layout = s.layout) (chans : ∀ n, s.roleChan (.jack j) = some n →
    (t.chan n).driven = (s.chan n).driven) : t.valveDriven j = s.valveDriven j := by
  unfold State.valveDriven
  rw [State.roleChan_layout layout]
  cases valve : s.roleChan (.jack j) with
  | none => rfl
  | some n => exact chans n valve

theorem State.valveDriven_of_stopped (layout : t.layout = s.layout) (chans : ∀ n, s.roleChan (.jack j) = some n →
    (t.chan n).driven = false) : t.valveDriven j = false := by
  unfold State.valveDriven
  rw [State.roleChan_layout layout]
  cases valve : s.roleChan (.jack j) with
  | none => rfl
  | some n => exact chans n valve

/-- Stopping a valve stops its channel. -/
theorem State.stopValve_spec : s.stopValve j = { s with channels := (s.stopValve j).channels } ∧
    ∀ n, (s.stopValve j).chan n = if s.roleChan (.jack j) = some n then (s.chan n).stopped s.now else s.chan n := by
  unfold State.stopValve
  cases valve : s.roleChan (.jack j) with
  | none => exact ⟨rfl, fun n => by simp⟩
  | some m =>
    refine ⟨State.stopChan_frame, fun n => ?_⟩
    dsimp only
    rw [State.stopChan_eq, State.chan_setChan]
    simp only [Option.some.injEq]
    split
    · next same => rw [same]
    · rfl

theorem State.stopValve_setJack (r : Jack) : (s.stopValve j).setJack k r = (s.setJack k r).stopValve j := by
  unfold State.stopValve
  have same : (s.setJack k r).roleChan (.jack j) = s.roleChan (.jack j) := rfl
  rw [same]
  split
  · rw [State.stopChan_eq, State.stopChan_eq]
    rfl
  · rfl

theorem State.stopValve_setLevel (l : LevelRun) :
    { s.stopValve j with level := l } = ({ s with level := l } : State).stopValve j := by
  unfold State.stopValve
  have same : ({ s with level := l } : State).roleChan (.jack j) = s.roleChan (.jack j) := rfl
  rw [same]
  split
  · rw [State.stopChan_eq, State.stopChan_eq]
    rfl
  · rfl

theorem State.jackDone_eq : s.jackDone j = (s.setJack j { s.jack j with phase := .done }).stopValve j := by
  have jack : (s.stopValve j).jack j = s.jack j := by
    rw [State.stopValve_spec.1]
    rfl
  unfold State.jackDone State.onJack
  rw [jack, State.stopValve_setJack]

theorem State.jackAtStroke_eq : s.jackAtStroke j =
    ({ s.setJack j { s.jack j with phase := .done, atStroke := true } with
      level := { s.level with limited := s.level.limited || decide (s.level.status = .active) } } : State).stopValve j := by
  have marked : (s.jackDone j).onJack j (fun r => { r with atStroke := true }) =
      (s.setJack j { s.jack j with phase := .done, atStroke := true }).stopValve j := by
    have jack : (s.jackDone j).jack j = { s.jack j with phase := .done } := by
      rw [State.jackDone_eq, State.stopValve_spec.1]
      exact State.jack_setJack_same ..
    unfold State.onJack
    rw [jack, State.jackDone_eq, State.stopValve_setJack]
    congr 1
    simp [State.setJack]
  unfold State.jackAtStroke
  rw [marked]
  have level : (s.setJack j { s.jack j with phase := .done, atStroke := true }).level = s.level := rfl
  generalize s.setJack j { s.jack j with phase := .done, atStroke := true } = v at level ⊢
  have kept : (v.stopValve j).level = s.level := by
    rw [State.stopValve_spec.1]
    exact level
  unfold State.levelActive
  dsimp only
  rw [kept]
  split
  · next active =>
    rw [State.stopValve_setLevel, eq_of_beq active]
    simp
  · next inactive =>
    have other : s.level.status ≠ .active := fun same => inactive (by rw [same]; rfl)
    have same : { v with level := { s.level with limited := s.level.limited || decide (s.level.status = .active) } } = v := by
      rw [← level] at other ⊢
      simp [other]
    rw [same]

/-- The pump goes on while a valve of the motion is driven, and stops with the last of them (R68). -/
theorem State.pumpFollow_pump (found : s.entryOf .jacks = some e) (pump : s.roleChan .pump = some q) :
    ((∃ i ∈ s.jacksOf e.action, s.valveDriven i = true) → (s.chan q).driven = true → s.pumpFollow = s) ∧
    ((∀ i ∈ s.jacksOf e.action, s.valveDriven i = false) → s.pumpFollow = s.stopChan q) := by
  unfold State.pumpFollow State.jackMotion
  rw [found, pump]
  dsimp only
  constructor
  · rintro ⟨i, mem, driven⟩ runs
    rw [if_pos (List.any_eq_true.mpr ⟨i, mem, driven⟩), if_pos runs]
  · intro none
    rw [if_neg]
    intro any
    obtain ⟨i, mem, driven⟩ := List.any_eq_true.mp any
    rw [none i mem] at driven
    exact absurd driven (by simp)

/-- What a pass of the pump leaves of the valves. -/
theorem State.valveDriven_pumpFollow : s.pumpFollow.valveDriven j = s.valveDriven j := by
  obtain ⟨frame, others⟩ := s.pumpFollow_spec
  refine State.valveDriven_congr (by rw [frame]) fun n valve => ?_
  rw [(others n (by rw [State.role_of_roleChan valve]; simp)).1]

/-! ### A jack becomes DONE -/

/-- From one state to the other a valve has stopped and the pump has followed. -/
structure ValveStopped (w p : State) (e : Entry) (j : JackId) : Prop where
  frame : p = { w with channels := p.channels, pace := p.pace, level := p.level }
  valve : p.valveDriven j = false
  others : ∀ i, i ≠ j → p.valveDriven i = w.valveDriven i
  pumpRuns : ∀ q ∈ w.roleChan .pump, (∃ i ∈ w.jacksOf e.action, i ≠ j ∧ w.valveDriven i = true) →
    (w.chan q).driven = true → (p.chan q).driven = true
  pumpStops : ∀ q ∈ w.roleChan .pump, (∀ i ∈ w.jacksOf e.action, i ≠ j → w.valveDriven i = false) →
    (p.chan q).driven = false

theorem ValveStopped.follow (a : ValveStopped w p e j) (found : w.entryOf .jacks = some e) :
    ValveStopped w p.pumpFollow e j := by
  obtain ⟨frame, -⟩ := p.pumpFollow_spec
  have layout : p.layout = w.layout := by rw [a.frame]
  have found' : p.entryOf .jacks = some e := by rw [a.frame]; exact found
  refine ⟨?_, State.valveDriven_pumpFollow.trans a.valve, fun i other => State.valveDriven_pumpFollow.trans (a.others i other),
    fun q pump some_driven runs => ?_, fun q pump idle => ?_⟩
  · generalize p.pumpFollow = v at frame ⊢
    rw [frame, a.frame]
  · have pump' : p.roleChan .pump = some q := (State.roleChan_layout layout .pump).trans pump
    obtain ⟨i, mem, other, driven⟩ := some_driven
    rw [(State.pumpFollow_pump found' pump').1 ⟨i, by rw [State.jacksOf_congr layout]; exact mem,
      (a.others i other).trans driven⟩ (a.pumpRuns q pump ⟨i, mem, other, driven⟩ runs)]
    exact a.pumpRuns q pump ⟨i, mem, other, driven⟩ runs
  · have pump' : p.roleChan .pump = some q := (State.roleChan_layout layout .pump).trans pump
    rw [(State.pumpFollow_pump found' pump').2 fun i mem => ?_, State.stopChan_eq, State.chan_setChan_same]
    · exact Channel.driven_stopped ..
    · by_cases same : i = j
      · rw [same]
        exact a.valve
      · exact (a.others i same).trans (idle i (by rw [← State.jacksOf_congr layout]; exact mem) same)

/-- The valve of a jack is stopped and the pump follows. -/
theorem ValveStopped.of_stopValve (found : w.entryOf .jacks = some e) :
    ValveStopped w (w.stopValve j).pumpFollow e j := by
  obtain ⟨frame, chans⟩ := w.stopValve_spec (j := j)
  have layout : (w.stopValve j).layout = w.layout := by rw [frame]
  have found' : (w.stopValve j).entryOf .jacks = some e := by rw [frame]; exact found
  have valve : (w.stopValve j).valveDriven j = false := State.valveDriven_of_stopped layout fun n valve => by
    rw [chans, if_pos valve]
    exact Channel.driven_stopped ..
  have others (i : JackId) (other : i ≠ j) : (w.stopValve j).valveDriven i = w.valveDriven i :=
    State.valveDriven_congr layout fun n valve => by
      rw [chans, if_neg]
      intro own
      have same := (State.role_of_roleChan own).symm.trans (State.role_of_roleChan valve)
      exact other (Role.jack.inj same).symm
  have pumpChan (q : Chan) (pump : w.roleChan .pump = some q) : (w.stopValve j).chan q = w.chan q := by
    rw [chans, if_neg]
    intro own
    have same := (State.role_of_roleChan own).symm.trans (State.role_of_roleChan pump)
    exact absurd same (by simp)
  obtain ⟨outer, -⟩ := (w.stopValve j).pumpFollow_spec
  refine ⟨?_, State.valveDriven_pumpFollow.trans valve, fun i other => State.valveDriven_pumpFollow.trans (others i other),
    fun q pump some_driven runs => ?_, fun q pump idle => ?_⟩
  · generalize (w.stopValve j).pumpFollow = v at outer ⊢
    rw [outer, frame]
  · have pump' : (w.stopValve j).roleChan .pump = some q := (State.roleChan_layout layout .pump).trans pump
    obtain ⟨i, mem, other, driven⟩ := some_driven
    rw [(State.pumpFollow_pump found' pump').1 ⟨i, by rw [State.jacksOf_congr layout]; exact mem,
      (others i other).trans driven⟩ (by rw [pumpChan q pump]; exact runs), pumpChan q pump]
    exact runs
  · have pump' : (w.stopValve j).roleChan .pump = some q := (State.roleChan_layout layout .pump).trans pump
    rw [(State.pumpFollow_pump found' pump').2 fun i mem => ?_, State.stopChan_eq, State.chan_setChan_same]
    · exact Channel.driven_stopped ..
    · by_cases same : i = j
      · rw [same]
        exact valve
      · exact (others i same).trans (idle i (by rw [← State.jacksOf_congr layout]; exact mem) same)

theorem ValveStopped.butAlarm (a : ValveStopped w p e j) (b : p.butAlarm t) : t.jacks = w.jacks ∧ t.load = w.load ∧
    t.paused = w.paused ∧ t.claims = w.claims ∧ t.valveDriven j = false ∧ (∀ i, i ≠ j → t.valveDriven i = w.valveDriven i) ∧
    ∀ q ∈ w.roleChan .pump,
      ((∃ i ∈ w.jacksOf e.action, i ≠ j ∧ w.valveDriven i = true) → (w.chan q).driven = true → (t.chan q).driven = true) ∧
      ((∀ i ∈ w.jacksOf e.action, i ≠ j → w.valveDriven i = false) → (t.chan q).driven = false) := by
  have valves (i : JackId) : t.valveDriven i = p.valveDriven i := by rw [b.1]; rfl
  have chans (q : Chan) : t.chan q = p.chan q := by rw [b.1]; rfl
  refine ⟨?_, ?_, ?_, ?_, (valves j).trans a.valve, fun i other => (valves i).trans (a.others i other), fun q pump => ?_⟩
  · rw [b.1, a.frame]
  · rw [b.1, a.frame]
  · rw [b.1, a.frame]
  · rw [b.1, a.frame]
  · rw [chans]
    exact ⟨a.pumpRuns q pump, a.pumpStops q pump⟩

theorem ValveStopped.setLevel (a : ValveStopped w p e j) (l : LevelRun) : ValveStopped w { p with level := l } e j := by
  refine ⟨?_, a.valve, a.others, a.pumpRuns, a.pumpStops⟩
  have frame := a.frame
  generalize p = v at frame ⊢
  rw [frame]

theorem ValveStopped.fallenPermit (a : ValveStopped w p e j) : p.fallenPermit = w.fallenPermit := by
  have frame := a.frame
  generalize p = v at frame ⊢
  rw [frame]
  exact State.fallenPermit_congr rfl rfl rfl rfl

/-- What a level run passes on to when no jack of it is left ACTIVE. -/
def LevelRun.passed (l : LevelRun) : LevelRun :=
  match l.phase with
  | .contact => { l with phase := .settle, phaseTime := 0 }
  | .settle => l
  | .lift => { l with phase := .settle, phaseTime := 0, pass := l.pass + 1 }

theorem State.level_pumpFollow : s.pumpFollow.level = s.level := by
  have e := congrArg State.level s.pumpFollow_spec.1
  exact e

/-- The check of a jack motion, in each of its courses. -/
theorem State.jackCheck_cases (found : p.entryOf .jacks = some e) :
    ((∃ i ∈ p.jacksOf e.action, (p.jack i).phase = .active) → p.jackCheck = (p, [])) ∧
    ((∀ i ∈ p.jacksOf e.action, (p.jack i).phase ≠ .active) →
      (e.action ≠ .level → p.jackCheck = (p, jackEnding { outcome := p.jackOutcome e.action })) ∧
      (e.action = .level → p.running .jacks = false → p.jackCheck = (p, [])) ∧
      (e.action = .level → p.running .jacks = true → p.jackCheck = (p, []) ∧ p.level.passed = p.level ∨
        p.jackCheck = ({ p with level := p.level.passed }.pumpFollow, []))) := by
  have active : p.anyActive (p.jacksOf e.action) = true ↔ ∃ i ∈ p.jacksOf e.action, (p.jack i).phase = .active := by
    simp [State.anyActive]
  unfold State.jackCheck State.jackMotion
  rw [found]
  dsimp only
  refine ⟨fun left => if_pos (active.mpr left), fun none => ?_⟩
  rw [if_neg fun any => (active.mp any).elim fun i h => none i h.1 h.2]
  cases action : e.action with
  | level =>
    refine ⟨fun other => absurd rfl other, fun _ still => ?_, fun _ runs => ?_⟩
    · dsimp only
      rw [still]
      rfl
    · dsimp only
      rw [if_pos runs]
      cases phase : p.level.phase with
      | contact =>
        refine .inr ?_
        simp only [LevelRun.passed, phase]
        rfl
      | settle => exact .inl ⟨rfl, by simp only [LevelRun.passed, phase]⟩
      | lift =>
        refine .inr ?_
        simp only [LevelRun.passed, phase]
        rfl
  | toward d => exact ⟨fun _ => rfl, nofun, nofun⟩
  | jack i d => exact ⟨fun _ => rfl, nofun, nofun⟩

theorem jackOutcome_eq (configured : p.configuredJacks = w.configuredJacks) (jacks : p.jacks = w.jacks) (other : a ≠ .level) :
    p.jackOutcome a = ownOutcome w a := by
  unfold State.jackOutcome ownOutcome
  rw [configured]
  have contact (i : JackId) : (p.jack i).contact = (w.jack i).contact := by rw [State.jack, jacks]; rfl
  cases a with
  | level => exact absurd rfl other
  | toward d =>
    cases d with
    | outward => simp [contact]
    | stowing => rfl
  | jack i d => cases d <;> rfl

/-- The settling of a jack motion one of whose valves has stopped (R72 to R76, R84, R87, R88). -/
theorem jackStops_of_work {f : State → Work} (work : f s = (w.stopValve j).jackSettled) (found : w.entryOf .jacks = some e)
    (calm : w.fallenPermit = none) : JackStops w (s.event f) e j := by
  have stopped : ValveStopped w (w.stopValve j).pumpFollow e j := .of_stopValve found
  have controls : Controls .jacks w (w.stopValve j).pumpFollow := State.stopValve_controls.trans State.pumpFollow_controls
  have level : (w.stopValve j).pumpFollow.level = w.level := State.level_pumpFollow.trans (by rw [State.stopValve_spec.1])
  replace work : f s = (w.stopValve j).pumpFollow.jackCheck := work
  generalize (w.stopValve j).pumpFollow = p at stopped controls work level
  have layout : p.layout = w.layout := by rw [stopped.frame]
  have jacks : p.jacks = w.jacks := by rw [stopped.frame]
  have found' : p.entryOf .jacks = some e := by rw [stopped.frame]; exact found
  have running : p.running .jacks = w.running .jacks := by rw [stopped.frame]; rfl
  have phases (i : JackId) : (p.jack i).phase = (w.jack i).phase := by rw [State.jack, jacks]; rfl
  obtain ⟨left, none_left⟩ := State.jackCheck_cases found'
  simp only [State.jacksOf_congr layout, phases, running] at left none_left
  have quiet (v : State) (settled : p.jackCheck = (v, [])) (after : ValveStopped w v e j) : v.butAlarm (s.event f) := by
    rw [← work] at settled
    have calm' : (f s).1.fallenPermit = none := by
      rw [settled]
      exact after.fallenPermit.trans calm
    have run := (State.event_calm (F := fun _ => True) (f := f) (by rw [settled]) calm').1
    rw [settled] at run
    exact run
  -- where no ending follows, the event comes to the state that the check leaves
  have goes (on : e.action = .level ∨ ∃ i ∈ w.jacksOf e.action, (w.jack i).phase = .active) :
      ∃ v, v.butAlarm (s.event f) ∧ ValveStopped w v e j ∧ v.level =
        if (∃ i ∈ w.jacksOf e.action, (w.jack i).phase = .active) ∨ w.running .jacks = false then w.level
        else w.level.passed := by
    by_cases some_left : ∃ i ∈ w.jacksOf e.action, (w.jack i).phase = .active
    · exact ⟨p, quiet p (left some_left) stopped, stopped, by rw [level, if_pos (.inl some_left)]⟩
    · have action : e.action = .level := on.resolve_right some_left
      obtain ⟨-, waits, passes⟩ := none_left fun i mem active => some_left ⟨i, mem, active⟩
      cases runs : w.running .jacks with
      | false => exact ⟨p, quiet p (waits action runs) stopped, stopped, by rw [level, if_pos (.inr rfl)]⟩
      | true =>
        rw [if_neg (by simp [some_left])]
        obtain ⟨same, settled⟩ | passed := passes action runs
        · exact ⟨p, quiet p same stopped, stopped, by rw [← level, settled]⟩
        · have follows := (stopped.setLevel p.level.passed).follow found
          exact ⟨_, quiet _ passed follows, follows, by rw [State.level_pumpFollow, level]⟩
  refine ⟨fun other none => ?_, fun on => ?_, fun on => ?_⟩
  · have ending : f s = (p, jackEnding { outcome := p.jackOutcome e.action }) := work.trans ((none_left none).1 other)
    have outcome : p.jackOutcome e.action = ownOutcome w e.action :=
      jackOutcome_eq (State.configuredJacks_congr layout) jacks other
    obtain ⟨u, same, ends, ended⟩ := State.event_calm_ends (f := f) (s := s) (g := .jacks)
      (x := { outcome := p.jackOutcome e.action }) (rest := []) (by rw [ending]; rfl)
      (by rw [ending]; exact stopped.fallenPermit.trans calm) (by rw [ending]; exact found') .nil
    rw [ending] at same ended
    refine ⟨outcome ▸ ended.from_controls controls, fun silent i mem => ?_⟩
    have found'' : u.entryOf .jacks = some e := by rw [same.1]; exact found'
    have layout' : u.layout = w.layout := by rw [same.1]; exact layout
    have silent' : u.planRunning = false := by
      have plan : p.plan = w.plan := by have e := congrArg State.plan controls.outer; exact e
      have plan' : u.plan = w.plan := by rw [same.1]; exact plan
      rw [State.planRunning, plan']
      exact silent
    refine State.valveDriven_of_stopped (s := w) ?_ fun n valve => ?_
    · exact ends.follows.layout.trans ((State.motionEnd_does (F := fun _ => True) fun _ => trivial).follows.layout.trans layout')
    · have own : (u.role n).group = some .jacks := by
        rw [State.role, layout']
        exact congrArg Role.group (State.role_of_roleChan valve)
      rw [(ends.chan found'' silent' own).1, State.chan_motionEnd_jacks found'', if_pos]
      · exact Channel.driven_stopped ..
      · unfold State.jackChans
        refine List.mem_append_left _ (List.mem_filterMap.mpr ⟨i, ?_, ?_⟩)
        · rw [State.jacksOf_congr layout']
          exact mem
        · rw [State.roleChan_layout layout']
          exact valve
  · obtain ⟨v, same, after, -⟩ := goes on
    exact after.butAlarm same
  · obtain ⟨v, same, -, level'⟩ := goes on
    rw [same.1]
    refine level'.trans ?_
    rfl

/-! ### Permits that a change of the jacks' support alone cannot fell -/

/-- A state keeps its permits where only the jacks have changed, and they support a room if they did before (R127). -/
theorem State.fallenPermit_supported (layout : t.layout = s.layout) (load : t.load = s.load) (paused : t.paused = s.paused)
    (rooms : t.rooms = s.rooms) (awning : t.awning = s.awning) (wind : t.wind = s.wind)
    (support : s.supported = true → t.supported = true) (calm : s.fallenPermit = none) : t.fallenPermit = none := by
  have configured (h : Group) : t.configured h = s.configured h := by
    unfold State.configured State.jackCount
    simp only [State.roleChan_layout layout, State.configuredJacks_congr layout]
  have out : t.roomsOut = s.roomsOut := by
    unfold State.roomsOut
    simp only [rooms, configured]
  have spread : t.awningNotStowed = s.awningNotStowed := by
    unfold State.awningNotStowed State.sliderState State.sliderRead
    simp only [awning, configured]
  have windy : t.windy = s.windy := by
    unfold State.windy
    rw [wind]
  unfold State.fallenPermit at calm ⊢
  rw [load, paused]
  rw [List.findSome?_eq_none_iff] at calm ⊢
  intro x mem
  have none := calm x mem
  rw [Option.map_eq_none_iff] at none ⊢
  unfold State.permitCause at none ⊢
  generalize x.group = g at none ⊢
  cases g with
  | room k =>
    dsimp only at none ⊢
    rw [layout, spread]
    by_cases needs : x.action.dir = .outward ∧ (s.layout.rooms[k]).needsSupport = true
    · cases held : s.supported with
      | false =>
        rw [if_pos ⟨needs.1, needs.2, held⟩] at none
        exact absurd none (by simp)
      | true =>
        rw [if_neg fun h => by simp [held] at h] at none
        rw [if_neg fun h => by simp [support held] at h]
        exact none
    · rw [if_neg fun h => needs ⟨h.1, h.2.1⟩] at none ⊢
      exact none
  | jacks =>
    dsimp only at none ⊢
    rw [out, spread]
    exact none
  | awning =>
    dsimp only at none ⊢
    rw [windy]
    exact none

/-- While a jack retracts the jacks support nothing (R70, R127). -/
theorem State.unsupported_retracting (configured : s.jackConfigured j = true) (active : (s.jack j).phase = .active)
    (stowing : (s.jack j).dir = .stowing) : s.supported = false := by
  have listed : j ∈ s.configuredJacks := mem_configuredJacks.mpr configured
  have retracting : s.jackState j = .retracting := by
    unfold State.jackState
    dsimp only
    rw [if_pos active, stowing]
  have unplanted : (s.configuredJacks.all fun j => s.planted j) = false := by
    refine List.all_eq_false.mpr ⟨j, listed, ?_⟩
    simp [State.planted, retracting]
  unfold State.supported State.jackSetState
  simp only [unplanted, Bool.false_eq_true, if_false]
  split_ifs <;> rfl

end

section
variable {s : State} {n : Chan} {j : JackId}

/-! ### The home switch of a jack -/

theorem State.accept_frame {l : Line} {v : Bool} : s.accept l v =
    { s with lines := (s.accept l v).lines, park := (s.accept l v).park, ign := (s.accept l v).ign } := State.setLine_frame

theorem State.line_accept {l : Line} {v : Bool} : ((s.accept l v).line l).accepted = some v := by
  unfold State.accept
  rw [State.line_setLine, if_pos rfl]

theorem State.hasHome_of_role {r : Role} (own : s.roleChan r = some n) (present : s.present n = true) (some_role : r ≠ .none)
    (other : r ≠ .pump) : s.hasHome n = true := by
  unfold State.hasHome State.needsReads
  rw [present, State.role_of_roleChan own]
  simp [some_role, other]

theorem exec_jackHome (awake : s.inReset = none) (own : s.roleChan (.jack j) = some n) (present : s.present n = true) :
    exec (.jackHomeClosed j) s = .next (s.event fun t => (t.accept (.hom n) true).homeEvent n true) ∧
    exec (.jackHomeOpened j) s = .next (s.event fun t => (t.accept (.hom n) false).homeEvent n false) := by
  have has : s.hasHome n = true := State.hasHome_of_role own present (by simp) (by simp)
  have taken (closed : Bool) : s.homeOf (.jack j) closed = s.event fun t => (t.accept (.hom n) closed).homeEvent n closed := by
    unfold State.homeOf State.homeChanged
    rw [own]
    dsimp only
    rw [if_pos has]
  constructor
  · rw [← taken]
    exact congrArg _ (exec_awake (f := fun t => t.homeOf (.jack j) true) awake)
  · rw [← taken]
    exact congrArg _ (exec_awake (f := fun t => t.homeOf (.jack j) false) awake)

theorem State.homeEvent_jack (own : s.role n = .jack j) :
    s.homeEvent n true = s.jackHomeClosed j ∧ s.homeEvent n false = (s, []) := by
  unfold State.homeEvent
  rw [own]
  exact ⟨rfl, rfl⟩

/-- A jack's record with its home switch closed (R65). -/
def Jack.home (r : Jack) : Jack := { r with count := some 0, atStroke := false, liftOff := false }

theorem State.jackHomeClosed_eq : s.jackHomeClosed j =
    if (s.jack j).phase = .active ∧ (s.jack j).dir = .stowing then
      ((s.setJack j { (s.jack j).home with phase := .done }).stopValve j).jackSettled
    else (s.setJack j (s.jack j).home, []) := by
  have home : s.onJack j (fun r => { r with count := some 0, atStroke := false, liftOff := false }) =
      s.setJack j (s.jack j).home := rfl
  have done : (s.setJack j (s.jack j).home).jackDone j = (s.setJack j { (s.jack j).home with phase := .done }).stopValve j := by
    rw [State.jackDone_eq, State.jack_setJack_same]
    congr 1
    simp [State.setJack]
  unfold State.jackHomeClosed
  rw [home]
  dsimp only
  rw [State.jack_setJack_same, done]
  rfl

/-- What the closure leaves of the readings of the jacks. -/
theorem State.reading_jackHomeClosed (i : JackId) : ((s.jackHomeClosed j).1.jack i).reading =
    if i = j then { (s.jack j).reading with count := some 0 } else (s.jack i).reading := by
  have home : ((s.setJack j (s.jack j).home).jack i).reading =
      if i = j then { (s.jack j).reading with count := some 0 } else (s.jack i).reading := by
    rw [State.jack_setJack]
    split
    · next same =>
      subst same
      rw [if_pos rfl]
      rfl
    · next other => rw [if_neg (Ne.symm other)]
  have closed : Controls .jacks (s.setJack j (s.jack j).home) (s.jackHomeClosed j).1 := by
    unfold State.jackHomeClosed
    dsimp only
    split
    · exact State.jackDone_controls.trans State.jackSettled_controls
    · exact .refl ..
  exact (closed.jackReading i).trans home

end

theorem State.fixed_jackHomeClosed {s : State} {j : JackId} : (s.jackHomeClosed j).1.fixedPart = s.fixedPart := by
  have closed : Controls .jacks (s.setJack j (s.jack j).home) (s.jackHomeClosed j).1 := by
    unfold State.jackHomeClosed
    dsimp only
    split
    · exact State.jackDone_controls.trans State.jackSettled_controls
    · exact .refl ..
  have e := congrArg State.fixedPart closed.outer
  exact e

theorem State.line_of_fixed {s t : State} {l : Line} (fixed : t.fixedPart = s.fixedPart) : t.line l = s.line l := by
  have lines : t.lines = s.lines := by have e := congrArg State.lines fixed; exact e
  have park : t.park = s.park := by have e := congrArg State.park fixed; exact e
  have ign : t.ign = s.ign := by have e := congrArg State.ign fixed; exact e
  cases l <;> simp [State.line, lines, park, ign]

/-- Settles O46: the record of the jack that comes home, the settling of its motion by `jackStops_of_work`, and an opening
that changes the line alone. -/
theorem jackHomeZeroesTheCount : Obligations.JackHomeZeroesTheCount := by
  unfold Obligations.JackHomeZeroesTheCount
  intro s j n awake own present
  have role : s.role n = .jack j := State.role_of_roleChan own
  obtain ⟨closes, opens⟩ := exec_jackHome awake own present
  have frame (v : Bool) := s.accept_frame (l := .hom n) (v := v)
  have line (v : Bool) := s.line_accept (l := .hom n) (v := v)
  rw [closes, opens]
  refine ⟨⟨_, rfl, ?_⟩, ⟨_, rfl, ?_⟩⟩
  · have roleA : (s.accept (.hom n) true).role n = .jack j := by rw [State.role, frame]; exact role
    have work : (s.accept (.hom n) true).homeEvent n true = (s.accept (.hom n) true).jackHomeClosed j :=
      (State.homeEvent_jack roleA).1
    have does : Does (fun _ => False) ((s.accept (.hom n) true).jackHomeClosed j).1
        (s.event fun t => (t.accept (.hom n) true).homeEvent n true) := by
      have e := State.event_does (F := fun _ => False) (f := fun t => (t.accept (.hom n) true).homeEvent n true) (s := s)
        (by rw [work]; exact State.jackHomeClosed_plain)
      rw [work] at e
      exact e
    have frameA := frame true
    have lineA := line true
    have lists : (s.accept (.hom n) true).load = s.load ∧ (s.accept (.hom n) true).paused = s.paused := by
      rw [frameA]
      exact ⟨rfl, rfl⟩
    generalize event : (s.event fun t => (t.accept (.hom n) true).homeEvent n true) = t at does
    generalize accepted : s.accept (.hom n) true = v at *
    have jack (i : JackId) : v.jack i = s.jack i := by rw [frameA]; rfl
    have counts (i : JackId) : (t.jack i).count = if i = j then some 0 else (s.jack i).count := by
      have e := congrArg Jack.count ((does.follows.jackReading i).trans (State.reading_jackHomeClosed i))
      refine Eq.trans e ?_
      rw [jack, jack]
      split <;> rfl
    refine ⟨by rw [counts, if_pos rfl], ?_, fun i other => by rw [counts, if_neg other], fun still idle => ?_,
      fun e found action calm configured active stowing => ?_⟩
    · rw [State.line_of_fixed (does.follows.fixed.trans State.fixed_jackHomeClosed)]
      exact lineA
    · have rest : v.jackHomeClosed j = (v.setJack j (v.jack j).home, []) := by
        rw [State.jackHomeClosed_eq, if_neg]
        rw [jack, idle]
        simp
      have none : v.load = [] ∧ v.paused = [] := by
        rw [lists.1, lists.2]
        simpa [State.motions] using still
      have run := (State.event_calm (F := fun _ => True) (f := fun t => (t.accept (.hom n) true).homeEvent n true) (s := s)
        (by rw [accepted, work, rest]) (by rw [accepted, work, rest]; exact State.fallenPermit_none none.1 none.2)).1
      rw [accepted, work, rest, event, jack] at run
      exact run
    · have settles : v.jackHomeClosed j =
          ((v.setJack j { (s.jack j).home with phase := .done }).stopValve j).jackSettled := by
        rw [State.jackHomeClosed_eq, jack, if_pos ⟨active, stowing⟩]
      have foundV : (v.setJack j { (s.jack j).home with phase := .done }).entryOf .jacks = some e := by
        unfold State.entryOf
        rw [show (v.setJack j { (s.jack j).home with phase := .done }).load = s.load from lists.1,
          show (v.setJack j { (s.jack j).home with phase := .done }).paused = s.paused from lists.2]
        exact found
      have calmV : (v.setJack j { (s.jack j).home with phase := .done }).fallenPermit = none := by
        have unsupported := State.unsupported_retracting configured active stowing
        refine State.fallenPermit_supported (s := s) ?_ lists.1 lists.2 ?_ ?_ ?_ (fun held => ?_) calm
        · rw [frameA]; rfl
        · rw [frameA]; rfl
        · rw [frameA]; rfl
        · rw [frameA]; rfl
        · rw [unsupported] at held
          exact absurd held (by simp)
      have stops := jackStops_of_work (s := s) (f := fun t => (t.accept (.hom n) true).homeEvent n true)
        (w := v.setJack j { (s.jack j).home with phase := .done }) (by rw [accepted, work, settles]) foundV calmV
      rw [event] at stops
      have layout : (v.setJack j { (s.jack j).home with phase := .done }).layout = s.layout := by rw [frameA]; rfl
      have jacksOf := State.jacksOf_congr (a := e.action) layout
      have record (i : JackId) : (v.setJack j { (s.jack j).home with phase := .done }).jack i =
          if j = i then { (s.jack j).home with phase := .done } else s.jack i := by
        rw [State.jack_setJack, jack]
      have valves (i : JackId) : (v.setJack j { (s.jack j).home with phase := .done }).valveDriven i = s.valveDriven i :=
        State.valveDriven_congr layout fun m valve => by rw [frameA]; rfl
      have roleChan (r : Role) : (v.setJack j { (s.jack j).home with phase := .done }).roleChan r = s.roleChan r :=
        State.roleChan_layout layout r
      have chan (q : Chan) : (v.setJack j { (s.jack j).home with phase := .done }).chan q = s.chan q := by rw [frameA]; rfl
      have other : e.action ≠ .level := by
        obtain h | h := action <;> rw [h] <;> simp
      have outcome (u : State) : ownOutcome u e.action = .homeReached := by
        obtain h | h := action <;> rw [h] <;> rfl
      refine ⟨fun alone => ?_, fun i q mem apart going driven pump runs sole => ?_⟩
      · have ended := (stops.ends other fun i mem => ?_).1
        · rw [outcome] at ended
          refine ended.from rfl rfl (fun id m => .inl ?_) (fun i => ?_) (fun p => rfl) (State.soundsOn_same rfl rfl rfl) rfl
          · cases id <;> rfl
          · rw [record, State.jack_setJack, jack]
            split <;> rfl
        · rw [record]
          split
          · simp
          · next apart => exact alone i (by rw [← jacksOf]; exact mem) (Ne.symm apart)
      · obtain ⟨jacks, load, paused, -, valve, others, pumps⟩ := stops.goesOn
          (.inr ⟨i, by rw [jacksOf]; exact mem, by rw [record, if_neg (Ne.symm apart)]; exact going⟩)
        refine ⟨?_, valve, ?_, ?_, load.trans lists.1, paused.trans lists.2⟩
        · have same := record j
          rw [if_pos rfl] at same
          rw [State.jack, jacks]
          exact congrArg Jack.phase same
        · rw [others i apart, valves]
          exact driven
        · exact (pumps q (by rw [roleChan]; exact pump)).1
            ⟨i, by rw [jacksOf]; exact mem, apart, by rw [valves]; exact driven⟩ (by rw [chan]; exact runs)
  · have frameA := frame false
    have lineA := line false
    have roleA : (s.accept (.hom n) false).role n = .jack j := by rw [State.role, frame]; exact role
    have work : (s.accept (.hom n) false).homeEvent n false = (s.accept (.hom n) false, []) :=
      (State.homeEvent_jack roleA).2
    have does := State.event_does (F := fun _ => False) (f := fun t => (t.accept (.hom n) false).homeEvent n false) (s := s)
      (by rw [work]; exact .nil)
    rw [work] at does
    refine ⟨?_, fun i => ?_, fun still => ?_⟩
    · rw [State.line_of_fixed does.follows.fixed]
      exact lineA
    · rw [does.follows.jackReading, frameA]
      rfl
    · have none : s.load = [] ∧ s.paused = [] := by simpa [State.motions] using still
      have run := (State.event_calm (F := fun _ => True) (f := fun t => (t.accept (.hom n) false).homeEvent n false) (s := s)
        (by rw [work]) (by rw [work, frameA]; exact State.fallenPermit_none none.1 none.2)).1
      rw [work] at run
      exact run

end Sys2Proof.Machine
end

section
/-! PROOFS. A sample on ANAn: the overcurrent watch of a motor and the pressure of a jack (R16, R17, R66). -/

namespace Sys2Proof.Machine

section
variable {s t u w : State} {g : Group} {n i : Chan} {j k : JackId} {e : Entry} {v : Nat} {raw : Sample}

/-! ### What a sample keeps of the readings -/

/-- From one state to the other no channel's reading has changed. -/
def sameReadings (s t : State) : Prop := ∀ n, (t.chan n).reading = (s.chan n).reading

theorem State.readings_jackDone : sameReadings s (s.jackDone j).jackSettled.1 :=
  (State.jackDone_controls.trans State.jackSettled_controls).readings

theorem State.readings_contactGained : sameReadings s (s.contactGained j).1 := by
  unfold State.contactGained
  dsimp only
  split
  · exact fun n => (State.readings_jackDone n).trans (by rw [State.chan_onJack])
  · exact fun n => by rw [State.chan_onJack]

theorem State.readings_contactLost : sameReadings s (s.contactLost j).1 := by
  have lifted (w : State) : sameReadings w (w.liftOff j) := fun n => by
    unfold State.liftOff
    rfl
  have follows (w : State) : sameReadings w w.pumpFollow := State.pumpFollow_controls.readings
  have starts (w : State) : sameReadings w (w.startValve j .outward) := State.startValve_controls.readings
  unfold State.contactLost
  dsimp only
  split
  · split
    · split
      · exact fun n => (follows _ n).trans ((starts _ n).trans (lifted _ n))
      · exact fun n => (follows _ n).trans (lifted _ n)
    · exact fun n => lifted _ n
  · exact fun n => rfl

theorem State.readings_pressureSample : sameReadings s (s.pressureSample j v).1 := by
  unfold State.pressureSample
  dsimp only
  split
  · split
    · split
      · exact State.readings_contactLost
      · exact fun n => rfl
    · exact fun n => rfl
  · split
    · exact State.readings_contactGained
    · exact fun n => rfl

theorem State.readings_watchCurrent : sameReadings s (s.watchCurrent n v).1 := by
  have kept (c : Channel) (same : c.reading = (s.chan n).reading) : sameReadings s (s.setChan n c) := fun i => by
    rw [State.chan_setChan]
    split
    · next own => rw [← own, same]
    · rfl
  unfold State.watchCurrent
  dsimp only
  split
  · split
    · split
      · intro i
        refine Eq.trans ?_ (kept { s.chan n with overRun := min 3 ((s.chan n).overRun + 1) } rfl i)
        simp only [State.channelFault]
        rw [State.stopChan_eq, State.chan_setChan]
        split
        · next own =>
          subst own
          exact Channel.reading_stopped ..
        · rfl
      · exact kept _ rfl
    · exact kept _ rfl
  · exact fun i => rfl

/-! ### The pressure of a jack -/

theorem State.reading_contactGained (i : JackId) : ((s.contactGained j).1.jack i).reading =
    if j = i then { (s.jack j).reading with contact := true, lossRun := 0 } else (s.jack i).reading := by
  have gained : ((s.onJack j fun r => { r with contact := true, lossRun := 0, liftOff := false }).jack i).reading =
      if j = i then { (s.jack j).reading with contact := true, lossRun := 0 } else (s.jack i).reading := by
    rw [State.jack_onJack]
    split <;> rfl
  unfold State.contactGained
  generalize s.onJack j (fun r => { r with contact := true, lossRun := 0, liftOff := false }) = w at gained
  dsimp only
  split
  · exact ((State.jackDone_controls.trans State.jackSettled_controls).jackReading i).trans gained
  · exact gained

theorem State.reading_contactLost (i : JackId) : ((s.contactLost j).1.jack i).reading =
    if j = i then { (s.jack j).reading with contact := false, lossRun := 0 } else (s.jack i).reading := by
  have lost : ((s.onJack j fun r => { r with contact := false, lossRun := 0 }).jack i).reading =
      if j = i then { (s.jack j).reading with contact := false, lossRun := 0 } else (s.jack i).reading := by
    rw [State.jack_onJack]
    split <;> rfl
  have marked (w : State) (f : Jack → Jack) (keeps : ∀ r, (f r).reading = r.reading) :
      ((w.onJack j f).jack i).reading = (w.jack i).reading := by
    rw [State.jack_onJack]
    split
    · next same => rw [keeps, same]
    · rfl
  have lifted (w : State) : ((w.liftOff j).jack i).reading = (w.jack i).reading :=
    marked w (fun r => { r with liftOff := true }) fun _ => rfl
  unfold State.contactLost
  dsimp only
  generalize s.onJack j (fun r => { r with contact := false, lossRun := 0 }) = w at lost
  split
  · have again := (marked (w.liftOff j) (fun r => { r with phase := .active, dir := .outward }) fun _ => rfl).trans
      ((lifted w).trans lost)
    generalize (w.liftOff j).onJack j (fun r => { r with phase := .active, dir := .outward }) = u at again
    split
    · split
      · exact ((State.startValve_controls.trans State.pumpFollow_controls).jackReading i).trans again
      · exact (State.pumpFollow_controls.jackReading i).trans again
    · exact (lifted w).trans lost
  · exact lost

/-- What a sample makes of the contact and the loss run of a jack's reading (R66). -/
def Jack.sampled (r : Jack) (p : JackParams) (v : Nat) : Jack :=
  if r.contact = true then
    if v + p.hysteresis < p.contactThreshold then
      if 2 ≤ r.lossRun then { r with pressure := v, contact := false, lossRun := 0 }
      else { r with pressure := v, lossRun := r.lossRun + 1 }
    else { r with pressure := v, lossRun := 0 }
  else if p.contactThreshold ≤ v then { r with pressure := v, contact := true, lossRun := 0 }
  else { r with pressure := v }

theorem State.reading_pressureSample :
    ((s.pressureSample j v).1.jack j).reading = ((s.jack j).sampled (s.jackParams j) v).reading := by
  have one : ((s.onJack j fun r => { r with pressure := v }).jack j) = { s.jack j with pressure := v } :=
    State.jack_onJack_same ..
  unfold State.pressureSample Jack.sampled
  dsimp only
  generalize s.onJack j (fun r => { r with pressure := v }) = w at one
  rw [one]
  dsimp only
  split
  · split
    · by_cases run : 2 ≤ (s.jack j).lossRun
      · rw [if_pos (by omega), if_pos run, State.reading_contactLost, if_pos rfl, one]
        rfl
      · rw [if_neg (by omega), if_neg run]
        dsimp only
        rw [State.jack_onJack_same, one]
    · rw [State.jack_onJack_same, one]
  · split
    · rw [State.reading_contactGained, if_pos rfl, one]
      rfl
    · rw [one]

/-! ### The sample as a whole -/

/-- The state of a sample before the watch of its channel takes it (R16). -/
def State.scaledAs (s : State) (n : Chan) (v : Nat) : State := s.setChan n { s.chan n with scaled := v }

theorem State.event_congr {f h : State → Work} (same : f s = h t) (view : s.view = t.view) : s.event f = t.event h := by
  unfold State.event State.handing
  rw [same, view]

/-- A jack's pressure, count, loss run and at-stroke are no part of what other controllers see. -/
theorem State.view_setJack (r : Jack) (phase : r.phase = (s.jack j).phase) (dir : r.dir = (s.jack j).dir)
    (contact : r.contact = (s.jack j).contact) (lift : r.liftOff = (s.jack j).liftOff) (fault : r.fault = (s.jack j).fault) :
    (s.setJack j r).view = s.view := by
  have record (i : JackId) : ((s.setJack j r).jack i).phase = (s.jack i).phase ∧
      ((s.setJack j r).jack i).dir = (s.jack i).dir ∧ ((s.setJack j r).jack i).contact = (s.jack i).contact ∧
      ((s.setJack j r).jack i).liftOff = (s.jack i).liftOff ∧ ((s.setJack j r).jack i).fault = (s.jack i).fault := by
    rw [State.jack_setJack]
    split
    · next same => exact same ▸ ⟨phase, dir, contact, lift, fault⟩
    · exact ⟨rfl, rfl, rfl, rfl, rfl⟩
  have home (i : JackId) : (s.setJack j r).jackHome i = s.jackHome i := rfl
  have state : (s.setJack j r).jackState = s.jackState := by
    funext i
    obtain ⟨phase, dir, contact, lift, -⟩ := record i
    unfold State.jackState
    rw [home]
    dsimp only
    rw [phase, dir, contact, lift]
  have planted : (s.setJack j r).planted = s.planted := by
    funext i
    unfold State.planted
    rw [(record i).2.2.1, state]
  have all : (s.setJack j r).configuredJacks = s.configuredJacks := rfl
  have faulted : (s.setJack j r).jacksFaulted = s.jacksFaulted := by
    unfold State.jacksFaulted
    rw [all]
    simp only [(record _).2.2.2.2]
  have set : (s.setJack j r).jackSetState = s.jackSetState := by
    unfold State.jackSetState
    rw [faulted, state, planted]
    rfl
  unfold State.view
  rw [set]
  rfl

theorem State.setJack_setJack (r q : Jack) : (s.setJack j r).setJack j q = s.setJack j q := by
  simp [State.setJack]

theorem State.roleChan_some {r : Role} (own : s.role n = r) : ∃ m, s.roleChan r = some m := by
  unfold State.roleChan
  refine Option.isSome_iff_exists.mp (List.find?_isSome.mpr ⟨n, mem_allChans n, ?_⟩)
  simp [own]

theorem scaleSample_eq {code : Int} (value : v = if 0 ≤ code then min 4095 (raw.toNat * 2 ^ code.toNat)
    else raw.toNat / 2 ^ (-code).toNat) : scaleSample raw.toNat code = v := value ▸ rfl

theorem exec_analogSample (awake : s.inReset = none) : exec (.analogSample n raw) s = .next (s.analogSample n raw) :=
  congrArg _ (exec_awake (f := fun t => t.analogSample n raw) awake)

/-- The work of a sample (R16). -/
theorem State.analogSample_work (needs : s.needsReads n = true) (value : scaleSample raw.toNat s.layout.scales[n] = v) :
    (∀ j, s.role n = .jack j → s.analogSample n raw = s.event fun t => (t.scaledAs n v).pressureSample j v) ∧
    ((∀ j, s.role n ≠ .jack j) → s.analogSample n raw = s.event fun t => (t.scaledAs n v).watchCurrent n v) := by
  have same (h : State → Work) (work : (match s.role n with
      | .jack j => (s.scaledAs n v).pressureSample j v
      | _ => (s.scaledAs n v).watchCurrent n v) = h s) : s.analogSample n raw = s.event h := by
    unfold State.analogSample
    rw [if_pos needs]
    refine State.event_congr ?_ rfl
    rw [← work]
    simp only [value]
    rfl
  refine ⟨fun j role => same _ ?_, fun other => same _ ?_⟩
  · rw [role]
  · cases role : s.role n with
    | jack j => exact absurd role (other j)
    | _ => rfl

theorem State.watchCurrent_cases :
    (s.countsCurrent n = false → s.watchCurrent n v = (s, [])) ∧
    (s.countsCurrent n = true → v < (s.kindParams n).currentLimit →
      s.watchCurrent n v = (s.setChan n { s.chan n with overRun := 0 }, [])) ∧
    (s.countsCurrent n = true → (s.kindParams n).currentLimit ≤ v → (s.chan n).overRun < 2 →
      s.watchCurrent n v = (s.setChan n { s.chan n with overRun := (s.chan n).overRun + 1 }, [])) ∧
    (s.countsCurrent n = true → (s.kindParams n).currentLimit ≤ v → 2 ≤ (s.chan n).overRun →
      s.watchCurrent n v = (s.setChan n { s.chan n with overRun := 3 }).channelFault n .overcurrent) := by
  unfold State.watchCurrent
  refine ⟨fun idle => ?_, fun counts low => ?_, fun counts high few => ?_, fun counts high many => ?_⟩
  · rw [if_neg (by simp [idle])]
  · rw [if_pos counts, if_neg (by omega)]
  · rw [if_pos counts, if_pos high]
    dsimp only
    rw [if_neg (by omega), show min 3 ((s.chan n).overRun + 1) = (s.chan n).overRun + 1 by omega]
  · rw [if_pos counts, if_pos high]
    dsimp only
    rw [if_pos (by omega), show min 3 ((s.chan n).overRun + 1) = 3 by omega]

theorem State.chan_scaledAs : (s.scaledAs n v).chan n = { s.chan n with scaled := v } := State.chan_setChan_same ..

theorem State.countsCurrent_scaledAs : (s.scaledAs n v).countsCurrent n = s.countsCurrent n := by
  unfold State.countsCurrent
  rw [State.chan_scaledAs]
  rfl

theorem State.setChan_scaledAs (c : Channel) : (s.scaledAs n v).setChan n c = s.setChan n c := State.setChan_setChan ..

theorem State.seeksContact_iff : s.seeksContact = true ↔ ∃ e, s.lowers e := by
  unfold State.seeksContact State.jackMotion State.lowers
  cases s.entryOf .jacks with
  | none => simp
  | some e =>
    cases action : e.action with
    | level => simp [action]
    | toward d => cases d <;> simp [action]
    | jack j d => simp [action]

end

/-- Settles O37: a sample is scaled, then taken by the watch of its motor or by its jack's pressure. -/
theorem samplesAreScaledAndWatched : Obligations.SamplesAreScaledAndWatched := by
  unfold Obligations.SamplesAreScaledAndWatched
  intro s n raw v awake value
  have scale : scaleSample raw.toNat s.layout.scales[n] = v := scaleSample_eq value
  rw [exec_analogSample awake]
  have needs (present : s.present n = true) (role : s.role n ≠ .none) : s.needsReads n = true := by
    simp [State.needsReads, present, role]
  have motorRole (motor : (s.role n).isMotor = true) : s.role n ≠ .none ∧ ∀ j, s.role n ≠ .jack j := by
    cases role : s.role n <;> simp [role, Role.isMotor] at motor ⊢
  have layout : (s.scaledAs n v).layout = s.layout := rfl
  refine ⟨fun absent => ?_, fun present role => ⟨_, rfl, ?_⟩, fun present motor => ?_, fun j present role => ⟨_, rfl, ?_⟩,
    fun j w present role apart reached same => ?_⟩
  · rw [State.analogSample, if_neg]
    simp only [State.needsReads, Bool.and_eq_true, bne_iff_ne, not_and]
    exact fun present => absent.elim (fun no => absurd present (by simp [no])) fun none => not_not.mpr none
  · obtain ⟨jack, motor⟩ := State.analogSample_work (needs present role) scale
    have scaled (f : State → Work) (plain : Plain (f s).2) (kept : sameReadings (s.scaledAs n v) (f s).1) :
        ((s.event f).chan n).scaled = v := by
      have does : Does (fun _ => True) (f s).1 (s.event f) := State.event_does plain
      have e := congrArg Channel.scaled ((does.follows.readings n).trans (kept n))
      refine Eq.trans e ?_
      rw [State.chan_scaledAs]
      rfl
    by_cases valve : ∃ j, s.role n = .jack j
    · obtain ⟨j, own⟩ := valve
      rw [jack j own]
      exact scaled _ State.pressureSample_plain State.readings_pressureSample
    · rw [motor fun j own => valve ⟨j, own⟩]
      exact scaled _ State.watchCurrent_plain State.readings_watchCurrent
  · obtain ⟨some_role, notJack⟩ := motorRole motor
    rw [(State.analogSample_work (needs present some_role) scale).2 notJack]
    have counts := s.countsCurrent_scaledAs (n := n) (v := v)
    have params : (s.scaledAs n v).kindParams n = s.kindParams n := rfl
    obtain ⟨idle, low, high, fault⟩ := (s.scaledAs n v).watchCurrent_cases (n := n) (v := v)
    rw [counts, params, State.chan_scaledAs] at low high fault
    rw [counts] at idle
    have quiet (u : State) (work : (s.scaledAs n v).watchCurrent n v = (u, [])) (view : u.view = s.view) :
        (s.event fun t => (t.scaledAs n v).watchCurrent n v) = u := by
      have e := State.event_quiet (f := fun t => (t.scaledAs n v).watchCurrent n v) (s := s) (by rw [work])
        (by rw [work]; exact view)
      rw [work] at e
      exact e
    refine ⟨fun no => congrArg _ (quiet _ (idle no) rfl), fun yes below => ?_, fun yes above few => ?_,
      fun id m e yes above many own found => ⟨_, rfl, ?_⟩⟩
    · refine congrArg _ (quiet _ ((low yes below).trans ?_) rfl)
      rw [State.setChan_scaledAs]
    · refine congrArg _ (quiet _ ((high yes above few).trans ?_) rfl)
      rw [State.setChan_scaledAs]
    · have group : (s.role n).group = some id.group := State.group_motorChan own
      have same : (s.event fun t => (t.scaledAs n v).watchCurrent n v) = (s.scaledAs n v).event fun t =>
          (t.setChan n { t.chan n with overRun := 3 }).channelFault n .overcurrent := by
        refine State.event_congr ?_ rfl
        dsimp only
        rw [State.chan_scaledAs]
        exact fault yes above many
      rw [same]
      obtain ⟨js, -, ended, sliders, -, -⟩ := State.event_channelFault (f := .overcurrent) (s := s.scaledAs n v)
        (c := fun t => t.setChan n { t.chan n with overRun := 3 }) group found
        (.setChan group rfl fun driven => .inl driven) rfl (fun id => by cases id <;> rfl) rfl
      refine ⟨ended.from rfl rfl (fun id m => .inl ?_) (fun j => rfl) (fun p => rfl) (State.soundsOn_same rfl rfl rfl) rfl,
        (sliders id rfl).trans ?_⟩
      · cases id <;> rfl
      · cases id <;> rfl
  · rw [(State.analogSample_work (needs present (by simp [role])) scale).1 j role]
    have does : Does (fun _ => True) ((s.scaledAs n v).pressureSample j v).1
        (s.event fun t => (t.scaledAs n v).pressureSample j v) :=
      State.event_does (f := fun t => (t.scaledAs n v).pressureSample j v) State.pressureSample_plain
    have reading := (does.follows.jackReading j).trans State.reading_pressureSample
    have same : ((s.scaledAs n v).jack j).sampled ((s.scaledAs n v).jackParams j) v = (s.jack j).sampled (s.jackParams j) v :=
      rfl
    rw [same] at reading
    generalize event : (s.event fun t => (t.scaledAs n v).pressureSample j v) = t at reading
    have fields : (t.jack j).pressure = ((s.jack j).sampled (s.jackParams j) v).pressure ∧
        (t.jack j).count = ((s.jack j).sampled (s.jackParams j) v).count ∧
        (t.jack j).contact = ((s.jack j).sampled (s.jackParams j) v).contact ∧
        (t.jack j).lossRun = ((s.jack j).sampled (s.jackParams j) v).lossRun :=
      ⟨by have e := congrArg Jack.pressure reading; exact e, by have e := congrArg Jack.count reading; exact e,
        by have e := congrArg Jack.contact reading; exact e, by have e := congrArg Jack.lossRun reading; exact e⟩
    obtain ⟨pressure, count, contact, loss⟩ := fields
    have read : ((s.jack j).sampled (s.jackParams j) v).pressure = v ∧
        ((s.jack j).sampled (s.jackParams j) v).count = (s.jack j).count := by
      unfold Jack.sampled
      split_ifs <;> exact ⟨rfl, rfl⟩
    rw [contact, loss]
    refine ⟨pressure.trans read.1, count.trans read.2, fun apart reached => ?_, fun apart short => ?_, fun on held => ?_,
      fun on low few => ?_, fun on low many => ?_⟩
    · rw [Jack.sampled, if_neg (by simp [apart]), if_pos reached]
      exact ⟨rfl, rfl⟩
    · rw [Jack.sampled, if_neg (by simp [apart]), if_neg (by omega)]
      exact ⟨apart, rfl⟩
    · rw [Jack.sampled, if_pos on, if_neg (by omega)]
      exact ⟨on, rfl⟩
    · rw [Jack.sampled, if_pos on, if_pos low, if_neg (by omega)]
      exact ⟨on, rfl⟩
    · rw [Jack.sampled, if_pos on, if_pos low, if_pos many]
      refine ⟨rfl, rfl, ?_⟩
      have taken : exec (.contactLost j) ((s.scaledAs n v).setJack j { s.jack j with pressure := v }) =
          .next (((s.scaledAs n v).setJack j { s.jack j with pressure := v }).lossReached j) :=
        congrArg _ (exec_awake (s := (s.scaledAs n v).setJack j { s.jack j with pressure := v }) (f := fun t => t.lossReached j) awake)
      refine taken.trans ?_
      rw [← event]
      have record : ((s.scaledAs n v).setJack j { s.jack j with pressure := v }).jack j = { s.jack j with pressure := v } :=
        State.jack_setJack_same ..
      have configured : ((s.scaledAs n v).setJack j { s.jack j with pressure := v }).jackConfigured j = true := by
        obtain ⟨m, found⟩ := State.roleChan_some role
        exact Option.isSome_iff_exists.mpr ⟨m, found⟩
      unfold State.lossReached
      rw [record, configured, if_pos (by simp [on, many])]
      refine congrArg _ (State.event_congr ?_ ?_)
      · have lost : (s.scaledAs n v).pressureSample j v =
            ((s.scaledAs n v).setJack j { s.jack j with pressure := v }).contactLost j := by
          have same : (s.scaledAs n v).onJack j (fun r => { r with pressure := v }) =
            (s.scaledAs n v).setJack j { s.jack j with pressure := v } := rfl
          unfold State.pressureSample
          rw [same]
          dsimp only
          rw [record]
          dsimp only
          rw [if_pos on, if_pos (show v + ((s.scaledAs n v).jackParams j).hysteresis <
            ((s.scaledAs n v).jackParams j).contactThreshold from low), if_pos (by omega)]
        exact lost.symm
      · exact State.view_setJack (s := s.scaledAs n v) _ rfl rfl rfl rfl rfl
  · subst same
    have gained : (s.scaledAs n v).pressureSample j v =
        ((s.scaledAs n v).setJack j { s.jack j with pressure := v }).contactGained j := by
      have same : (s.scaledAs n v).onJack j (fun r => { r with pressure := v }) =
        (s.scaledAs n v).setJack j { s.jack j with pressure := v } := rfl
      unfold State.pressureSample
      rw [same]
      dsimp only
      rw [State.jack_setJack_same]
      dsimp only
      rw [if_neg (by simp [apart]), if_pos (show ((s.scaledAs n v).jackParams j).contactThreshold ≤ v from reached)]
    have work : ∃ w, w = (s.setChan n { s.chan n with scaled := v }).setJack j
          { s.jack j with pressure := v, contact := true, lossRun := 0, liftOff := false } ∧
        (s.scaledAs n v).pressureSample j v =
          if (s.jack j).phase = .active ∧ (s.jack j).dir = .outward ∧ s.seeksContact = true then
            ((w.setJack j { w.jack j with phase := .done }).stopValve j).jackSettled
          else (w, []) := by
      refine ⟨_, rfl, gained.trans ?_⟩
      have twice : ((s.scaledAs n v).setJack j { s.jack j with pressure := v }).onJack j
          (fun r => { r with contact := true, lossRun := 0, liftOff := false }) =
          (s.setChan n { s.chan n with scaled := v }).setJack j
            { s.jack j with pressure := v, contact := true, lossRun := 0, liftOff := false } := by
        unfold State.onJack
        rw [State.jack_setJack_same, State.setJack_setJack]
        rfl
      unfold State.contactGained
      rw [twice]
      dsimp only
      rw [State.jackDone_eq, State.jack_setJack_same]
      rfl
    obtain ⟨w, same, work⟩ := work
    rw [← same, (State.analogSample_work (needs present (by simp [role])) scale).1 j role]
    refine ⟨fun calm other => ⟨_, rfl, ?_⟩, fun e u lowers active out record calm => ⟨_, rfl, ?_⟩⟩
    · rw [if_neg fun h => (State.seeksContact_iff.mp h.2.2).elim fun e lowers => other e lowers ⟨h.1, h.2.1⟩] at work
      have run := (State.event_calm (F := fun _ => True) (f := fun t => (t.scaledAs n v).pressureSample j v) (s := s)
        (by rw [work]) (by rw [work]; exact calm)).1
      rw [work] at run
      exact run
    · rw [if_pos ⟨active, out, State.seeksContact_iff.mpr ⟨e, lowers⟩⟩, ← record] at work
      refine jackStops_of_work (f := fun t => (t.scaledAs n v).pressureSample j v) work ?_ calm
      rw [record, same]
      exact lowers.1

end Sys2Proof.Machine
end

section
/-! PROOFS. Starts of valves and of the pump, the interlock of a sole motion, and the loss of a jack's contact (R8, R66 to
R68, R74, R84, R128). -/

namespace Sys2Proof.Machine

/-! ### Work that moves nothing -/

/-- Work that starts no motion where none stands in either list. -/
def Task.dull : Task → Prop
  | .handover _ | .permits | .scan | .endPlan => True
  | .planTakes _ a e _ => stepSuccess a e.outcome = false
  | _ => False

section
variable {s t u w v : State} {g : Group} {n i q : Chan} {j k : JackId} {e x : Entry} {d : Dir} {c : Cause} {l : List JackId}

theorem State.runTask_dull {task : Task} (dull : task.dull) (load : s.load = []) (paused : s.paused = []) :
    (s.runTask task).1.channels = s.channels ∧ (s.runTask task).1.load = [] ∧ (s.runTask task).1.paused = [] ∧
      ∀ y ∈ (s.runTask task).2, y.dull := by
  cases task with
  | handover old =>
    change (s.handOver old).1.channels = _ ∧ (s.handOver old).1.load = _ ∧ (s.handOver old).1.paused = _ ∧
      ∀ y ∈ (s.handOver old).2, y.dull
    unfold State.handOver
    split
    · exact ⟨rfl, load, paused, by simp⟩
    · rw [s.butAlarm_evalAlarm.1]
      exact ⟨rfl, load, paused, fun y mem => by rw [List.mem_singleton.mp mem]; trivial⟩
  | permits =>
    have none : s.runTask .permits = (s, []) := by
      change s.checkPermits = _
      unfold State.checkPermits
      rw [State.fallenPermit_none load paused]
    rw [none]
    exact ⟨rfl, load, paused, by simp⟩
  | scan =>
    have none : s.runTask .scan = (s, []) := by simp [State.runTask, State.scan, paused, scanOrder, State.scanMoves]
    rw [none]
    exact ⟨rfl, load, paused, by simp⟩
  | endPlan =>
    have none : s.runTask .endPlan = (s.freePlanClaims, []) := by
      change s.planEndNext = _
      unfold State.planEndNext
      rw [load, paused]
      rfl
    obtain ⟨⟨table, frame⟩, -⟩ := freePlanClaims_spec s
    rw [none, frame]
    exact ⟨rfl, load, paused, by simp⟩
  | planTakes g a e f =>
    change (s.planTakes g a e f).1.channels = _ ∧ (s.planTakes g a e f).1.load = _ ∧ (s.planTakes g a e f).1.paused = _ ∧
      ∀ y ∈ (s.planTakes g a e f).2, y.dull
    have fails : stepSuccess a e.outcome = false := dull
    unfold State.planTakes
    rw [fails]
    split
    · exact ⟨rfl, load, paused, by simp⟩
    · exact ⟨rfl, load, paused, fun y mem => by rw [List.mem_singleton.mp mem]; trivial⟩
  | _ => exact dull.elim

/-- Dull work moves nothing. -/
theorem drain_dull {m : Nat} {tasks : List Task} (dull : ∀ y ∈ tasks, y.dull) (load : s.load = []) (paused : s.paused = []) :
    (drain m (s, tasks)).channels = s.channels := by
  induction m generalizing s tasks with
  | zero => rfl
  | succ m ih =>
    cases tasks with
    | nil => rfl
    | cons task rest =>
      obtain ⟨channels, load', paused', more⟩ := State.runTask_dull (dull task List.mem_cons_self) load paused
      rw [drain_cons, ih ?_ load' paused', channels]
      intro y mem
      obtain mem | mem := List.mem_append.mp mem
      · exact more y mem
      · exact dull y (List.mem_cons_of_mem _ mem)

/-- The only motion ends, and not in success: its controller's stops are the last writes of the event. -/
theorem drain_sole_fails {m : Nat} {y : Ending} {rest : List Task} (sole : s.load ++ s.paused = [x])
    (fails : stepSuccess x.action y.outcome = false) (dull : ∀ y ∈ rest, y.dull) :
    (drain (m + 1) (s, .endMotion x.group y :: rest)).channels = (s.motionEnd x.group y).1.channels := by
  have found : s.entryOf x.group = some x := by
    unfold State.entryOf
    rw [sole]
    simp
  obtain ⟨load, paused⟩ := s.lists_motionEnd (g := x.group) (e := y)
  have none (l : List Entry) (inside : ∀ z ∈ l, z = x) : l.filter (fun z => z.group != x.group) = [] :=
    List.filter_eq_nil_iff.mpr fun z mem => by simp [inside z mem]
  have all (z : Entry) (mem : z ∈ s.load ++ s.paused) : z = x := by simpa [sole] using mem
  rw [drain_cons]
  refine drain_dull (fun z mem => ?_) (load.trans (none _ fun z mem => all z (List.mem_append_left _ mem)))
    (paused.trans (none _ fun z mem => all z (List.mem_append_right _ mem)))
  change z ∈ (s.motionEnd x.group y).2 ++ rest at mem
  rw [State.motionEnd_work found] at mem
  simp only [List.cons_append, List.mem_cons, List.mem_append] at mem
  obtain rfl | (mem | mem) | mem := mem
  · trivial
  · split at mem
    · rw [List.mem_singleton.mp mem]
      trivial
    · simp at mem
  · split at mem
    · rw [List.mem_singleton.mp mem]
      exact fails
    · simp at mem
  · exact dull z mem

/-- A change under which the permit of the only motion falls ends it INTERLOCK (R128). -/
theorem State.event_interlock {f : State → Work} (work : (f s).2 = []) (changed : (f s).1.view ≠ s.view)
    (sole : (f s).1.load ++ (f s).1.paused = [x]) (fallen : (f s).1.permitCause x.group x.action = some c) :
    ∃ y, (f s).1.butAlarm y ∧ Ended x.group .interlock (f s).1 (s.event f) ∧
      (s.event f).channels = (y.motionEnd x.group { outcome := .interlock, cause := some c }).1.channels := by
  have same := (f s).1.butAlarm_evalAlarm
  have does : Does (fun _ => True) (f s).1 (f s).1.evalAlarm := .evalAlarm
  have sole' : (f s).1.evalAlarm.load ++ (f s).1.evalAlarm.paused = [x] := by rw [same.1]; exact sole
  have permit : (f s).1.evalAlarm.fallenPermit = some (x.group, c) := by
    rw [State.fallenPermit_butAlarm same]
    unfold State.fallenPermit
    rw [sole]
    simp [fallen]
  have found : (f s).1.evalAlarm.entryOf x.group = some x := by
    unfold State.entryOf
    rw [sole']
    simp
  have whole : s.event f = drain (9997 + 1) ((f s).1.evalAlarm,
      [.endMotion x.group { outcome := .interlock, cause := some c }, .permits]) := by
    unfold State.event State.handing workBound
    dsimp only
    rw [work, drain_cons]
    have first : (f s).1.runTask (.handover s.view) = ((f s).1.evalAlarm, [.permits]) := by
      change (f s).1.handOver s.view = _
      unfold State.handOver
      rw [if_neg changed]
    rw [first]
    dsimp only
    rw [List.append_nil, drain_cons]
    have second : (f s).1.evalAlarm.runTask .permits = ((f s).1.evalAlarm,
        [.endMotion x.group { outcome := .interlock, cause := some c }, .permits]) := by
      change State.checkPermits _ = _
      unfold State.checkPermits
      rw [permit]
    rw [second]
    rfl
  have ends : Ends x.group { outcome := .interlock, cause := some c } (f s).1.evalAlarm (s.event f) := by
    rw [whole]
    exact drain_ends found (Plain.cons (t := .permits) trivial .nil)
  refine ⟨_, same, ends.ended.from ?_ ?_ does.follows.counts does.follows.jackReading does.follows.links does.follows.sounds
    does.follows.fixed, ?_⟩
  · rw [same.1]
  · rw [same.1]
  · rw [whole]
    exact drain_sole_fails sole' rfl fun z mem => by rw [List.mem_singleton.mp mem]; trivial

/-! ### Starts of a valve -/

theorem DriveStarted.of_driveStart : DriveStarted s (s.driveStart n d) n d none where
  record := by rw [State.chan_driveStart, if_pos rfl]; rfl
  pace := by rw [State.paceRec_driveStart, if_pos rfl]; rfl

/-- A start that nothing holds is a drive start (R8, R14). -/
theorem State.startChan_at_once (may : s.mayDrive n = true) (once : s.startsAtOnce n d) :
    s.startChan n d = (s.driveStart n d, true) := by
  obtain ⟨-, rest, free⟩ := once
  have held : s.dwellHolds n d = false := by
    unfold State.dwellHolds
    cases stop : (s.chan n).lastStop with
    | none => rfl
    | some l =>
      dsimp only
      obtain same | past := free l stop
      · rw [same]
        cases d <;> rfl
      · have late : ¬s.now < l.time + s.dwellTime := Nat.not_lt.mpr past
        simp [late]
  unfold State.startChan
  rw [if_pos may]
  obtain off | stopping := rest
  · rw [off]
    dsimp only
    rw [State.startHeld, held]
    rfl
  · rw [stopping]
    dsimp only
    rw [State.startHeld, held]
    rfl

/-- A start request to a valve writes its channel and pace records, and may clear the level mark. -/
theorem State.startChan_jack (valve : s.role n = .jack j) :
    (s.startChan n d).1 = { s with
      channels := (s.startChan n d).1.channels, pace := (s.startChan n d).1.pace, jackSet := (s.startChan n d).1.jackSet } ∧
    ((s.startChan n d).1.jackSet = s.jackSet ∨ (s.startChan n d).1.jackSet = { s.jackSet with levelMark := false }) ∧
    ∀ i, i ≠ n → (s.startChan n d).1.chan i = s.chan i ∧ (s.startChan n d).1.paceRec i = s.paceRec i := by
  have started (w : State) (role : w.role n = .jack j) : w.driveStart n d = { w with
      channels := (w.driveStart n d).channels, pace := (w.driveStart n d).pace
      jackSet := { w.jackSet with levelMark := false } } := by
    have tally : ((w.setChan n ((w.chan n).driveStarted (w.kindParams n) d w.now)).setPace n clearedPace).mirrorTally n =
        (w.setChan n ((w.chan n).driveStarted (w.kindParams n) d w.now)).setPace n clearedPace := by
      have kept : ((w.setChan n ((w.chan n).driveStarted (w.kindParams n) d w.now)).setPace n clearedPace).role n =
        .jack j := role
      unfold State.mirrorTally
      rw [kept]
    have eq : w.driveStart n d = { (w.setChan n ((w.chan n).driveStarted (w.kindParams n) d w.now)).setPace n clearedPace with
        jackSet := { w.jackSet with levelMark := false } } := by
      unfold State.driveStart
      dsimp only
      rw [role, tally]
      rfl
    rw [eq]
    rfl
  have others (w : State) (i : Chan) (other : i ≠ n) :
      (w.driveStart n d).chan i = w.chan i ∧ (w.driveStart n d).paceRec i = w.paceRec i := by
    rw [State.chan_driveStart, State.paceRec_driveStart, if_neg other.symm, if_neg other.symm]
    exact ⟨rfl, rfl⟩
  obtain eq | ⟨c, eq⟩ | eq | ⟨c, eq⟩ := s.startChan_cases (n := n) (d := d) <;> rw [eq]
  · exact ⟨rfl, .inl rfl, fun _ _ => ⟨rfl, rfl⟩⟩
  · exact ⟨rfl, .inl rfl, fun i other => ⟨by rw [State.chan_setChan, if_neg other.symm], rfl⟩⟩
  · have frame := started s valve
    refine ⟨?_, .inr (by rw [frame]), others s⟩
    generalize s.driveStart n d = w at frame
    rw [frame]
  · have frame := started (s.setChan n c) valve
    refine ⟨?_, .inr (by rw [frame]; rfl), fun i other => ?_⟩
    · generalize (s.setChan n c).driveStart n d = w at frame
      rw [frame]
      rfl
    · obtain ⟨chan, pace⟩ := others (s.setChan n c) i other
      rw [chan, pace, State.chan_setChan, if_neg other.symm]
      exact ⟨rfl, rfl⟩

theorem DriveStarted.congr {tr : Option Nat} (a : DriveStarted w u n d tr) (chan : w.chan n = s.chan n)
    (layout : w.layout = s.layout) (now : w.now = s.now) : DriveStarted s u n d tr := by
  have params : w.kindParams n = s.kindParams n := by
    unfold State.kindParams State.role
    rw [layout]
  refine ⟨?_, a.pace⟩
  rw [a.record, chan, params, now]

theorem DriveStarted.after {tr : Option Nat} (a : DriveStarted s u n d tr) (chan : t.chan n = u.chan n)
    (pace : t.paceRec n = u.paceRec n) : DriveStarted s t n d tr :=
  ⟨chan.trans a.record, pace.trans a.pace⟩

theorem DriveStarted.driven {tr : Option Nat} (a : DriveStarted s u n d tr) : (u.chan n).driven = true := by
  rw [a.record]
  unfold Channel.driven
  dsimp only
  split <;> rfl

theorem State.mayDrive_congr (layout : t.layout = s.layout) (load : t.load = s.load)
    (census : (t.chan n).census = (s.chan n).census) : t.mayDrive n = s.mayDrive n := by
  have chans (e : Entry) : t.motionChans e = s.motionChans e := by
    simp [State.motionChans, State.groupChans, State.role, layout]
  unfold State.mayDrive
  simp only [load, census, chans]

/-- A motion that is RUNNING is the group's motion. -/
theorem State.mem_load_of_running (found : s.entryOf g = some e) (runs : s.running g = true) : e ∈ s.load := by
  unfold State.entryOf at found
  rw [List.find?_append] at found
  cases first : s.load.find? fun x => x.group == g with
  | none =>
    obtain ⟨x, mem, group⟩ := List.any_eq_true.mp runs
    exact absurd group (by simpa using List.find?_eq_none.mp first x mem)
  | some y =>
    rw [first] at found
    obtain rfl : y = e := by simpa using found
    exact List.mem_of_find?_eq_some first

/-- A SEATED valve of a motion in the load list may be driven, and the pump with it. -/
theorem State.mayDrive_valve (group : e.group = .jacks) (loaded : e ∈ s.load) (mem : j ∈ s.jacksOf e.action)
    (valve : s.roleChan (.jack j) = some n) (seated : (s.chan n).census = .seated) : s.mayDrive n = true := by
  have role := State.role_of_roleChan valve
  have has : n ∈ s.motionChans e := by
    unfold State.motionChans
    unfold State.jacksOf at mem
    split
    · next i d action =>
      rw [action] at mem
      obtain rfl := List.mem_singleton.mp mem
      simp [mem_allChans, role]
    · rw [State.groupChans, List.mem_filter, role, group]
      exact ⟨mem_allChans n, rfl⟩
  unfold State.mayDrive
  rw [seated]
  simp only [beq_self_eq_true, Bool.true_and, List.any_eq_true]
  exact ⟨e, loaded, by simpa using has⟩

theorem State.mayDrive_pump (group : e.group = .jacks) (loaded : e ∈ s.load) (pump : s.roleChan .pump = some q)
    (seated : (s.chan q).census = .seated) : s.mayDrive q = true := by
  have role := State.role_of_roleChan pump
  have has : q ∈ s.motionChans e := by
    unfold State.motionChans
    split
    · simp [mem_allChans, role]
    · rw [State.groupChans, List.mem_filter, role, group]
      exact ⟨mem_allChans q, rfl⟩
  unfold State.mayDrive
  rw [seated]
  simp only [beq_self_eq_true, Bool.true_and, List.any_eq_true]
  exact ⟨e, loaded, by simpa using has⟩

/-- The start of a jack's valve. -/
theorem State.startValve_spec : s.startValve j d = { s with
      channels := (s.startValve j d).channels, pace := (s.startValve j d).pace, jackSet := (s.startValve j d).jackSet } ∧
    ((s.startValve j d).jackSet = s.jackSet ∨ (s.startValve j d).jackSet = { s.jackSet with levelMark := false }) ∧
    (∀ i, s.roleChan (.jack j) ≠ some i → (s.startValve j d).chan i = s.chan i ∧ (s.startValve j d).paceRec i = s.paceRec i) ∧
    ∀ n, s.roleChan (.jack j) = some n → s.mayDrive n = true → s.startsAtOnce n d →
      DriveStarted s (s.startValve j d) n d none := by
  unfold State.startValve
  cases valve : s.roleChan (.jack j) with
  | none => exact ⟨rfl, .inl rfl, fun _ _ => ⟨rfl, rfl⟩, nofun⟩
  | some m =>
    obtain ⟨frame, mark, others⟩ := s.startChan_jack (n := m) (d := d) (State.role_of_roleChan valve)
    refine ⟨frame, mark, fun i other => others i fun same => other (by rw [same]), fun n own may once => ?_⟩
    obtain rfl := Option.some.inj own
    dsimp only
    rw [State.startChan_at_once may once]
    exact .of_driveStart

/-- The valves of some jacks are started, each in its direction. -/
def State.startValves (s : State) (l : List JackId) (d : JackId → Dir) : State := forEach l (fun j t => t.startValve j (d j)) s

theorem State.startValves_spec {d : JackId → Dir} (once : l.Nodup) (s : State) :
    s.startValves l d = { s with
      channels := (s.startValves l d).channels, pace := (s.startValves l d).pace, jackSet := (s.startValves l d).jackSet } ∧
    ((s.startValves l d).jackSet = s.jackSet ∨ (s.startValves l d).jackSet = { s.jackSet with levelMark := false }) ∧
    (∀ i, (∀ j ∈ l, s.roleChan (.jack j) ≠ some i) →
      (s.startValves l d).chan i = s.chan i ∧ (s.startValves l d).paceRec i = s.paceRec i) ∧
    ∀ j ∈ l, ∀ n, s.roleChan (.jack j) = some n → s.mayDrive n = true → s.startsAtOnce n (d j) →
      DriveStarted s (s.startValves l d) n (d j) none := by
  induction l generalizing s with
  | nil => exact ⟨rfl, .inl rfl, fun _ _ => ⟨rfl, rfl⟩, by simp⟩
  | cons i rest ih =>
    obtain ⟨fresh, once⟩ := List.nodup_cons.mp once
    obtain ⟨frame, mark, others, starts⟩ := s.startValve_spec (j := i) (d := d i)
    obtain ⟨frame', mark', others', starts'⟩ := ih once (s.startValve i (d i))
    have whole : s.startValves (i :: rest) d = (s.startValve i (d i)).startValves rest d := rfl
    have census : ((s.startValve i (d i)).chan · |>.census) = (s.chan · |>.census) := by
      funext n
      have e := congrArg Channel.census ((State.startValve_controls (s := s) (j := i) (d := d i)).readings n)
      exact e
    rw [whole]
    generalize s.startValve i (d i) = w at frame mark others starts frame' mark' others' starts' census ⊢
    have layout : w.layout = s.layout := by rw [frame]
    have roleChan (r : Role) : w.roleChan r = s.roleChan r := State.roleChan_layout layout r
    generalize w.startValves rest d = u at frame' mark' others' starts' ⊢
    refine ⟨?_, ?_, fun n other => ?_, fun j mem n valve may at_once => ?_⟩
    · rw [frame', frame]
    · obtain same | same := mark <;> obtain same' | same' := mark' <;> rw [same', same]
      · exact .inl rfl
      · exact .inr rfl
      · exact .inr rfl
      · exact .inr rfl
    · obtain ⟨chan, pace⟩ := others' n fun j mem => by rw [roleChan]; exact other j (List.mem_cons_of_mem _ mem)
      obtain ⟨chan', pace'⟩ := others n (other i List.mem_cons_self)
      exact ⟨chan.trans chan', pace.trans pace'⟩
    · have apart (a b : JackId) (different : a ≠ b) (own : s.roleChan (.jack a) = some n) : s.roleChan (.jack b) ≠ some n :=
        fun other => different (Role.jack.inj ((State.role_of_roleChan own).symm.trans (State.role_of_roleChan other)))
      obtain rfl | mem := List.mem_cons.mp mem
      · obtain ⟨chan, pace⟩ := others' n fun k mem => by
          rw [roleChan]
          exact apart j k (fun same => fresh (same ▸ mem)) valve
        exact (starts n valve may at_once).after chan pace
      · have other : j ≠ i := fun same => fresh (same ▸ mem)
        have chan := (others n (apart j i other valve)).1
        refine DriveStarted.congr (w := w) (starts' j mem n ((roleChan _).trans valve) ?_ ?_) chan layout (by rw [frame])
        · rw [State.mayDrive_congr layout (by rw [frame]) (congrFun census n)]
          exact may
        · unfold State.startsAtOnce
          rw [chan, layout, show w.now = s.now by rw [frame]]
          exact at_once

/-- The valves of a motion's jacks are started, and the pump follows (R68). -/
theorem State.valvesStarted {d : JackId → Dir} (found : s.entryOf .jacks = some e) (loaded : e ∈ s.load) (once : l.Nodup)
    (among : ∀ j ∈ l, j ∈ s.jacksOf e.action) : ValvesStarted s (s.startValves l d).pumpFollow l d := by
  have group : e.group = .jacks := by simpa using List.find?_some found
  obtain ⟨frame, -, others, starts⟩ := s.startValves_spec (d := d) once
  obtain ⟨outer, follows⟩ := (s.startValves l d).pumpFollow_spec
  generalize s.startValves l d = w at frame others starts outer follows ⊢
  have layout : w.layout = s.layout := by rw [frame]
  have roleChan (r : Role) : w.roleChan r = s.roleChan r := State.roleChan_layout layout r
  have role (i : Chan) : w.role i = s.role i := by rw [State.role, layout]; rfl
  refine ⟨fun j mem n valve once => ?_, fun q pump ⟨j, mem, n, valve, once⟩ => ?_⟩
  · have may := State.mayDrive_valve group loaded (among j mem) valve once.1
    obtain ⟨chan, pace⟩ := follows n (by rw [role, State.role_of_roleChan valve]; simp)
    exact (starts j mem n valve may once).after chan pace
  · have may := State.mayDrive_valve group loaded (among j mem) valve once.1
    have driven : w.valveDriven j = true := by
      unfold State.valveDriven
      rw [roleChan, valve]
      exact (starts j mem n valve may once).driven
    have pumpChan : w.chan q = s.chan q := (others q fun k _ own =>
      absurd ((State.role_of_roleChan own).symm.trans (State.role_of_roleChan pump)) (by simp)).1
    have found' : w.entryOf .jacks = some e := by rw [frame]; exact found
    have some_driven : ((w.jacksOf e.action).any fun i => w.valveDriven i) = true :=
      List.any_eq_true.mpr ⟨j, by rw [State.jacksOf_congr layout]; exact among j mem, driven⟩
    have eq : w.pumpFollow = if (w.chan q).driven then w else (w.startChan q .outward).1 := by
      unfold State.pumpFollow State.jackMotion
      rw [found', roleChan, pump]
      dsimp only
      rw [if_pos some_driven]
    refine ⟨fun at_once => ?_, fun runs => ?_⟩
    · have still : (w.chan q).driven = false := by
        rw [pumpChan]
        obtain ⟨-, off | stopping, -⟩ := at_once
        · simp [Channel.driven, off]
        · simp [Channel.driven, stopping]
      have may' : w.mayDrive q = true := by
        rw [State.mayDrive_congr layout (by rw [frame]) (by rw [pumpChan])]
        exact State.mayDrive_pump group loaded pump at_once.1
      have at_once' : w.startsAtOnce q .outward := by
        unfold State.startsAtOnce
        rw [pumpChan, layout, show w.now = s.now by rw [frame]]
        exact at_once
      rw [eq, still, if_neg (by simp), State.startChan_at_once may' at_once']
      exact (DriveStarted.of_driveStart (s := w)).congr pumpChan layout (by rw [frame])
    · rw [eq, pumpChan, runs, if_pos rfl]
      exact pumpChan

end

end Sys2Proof.Machine
end

section
/-! PROOFS. The loss of a jack's contact (R66, R67, R74, R84, R128). -/

namespace Sys2Proof.Machine

section
variable {s t u w v : State} {n q : Chan} {j k : JackId} {e : Entry} {l : List JackId} {d : JackId → Dir}

theorem ValvesStarted.congr (a : ValvesStarted w u l d) (chans : ∀ n, w.chan n = s.chan n) (layout : w.layout = s.layout)
    (now : w.now = s.now) (after : ∀ n, t.chan n = u.chan n) (paces : ∀ n, t.paceRec n = u.paceRec n) :
    ValvesStarted s t l d := by
  have roleChan (r : Role) : w.roleChan r = s.roleChan r := State.roleChan_layout layout r
  have once (n : Chan) (x : Dir) : w.startsAtOnce n x ↔ s.startsAtOnce n x := by
    unfold State.startsAtOnce
    rw [chans, layout, now]
  refine ⟨fun j mem n valve at_once => ?_, fun q pump ⟨j, mem, n, valve, at_once⟩ => ?_⟩
  · exact ((a.valves j mem n (by rw [roleChan]; exact valve) ((once ..).mpr at_once)).congr (chans n) layout now).after
      (after n) (paces n)
  · obtain ⟨starts, runs⟩ := a.pump q (by rw [roleChan]; exact pump)
      ⟨j, mem, n, by rw [roleChan]; exact valve, (once ..).mpr at_once⟩
    refine ⟨fun free => ((starts ((once ..).mpr free)).congr (chans q) layout now).after (after q) (paces q), fun driven => ?_⟩
    rw [after, runs (by rw [chans]; exact driven), chans]

/-- A jack's record once its contact is lost (R66). -/
def Jack.lost (r : Jack) : Jack := { r with contact := false, lossRun := 0 }

/-- The state once a jack has lifted off, with its record given (R67). -/
def State.liftedOff (s : State) (j : JackId) (r : Jack) : State :=
  ({ s.setJack j r with jackSet := { s.jackSet with levelMark := false } } : State).raise .level

/-- The courses of a loss of contact (R66, R67, R74, R84). -/
theorem State.contactLost_cases :
    ((s.jackState j = .retracting ∨ s.jackHome j = true) → s.contactLost j = (s.setJack j (s.jack j).lost, [])) ∧
    (s.jackState j ≠ .retracting → s.jackHome j = false →
      ((∀ e, s.lowers e → ¬((s.jack j).phase = .done ∧ (s.jack j).atStroke = false)) →
        s.contactLost j = (s.liftedOff j { (s.jack j).lost with liftOff := true }, [])) ∧
      ∀ e u, s.lowers e → (s.jack j).phase = .done → (s.jack j).atStroke = false →
        u = s.liftedOff j { (s.jack j).lost with liftOff := true, phase := .active, dir := .outward } →
        s.contactLost j = ((if s.running .jacks then u.startValve j .outward else u).pumpFollow, [])) := by
  have lost : s.onJack j (fun r => { r with contact := false, lossRun := 0 }) = s.setJack j (s.jack j).lost := rfl
  have lifted : (s.setJack j (s.jack j).lost).liftOff j = s.liftedOff j { (s.jack j).lost with liftOff := true } := by
    unfold State.liftOff State.onJack
    rw [State.jack_setJack_same, State.setJack_setJack]
    rfl
  have record : (s.liftedOff j { (s.jack j).lost with liftOff := true }).jack j =
      { (s.jack j).lost with liftOff := true } := State.jack_setJack_same ..
  have again : (s.liftedOff j { (s.jack j).lost with liftOff := true }).onJack j
      (fun r => { r with phase := .active, dir := .outward }) =
      s.liftedOff j { (s.jack j).lost with liftOff := true, phase := .active, dir := .outward } := by
    unfold State.onJack
    rw [record]
    unfold State.liftedOff
    have twice := State.setJack_setJack (s := s) (j := j) { (s.jack j).lost with liftOff := true }
      { (s.jack j).lost with liftOff := true, phase := .active, dir := .outward }
    rw [← twice]
    rfl
  have seeks : (s.liftedOff j { (s.jack j).lost with liftOff := true }).seeksContact = s.seeksContact := rfl
  have lifts : (s.jackState j != .retracting && !s.jackHome j) = true ↔
      s.jackState j ≠ .retracting ∧ s.jackHome j = false := by simp
  unfold State.contactLost
  rw [lost]
  dsimp only
  rw [lifted, again, record, seeks]
  dsimp only
  refine ⟨fun stays => ?_, fun moving away => ⟨fun rests => ?_, fun e u lowers done short same => ?_⟩⟩
  · rw [if_neg]
    rw [lifts]
    rintro ⟨moving, away⟩
    exact stays.elim moving fun home => by simp [home] at away
  · rw [if_pos (lifts.mpr ⟨moving, away⟩), if_neg]
    rintro ⟨done, short, seeking⟩
    obtain ⟨e, lowers⟩ := State.seeksContact_iff.mp seeking
    exact rests e lowers ⟨done, short⟩
  · rw [if_pos (lifts.mpr ⟨moving, away⟩), if_pos ⟨done, short, State.seeksContact_iff.mpr ⟨e, lowers⟩⟩, same]
    rfl

/-- A configured jack without contact leaves the set without support (R70, R127). -/
theorem State.unsupported_of_contact (configured : s.jackConfigured j = true) (apart : (s.jack j).contact = false) :
    s.supported = false := by
  have unplanted : (s.configuredJacks.all fun j => s.planted j) = false := by
    refine List.all_eq_false.mpr ⟨j, mem_configuredJacks.mpr configured, ?_⟩
    simp [State.planted, apart]
  unfold State.supported State.jackSetState
  simp only [unplanted, Bool.false_eq_true, if_false]
  split_ifs <;> rfl

theorem State.link_liftedOff (r : Jack) (p : Port) : ((s.liftedOff j r).port p).link = (s.port p).link := by
  unfold State.liftedOff
  rw [State.port_raise]
  rfl

theorem State.noticed_liftedOff (r : Jack) : (s.liftedOff j r).noticed .level = true := State.noticed_raise ..

/-- A loss of contact that is a lift-off raises LEVEL (R67). -/
theorem State.noticed_contactLost (moving : s.jackState j ≠ .retracting) (away : s.jackHome j = false) :
    (s.contactLost j).1.noticed .level = true := by
  obtain ⟨rests, lowers⟩ := s.contactLost_cases.2 moving away
  by_cases again : ∃ e, s.lowers e ∧ (s.jack j).phase = .done ∧ (s.jack j).atStroke = false
  · obtain ⟨e, low, done, short⟩ := again
    rw [lowers e _ low done short rfl]
    have noticed := s.noticed_liftedOff (j := j) { (s.jack j).lost with liftOff := true, phase := .active, dir := .outward }
    generalize s.liftedOff j { (s.jack j).lost with liftOff := true, phase := .active, dir := .outward } = u at noticed ⊢
    have ports (w : State) (same : w.ports = u.ports) : w.pumpFollow.noticed .level = true := by
      have kept : w.pumpFollow.ports = w.ports := by have e := congrArg State.ports w.pumpFollow_spec.1; exact e
      rw [noticed_of_ports (kept.trans same)]
      exact noticed
    dsimp only
    split
    · refine ports _ ?_
      have e := congrArg State.ports (u.startValve_spec (j := j) (d := .outward)).1
      exact e
    · exact ports u rfl
  · rw [rests fun e low both => again ⟨e, low, both⟩]
    exact s.noticed_liftedOff _

end

/-- Settles O39: the courses of a loss of contact, each with what other controllers make of it in that event. -/
theorem contactIsLost : Obligations.ContactIsLost := by
  unfold Obligations.ContactIsLost
  intro s j awake
  have taken : exec (.contactLost j) s = .next (s.lossReached j) := congrArg _ (exec_awake (f := fun t => t.lossReached j) awake)
  rw [taken]
  unfold State.lossReached
  refine ⟨fun contact run configured => ?_, fun never => ?_⟩
  · rw [if_pos (by simp [contact, run, configured])]
    have does : Does (fun _ => True) (s.contactLost j).1 (s.event fun t => t.contactLost j) :=
      State.event_does (f := fun t => t.contactLost j) (by rw [State.contactLost_tasks]; exact .nil)
    have acts : (s.contactLost j).1.fixedPart = s.fixedPart := State.contactLost_acts.fixed
    have reading := (does.follows.jackReading j).trans (State.reading_contactLost j)
    rw [if_pos rfl] at reading
    obtain ⟨stays, lifts⟩ := s.contactLost_cases (j := j)
    have calm : (s.contactLost j).1.fallenPermit = none → (s.contactLost j).1.butAlarm (s.event fun t => t.contactLost j) :=
      fun calm => (State.event_calm (F := fun _ => True) (f := fun t => t.contactLost j) State.contactLost_tasks calm).1
    have interlock {x : Entry} {c : Cause} := State.event_interlock (f := fun t => t.contactLost j) (s := s) (x := x) (c := c)
      State.contactLost_tasks
    generalize event : (s.event fun t => t.contactLost j) = t at does reading calm interlock
    refine ⟨t, rfl, by have e := congrArg Jack.contact reading; exact e, by have e := congrArg Jack.lossRun reading; exact e,
      by have e := congrArg Jack.count reading; exact e, fun moving away => ?_, fun still => ?_,
      fun k e u load paused group action needs support moving away same => ?_, fun w rests same permits => ?_,
      fun w moving away rests same permits => ?_, fun e w moving away lowers done short same permits => ?_,
      does.follows.fixed.trans acts⟩
    · exact does.follows.noticed (State.noticed_contactLost moving away)
    · have none : s.load = [] ∧ s.paused = [] := by simpa [State.motions] using still
      have unseen (e : Entry) : ¬s.lowers e := fun low => by
        have found := low.1
        unfold State.entryOf at found
        rw [none.1, none.2] at found
        exact absurd found (by simp)
      by_cases rests : s.jackState j = .retracting ∨ s.jackHome j = true
      · have same := calm (by rw [stays rests]; exact State.fallenPermit_none none.1 none.2)
        rw [stays rests] at same
        have jack : t.jack j = (s.jack j).lost := by
          rw [same.1]
          exact State.jack_setJack_same ..
        refine ⟨fun moving away => ?_, fun _ => ⟨by rw [jack]; rfl, by rw [same.1]; rfl⟩, ?_, ?_, by rw [same.1]; rfl,
          by rw [same.1]; rfl⟩
        · exact (rests.elim moving fun home => by simp [home] at away).elim
        · rw [same.1]
          exact none.1
        · rw [same.1]
          exact none.2
      · obtain ⟨moving, away⟩ : s.jackState j ≠ .retracting ∧ s.jackHome j = false := by simpa [not_or] using rests
        have work := (lifts moving away).1 fun e low => absurd low (unseen e)
        have same := calm (by rw [work]; exact State.fallenPermit_none none.1 none.2)
        rw [work] at same
        have jack : t.jack j = { (s.jack j).lost with liftOff := true } := by
          rw [same.1]
          exact State.jack_setJack_same ..
        refine ⟨fun _ _ => ⟨by rw [jack], by rw [same.1]; rfl⟩, fun other => absurd other rests, ?_, ?_,
          by rw [same.1]; rfl, by rw [same.1]; rfl⟩
        · rw [same.1]
          exact none.1
        · rw [same.1]
          exact none.2
    · have unseen (e : Entry) : ¬s.lowers e := fun low => by
        have found := low.1
        unfold State.entryOf at found
        rw [load, paused] at found
        simp [group] at found
      have work := (lifts moving away).1 fun e low => absurd low (unseen e)
      rw [work] at interlock does
      have apart : (s.liftedOff j { (s.jack j).lost with liftOff := true }).supported = false :=
        State.unsupported_of_contact (j := j) configured (by
          have record : (s.liftedOff j { (s.jack j).lost with liftOff := true }).jack j =
            { (s.jack j).lost with liftOff := true } := State.jack_setJack_same ..
          rw [record]
          rfl)
      have changed : (s.liftedOff j { (s.jack j).lost with liftOff := true }).view ≠ s.view := fun view => by
        have set : (s.liftedOff j { (s.jack j).lost with liftOff := true }).jackSetState = s.jackSetState :=
          congrArg View.jackSet view
        unfold State.supported at apart
        rw [set] at apart
        obtain h | h := support <;> simp [h] at apart
      obtain ⟨y, alarm, ended, channels⟩ := interlock (x := e) (c := .needsSupport) changed
        (by simp only [State.liftedOff]; exact (congrArg₂ (· ++ ·) load paused).trans rfl) (by
          rw [group, action]
          unfold State.permitCause
          dsimp only
          rw [apart, if_pos ⟨rfl, needs, rfl⟩])
      rw [group] at ended channels
      subst same
      refine ⟨ended.from rfl rfl (fun id m => .inl ?_) (fun i => ?_) (fun p => ?_) (State.soundsOn_same rfl rfl rfl) rfl,
        fun m mem => ?_⟩
      · cases id <;> rfl
      · rfl
      · exact State.link_liftedOff _ p
      · have layout : t.layout = s.layout := does.follows.layout
        refine State.motorDriven_of_stopped layout fun n own => ?_
        have found : y.entryOf (Slider.room k).group = some e := by
          unfold State.entryOf
          rw [alarm.1]
          change (s.load ++ s.paused).find? _ = _
          rw [load, paused]
          simp [group, Slider.group]
        have chan : t.chan n = (y.motionEnd (Slider.room k).group { outcome := .interlock, cause := some .needsSupport }).1.chan n := by
          unfold State.chan
          rw [channels]
          rfl
        have layoutY : y.layout = s.layout := by
          rw [alarm.1]
          rfl
        rw [chan, State.chan_motionEnd_slide found, if_pos]
        · exact Channel.driven_stopped ..
        · exact State.mem_slideChans.mpr ⟨m, by rw [State.motors_layout layoutY]; exact mem,
            by rw [State.motorChan_layout layoutY]; exact own⟩
    · have work := stays rests
      rw [work] at calm
      subst same
      exact calm permits
    · have work := (lifts moving away).1 rests
      rw [work] at calm
      subst same
      have marked : State.butAlarm { s.setJack j { s.jack j with contact := false, lossRun := 0, liftOff := true } with
          jackSet := { s.jackSet with levelMark := false } } (s.liftedOff j { (s.jack j).lost with liftOff := true }) :=
        ⟨rfl, State.link_liftedOff _⟩
      exact marked.trans (calm ((State.fallenPermit_butAlarm marked).trans permits))
    · have work := (lifts moving away).2 e _ lowers done short rfl
      have marked : w.butAlarm
          (s.liftedOff j { (s.jack j).lost with liftOff := true, phase := .active, dir := .outward }) := by
        subst same
        exact ⟨rfl, State.link_liftedOff _⟩
      have record : (s.liftedOff j { (s.jack j).lost with liftOff := true, phase := .active, dir := .outward }).jackSet =
        { s.jackSet with levelMark := false } := rfl
      have layoutU : (s.liftedOff j { (s.jack j).lost with liftOff := true, phase := .active, dir := .outward }).layout =
        s.layout := rfl
      have chanU (n : Chan) : (s.liftedOff j
        { (s.jack j).lost with liftOff := true, phase := .active, dir := .outward }).chan n = s.chan n := rfl
      have nowU : (s.liftedOff j { (s.jack j).lost with liftOff := true, phase := .active, dir := .outward }).now = s.now := rfl
      have listsU : (s.liftedOff j { (s.jack j).lost with liftOff := true, phase := .active, dir := .outward }).load = s.load ∧
        (s.liftedOff j { (s.jack j).lost with liftOff := true, phase := .active, dir := .outward }).paused = s.paused :=
        ⟨rfl, rfl⟩
      generalize s.liftedOff j { (s.jack j).lost with liftOff := true, phase := .active, dir := .outward } = u
        at work marked record layoutU chanU nowU listsU
      have foundU : u.entryOf .jacks = some e := by
        unfold State.entryOf
        rw [listsU.1, listsU.2]
        exact lowers.1
      have among : j ∈ s.jacksOf e.action := by
        have listed : j ∈ s.configuredJacks := State.mem_configuredJacks.mpr configured
        obtain action | ⟨action, -⟩ := lowers.2 <;> rw [action] <;> exact listed
      obtain ⟨startFrame, mark, startOthers, -⟩ := u.startValve_spec (j := j) (d := .outward)
      have valve : u.startValve j .outward = { u with
          channels := (u.startValve j .outward).channels, pace := (u.startValve j .outward).pace } := by
        have kept : (u.startValve j .outward).jackSet = u.jackSet := mark.elim id fun same => by rw [same, record]
        rw [startFrame, kept]
      have roleChanU (r : Role) : u.roleChan r = s.roleChan r := State.roleChan_layout layoutU r
      have shape (v : State) (frameV : v = { u with channels := v.channels, pace := v.pace })
          (same : s.contactLost j = (v.pumpFollow, [])) : v.pumpFollow.butAlarm t ∧
          v.pumpFollow = { u with channels := v.pumpFollow.channels, pace := v.pumpFollow.pace } := by
        have outer := v.pumpFollow_spec.1
        have frame : v.pumpFollow = { u with channels := v.pumpFollow.channels, pace := v.pumpFollow.pace } := by
          generalize v.pumpFollow = p at outer ⊢
          rw [outer, frameV]
        rw [same] at calm
        refine ⟨calm ?_, frame⟩
        have permitsU : u.fallenPermit = none := (State.fallenPermit_butAlarm marked).trans permits
        dsimp only
        generalize v.pumpFollow = p at frame ⊢
        rw [frame]
        exact (State.fallenPermit_congr rfl rfl rfl rfl).trans permitsU
      have kept (v : State) (alarm : v.pumpFollow.butAlarm t)
          (frame : v.pumpFollow = { u with channels := v.pumpFollow.channels, pace := v.pumpFollow.pace }) :
          t.jacks = w.jacks ∧ t.jackSet = w.jackSet ∧ t.level = s.level ∧ t.load = s.load ∧ t.paused = s.paused ∧
            t.claims = s.claims ∧ t.rooms = s.rooms ∧ t.awning = s.awning := by
        subst same
        rw [alarm.1, frame, marked.1]
        exact ⟨rfl, rfl, rfl, rfl, rfl, rfl, rfl, rfl⟩
      have chanT (v : State) (alarm : v.pumpFollow.butAlarm t) (n : Chan) : t.chan n = v.pumpFollow.chan n ∧
          t.paceRec n = v.pumpFollow.paceRec n := by
        rw [alarm.1]
        exact ⟨rfl, rfl⟩
      cases runs : s.running .jacks with
      | true =>
        rw [runs, if_pos rfl] at work
        obtain ⟨alarm, frame⟩ := shape _ valve work
        obtain ⟨jacks, jackSet, level, load, paused, claims, rooms, awning⟩ := kept _ alarm frame
        refine ⟨jacks, jackSet, level, load, paused, claims, rooms, awning, fun x pump other => ?_, fun _ => ?_, nofun⟩
        · have roleV : (u.startValve j .outward).role x = s.role x := by
            rw [State.role, valve]
            exact congrArg (fun l : Layout => l.roles[x]) layoutU
          rw [(chanT _ alarm x).1, ((State.pumpFollow_spec (s := u.startValve j .outward)).2 x (by rw [roleV]; exact pump)).1,
            (startOthers x fun own => other ?_).1, chanU]
          rw [← State.role_of_roleChan ((roleChanU _).symm.trans own)]
        · have loaded : e ∈ u.load := by
            rw [listsU.1]
            exact State.mem_load_of_running lowers.1 runs
          have started := State.valvesStarted (s := u) (l := [j]) (d := fun _ => .outward) foundU loaded (by simp)
            fun i mem => by
              rw [List.mem_singleton.mp mem, State.jacksOf_congr layoutU]
              exact among
          exact started.congr chanU layoutU nowU (fun n => (chanT _ alarm n).1) fun n => (chanT _ alarm n).2
      | false =>
        rw [runs, if_neg (by simp)] at work
        obtain ⟨alarm, frame⟩ := shape u rfl work
        obtain ⟨jacks, jackSet, level, load, paused, claims, rooms, awning⟩ := kept _ alarm frame
        have others (x : Chan) (pump : s.role x ≠ .pump) : t.chan x = s.chan x := by
          have roleU : u.role x = s.role x := congrArg (fun l : Layout => l.roles[x]) layoutU
          rw [(chanT _ alarm x).1, (u.pumpFollow_spec.2 x (by rw [roleU]; exact pump)).1, chanU]
        refine ⟨jacks, jackSet, level, load, paused, claims, rooms, awning, fun x pump _ => others x pump, nofun, fun _ =>
          ⟨others, fun idle x on => ?_⟩⟩
        have idleU (i : JackId) (mem : i ∈ u.jacksOf e.action) : u.valveDriven i = false := by
          rw [State.valveDriven_congr layoutU fun n _ => by rw [chanU]]
          exact idle i (by rw [← State.jacksOf_congr layoutU]; exact mem)
        have after : (u.pumpFollow.chan x).driven = true := by
          rw [← (chanT _ alarm x).1]
          exact on
        cases pump : u.roleChan .pump with
        | none =>
          have same : u.pumpFollow = u := by
            unfold State.pumpFollow State.jackMotion
            rw [foundU, pump]
          rw [same, chanU] at after
          exact after
        | some q =>
          rw [(State.pumpFollow_pump foundU pump).2 idleU, State.stopChan_eq, State.chan_setChan] at after
          split at after
          · rw [Channel.driven_stopped] at after
            exact absurd after (by simp)
          · rw [chanU] at after
            exact after
  · rw [if_neg]
    simp only [Bool.and_eq_true, decide_eq_true_eq, not_and]
    rintro ⟨contact, run⟩
    obtain apart | few | absent := never
    · simp [contact] at apart
    · omega
    · simp [absent]

end Sys2Proof.Machine
end

section
/-! PROOFS. A refutation: the stall of a jack in a state with two motions of the jacks (R76, R128). -/

namespace Sys2Proof.Machine

/-- A MOVE_JACK motion of jack 1, extending. -/
def extension : Entry :=
  { group := .jacks, owner := .port .p1, mode := .auto, action := .jack 0 .outward, units := 0, order := 0
    state := .running, pausedSince := none }

/-- Jack 1 is driven out with its home switch closed, room 1 is not CLOSED, and beside the extension a retraction of the
jacks stands in the load list. Two motions of one group are what no step brings about; O41 speaks of every state. -/
def doublyMoved : State :=
  { State.reset with
    layout := { Layout.empty with roles := (Layout.empty.roles.set 0 (.jack 0)).set 1 (.room 0 .a) }
    channels := State.reset.channels.set 0 { freshChannel .seated true with drive := .atSpeed }
    lines := State.reset.lines.set 0 { freshLines with hom := { freshLine with accepted := some true } }
    jacks := State.reset.jacks.set 0 { freshJack with phase := .active, dir := .outward }
    load := [extension, { extension with action := .toward .stowing, order := 1 }]
    nextOrder := 2 }

/-- The stall makes the jack set STOWED; in that handing over the retraction's permit has fallen, and the motion of the
group ends INTERLOCK before its own ending is taken. -/
theorem outcome_doublyMoved : (doublyMoved.stallReached 0).outcomeOf .jacks = some .interlock := by decide +kernel

/-- Refutes O41: of a MOVE_JACK EXTEND it asks the outcome END_REACHED in every state, also where a second motion of the
jacks ends by its permit in the same event. -/
theorem not_stallsEndTravel : ¬ Obligations.StallsEndTravel := by
  unfold Obligations.StallsEndTravel
  intro h
  obtain ⟨-, stalls⟩ := h doublyMoved 0 _ rfl rfl
  obtain ⟨-, jack⟩ := stalls (by decide +kernel) (by decide +kernel)
  obtain ⟨-, extending⟩ := jack 0 extension (by decide +kernel) (by decide +kernel) (by decide +kernel)
  obtain ⟨t, run, -, -, ends, -⟩ := extending (by decide +kernel)
  have taken : exec (.stall 0) doublyMoved = .next (doublyMoved.stallReached 0) := rfl
  have same : doublyMoved.stallReached 0 = t := Host.Outcome.next.inj (taken.symm.trans run)
  have outcome := ((ends rfl).recorded (by decide +kernel)).2
  rw [← same, outcome_doublyMoved] at outcome
  exact absurd outcome (by decide)

end Sys2Proof.Machine
end

section
/-! PROOFS. A refutation: the change of a jack while a plan runs on in the same event (R116, R128, R153). -/

namespace Sys2Proof.Machine

/-- A held MOVE_JACK motion of jack 1, extending. -/
def heldExtension : Entry :=
  { group := .jacks, owner := .port .p1, mode := .hold, action := .jack 0 .outward, units := 0, order := 0
    state := .running, pausedSince := none }

/-- The claim of the held MOVE_JACK motion. -/
def extensionClaim : Claim :=
  { owner := .port .p1, mode := .hold, action := .jack 0 .outward, deadline := some 0, ended := false }

/-- A motion of a room, of another owner or in another direction than the jacks. -/
def roomEntry (k : RoomId) (o : Owner) (d : Dir) (n : Nat) : Entry :=
  { group := .room k, owner := o, mode := .auto, action := .toward d, units := 0, order := n, state := .running
    pausedSince := none }

/-- The jack set is STABILISED while room 3, which needs support, is on its way OUT, and the pause list holds the motion of
room 2, at home already, for the first step of a running plan; the second step moves room 1, which is CLOSED, OUT. Rooms 2
and 3 have motions but no ROOMk-A channel: no step brings that about, but O25 asks for no regular state. -/
def plannedBeside : State :=
  { State.reset with
    layout := { Layout.empty with
      roles := (((Layout.empty.roles.set 0 (.room 1 .b)).set 1 (.room 0 .a)).set 2 (.jack 0)).set 3 (.jack 1)
      rooms := Layout.empty.rooms.set 2 { Layout.empty.rooms[2] with needsSupport := true }
      setup := [[(.room 1, .toward .stowing)], [(.room 0, .toward .outward)]] }
    channels := Vector.replicate 16 (freshChannel .seated true)
    lines := State.reset.lines.set 0 { freshLines with hom := { freshLine with accepted := some true } }
    park := { freshLine with accepted := some true }
    rooms := ((State.reset.rooms.set 0 stowedAwning).set 1
      { freshSlider with
        state := .closing, motorA := { freshMotor with phase := .finished }, motorB := { freshMotor with phase := .travel } }).set 2
      { freshSlider with state := .opening }
    jacks := Vector.replicate 6 { freshJack with contact := true }
    claims := State.reset.claims.set (groupIndex .jacks) (some extensionClaim)
    load := [heldExtension, roomEntry 2 (.port .p2) .outward 1]
    paused := [roomEntry 1 .sequencer .stowing 2]
    nextOrder := 3
    plan := { freshPlan with
      status := .running, name := some .setup, stepCount := 2, stepIndex := 1, slots := [⟨.room 1, none⟩] } }

/-- The state after the change to jack 2, retracting. -/
def changedBeside : State := plannedBeside.takeRequest .p1 .moveJack (some (.moveJack 1 .stowing))

/-- The running plan names no jacks. -/
theorem unplanned_plannedBeside : plannedBeside.unplanned .jacks := by
  intro n _ name
  cases (Option.some.inj name : PlanName.setup = n)
  decide +kernel

/-- The jacks leave STABILISED, room 3 ends INTERLOCK, the scan takes room 2 up, whose end brings the plan's second step; with
room 1 on its way OUT the retraction of the jacks has lost its permit and ends too. -/
theorem claim_changedBeside :
    changedBeside.claim .jacks =
      some { owner := .port .p1, mode := .hold, action := .jack 1 .stowing, deadline := some 12000, ended := true } := by
  decide +kernel

/-- Refutes O25: a jack change asks that the motion stands with its new jack also where a motion that falls in the same event
lets a running plan pass on to a step that takes the retraction's permit. -/
theorem not_holderTurnsTheMotion : ¬ Obligations.HolderTurnsTheMotion := by
  unfold Obligations.HolderTurnsTheMotion
  intro h
  obtain ⟨-, -, change⟩ := h plannedBeside .p1 .jacks (.jack 1 .stowing) (.moveJack .p1 2 2) extensionClaim _
    { heldExtension with action := .jack 1 .stowing, units := plannedBeside.motionUnits .jacks (.jack 1 .stowing), order := 3 }
    rfl (by unfold State.hasRoom; decide +kernel) (by decide +kernel) (by decide +kernel) rfl rfl (by decide) rfl rfl
  obtain ⟨-, turned⟩ := change 0 .outward 1 .stowing rfl rfl (by decide) rfl (by decide +kernel)
  obtain ⟨t, run, -, -, stands, -⟩ := turned (.inr (by decide +kernel))
  have taken : exec (.moveJack .p1 2 2) plannedBeside = .next changedBeside := rfl
  have same : changedBeside = t := Host.Outcome.next.inj (taken.symm.trans run)
  obtain ⟨goesOn, -⟩ := stands heldExtension unplanned_plannedBeside (by unfold State.showsMotions; decide +kernel)
    (by decide +kernel) (by decide +kernel)
  obtain ⟨-, -, claim⟩ := goesOn (by decide +kernel)
  rw [← same, claim_changedBeside] at claim
  exact absurd claim (by decide)

end Sys2Proof.Machine
end

section
/-! PROOFS. A refutation: a waiting level run taken up with every jack at home and in contact (R70, R84, R128, R141). -/

namespace Sys2Proof.Machine

theorem exec_supplySample {s : State} (raw : Sample) (awake : s.inReset = none) :
    exec (.supplySample raw) s = .next (s.event fun t => t.supplyTaken raw.toNat) :=
  congrArg _ (exec_awake (f := fun t => t.event fun u => u.supplyTaken raw.toNat) awake)

/-- A level run that has never run, in the pause list. -/
def waitingRun : Entry :=
  { group := .jacks, owner := .port .p1, mode := .auto, action := .level, units := 0, order := 0, state := .waiting
    pausedSince := some 0 }

/-- Room 1 is on its way OUT on a jack set that reads STABILISED: its only jack has contact and is EXTENDING, although its
home switch is closed. A level run waits, and the supply is about to rise from band D to band A. No step leaves a waiting run
with an ACTIVE jack; O52 speaks of every state without a fallen permit. -/
def supportedAtHome : State :=
  { State.reset with
    layout := { Layout.empty with
      roles := Layout.empty.roles.set 0 (.jack 0)
      rooms := Layout.empty.rooms.set 0 { Layout.empty.rooms[0] with needsSupport := true } }
    lines := State.reset.lines.set 0 { freshLines with hom := { freshLine with accepted := some true } }
    jacks := State.reset.jacks.set 0 { freshJack with contact := true, phase := .active }
    supply := { samples := List.replicate 24 1300, mean := some 0, band := .d }
    load := [roomEntry 0 (.port .p2) .outward 1]
    paused := [waitingRun]
    nextOrder := 2 }

/-- The state after the sample that completes the mean of band A. -/
def risenAtHome : State := supportedAtHome.event fun t => t.supplyTaken (1300 : Sample).toNat

/-- The CONTACT phase makes the jack DONE: it reads RETRACTED now, the jack set STOWED, and the room loses its support and
ends INTERLOCK in the event. -/
theorem load_risenAtHome :
    risenAtHome.load = [{ waitingRun with state := .running, pausedSince := none }] := by
  decide +kernel

/-- Refutes O52: of a waiting level run that a rise of the band takes up it asks that the load list holds all it held before,
also where the beginning of the run's CONTACT phase takes the support from under a moving room. -/
theorem not_supplyBandFollowsTheMean : ¬ Obligations.SupplyBandFollowsTheMean := by
  unfold Obligations.SupplyBandFollowsTheMean
  intro h
  obtain ⟨t, run, -, -, -, full⟩ := h supportedAtHome 1300 (List.replicate 25 1300) rfl (by decide)
  have taken : exec (.supplySample 1300) supportedAtHome = .next risenAtHome := exec_supplySample 1300 rfl
  have same : risenAtHome = t := Host.Outcome.next.inj (taken.symm.trans run)
  subst same
  obtain ⟨-, -, -, -, change⟩ := full 1300 (by decide) (by decide)
  obtain ⟨-, -, -, rise, -⟩ := change (by decide +kernel)
  obtain ⟨first, -⟩ := rise (by decide +kernel)
  obtain ⟨-, resumed⟩ := first [] waitingRun [] (by decide +kernel) (by simp) (by decide +kernel)
  obtain ⟨⟨load, -⟩, -⟩ := (resumed (by simp) (by decide +kernel) (by decide +kernel)).begins rfl rfl rfl
  rw [load_risenAtHome] at load
  exact absurd load (by decide +kernel)

end Sys2Proof.Machine
end

section
/-! PROOFS. The home switches of a room or the awning: the count they zero, the state at rest, the seat and the rack check of a
closure, and the permit that an opening takes (R42, R43, R46, R50, R96, R128). -/

namespace Sys2Proof.Machine

section
variable {s t u : State} {n : Chan} {j : JackId} {id i : Slider} {m x : Motor} {e : Entry} {d : Dir} {closed : Bool} {act : Action}

/-- The one role that the channel of a motor has. -/
theorem State.motorChan_unique (a : s.motorChan id m = some n) (b : s.motorChan i x = some n) : (i, x) = (id, m) := by
  cases id with
  | awning =>
    cases m with
    | b => simp [State.motorChan] at a
    | a =>
      cases i with
      | awning =>
        cases x with
        | a => rfl
        | b => simp [State.motorChan] at b
      | room k =>
        have same := (State.role_of_roleChan a).symm.trans (State.role_of_roleChan b)
        simp at same
  | room k =>
    cases i with
    | awning =>
      cases x with
      | b => simp [State.motorChan] at b
      | a =>
        have same := (State.role_of_roleChan a).symm.trans (State.role_of_roleChan b)
        simp at same
    | room l =>
      have same := (State.role_of_roleChan a).symm.trans (State.role_of_roleChan b)
      simp only [Role.room.injEq] at same
      rw [same.1, same.2]

/-- The jack set state reads of the lines only the jacks' home switches. -/
theorem State.jackSetState_homes (layout : t.layout = s.layout) (homes : ∀ j, t.jackHome j = s.jackHome j)
    (jacks : t.jacks = s.jacks) (mark : t.jackSet.levelMark = s.jackSet.levelMark) : t.jackSetState = s.jackSetState := by
  have role (n : Chan) : t.role n = s.role n := by rw [State.role, State.role, layout]
  have chan (r : Role) : t.roleChan r = s.roleChan r := by simp only [State.roleChan, role]
  have configured : t.configuredJacks = s.configuredJacks := by simp only [State.configuredJacks, State.jackConfigured, chan]
  have jack (j : JackId) : t.jack j = s.jack j := by rw [State.jack, State.jack, jacks]
  have state : t.jackState = s.jackState := by
    funext j
    unfold State.jackState
    rw [jack, homes]
  have planted : t.planted = s.planted := by
    funext j
    unfold State.planted
    rw [jack, state]
  have faulted : t.jacksFaulted = s.jacksFaulted := by simp only [State.jacksFaulted, configured, jack]
  unfold State.jackSetState State.jackCount
  rw [configured, faulted, state, planted, mark]

theorem State.homeClosed_accept {q : Chan} :
    (s.accept (.hom n) closed).homeClosed q = if q = n then closed else s.homeClosed q := by
  simp only [State.accept, State.setLine, State.setLines, State.homeClosed, State.line]
  by_cases same : q = n
  · subst same
    cases closed <;> simp
  · have other : q.val ≠ n.val := fun h => same (Fin.ext h)
    simp [same, Vector.getElem_set_ne, Ne.symm other]

/-- A home switch that is no jack's leaves what the permit table reads as it is. -/
theorem State.view_accept (own : s.motorChan id m = some n) : (s.accept (.hom n) closed).view = s.view := by
  have frame := s.accept_frame (l := .hom n) (v := closed)
  have homes (j : JackId) : (s.accept (.hom n) closed).jackHome j = s.jackHome j := by
    have chan : (s.accept (.hom n) closed).roleChan (.jack j) = s.roleChan (.jack j) := by rw [frame]; rfl
    unfold State.jackHome
    rw [chan]
    split
    · rename_i q valve
      have other : q ≠ n := by
        rintro rfl
        have slide := State.group_motorChan own
        rw [State.role_of_roleChan valve] at slide
        cases id <;> simp [Role.group, Slider.group] at slide
      rw [State.homeClosed_accept, if_neg other]
    · rfl
  have set : (s.accept (.hom n) closed).jackSetState = s.jackSetState :=
    State.jackSetState_homes (by rw [frame]) homes (by rw [frame]) (by rw [frame])
  unfold State.view
  rw [set, frame]
  rfl

theorem State.motorHome_accept (own : s.motorChan id m = some n) :
    (s.accept (.hom n) closed).motorHome i x = if (i, x) = (id, m) then closed else s.motorHome i x := by
  have frame := s.accept_frame (l := .hom n) (v := closed)
  have chan : (s.accept (.hom n) closed).motorChan i x = s.motorChan i x := by rw [frame]; rfl
  unfold State.motorHome
  rw [chan]
  by_cases same : (i, x) = (id, m)
  · obtain ⟨rfl, rfl⟩ := Prod.mk.inj same
    rw [own, if_pos rfl]
    exact State.homeClosed_accept.trans (if_pos rfl)
  · rw [if_neg same]
    split
    · rename_i q motor
      have other : q ≠ n := by
        rintro rfl
        exact same (State.motorChan_unique own motor)
      exact State.homeClosed_accept.trans (if_neg other)
    · rfl

/-- A motor with count 0 (R42, R96). -/
def State.motorZeroed (s : State) (id : Slider) (m : Motor) : State := s.setMotor id m { s.motor id m with count := some 0 }

theorem State.count_beginSeat : ((s.beginSeat id m).1.motor i x).count = (s.motor i x).count := by
  unfold State.beginSeat
  dsimp only
  have kept (d : Time) : ((s.setMotor id m { s.motor id m with phase := .seat, seatDeadline := some d }).motor i x).count =
      (s.motor i x).count := by
    rw [State.motor_setMotor]
    split
    · rename_i same
      rw [same.1, same.2]
    · rfl
  split
  · generalize before : s.setMotor id m { s.motor id m with phase := .seat, seatDeadline := some _ } = u
    obtain ⟨⟨channels, frame⟩, -⟩ := u.seatDone_spec id m
    rw [frame, State.motor_setMotor]
    split
    · rename_i same
      rw [← same.1, ← same.2]
      subst before
      rw [State.motor_setMotor_same]
    · subst before
      exact kept _
  · have slider := (State.retrim_retrimmed (id := id)
      (s := s.setMotor id m { s.motor id m with phase := .seat, seatDeadline := some (s.now + paceTicks (s.seatTicks id m)) })).slider i
    exact (congrArg (fun r : SliderRec => (r.motor x).count) slider).trans (kept _)

theorem State.view_beginSeat : (s.beginSeat id m).1.view = s.view := by
  unfold State.beginSeat
  dsimp only
  split
  · exact State.view_seatDone.trans (State.view_setMotor _)
  · exact (State.retrim_retrimmed.view).trans (State.view_setMotor _)

/-- What a closure leads to at rest and in a motion (R42, R46, R50, R96). -/
theorem State.slideHomeClosed_cases :
    (s.slideDir id = none → s.slideHomeClosed id m = ((s.motorZeroed id m).setSlider id
      { (s.motorZeroed id m).slider id with
        state := if (s.motorZeroed id m).allHome id then .closed
          else if (s.motorZeroed id m).positionKnown id then .midway else (s.slider id).state }, [])) ∧
    ∀ d, s.slideDir id = some d → ∃ w : Work,
      (w = if d = .stowing ∧ (s.motor id m).phase = .travel ∧ s.motorDriven id m = true then (s.motorZeroed id m).beginSeat id m
        else ((s.motorZeroed id m).retrim id, [])) ∧
      s.slideHomeClosed id m = if s.anyMotorDriven id = true then (s.motorZeroed id m).rackCheck id w else w := by
  have dir : (s.motorZeroed id m).slideDir id = s.slideDir id := by cases id <;> rfl
  have state : ((s.motorZeroed id m).slider id).state = (s.slider id).state := by
    simp [State.motorZeroed, State.setMotor]
  have phase : ((s.motorZeroed id m).motor id m).phase = (s.motor id m).phase := by
    simp [State.motorZeroed]
  have driven (y : Motor) : (s.motorZeroed id m).motorDriven id y = s.motorDriven id y := by cases id <;> rfl
  have any : (s.motorZeroed id m).anyMotorDriven id = s.anyMotorDriven id := by cases id <;> rfl
  constructor
  · intro rest
    unfold State.slideHomeClosed
    change (match (s.motorZeroed id m).slideDir id with | none => _ | some d => _) = _
    rw [dir, rest, ← state]
    rfl
  · intro d moving
    refine ⟨_, rfl, ?_⟩
    unfold State.slideHomeClosed
    change (match (s.motorZeroed id m).slideDir id with | none => _ | some d => _) = _
    rw [dir, moving]
    let work : Work := if d = .stowing ∧ ((s.motorZeroed id m).motor id m).phase = .travel ∧
      (s.motorZeroed id m).motorDriven id m = true then (s.motorZeroed id m).beginSeat id m
      else ((s.motorZeroed id m).retrim id, [])
    have same : work = if d = .stowing ∧ (s.motor id m).phase = .travel ∧ s.motorDriven id m = true then
        (s.motorZeroed id m).beginSeat id m else ((s.motorZeroed id m).retrim id, []) := by
      simp only [work, phase, driven]
    change (if (s.motorZeroed id m).anyMotorDriven id = true then (s.motorZeroed id m).rackCheck id work else work) = _
    rw [any, same]

theorem State.count_motorZeroed :
    ((s.motorZeroed id m).motor i x).count = if (i, x) = (id, m) then some 0 else (s.motor i x).count := by
  unfold State.motorZeroed
  rw [State.motor_setMotor]
  by_cases same : id = i ∧ m = x
  · obtain ⟨rfl, rfl⟩ := same
    simp
  · rw [if_neg same, if_neg]
    rintro h
    obtain ⟨rfl, rfl⟩ := Prod.mk.inj h
    exact same ⟨rfl, rfl⟩

theorem State.fst_rackCheck {w : Work} : (s.rackCheck id w).1 = s ∨ (s.rackCheck id w).1 = w.1 := by
  unfold State.rackCheck
  split
  · exact .inl rfl
  · exact .inr rfl

/-- A closure in a motion leaves the zeroed motor, the seat it enters, or the trims set anew. -/
theorem State.slideHomeClosed_moving (moving : s.slideDir id = some d) :
    (s.slideHomeClosed id m).1 = s.motorZeroed id m ∨ (s.slideHomeClosed id m).1 = ((s.motorZeroed id m).beginSeat id m).1 ∨
      (s.slideHomeClosed id m).1 = (s.motorZeroed id m).retrim id := by
  obtain ⟨-, cases⟩ := State.slideHomeClosed_cases (s := s) (id := id) (m := m)
  obtain ⟨w, work, eq⟩ := cases d moving
  have inner : w.1 = ((s.motorZeroed id m).beginSeat id m).1 ∨ w.1 = (s.motorZeroed id m).retrim id := by
    rw [work]
    split
    · exact .inl rfl
    · exact .inr rfl
  rw [eq]
  split
  · rcases State.fst_rackCheck (s := s.motorZeroed id m) (id := id) (w := w) with same | same
    · exact .inl same
    · rw [same]
      exact .inr inner
  · exact .inr inner

theorem State.count_slideHomeClosed :
    ((s.slideHomeClosed id m).1.motor i x).count = if (i, x) = (id, m) then some 0 else (s.motor i x).count := by
  rw [← State.count_motorZeroed]
  cases dir : s.slideDir id with
  | none =>
    rw [State.slideHomeClosed_cases.1 dir, State.motor, State.slider_setSlider]
    split
    · rename_i same
      subst same
      cases x <;> rfl
    · rfl
  | some d =>
    rcases State.slideHomeClosed_moving dir with same | same | same
    · rw [same]
    · rw [same, State.count_beginSeat]
    · rw [same, State.motor, State.retrim_retrimmed.slider]
      rfl

theorem State.view_slideHomeClosed (moving : s.slideDir id = some d) : (s.slideHomeClosed id m).1.view = s.view := by
  have zeroed : (s.motorZeroed id m).view = s.view := State.view_setMotor _
  rcases State.slideHomeClosed_moving moving with same | same | same
  · rw [same, zeroed]
  · rw [same, State.view_beginSeat, zeroed]
  · rw [same, State.retrim_retrimmed.view, zeroed]

theorem State.setMotor_setMotor (r q : MotorRec) : (s.setMotor id m r).setMotor id m q = s.setMotor id m q := by
  cases id with
  | awning => cases m <;> rfl
  | room k =>
    cases m <;> simp [State.setMotor, State.setSlider, State.slider, SliderRec.setMotor]

theorem State.retrim_single (single : s.twoMotors id = false) : s.retrim id = s := by
  unfold State.retrim
  rw [if_neg (by simp [single])]

theorem State.racked_single (single : s.twoMotors id = false) : s.racked id = false := by
  unfold State.racked State.bothCounts
  rw [if_neg (by simp [single])]

/-- A seat of some length (R46, R98). -/
theorem State.beginSeat_timed {p : Nat} (chan : s.motorChan id m = some n) (pace : s.pace? n = some p)
    (long : 128 ≤ p * s.seatFraction id) :
    s.beginSeat id m = ((s.setMotor id m
      { s.motor id m with phase := .seat, seatDeadline := some (s.now + 4 * (p * s.seatFraction id / 128)) }).retrim id, []) := by
  have ticks : s.seatTicks id m = p * s.seatFraction id / 128 := by
    unfold State.seatTicks
    rw [chan]
    dsimp only
    rw [pace]
  unfold State.beginSeat
  dsimp only
  rw [ticks, if_neg (by omega)]
  rfl

theorem State.racked_motorZeroed {c : Nat} (two : s.twoMotors id = true) (other : x ≠ m)
    (count : (s.motor id x).count = some c) : (s.motorZeroed id m).racked id = decide (s.rackLimit id ≤ c) := by
  have zero : ((s.motorZeroed id m).motor id m).count = some 0 := by rw [State.count_motorZeroed, if_pos rfl]
  have kept : ((s.motorZeroed id m).motor id x).count = some c := by
    rw [State.count_motorZeroed, if_neg (by simpa using other), count]
  have two' : (s.motorZeroed id m).twoMotors id = true := by cases id <;> exact two
  have limit : (s.motorZeroed id m).rackLimit id = s.rackLimit id := by cases id <;> rfl
  unfold State.racked State.bothCounts
  rw [if_pos two', limit]
  cases m <;> cases x
  · exact absurd rfl other
  · rw [zero, kept]
    simp [leadOf]
  · rw [zero, kept]
    simp [leadOf]
  · exact absurd rfl other

theorem exec_slideHome (awake : s.inReset = none) (own : s.motorChan id m = some n) (present : s.present n = true) :
    exec (homeCommand id m closed) s = .next (s.event fun t => (t.accept (.hom n) closed).homeEvent n closed) := by
  have taken {r : Role} (chan : s.roleChan r = some n) (named : r ≠ .none) (other : r ≠ .pump) :
      s.homeOf r closed = s.event fun t => (t.accept (.hom n) closed).homeEvent n closed := by
    unfold State.homeOf State.homeChanged
    rw [chan]
    dsimp only
    rw [if_pos (State.hasHome_of_role chan present named other)]
  cases id with
  | room k =>
    rw [← taken own (by simp) (by simp)]
    cases closed
    · exact congrArg _ (exec_awake (f := fun t => t.homeOf (.room k m) false) awake)
    · exact congrArg _ (exec_awake (f := fun t => t.homeOf (.room k m) true) awake)
  | awning =>
    cases m with
    | b => simp [State.motorChan] at own
    | a =>
      rw [← taken own (by simp) (by simp)]
      cases closed
      · exact congrArg _ (exec_awake (f := fun t => t.homeOf .awning false) awake)
      · exact congrArg _ (exec_awake (f := fun t => t.homeOf .awning true) awake)

theorem State.homeEvent_slide (own : s.motorChan id m = some n) :
    s.homeEvent n true = s.slideHomeClosed id m ∧ s.homeEvent n false = (s.slideHomeOpened id, []) := by
  cases id with
  | room k =>
    unfold State.homeEvent
    rw [State.role_of_roleChan own]
    exact ⟨rfl, rfl⟩
  | awning =>
    cases m with
    | b => simp [State.motorChan] at own
    | a =>
      unfold State.homeEvent
      rw [State.role_of_roleChan own]
      exact ⟨rfl, rfl⟩

/-! ### A state whose lines alone have changed -/

/-- The only thing in which two states differ are the conditioned lines. -/
def State.butLines (s v : State) : Prop := v = { s with lines := v.lines, park := v.park, ign := v.ign }

theorem State.butLines_accept : s.butLines (s.accept (.hom n) closed) := State.accept_frame

namespace State.butLines

variable {v : State} (a : s.butLines v)
include a

theorem load : v.load = s.load := by rw [a]
theorem paused : v.paused = s.paused := by rw [a]
theorem layout : v.layout = s.layout := by rw [a]
theorem now : v.now = s.now := by rw [a]
theorem slider : v.slider id = s.slider id := by rw [a]; cases id <;> rfl
theorem motor : v.motor id m = s.motor id m := by simp only [State.motor, a.slider]
theorem motorChan : v.motorChan id m = s.motorChan id m := by rw [a]; cases id <;> rfl
theorem motors : v.motors id = s.motors id := by simp only [State.motors, a.motorChan]
theorem twoMotors : v.twoMotors id = s.twoMotors id := by simp only [State.twoMotors, a.motorChan]
theorem chan : v.chan n = s.chan n := by rw [a]; rfl
theorem motorDriven : v.motorDriven id m = s.motorDriven id m := by simp only [State.motorDriven, a.motorChan, a.chan]
theorem anyMotorDriven : v.anyMotorDriven id = s.anyMotorDriven id := by
  simp only [State.anyMotorDriven, a.motors, a.motorDriven]
theorem entryOf (g : Group) : v.entryOf g = s.entryOf g := by simp only [State.entryOf, a.load, a.paused]
theorem slideDir : v.slideDir id = s.slideDir id := by simp only [State.slideDir, a.entryOf]
theorem pace : v.pace? n = s.pace? n := by rw [a]; rfl
theorem rackLimit : v.rackLimit id = s.rackLimit id := by rw [a]; cases id <;> rfl
theorem seatFraction : v.seatFraction id = s.seatFraction id := by rw [a]; cases id <;> rfl
theorem motorZeroed : s.butLines v → v.motorZeroed id m = v.setMotor id m { s.motor id m with count := some 0 } := by
  intro _
  unfold State.motorZeroed
  rw [a.motor]

end State.butLines

theorem State.motorDriven_motorZeroed {y : Motor} : (s.motorZeroed id m).motorDriven i y = s.motorDriven i y := by
  cases id <;> rfl

theorem State.entryOf_motorZeroed (g : Group) : (s.motorZeroed id m).entryOf g = s.entryOf g := by
  cases id <;> rfl

theorem State.lists_motorZeroed : (s.motorZeroed id m).load = s.load ∧ (s.motorZeroed id m).paused = s.paused := by
  cases id <;> exact ⟨rfl, rfl⟩

theorem Retrimmed.motorDriven (a : Retrimmed s t) : t.motorDriven id m = s.motorDriven id m := by
  have chan : t.motorChan id m = s.motorChan id m := by rw [a.frame]; cases id <;> rfl
  unfold State.motorDriven
  rw [chan]
  split
  · exact a.driven _
  · rfl

/-- A slider's motors stand once its motion has ended, with no plan that could move it again. -/
theorem Ends.motors_off {x : Ending} (a : Ends id.group x s t) (found : s.entryOf id.group = some e)
    (silent : s.planRunning = false) (y : Motor) : t.motorDriven id y = false := by
  have layout : t.layout = s.layout := by have e := congrArg State.layout a.ended.fixed; exact e
  refine State.motorDriven_of_stopped layout fun q chan => ?_
  rw [(a.chan found silent (State.group_motorChan chan)).1, State.chan_motionEnd_slide found, if_pos]
  · exact Channel.driven_stopped ..
  · refine State.mem_slideChans.mpr ⟨y, ?_, chan⟩
    unfold State.motors
    cases y with
    | a => split <;> simp
    | b => simp [chan]

/-! ### What the event of a home switch leaves -/

/-- The state after a change of the home switch of a channel. -/
def State.homeTaken (s : State) (n : Chan) (closed : Bool) : State :=
  s.event fun t => (t.accept (.hom n) closed).homeEvent n closed

theorem State.closure_work (own : s.motorChan id m = some n) :
    (s.accept (.hom n) true).homeEvent n true = (s.accept (.hom n) true).slideHomeClosed id m :=
  (State.homeEvent_slide ((State.butLines_accept.motorChan).trans own)).1

theorem State.opening_work (own : s.motorChan id m = some n) :
    (s.accept (.hom n) false).homeEvent n false = ((s.accept (.hom n) false).slideHomeOpened id, []) :=
  (State.homeEvent_slide ((State.butLines_accept.motorChan).trans own)).2

theorem State.closure_does (own : s.motorChan id m = some n) :
    Does (fun _ => True) ((s.accept (.hom n) true).slideHomeClosed id m).1 (s.homeTaken n true) := by
  have e := State.event_does (F := fun _ => True) (f := fun t => (t.accept (.hom n) true).homeEvent n true) (s := s)
    (by rw [State.closure_work own]; exact State.slideHomeClosed_plain)
  rw [State.closure_work own] at e
  exact e

/-- The closed motor has count 0; every other motor's count stands, or is 0 at home. -/
theorem State.count_closure (own : s.motorChan id m = some n) :
    ((s.homeTaken n true).motor id m).count = some 0 ∧ ∀ i x, (i, x) ≠ (id, m) → s.countKept (s.homeTaken n true) i x := by
  have lines := State.butLines_accept (s := s) (n := n) (closed := true)
  have does := (State.closure_does own).follows
  have acts := State.slideHomeClosed_acts (s := s.accept (.hom n) true) (id := id) (m := m)
  constructor
  · rcases does.counts id m with same | ⟨-, zero⟩
    · rw [same, State.count_slideHomeClosed, if_pos rfl]
    · exact zero
  · intro i x other
    have before : (((s.accept (.hom n) true).slideHomeClosed id m).1.motor i x).count = (s.motor i x).count := by
      rw [State.count_slideHomeClosed, if_neg other, lines.motor]
    rcases does.counts i x with same | ⟨home, zero⟩
    · exact .inl (same.trans before)
    · refine .inr ⟨?_, zero⟩
      rw [State.motorHome_congr (s := s.accept (.hom n) true) acts.layout
        (by have e := congrArg State.lines acts.fixed; exact e), State.motorHome_accept own,
        if_neg other] at home
      exact home

/-- A closure that ends nothing leaves what the controller makes of it. -/
theorem State.closure_quiet (own : s.motorChan id m = some n) (moving : s.slideDir id = some d)
    (work : ((s.accept (.hom n) true).slideHomeClosed id m).2 = []) :
    s.homeTaken n true = ((s.accept (.hom n) true).slideHomeClosed id m).1 := by
  have lines := State.butLines_accept (s := s) (n := n) (closed := true)
  have quiet := State.event_quiet (f := fun t => (t.accept (.hom n) true).homeEvent n true) (s := s)
    (by rw [State.closure_work own]; exact work)
    (by rw [State.closure_work own, State.view_slideHomeClosed (lines.slideDir.trans moving), State.view_accept own])
  rw [State.closure_work own] at quiet
  exact quiet

/-- A closure at rest zeroes the count and sets the state by the switches. -/
theorem State.closure_at_rest (own : s.motorChan id m = some n) (rest : s.motions = []) (u : State)
    (before : u = s.accept (.hom n) true) :
    ((u.setMotor id m { s.motor id m with count := some 0 }).setSlider id
      { (u.setMotor id m { s.motor id m with count := some 0 }).slider id with
        state := if u.allHome id = true then .closed
          else if ∀ x ∈ s.motors id, x = m ∨ (s.motor id x).count ≠ none then .midway
          else (s.slider id).state }).butAlarm (s.homeTaken n true) := by
  have lines : s.butLines u := before ▸ State.butLines_accept
  have lists : s.load = [] ∧ s.paused = [] := by simpa [State.motions] using rest
  have dir : u.slideDir id = none := by
    rw [lines.slideDir]
    simp [State.slideDir, State.entryOf, lists.1, lists.2]
  have work := (State.slideHomeClosed_cases (s := u) (id := id) (m := m)).1 dir
  have home : (u.motorZeroed id m).allHome id = u.allHome id := by
    rw [State.motorZeroed]
    exact State.allHome_congr (by cases id <;> rfl) (by cases id <;> rfl)
  have read : ∀ x, (((u.motorZeroed id m).sliderRead id).motor x).count = ((u.motorZeroed id m).motor id x).count := by
    intro x
    cases id with
    | room k => rfl
    | awning =>
      have configured : (u.motorZeroed .awning m).configured .awning = true := by
        cases m with
        | b => simp [State.motorChan] at own
        | a =>
          have chan : (u.motorZeroed .awning .a).roleChan .awning = some n := lines.motorChan.trans own
          simp [State.configured, chan]
      unfold State.sliderRead
      rw [if_pos configured]
      rfl
  have known : (u.motorZeroed id m).positionKnown id = true ↔ ∀ x ∈ s.motors id, x = m ∨ (s.motor id x).count ≠ none := by
    have motors : (u.motorZeroed id m).motors id = s.motors id := by
      rw [← lines.motors]
      cases id <;> rfl
    unfold State.positionKnown
    rw [motors, List.all_eq_true]
    refine forall₂_congr fun x _ => ?_
    rw [read, State.count_motorZeroed, lines.motor]
    by_cases same : x = m
    · simp [same]
    · simp [same, Option.isSome_iff_ne_none]
  have calm : (u.slideHomeClosed id m).1.fallenPermit = none := by
    rw [work]
    refine State.fallenPermit_none ?_ ?_
    · refine Eq.trans ?_ (lines.load.trans lists.1)
      cases id <;> rfl
    · refine Eq.trans ?_ (lines.paused.trans lists.2)
      cases id <;> rfl
  have run := (State.event_calm (F := fun _ => True) (f := fun t => (t.accept (.hom n) true).homeEvent n true) (s := s)
    (by rw [State.closure_work own, ← before, work]) (by rw [State.closure_work own, ← before]; exact calm)).1
  rw [State.closure_work own, ← before, work] at run
  refine Eq.mp (congrArg (fun z : State => z.butAlarm _) ?_) run
  rw [lines.motorZeroed lines] at home known ⊢
  simp only [home, known, lines.slider]

/-- A closure on the way in of a one-motor slider begins the seat (R46, R98). -/
theorem State.closure_seats {p : Nat} (own : s.motorChan id m = some n) (moving : s.slideDir id = some .stowing)
    (phase : (s.motor id m).phase = .travel) (driven : s.motorDriven id m = true) (pace : s.pace? n = some p)
    (long : 128 ≤ p * s.seatFraction id) (u : State)
    (before : u = s.accept (.hom n) true) (apart : (u.motorZeroed id m).racked id = false) :
    s.homeTaken n true = (u.setMotor id m
      { s.motor id m with
        count := some 0, phase := .seat, seatDeadline := some (s.now + 4 * (p * s.seatFraction id / 128)) }).retrim id := by
  have lines : s.butLines u := before ▸ State.butLines_accept
  have seat : (u.motorZeroed id m).beginSeat id m = ((u.setMotor id m
      { s.motor id m with
        count := some 0, phase := .seat, seatDeadline := some (s.now + 4 * (p * s.seatFraction id / 128)) }).retrim id, []) := by
    have chan : (u.motorZeroed id m).motorChan id m = some n := by
      rw [← own, ← lines.motorChan]
      cases id <;> rfl
    have pace' : (u.motorZeroed id m).pace? n = some p := by
      rw [← pace, ← lines.pace]
      cases id <;> rfl
    have fraction : (u.motorZeroed id m).seatFraction id = s.seatFraction id := by
      rw [← lines.seatFraction]
      cases id <;> rfl
    have now : (u.motorZeroed id m).now = s.now := by
      rw [← lines.now]
      cases id <;> rfl
    rw [State.beginSeat_timed chan pace' (by rw [fraction]; exact long), fraction, now, lines.motorZeroed lines,
      State.motor_setMotor_same, State.setMotor_setMotor]
  have work : u.slideHomeClosed id m = (u.motorZeroed id m).beginSeat id m := by
    obtain ⟨-, cases⟩ := State.slideHomeClosed_cases (s := u) (id := id) (m := m)
    obtain ⟨w, is, eq⟩ := cases .stowing (lines.slideDir.trans moving)
    rw [if_pos ⟨rfl, by rw [lines.motor]; exact phase, lines.motorDriven.trans driven⟩] at is
    rw [eq, State.rackCheck, apart, is]
    simp
  have quiet := State.closure_quiet own moving (by rw [← before, work, seat])
  rw [quiet, ← before, work, seat]

/-- A closure that leaves the counts of a driven two-motor room W2 or more apart ends its motion RACKED (R50, log 40). -/
theorem State.closure_racks {k : RoomId} {c : Nat} (own : s.motorChan (.room k) m = some n)
    (two : s.twoMotors (.room k) = true) (other : x ≠ m) (count : (s.motor (.room k) x).count = some c)
    (found : s.entryOf (.room k) = some e) (driven : ∃ y, s.motorDriven (.room k) y = true)
    (limit : (s.layout.rooms[k]).rackLimit ≤ c) (u : State) (before : u = s.accept (.hom n) true) :
    Ends (.room k) { outcome := .fault, fault := some .racked } (u.motorZeroed (.room k) m) (s.homeTaken n true) := by
  have lines : s.butLines u := before ▸ State.butLines_accept
  have racked : (u.motorZeroed (.room k) m).racked (.room k) = true := by
    rw [State.racked_motorZeroed (lines.twoMotors.trans two) other (by rw [lines.motor]; exact count), lines.rackLimit]
    exact decide_eq_true limit
  have any : u.anyMotorDriven (.room k) = true := by
    obtain ⟨y, run⟩ := driven
    rw [lines.anyMotorDriven]
    have all : s.motors (.room k) = [.a, .b] := if_pos two
    unfold State.anyMotorDriven
    rw [all]
    cases y <;> simp [run]
  have dir : u.slideDir (.room k) = some e.action.dir := by
    rw [lines.slideDir, State.slideDir, show (Slider.room k).group = .room k from rfl, found]
    rfl
  have work : u.slideHomeClosed (.room k) m = (u.motorZeroed (.room k) m, slideFault (.room k) .racked) := by
    obtain ⟨-, cases⟩ := State.slideHomeClosed_cases (s := u) (id := .room k) (m := m)
    obtain ⟨w, -, eq⟩ := cases _ dir
    rw [eq, if_pos any, State.rackCheck, if_pos racked]
  have found' : (u.motorZeroed (.room k) m).entryOf (.room k) = some e := by
    rw [State.entryOf_motorZeroed, lines.entryOf, found]
  have ends := State.event_ends (f := fun t => (t.accept (.hom n) true).homeEvent n true) (s := s)
    (g := .room k) (e := { outcome := .fault, fault := some .racked }) (rest := [])
    (by rw [State.closure_work own, ← before, work]; rfl)
    (by rw [State.closure_work own, ← before, work]
        exact (State.view_setMotor _).trans (before ▸ State.view_accept own))
    (by rw [State.closure_work own, ← before, work]; exact found') .nil
  rw [State.closure_work own, ← before, work] at ends
  exact ends

/-- A closure on the way out, short of the rack limit, sets the trims anew. -/
theorem State.closure_drives_on {k : RoomId} (own : s.motorChan (.room k) m = some n)
    (moving : s.slideDir (.room k) = some .outward) (u : State) (before : u = s.accept (.hom n) true)
    (apart : (u.motorZeroed (.room k) m).racked (.room k) = false) :
    s.homeTaken n true = (u.motorZeroed (.room k) m).retrim (.room k) := by
  have lines : s.butLines u := before ▸ State.butLines_accept
  have work : u.slideHomeClosed (.room k) m = ((u.motorZeroed (.room k) m).retrim (.room k), []) := by
    obtain ⟨-, cases⟩ := State.slideHomeClosed_cases (s := u) (id := .room k) (m := m)
    obtain ⟨w, is, eq⟩ := cases .outward (lines.slideDir.trans moving)
    rw [if_neg (by simp)] at is
    rw [eq, State.rackCheck, apart, is]
    simp
  have quiet := State.closure_quiet own moving (by rw [← before, work])
  rw [quiet, ← before, work]

/-- What a room that drives on keeps (R50). -/
theorem State.retrimmed_setMotor {r : MotorRec} (lines : s.butLines u) (retrimmed : Retrimmed (u.setMotor id m r) t) :
    t.motor id m = r ∧ t.load = s.load ∧ t.paused = s.paused ∧ ∀ y, t.motorDriven id y = s.motorDriven id y := by
  refine ⟨?_, ?_, ?_, fun y => ?_⟩
  · rw [State.motor, retrimmed.slider]
    exact State.motor_setMotor_same ..
  · rw [retrimmed.frame, ← lines.load]
    cases id <;> rfl
  · rw [retrimmed.frame, ← lines.paused]
    cases id <;> rfl
  · rw [retrimmed.motorDriven, ← lines.motorDriven]
    cases id <;> rfl

theorem State.slideHomeOpened_rest (rest : s.slideDir id = none) : s.slideHomeOpened id =
    s.setSlider id { s.slider id with state := if (s.slider id).state = .closed then .midway else (s.slider id).state } := by
  unfold State.slideHomeOpened
  rw [rest]
  by_cases closed : (s.slider id).state = .closed
  · rw [if_pos ⟨rfl, closed⟩, if_pos closed]
  · rw [if_neg fun h => closed h.2, if_neg closed, State.setSlider_slider]

theorem State.opening_controls : Controls id.group s (s.slideHomeOpened id) := by
  unfold State.slideHomeOpened
  split
  · exact .setSlider rfl (fun m => .inl (by cases m <;> rfl)) fun f h => h
  · exact .refl _ s

theorem State.count_slideHomeOpened : ((s.slideHomeOpened id).motor i x).count = (s.motor i x).count := by
  unfold State.slideHomeOpened
  split
  · rw [State.motor, State.slider_setSlider]
    split
    · rename_i same
      subst same
      cases x <;> rfl
    · rfl
  · rfl

theorem State.opening_does (own : s.motorChan id m = some n) :
    Does (fun _ => True) ((s.accept (.hom n) false).slideHomeOpened id) (s.homeTaken n false) := by
  have e := State.event_does (F := fun _ => True) (f := fun t => (t.accept (.hom n) false).homeEvent n false) (s := s)
    (by rw [State.opening_work own]; exact .nil)
  rw [State.opening_work own] at e
  exact e

/-- An opening keeps every count but those that work left to do zeroes at home. -/
theorem State.count_opening (own : s.motorChan id m = some n) (i : Slider) (x : Motor) :
    (s.accept (.hom n) false).countKept (s.homeTaken n false) i x :=
  State.countKept.trans (.inl State.count_slideHomeOpened) ((State.opening_does own).follows.counts i x)
    (State.opening_controls.motorHome i x)

theorem State.opening_at_rest (own : s.motorChan id m = some n) (rest : s.motions = []) :
    ((s.accept (.hom n) false).setSlider id
      { s.slider id with
        state := if (s.slider id).state = .closed then .midway else (s.slider id).state }).butAlarm (s.homeTaken n false) := by
  have lines := State.butLines_accept (s := s) (n := n) (closed := false)
  have lists : s.load = [] ∧ s.paused = [] := by simpa [State.motions] using rest
  have dir : (s.accept (.hom n) false).slideDir id = none := by
    rw [lines.slideDir]
    simp [State.slideDir, State.entryOf, lists.1, lists.2]
  have work := State.slideHomeOpened_rest dir
  rw [lines.slider] at work
  have calm : ((s.accept (.hom n) false).slideHomeOpened id).fallenPermit = none := by
    rw [work]
    refine State.fallenPermit_none ?_ ?_
    · refine Eq.trans ?_ (lines.load.trans lists.1)
      cases id <;> rfl
    · refine Eq.trans ?_ (lines.paused.trans lists.2)
      cases id <;> rfl
  have run := (State.event_calm (F := fun _ => True) (f := fun t => (t.accept (.hom n) false).homeEvent n false) (s := s)
    (by rw [State.opening_work own]) (by rw [State.opening_work own]; exact calm)).1
  rw [State.opening_work own, work] at run
  exact run

/-- A CLOSED room or awning that becomes PARTIAL takes the permit of a jack retraction (R127). -/
theorem State.opening_takes_permit (configured : s.configured id.group = true) (opened : (s.slider id).state ≠ .closed)
    (retracts : act.retracts = true) : ∃ c, s.permitCause .jacks act = some c := by
  rw [State.permitCause_retract retracts]
  by_cases out : s.roomsOut = true
  · exact ⟨_, if_pos out⟩
  · rw [if_neg out]
    cases id with
    | room k => exact absurd (State.roomsOut_iff.mpr ⟨k, configured, opened⟩) out
    | awning =>
      refine ⟨_, if_pos (State.awningNotStowed_iff.mpr ?_)⟩
      have read : s.sliderRead .awning = s.awning := if_pos configured
      rw [State.sliderState, read]
      exact opened

theorem State.state_of_view (view : t.view = s.view) (layout : t.layout = s.layout) (configured : s.configured id.group = true) :
    (t.slider id).state = (s.slider id).state := by
  cases id with
  | room k => exact State.room_of_view view k
  | awning =>
    have read : t.sliderState .awning = s.sliderState .awning := congrArg View.awning view
    have chan (r : Role) : t.roleChan r = s.roleChan r := by simp only [State.roleChan, State.role, layout]
    have configured' : t.configured .awning = true := by
      rw [State.configured, chan]
      exact configured
    have recordS : s.sliderRead .awning = s.awning := if_pos configured
    have recordT : t.sliderRead .awning = t.awning := if_pos configured'
    rw [State.sliderState, State.sliderState, recordS, recordT] at read
    exact read

/-- The opening of a CLOSED room or awning ends the one motion there is, a jack retraction (R127, R128). -/
theorem State.opening_interlocks (own : s.motorChan id m = some n) (load : s.load = [e]) (paused : s.paused = [])
    (group : e.group = .jacks) (retracts : e.action.retracts = true) (configured : s.configured id.group = true)
    (closed : (s.slider id).state = .closed) :
    Ended .jacks .interlock (s.accept (.hom n) false) (s.homeTaken n false) ∧
      ∀ j ∈ s.jacksOf e.action, (s.homeTaken n false).valveDriven j = false := by
  have lines := State.butLines_accept (s := s) (n := n) (closed := false)
  have dir : (s.accept (.hom n) false).slideDir id = none := by
    rw [lines.slideDir]
    cases id <;> simp [State.slideDir, State.entryOf, load, paused, group, Slider.group]
  have work := State.slideHomeOpened_rest dir
  rw [lines.slider, if_pos closed] at work
  have part := State.opening_controls (s := s.accept (.hom n) false) (id := id)
  have layout : ((s.accept (.hom n) false).slideHomeOpened id).layout = s.layout := part.layout.trans lines.layout
  have opened : (((s.accept (.hom n) false).slideHomeOpened id).slider id).state = .midway := by
    rw [work, State.slider_setSlider, if_pos rfl]
  have chan (r : Role) : ((s.accept (.hom n) false).slideHomeOpened id).roleChan r = s.roleChan r := by
    simp only [State.roleChan, State.role, layout]
  have configured' : ((s.accept (.hom n) false).slideHomeOpened id).configured id.group = true := by
    cases id with
    | room k =>
      rw [show (Slider.room k).group = .room k from rfl, State.configured, chan]
      exact configured
    | awning =>
      rw [show Slider.awning.group = .awning from rfl, State.configured, chan]
      exact configured
  obtain ⟨c, fallen⟩ := State.opening_takes_permit (act := e.action) configured' (by rw [opened]; simp) retracts
  have changed : ((s.accept (.hom n) false).slideHomeOpened id).view ≠ s.view := by
    intro same
    have state := State.state_of_view same layout configured
    rw [opened, closed] at state
    simp at state
  have lists : ((s.accept (.hom n) false).slideHomeOpened id).load = [e] ∧
      ((s.accept (.hom n) false).slideHomeOpened id).paused = [] := by
    rw [← load, ← paused, ← lines.load, ← lines.paused, work]
    cases id <;> exact ⟨rfl, rfl⟩
  obtain ⟨y, same, ended, channels⟩ := State.event_interlock (f := fun t => (t.accept (.hom n) false).homeEvent n false)
    (s := s) (x := e) (c := c) (by rw [State.opening_work own]) (by rw [State.opening_work own]; exact changed)
    (by rw [State.opening_work own, lists.1, lists.2]; rfl) (by rw [State.opening_work own, group]; exact fallen)
  rw [State.opening_work own] at ended same
  rw [group] at ended channels
  have does := (State.opening_does own).follows
  refine ⟨ended.from_controls part, fun j mem => ?_⟩
  refine State.valveDriven_of_stopped (s := s) (does.layout.trans layout) fun q valve => ?_
  have found : y.entryOf .jacks = some e := by
    unfold State.entryOf
    rw [same.1]
    change (((s.accept (.hom n) false).slideHomeOpened id).load ++ ((s.accept (.hom n) false).slideHomeOpened id).paused).find? _ = _
    rw [lists.1, lists.2]
    simp [group]
  have layoutY : y.layout = s.layout := by rw [same.1]; exact layout
  have stopped : ((s.homeTaken n false).chan q) = (y.motionEnd .jacks { outcome := .interlock, cause := some c }).1.chan q := by
    rw [State.chan, State.chan]
    exact congrArg (fun table : Vector Channel 16 => table[q]) channels
  rw [stopped, State.chan_motionEnd_jacks found, if_pos]
  · exact Channel.driven_stopped ..
  · unfold State.jackChans
    refine List.mem_append_left _ (List.mem_filterMap.mpr ⟨j, ?_, ?_⟩)
    · rw [State.jacksOf_congr layoutY]
      exact mem
    · rw [State.roleChan_layout layoutY]
      exact valve

end

/-- Settles O44: by the cases of a closure, at rest and in a motion, and of an opening at rest. -/
theorem homeSwitchesZeroTheCount : Obligations.HomeSwitchesZeroTheCount := by
  unfold Obligations.HomeSwitchesZeroTheCount
  intro s id m n u awake own present
  refine ⟨⟨s.homeTaken n true, exec_slideHome awake own present, (State.count_closure own).1, (State.count_closure own).2, ?_,
    fun rest before => State.closure_at_rest own rest u before, fun e p found stowing phase driven single pace long => ?_,
    fun k x c d room two other count moving driven => ?_⟩,
    ⟨s.homeTaken n false, exec_slideHome awake own present, ?_, State.count_opening own, State.opening_at_rest own,
      fun e load paused group retract configured closed => ?_⟩⟩
  · rw [State.line_of_fixed ((State.closure_does own).follows.fixed.trans State.slideHomeClosed_acts.fixed)]
    exact State.line_accept
  · have lines := State.butLines_accept (s := s) (n := n) (closed := true)
    have moving : s.slideDir id = some .stowing := by
      rw [State.slideDir, found, ← stowing]
      rfl
    have single' : ((s.accept (.hom n) true).motorZeroed id m).twoMotors id = false := by
      rw [← single, ← lines.twoMotors]
      cases id <;> rfl
    rw [State.closure_seats own moving phase driven pace long _ rfl (State.racked_single single')]
    refine State.retrim_single ?_
    rw [← single', State.motorZeroed]
    cases id <;> rfl
  · subst room
    have lines := State.butLines_accept (s := s) (n := n) (closed := true)
    obtain ⟨e, found⟩ : ∃ e, s.entryOf (.room k) = some e := by
      unfold State.slideDir at moving
      cases found : s.entryOf (Slider.room k).group with
      | none => rw [found] at moving; simp at moving
      | some e => exact ⟨e, found⟩
    have short (below : c < (s.layout.rooms[k]).rackLimit) :
        ((s.accept (.hom n) true).motorZeroed (.room k) m).racked (.room k) = false := by
      rw [State.racked_motorZeroed (lines.twoMotors.trans two) other (by rw [lines.motor]; exact count), lines.rackLimit]
      exact decide_eq_false (by rw [Nat.not_le]; exact below)
    refine ⟨fun limit => ?_, fun below runs outward => ?_, fun p below runs stowing phase pace long => ?_⟩
    · have ends := State.closure_racks own two other count found driven limit _ rfl
      have found' : ((s.accept (.hom n) true).motorZeroed (.room k) m).entryOf (Slider.room k).group = some e := by
        rw [State.entryOf_motorZeroed, lines.entryOf]
        exact found
      have fault : (((s.accept (.hom n) true).motorZeroed (.room k) m).slider (.room k)).fault = (s.rooms[k]).fault := by
        rw [State.motorZeroed, State.setMotor, State.slider_setSlider, if_pos rfl, lines.slider, SliderRec.fault_setMotor]
        rfl
      refine ⟨lines.motorZeroed lines ▸ ends.ended, ?_, fun silent y => ?_⟩
      · rw [← fault]
        exact ends.slider_fault (id := .room k) found' rfl
      · exact ends.motors_off (id := .room k) found' silent y
    · subst outward
      have run := State.closure_drives_on own moving _ rfl (short below)
      rw [run, lines.motorZeroed lines]
      exact State.retrimmed_setMotor lines State.retrim_retrimmed
    · subst stowing
      have run := State.closure_seats own moving phase runs pace long _ rfl (short below)
      rw [run]
      exact State.retrimmed_setMotor lines State.retrim_retrimmed
  · rw [State.line_of_fixed ((State.opening_does own).follows.fixed.trans State.slideHomeOpened_acts.fixed)]
    exact State.line_accept
  · have retracts : e.action.retracts = true := by
      obtain same | ⟨j, same⟩ := retract <;> rw [same] <;> rfl
    exact State.opening_interlocks own load paused group retracts configured closed

end Sys2Proof.Machine
end

section
/-! PROOFS. A motion that stands with its claim through the work of an event: it stands on to the end of the event, or its own
ending is taken, by which its claim ends as R119 and R120 say. -/

namespace Sys2Proof.Machine

section
variable {s t u w : State} {g h : Group} {e x y : Entry} {c : Claim} {z : Ending} {k : Nat} {l rest : List Task} {P : State → Prop}

/-! ### What the desk holds: the motions, the claims and the plan record -/

/-- From one state to the other no motion has come or gone, no claim and no plan record has changed, and no notice is lost. -/
structure Desk (s t : State) : Prop where
  motions : ∀ y, y ∈ t.motions ↔ y ∈ s.motions
  claims : t.claims = s.claims
  plan : t.plan = s.plan
  layout : t.layout = s.layout
  noticed : ∀ c, s.noticed c = true → t.noticed c = true
  orders : t.nextOrder = s.nextOrder

theorem Desk.refl (s : State) : Desk s s := ⟨fun _ => .rfl, rfl, rfl, rfl, fun _ h => h, rfl⟩

theorem Desk.trans (a : Desk s t) (b : Desk t u) : Desk s u :=
  ⟨fun y => (b.motions y).trans (a.motions y), b.claims.trans a.claims, b.plan.trans a.plan, b.layout.trans a.layout,
    fun c h => b.noticed c (a.noticed c h), b.orders.trans a.orders⟩

theorem Desk.of_fields (load : t.load = s.load) (paused : t.paused = s.paused) (claims : t.claims = s.claims)
    (plan : t.plan = s.plan) (layout : t.layout = s.layout) (ports : t.ports = s.ports) (orders : t.nextOrder = s.nextOrder) :
    Desk s t where
  motions y := by rw [State.motions, State.motions, load, paused]
  claims := claims
  plan := plan
  layout := layout
  noticed c h := (State.noticed_of_ports ports).trans h
  orders := orders

theorem Desk.of_controls (a : Controls g s t) : Desk s t :=
  .of_fields (by have e := congrArg State.load a.outer; exact e) (by have e := congrArg State.paused a.outer; exact e)
    (by have e := congrArg State.claims a.outer; exact e) a.plan a.layout (by have e := congrArg State.ports a.outer; exact e)
    (by have e := congrArg State.nextOrder a.outer; exact e)

theorem Desk.evalAlarm : Desk s s.evalAlarm := by
  have same := s.butAlarm_evalAlarm.1
  have noticed := (Does.evalAlarm (F := fun _ => True) (s := s)).follows
  generalize s.evalAlarm = w at same noticed
  exact ⟨fun y => by rw [same]; rfl, by rw [same], by rw [same], by rw [same], fun c h => noticed.noticed h, by rw [same]⟩

theorem mem_motions_offerUnits (held : x.motion ∈ s.motions) : y ∈ (offerUnits s x).motions ↔ y ∈ s.motions := by
  unfold offerUnits
  split
  · constructor
    · intro mem
      obtain ⟨v, hv, rfl⟩ := mem_motions.mp mem
      simp only [State.enterLoad, State.setLoad, List.mem_append, List.mem_singleton, List.mem_filter] at hv
      rcases hv with (a | rfl) | ⟨a, -⟩
      · exact mem_motions.mpr ⟨v, List.mem_append_left _ a, rfl⟩
      · exact held
      · exact mem_motions.mpr ⟨v, List.mem_append_right _ a, rfl⟩
    · intro mem
      obtain ⟨v, hv, rfl⟩ := mem_motions.mp mem
      by_cases same : v = x
      · refine mem_motions.mpr ⟨{ x with state := .running, pausedSince := none }, ?_, by rw [same]; rfl⟩
        simp [State.enterLoad, State.setLoad]
      · refine mem_motions.mpr ⟨v, ?_, rfl⟩
        simp only [State.enterLoad, State.setLoad, List.mem_append, List.mem_singleton, List.mem_filter]
        rcases List.mem_append.mp hv with a | a
        · exact .inl (.inl a)
        · exact .inr ⟨a, by simpa using same⟩
  · exact .rfl

theorem mem_motions_scan : y ∈ s.scan.1.motions ↔ y ∈ s.motions := by
  have offers (l : List Entry) (s : State) (held : ∀ x ∈ l, x.motion ∈ s.motions) :
      y ∈ (l.foldl offerUnits s).motions ↔ y ∈ s.motions := by
    induction l generalizing s with
    | nil => exact .rfl
    | cons x rest ih =>
      have first : x.motion ∈ s.motions := held x (by simp)
      refine (ih (offerUnits s x) fun v mem => ?_).trans (mem_motions_offerUnits first)
      exact (mem_motions_offerUnits first).mpr (held v (by simp [mem]))
  exact offers _ s fun x mem => mem_motions.mpr ⟨x, List.mem_append_right _ (mem_scanOrder mem), rfl⟩

theorem Desk.scan : Desk s s.scan.1 := by
  have frame := s.scan_frame
  have motions (y : Entry) := mem_motions_scan (s := s) (y := y)
  have noticed := (State.scan_does (F := fun _ => True) (s := s)).follows
  generalize s.scan.1 = w at frame motions noticed
  exact ⟨motions, by rw [frame], by rw [frame], by rw [frame], fun c h => noticed.noticed h, by rw [frame]⟩

/-- The resuming of an entry that has been moved leaves its controller's work, after the handing over of states. -/
theorem State.resumeEntry_desk {order : Nat} {first : Bool} : Desk s (s.resumeEntry g order first).1 ∧
    ((s.resumeEntry g order first).2 = [] ∨
      ∃ l, (s.resumeEntry g order first).2 = .handover s.view :: l ∧ EndsOnly g l) := by
  unfold State.resumeEntry
  split
  · have resumed (w : Work) (c : Controls g s w.1) (own : EndsOnly g w.2) : Desk s (w.1, .handover s.view :: w.2).1 ∧
        ((w.1, .handover s.view :: w.2).2 = [] ∨
          ∃ l, (w.1, Task.handover s.view :: w.2).2 = .handover s.view :: l ∧ EndsOnly g l) :=
      ⟨.of_controls c, .inr ⟨w.2, rfl, own⟩⟩
    cases g with
    | room k => exact resumed _ (State.slideResume_controls (id := .room k)) (State.slideResume_own (id := .room k))
    | jacks => exact resumed _ State.jackResume_controls State.jackResume_own
    | awning => exact resumed _ (State.slideResume_controls (id := .awning)) (State.slideResume_own (id := .awning))
  · exact ⟨.refl s, .inl rfl⟩

theorem mem_motions_motionEnd : y ∈ (s.motionEnd g z).1.motions ↔ y ∈ s.motions ∧ y.group ≠ g := by
  obtain ⟨load, paused⟩ := s.lists_motionEnd (g := g) (e := z)
  have motions : (s.motionEnd g z).1.motions = s.motions.filter fun x => x.group != g := by
    rw [State.motions, load, paused, ← List.filter_append, State.motions, List.filter_map]
    rfl
  rw [motions, List.mem_filter]
  simp

/-- What an ending does to the claim table. -/
def ClaimEffect.apply (f : ClaimEffect) (c : Option Claim) : Option Claim :=
  match f with
  | .byRule => c.bind endedByRule
  | .free => none
  | .keep => c

theorem State.claim_motionEnd (found : s.entryOf g = some x) :
    (s.motionEnd g z).1.claim h = if g = h then z.claim.apply (s.claim g) else s.claim h := by
  have shape : (s.motionEnd g z).1 = (((s.controllerEnd g x.action z).endNotices z).endClaim g z.claim).removeEntry g := by
    unfold State.motionEnd
    simp only [found]
  have claims (h : Group) : ((s.controllerEnd g x.action z).endNotices z).claim h = s.claim h := by
    have same : (s.controllerEnd g x.action z).claims = s.claims := by
      have e := congrArg State.claims (State.controllerEnd_controls (s := s) (g := g) (a := x.action) (e := z)).outer
      exact e
    rw [State.endNotices_frame]
    exact congrArg (fun table : Vector (Option Claim) 6 => table[groupIndex h]) same
  rw [shape, State.claim_removeEntry]
  generalize (s.controllerEnd g x.action z).endNotices z = w at claims ⊢
  unfold State.endClaim ClaimEffect.apply
  cases z.claim with
  | byRule =>
    dsimp only
    rw [claims]
    cases held : s.claim g with
    | none =>
      dsimp only [Option.bind]
      rw [claims]
      split
      · rename_i same
        rw [← same, held]
      · rfl
    | some b =>
      dsimp only [Option.bind]
      rw [State.claim_setClaim, claims]
  | free =>
    dsimp only
    rw [State.claim_setClaim, claims]
  | keep =>
    dsimp only
    rw [claims]
    split
    · rename_i same
      rw [← same]
    · rfl

theorem State.plan_motionEnd : (s.motionEnd g z).1.plan = s.plan := by
  by_cases still : s.still g
  · rw [State.motionEnd_still still]
  · obtain ⟨x, found⟩ := State.not_still_iff.mp still
    have frame := State.motionEnd_frame (e := z) found
    have plan : (s.controllerEnd g x.action z).plan = s.plan := State.controllerEnd_controls.plan
    generalize (s.motionEnd g z).1 = w at frame
    rw [frame, ← plan]

theorem State.noticed_motionEnd (found : s.entryOf g = some x) : (s.motionEnd g z).1.noticed .motionEnd = true :=
  (State.motionEnd_now found).motionEnd

/-! ### Motions that stand -/

/-- A motion stands with its claim; or the group's motion has ended, and its claim with it. -/
inductive Held (e : Entry) (c : Claim) (s : State) : Prop
  | stands (mem : e ∈ s.motions) (claim : s.claim e.group = some c)
  | ended (still : s.still e.group) (claim : s.claim e.group = endedByRule c) (noticed : s.noticed .motionEnd = true)

/-- A piece of work that neither places a motion of the group nor ends one by another rule than its own. -/
def Task.leaves (g : Group) : Task → Prop
  | .place rest => ∀ y ∈ rest, y.1 ≠ g
  | .endMotion h z => h = g → z.claim = .byRule
  | _ => True

theorem EndsOnly.leaves (own : EndsOnly h l) : ∀ u ∈ l, u.leaves g := fun u mem => by
  obtain ⟨z, rfl, rule⟩ := own u mem
  exact fun _ => rule

theorem Held.desk (a : Held e c s) (d : Desk s t) : Held e c t := by
  cases a with
  | stands mem claim =>
    refine .stands ((d.motions e).mpr mem) ?_
    rw [State.claim, d.claims]
    exact claim
  | ended still claim noticed =>
    refine .ended (fun y hy => still y ((d.motions y).mp hy)) ?_ (d.noticed _ noticed)
    rw [State.claim, d.claims]
    exact claim

/-- The plan record may change, and so may claims of other groups and the notices. -/
theorem Held.congr (a : Held e c s) (load : t.load = s.load) (paused : t.paused = s.paused)
    (claim : t.claim e.group = s.claim e.group) (noticed : s.noticed .motionEnd = true → t.noticed .motionEnd = true) :
    Held e c t := by
  have motions : t.motions = s.motions := by rw [State.motions, State.motions, load, paused]
  cases a with
  | stands mem held => exact .stands (motions ▸ mem) (claim.trans held)
  | ended still held past => exact .ended (by rw [State.still, motions]; exact still) (claim.trans held) (noticed past)

theorem Held.motionEnd (a : Held e c s) (rule : g = e.group → z.claim = .byRule) : Held e c (s.motionEnd g z).1 := by
  by_cases still : s.still g
  · rwa [State.motionEnd_still still]
  obtain ⟨x, found⟩ := State.not_still_iff.mp still
  have noticed := State.noticed_motionEnd (z := z) found
  have claims := State.claim_motionEnd (z := z) (h := e.group) found
  by_cases own : g = e.group
  · subst own
    cases a with
    | stands mem claim =>
      refine .ended (fun y hy => (mem_motions_motionEnd.mp hy).2) ?_ noticed
      rw [claims, if_pos rfl, rule rfl, claim]
      rfl
    | ended gone => exact absurd gone still
  · rw [if_neg own] at claims
    cases a with
    | stands mem claim =>
      exact .stands (mem_motions_motionEnd.mpr ⟨mem, fun same => own same.symm⟩) (claims.trans claim)
    | ended gone claim past =>
      exact .ended (fun y hy => gone y (mem_motions_motionEnd.mp hy).1) (claims.trans claim) noticed

theorem mem_motions_placeEntry_other {o : Owner} {m : Mode} {b : Action} (other : h ≠ y.group) :
    y ∈ (s.placeEntry h o m b).1.motions ↔ y ∈ s.motions := by
  unfold State.placeEntry
  dsimp only
  split
  · simp only [State.enterLoad, State.setLoad, mem_motions, List.mem_append, List.mem_singleton]
    constructor
    · rintro ⟨v, (hv | rfl) | hv, rfl⟩
      · exact ⟨v, .inl hv, rfl⟩
      · exact absurd rfl other
      · exact ⟨v, .inr hv, rfl⟩
    · rintro ⟨v, hv | hv, rfl⟩
      · exact ⟨v, .inl (.inl hv), rfl⟩
      · exact ⟨v, .inr hv, rfl⟩
  · simp only [State.enterPause, mem_motions, List.mem_append, mem_insertByOrder]
    constructor
    · rintro ⟨v, hv | rfl | hv, rfl⟩
      · exact ⟨v, .inl hv, rfl⟩
      · exact absurd rfl other
      · exact ⟨v, .inr hv, rfl⟩
    · rintro ⟨v, hv | hv, rfl⟩
      · exact ⟨v, .inl hv, rfl⟩
      · exact ⟨v, .inr (.inr hv), rfl⟩

/-- A motion of another group is placed. -/
theorem Held.placeEntry {o : Owner} {m : Mode} {b : Action} (a : Held e c s) (other : h ≠ e.group) :
    Held e c (s.placeEntry h o m b).1 := by
  have frame := s.placeEntry_frame (h := h) (o := o) (m := m) (a := b)
  have motions (y : Entry) (own : y.group = e.group) : y ∈ (s.placeEntry h o m b).1.motions ↔ y ∈ s.motions :=
    mem_motions_placeEntry_other (own ▸ other)
  generalize (s.placeEntry h o m b).1 = w at frame motions
  have claim : w.claim e.group = s.claim e.group := by rw [frame]; rfl
  have ports : w.ports = s.ports := by rw [frame]
  cases a with
  | stands mem held => exact .stands ((motions e rfl).mpr mem) (claim.trans held)
  | ended still held noticed =>
    exact .ended (fun y hy own => still y ((motions y own).mp hy) own) (claim.trans held)
      ((State.noticed_of_ports ports).trans noticed)

theorem State.unplanned_congr (plan : t.plan = s.plan) (layout : t.layout = s.layout) (free : s.unplanned g) : t.unplanned g := by
  unfold State.unplanned State.planRunning at free ⊢
  rw [plan, layout]
  exact free

/-- No running plan names the group, and no motion of the sequencer is the group's. -/
structure State.apart (s : State) (g : Group) : Prop where
  unplanned : s.unplanned g
  owners : ∀ y ∈ s.motions, y.group = g → y.owner ≠ .sequencer

theorem State.apart.congr (a : s.apart g) (motions : ∀ y ∈ t.motions, y.group = g → y ∈ s.motions) (plan : t.plan = s.plan)
    (layout : t.layout = s.layout) : t.apart g :=
  ⟨State.unplanned_congr plan layout a.unplanned, fun y mem own => a.owners y (motions y mem own) own⟩

theorem State.apart.desk (a : s.apart g) (d : Desk s t) : t.apart g :=
  a.congr (fun y mem _ => (d.motions y).mp mem) d.plan d.layout

theorem State.claim_freePlanClaims : s.freePlanClaims.claim g = (s.claim g).filter fun c => decide (c.owner ≠ .sequencer) :=
  (freePlanClaims_spec s).2 g

theorem endedByRule_owner {b : Claim} (ended : endedByRule c = some b) : b.owner = c.owner := by
  unfold endedByRule at ended
  split at ended
  · cases ended
    rfl
  · split at ended
    · cases ended
      rfl
    · simp at ended

theorem Held.freePlanClaims (held : Held e c s) (owner : c.owner ≠ .sequencer) : Held e c s.freePlanClaims := by
  obtain ⟨⟨table, freed⟩, -⟩ := freePlanClaims_spec s
  refine held.congr ?_ ?_ ?_ fun past => ?_
  · rw [freed]
  · rw [freed]
  · rw [State.claim_freePlanClaims]
    cases held with
    | stands _ claim =>
      rw [claim]
      simp [owner]
    | ended _ claim _ =>
      rw [claim]
      cases after : endedByRule c with
      | none => rfl
      | some b => simp [endedByRule_owner after, owner]
  · rw [freed]
    exact past

/-- What stands of a group at rest or in motion through every piece of work that leaves the group to its own endings. -/
structure Lasting (g : Group) (P : State → Prop) : Prop where
  desk : ∀ {s t}, P s → Desk s t → P t
  congr : ∀ {s t : State}, P s → t.load = s.load → t.paused = s.paused → t.claim g = s.claim g →
    (s.noticed .motionEnd = true → t.noticed .motionEnd = true) → P t
  ends : ∀ {s : State} {h : Group} {z : Ending}, P s → (h = g → z.claim = .byRule) → P (s.motionEnd h z).1
  places : ∀ {s : State} {h : Group} {o : Owner} {m : Mode} {b : Action}, P s → h ≠ g → P (s.placeEntry h o m b).1
  frees : ∀ {s : State}, P s → P s.freePlanClaims

theorem Held.lasting (owner : c.owner ≠ .sequencer) : Lasting e.group (Held e c) where
  desk := .desk
  congr := .congr
  ends := .motionEnd
  places := .placeEntry
  frees a := a.freePlanClaims owner

/-- A group at rest in which nothing is placed stays at rest. -/
theorem still_lasting (g : Group) : Lasting g fun s => s.still g where
  desk still d := fun y mem => still y ((d.motions y).mp mem)
  congr still load paused _ _ := (still_congr load paused).mpr still
  ends still _ := fun y mem => still y (mem_motions_motionEnd.mp mem).1
  places still other := State.placeEntry_still still other
  frees {s} still := by
    obtain ⟨⟨table, freed⟩, -⟩ := freePlanClaims_spec s
    rw [freed]
    exact still

/-- Work that leaves a motion of a group of no running plan to its own endings. -/
structure Kept (g : Group) (P : State → Prop) (w : Work) : Prop where
  held : P w.1
  unplanned : w.1.apart g
  tasks : ∀ u ∈ w.2, u.leaves g

theorem Kept.none (held : P s) (free : s.apart g) : Kept g P (s, []) :=
  ⟨held, free, fun u mem => absurd mem (by simp)⟩

theorem Kept.one {task : Task} (held : P s) (free : s.apart g) (leaves : task.leaves g) :
    Kept g P (s, [task]) :=
  ⟨held, free, fun v mem => by
    obtain rfl := List.mem_singleton.mp mem
    exact leaves⟩

theorem Kept.planEnd (last : Lasting g P) {st : PlanStatus} {f : Option PlanFailure} (held : P s) (free : s.apart g)
    (done : st ≠ .running) : Kept g P (s.planEnd st f) := by
  refine ⟨last.congr held rfl rfl rfl fun past => ?_, ⟨fun n runs => ?_, free.owners⟩, fun u mem => ?_⟩
  · exact (Does.raise (F := fun _ => True) (s := ({ s with plan := { s.plan with status := st, failure := f } } : State)) _).follows.noticed past
  · exact absurd (by simpa [State.planRunning, State.planEnd, State.raise] using runs) done
  · obtain rfl := List.mem_singleton.mp mem
    trivial

theorem Kept.stepAdvance (last : Lasting g P) (held : P s) (free : s.apart g) : Kept g P s.stepAdvance := by
  unfold State.stepAdvance
  split
  · split
    · exact .one (last.congr held rfl rfl rfl id) ⟨free.unplanned, free.owners⟩ trivial
    · exact .planEnd last held free (by simp)
  · exact .none held free

/-- The present step of a running plan names no group that the plan does not name. -/
theorem State.presentStep_unplanned (free : s.unplanned g) (runs : s.planRunning = true) : ∀ y ∈ s.presentStep, y.1 ≠ g := by
  intro y mem own
  unfold State.presentStep at mem
  split at mem
  · rename_i p name
    cases step : (s.layout.planSteps p)[s.plan.stepIndex - 1]? with
    | none => rw [step] at mem; simp at mem
    | some st =>
      rw [step] at mem
      refine free p runs name ?_
      unfold planGroups
      simp only [List.mem_filter, mem_allGroups, true_and, List.any_eq_true, beq_iff_eq]
      exact ⟨st, List.mem_of_getElem? step, y, mem, own⟩
  · simp at mem

theorem Kept.stepBegin (last : Lasting g P) (held : P s) (free : s.apart g) : Kept g P s.stepBegin := by
  unfold State.stepBegin
  split
  · rename_i runs
    dsimp only
    have emptied : P ({ s with plan := { s.plan with slots := [] } }.raise .plan) :=
      last.congr held rfl rfl rfl (Does.raise (F := fun _ => True) (s := ({ s with plan := { s.plan with slots := [] } } : State)) _).follows.noticed
    have step := State.presentStep_unplanned free.unplanned runs
    split
    · exact .planEnd last emptied ⟨free.unplanned, free.owners⟩ (by simp)
    · exact .one emptied ⟨free.unplanned, free.owners⟩ step
  · exact .none held free

theorem spared_of_motionEnd : ∀ u ∈ (s.motionEnd h z).2, u.leaves g := by
  unfold State.motionEnd
  split
  · exact fun u mem => absurd mem (by simp)
  · intro u mem
    simp only [List.mem_cons, List.mem_append] at mem
    rcases mem with rfl | mem | mem
    · trivial
    · split at mem
      · obtain rfl := List.mem_singleton.mp mem
        trivial
      · simp at mem
    · split at mem
      · obtain rfl := List.mem_singleton.mp mem
        trivial
      · simp at mem

/-- No piece of work but an ending of its own reaches a group that is none of the running plan's. -/
theorem State.runTask_kept {task : Task} (last : Lasting g P) (held : P s) (free : s.apart g) (leaves : task.leaves g) :
    Kept g P (s.runTask task) := by
  cases task with
  | endMotion h z =>
    exact ⟨last.ends held leaves, free.congr (fun y mem _ => (mem_motions_motionEnd.mp mem).1) State.plan_motionEnd
      (State.motionEnd_does (F := fun _ => True) fun _ => trivial).follows.layout, spared_of_motionEnd⟩
  | handover v =>
    change Kept g P (s.handOver v)
    unfold State.handOver
    split
    · exact .none held free
    · have desk := Desk.evalAlarm (s := s)
      exact .one (last.desk held desk) (free.desk desk) trivial
  | permits =>
    change Kept g P s.checkPermits
    unfold State.checkPermits
    split
    · refine ⟨held, free, fun u mem => ?_⟩
      simp only [List.mem_cons, List.not_mem_nil, or_false] at mem
      obtain rfl | rfl := mem
      · exact fun _ => rfl
      · trivial
    · exact .none held free
  | scan =>
    have desk := Desk.scan (s := s)
    refine ⟨last.desk held desk, free.desk desk, fun u mem => ?_⟩
    obtain ⟨y, -, rfl⟩ := List.mem_map.mp mem
    trivial
  | resume h order first =>
    obtain ⟨desk, work⟩ := State.resumeEntry_desk (s := s) (g := h) (order := order) (first := first)
    refine ⟨last.desk held desk, free.desk desk, fun u mem => ?_⟩
    obtain none | ⟨l, work, own⟩ := work
    · exact absurd (none ▸ mem) (by simp)
    · rw [State.runTask, work] at mem
      obtain rfl | mem := List.mem_cons.mp mem
      · trivial
      · exact own.leaves u mem
  | planTakes h b z f =>
    change Kept g P (s.planTakes h b z f)
    unfold State.planTakes
    split
    · exact .none held free
    · split
      · exact .stepAdvance last (last.congr held rfl rfl rfl id) ⟨free.unplanned, free.owners⟩
      · refine .planEnd last held free ?_
        split <;> simp
  | beginStep => exact .stepBegin last held free
  | place step =>
    cases step with
    | nil => exact .stepAdvance last held free
    | cons y later =>
      change Kept g P (s.placeNext (y :: later))
      have other : y.1 ≠ g := leaves y List.mem_cons_self
      unfold State.placeNext
      dsimp only
      split
      · split
        · exact .planEnd last held free (by simp)
        · have aimed := s.aimClaim_frame (h := y.1) (a := y.2)
          have claim : (s.aimClaim y.1 y.2).claim g = s.claim g := by
            unfold State.aimClaim
            split
            · split
              · rw [State.claim_setClaim, if_neg other]
              · rfl
            · rfl
          have opened : P ((s.aimClaim y.1 y.2).openSlot y.1) ∧ ((s.aimClaim y.1 y.2).openSlot y.1).apart g := by
            unfold State.openSlot
            generalize s.aimClaim y.1 y.2 = w at aimed claim
            rw [aimed] at claim ⊢
            exact ⟨last.congr held rfl rfl claim id, ⟨free.unplanned, free.owners⟩⟩
          obtain ⟨opened, unplanned⟩ := opened
          generalize (s.aimClaim y.1 y.2).openSlot y.1 = w at opened unplanned ⊢
          have placed := last.places (o := .sequencer) (m := .auto) (b := y.2) opened other
          have plan : (w.placeEntry y.1 .sequencer .auto y.2).1.plan = w.plan := State.plan_placeEntry
          have layout : (w.placeEntry y.1 .sequencer .auto y.2).1.layout = w.layout := by
            have frame := w.placeEntry_frame (h := y.1) (o := .sequencer) (m := .auto) (a := y.2)
            generalize (w.placeEntry y.1 .sequencer .auto y.2).1 = v at frame
            rw [frame]
          have apart : (w.placeEntry y.1 .sequencer .auto y.2).1.apart g :=
            unplanned.congr (fun z mem own => (mem_motions_placeEntry_other (own ▸ other)).mp mem) plan layout
          have desk : Desk (w.placeEntry y.1 .sequencer .auto y.2).1 (w.admitMotion y.1 .sequencer .auto y.2).1 :=
            .of_controls State.controllerAdmit_controls
          refine ⟨last.desk placed desk, apart.desk desk, fun u mem => ?_⟩
          simp only [State.admitMotion, State.placeAndStart, List.mem_append, List.mem_singleton] at mem
          obtain (mem | rfl) | rfl := mem
          · exact State.controllerAdmit_own.leaves u mem
          · trivial
          · exact fun z mem => leaves z (List.mem_cons_of_mem _ mem)
      · exact .none held free
  | endPlan =>
    change Kept g P s.planEndNext
    unfold State.planEndNext
    split
    · rename_i x found
      have mem : x ∈ s.load ++ s.paused := by
        have m := List.mem_of_find?_eq_some found
        simp only [List.mem_append] at m ⊢
        exact m.symm
      have planned : x.owner = .sequencer := by simpa using List.find?_some found
      have other : x.group ≠ g := fun same => free.owners _ (mem_motions.mpr ⟨x, mem, rfl⟩) same planned
      refine ⟨held, free, fun u m => ?_⟩
      simp only [List.mem_cons, List.not_mem_nil, or_false] at m
      obtain rfl | rfl := m
      · exact fun same => absurd same other
      · trivial
    · obtain ⟨⟨table, freed⟩, -⟩ := freePlanClaims_spec s
      exact .none (last.frees held) (free.congr (fun y mem _ => by rw [freed] at mem; exact mem) (by rw [freed]) (by rw [freed]))

/-- In a group that no running plan names, what lasts through every piece of work lasts to the end of the event. -/
theorem drain_lasting (last : Lasting g P) (held : P s) (free : s.apart g) (leaves : ∀ u ∈ l, u.leaves g) :
    P (drain k (s, l)) ∧ (drain k (s, l)).apart g := by
  induction k generalizing s l with
  | zero => exact ⟨held, free⟩
  | succ k ih =>
    cases l with
    | nil => exact ⟨held, free⟩
    | cons task rest =>
      obtain ⟨held', free', leaves'⟩ := State.runTask_kept last held free (leaves task List.mem_cons_self)
      refine ih held' free' fun u mem => ?_
      rcases List.mem_append.mp mem with mem | mem
      · exact leaves' u mem
      · exact leaves u (List.mem_cons_of_mem _ mem)

/-- A motion of another owner than the sequencer stands with its claim to the end of the event, or its own ending has been
taken. -/
theorem drain_kept (held : Held e c s) (free : s.apart e.group) (leaves : ∀ u ∈ l, u.leaves e.group)
    (claimed : c.owner ≠ .sequencer) : Held e c (drain k (s, l)) ∧ (drain k (s, l)).apart e.group :=
  drain_lasting (Held.lasting claimed) held free leaves

end

end Sys2Proof.Machine
end

section
/-! PROOFS. The acceptance of a motion request on a free group (R112): what the claim and the motion become in the event, and
the statement on it. -/

namespace Sys2Proof.Machine

section
variable {s t u w : State} {g h : Group} {e x y : Entry} {b c : Claim} {k : Nat} {l : List Task} {task : Task}
  {o : Owner} {m : Mode} {a : Action} {p : Port}

/-! ### Claims in AUTO mode -/

theorem State.claim_freePlanClaims_cases (s : State) (h : Group) :
    s.freePlanClaims.claim h = s.claim h ∨ s.freePlanClaims.claim h = none := by
  rw [State.claim_freePlanClaims]
  cases s.claim h with
  | none => exact .inl rfl
  | some c =>
    by_cases planned : c.owner = .sequencer
    · exact .inr (by simp [planned])
    · exact .inl (by simp [planned])

theorem State.claim_planEndNext (s : State) (h : Group) :
    s.planEndNext.1.claim h = s.claim h ∨ s.planEndNext.1.claim h = none := by
  unfold State.planEndNext
  split
  · exact .inl rfl
  · exact State.claim_freePlanClaims_cases s h

/-- A claim of another owner than the sequencer stands through a piece of work, ends by the rule of R119 and R120, or is
freed. -/
theorem State.claim_runTask (claimed : ∀ c, s.claim h = some c → c.owner ≠ .sequencer) :
    (s.runTask task).1.claim h = s.claim h ∨ (s.runTask task).1.claim h = none ∨
      ∃ c, s.claim h = some c ∧ (s.runTask task).1.claim h = endedByRule c := by
  have same (w : State) (table : w.claims = s.claims) :
      w.claim h = s.claim h ∨ w.claim h = none ∨ ∃ c, s.claim h = some c ∧ w.claim h = endedByRule c :=
    .inl (by rw [State.claim, table]; rfl)
  have advanced (v : State) (table : v.claims = s.claims) : v.stepAdvance.1.claims = s.claims := by
    unfold State.stepAdvance
    split
    · split
      · exact table
      · exact table
    · exact table
  cases task with
  | endMotion j z =>
    by_cases still : s.still j
    · rw [State.runTask, State.motionEnd_still still]
      exact .inl rfl
    obtain ⟨x, found⟩ := State.not_still_iff.mp still
    have claims := State.claim_motionEnd (z := z) (h := h) found
    rw [State.runTask, claims]
    split
    · rename_i own
      subst own
      unfold ClaimEffect.apply
      cases held : s.claim j with
      | none => cases z.claim <;> simp
      | some c => cases z.claim <;> simp
    · exact .inl rfl
  | handover v =>
    refine same _ ?_
    rw [State.runTask, State.handOver]
    split
    · rfl
    · exact Desk.evalAlarm.claims
  | permits =>
    refine same _ ?_
    rw [State.runTask, State.checkPermits_fst]
  | scan => exact same _ Desk.scan.claims
  | resume j order first => exact same _ State.resumeEntry_desk.1.claims
  | planTakes j b z f =>
    refine same _ ?_
    rw [State.runTask, State.planTakes]
    split
    · rfl
    · split
      · exact advanced _ rfl
      · rfl
  | beginStep =>
    refine same _ ?_
    rw [State.runTask, State.stepBegin]
    split
    · dsimp only
      split <;> rfl
    · rfl
  | place step =>
    cases step with
    | nil => exact same _ (advanced s rfl)
    | cons y later =>
      change (s.placeNext (y :: later)).1.claim h = s.claim h ∨ _
      unfold State.placeNext
      dsimp only
      split
      · split
        · exact .inl rfl
        · refine .inl ?_
          have placed : (((s.aimClaim y.1 y.2).openSlot y.1).admitMotion y.1 .sequencer .auto y.2).1.claims =
              (s.aimClaim y.1 y.2).claims := by
            have d : Desk _ _ := .of_controls (State.controllerAdmit_controls (g := y.1) (a := y.2)
              (s := (((s.aimClaim y.1 y.2).openSlot y.1).placeEntry y.1 .sequencer .auto y.2).1)
              (run := (((s.aimClaim y.1 y.2).openSlot y.1).placeEntry y.1 .sequencer .auto y.2).2))
            refine d.claims.trans ?_
            rw [State.placeEntry_frame]
            rfl
          refine (by rw [State.claim, placed]; rfl : _ = (s.aimClaim y.1 y.2).claim h).trans ?_
          unfold State.aimClaim
          split
          · rename_i b held
            split
            · rename_i planned
              rw [State.claim_setClaim]
              split
              · rename_i own
                subst own
                exact absurd (by simpa using planned) (claimed b held)
              · rfl
            · rfl
          · rfl
      · exact .inl rfl
  | endPlan =>
    have planned : s.runTask .endPlan = s.planEndNext := rfl
    rw [planned]
    obtain same | gone := State.claim_planEndNext s h
    · exact .inl same
    · exact .inr (.inl gone)

/-- An AUTO claim of a port or of the wind watch stands as it is through an event until it is freed. -/
theorem drain_claim_auto (auto : c.mode = .auto) (owner : c.owner ≠ .sequencer) (held : ∀ x, s.claim g = some x → x = c) :
    ∀ x, (drain k (s, l)).claim g = some x → x = c := by
  induction k generalizing s l with
  | zero => exact held
  | succ k ih =>
    cases l with
    | nil => exact held
    | cons task rest =>
      refine ih fun x now => ?_
      have claimed (b : Claim) (h : s.claim g = some b) : b.owner ≠ .sequencer := held b h ▸ owner
      obtain same | gone | ⟨b, before, ended⟩ := State.claim_runTask (task := task) claimed
      · exact held x (same ▸ now)
      · exact absurd (gone.symm.trans now) (by simp)
      · obtain rfl := held b before
        rw [now, endedByRule, auto] at ended
        exact absurd ended (by rw [if_neg owner]; simp)

/-! ### A motion that is placed -/

theorem State.mem_motions_placeEntry : y ∈ (s.placeEntry h o m a).1.motions ↔
    y ∈ s.motions ∨ y = { newEntry h o m a s.nextOrder with units := s.motionUnits h a } := by
  unfold State.placeEntry
  dsimp only
  split
  · simp only [State.enterLoad, State.setLoad, mem_motions, List.mem_append, List.mem_singleton]
    constructor
    · rintro ⟨v, (hv | rfl) | hv, rfl⟩
      · exact .inl ⟨v, .inl hv, rfl⟩
      · exact .inr rfl
      · exact .inl ⟨v, .inr hv, rfl⟩
    · rintro (⟨v, hv | hv, rfl⟩ | rfl)
      · exact ⟨v, .inl (.inl hv), rfl⟩
      · exact ⟨v, .inr hv, rfl⟩
      · exact ⟨_, .inl (.inr rfl), rfl⟩
  · simp only [State.enterPause, mem_motions, List.mem_append, mem_insertByOrder]
    constructor
    · rintro ⟨v, hv | rfl | hv, rfl⟩
      · exact .inl ⟨v, .inl hv, rfl⟩
      · exact .inr rfl
      · exact .inl ⟨v, .inr hv, rfl⟩
    · rintro (⟨v, hv | hv, rfl⟩ | rfl)
      · exact ⟨v, .inl hv, rfl⟩
      · exact ⟨v, .inr (.inr hv), rfl⟩
      · exact ⟨_, .inr (.inl rfl), rfl⟩

theorem State.mem_motions_admitMotion : y ∈ (s.admitMotion h o m a).1.motions ↔
    y ∈ s.motions ∨ y = { newEntry h o m a s.nextOrder with units := s.motionUnits h a } := by
  have d : Desk (s.placeEntry h o m a).1 (s.admitMotion h o m a).1 := .of_controls State.controllerAdmit_controls
  exact (d.motions y).trans State.mem_motions_placeEntry

theorem State.claims_admitMotion : (s.admitMotion h o m a).1.claims = s.claims := by
  have d : Desk (s.placeEntry h o m a).1 (s.admitMotion h o m a).1 := .of_controls State.controllerAdmit_controls
  rw [d.claims, State.placeEntry_frame]

/-- A motion of a claimed group at rest is placed and stands with its claim, and its controller may end it at once. -/
theorem State.placeAndStart_kept {c : Claim} (still : s.still g) (free : s.unplanned g) (claim : s.claim g = some c)
    (owner : o ≠ .sequencer) (e : Entry) (new : e = { newEntry g o m a s.nextOrder with units := s.motionUnits g a }) :
    Held e c (s.placeAndStart g o m a).1 ∧ (s.placeAndStart g o m a).1.apart g ∧
      ∀ u ∈ (s.placeAndStart g o m a).2, u.leaves g := by
  have own : e.group = g := by rw [new]; rfl
  refine ⟨.stands (State.mem_motions_admitMotion.mpr (.inr new)) ?_, ⟨?_, fun y mem same => ?_⟩,
    State.controllerAdmit_own.leaves⟩
  · rw [own]
    exact (congrArg (fun table : Vector (Option Claim) 6 => table[groupIndex g])
      (State.claims_admitMotion (h := g) (o := o) (m := m) (a := a))).trans claim
  · exact State.unplanned_congr (State.plan_admitMotion (g := g) (o := o) (m := m) (a := a))
      (State.admit_follows (F := fun _ => True) (s := s) (g := g) (o := o) (m := m) (a := a)).layout free
  · obtain mem | rfl := (State.mem_motions_admitMotion (h := g) (o := o) (m := m) (a := a)).mp mem
    · exact absurd same (still y mem)
    · exact owner

/-- What an accepted request leaves (R112): the claim and the motion, while no plan names the group. -/
theorem State.acceptMotion_kept (still : s.still g) (free : s.unplanned g) (e : Entry)
    (new : e = { newEntry g (.port p) m a s.nextOrder with units := s.motionUnits g a }) :
    Held e (s.newClaim p m a) (s.acceptMotion p m g a).1 := by
  have own : e.group = g := by rw [new]; rfl
  obtain ⟨held, apart, leaves⟩ := State.placeAndStart_kept (s := s.setClaim g (some (s.newClaim p m a))) (o := .port p)
    (m := m) (a := a) still free (by rw [State.claim_setClaim, if_pos rfl]) (by simp) e new
  unfold State.acceptMotion
  refine (drain_kept held (own ▸ apart) (fun u mem => ?_) (by simp [State.newClaim])).1
  obtain mem | mem := List.mem_append.mp mem
  · exact own ▸ leaves u mem
  · obtain rfl := List.mem_singleton.mp mem
    trivial

theorem State.noticed_answered {k : RequestKind} {r : Answer} {n : Notice} : (s.answered p k r).noticed n = s.noticed n := by
  unfold State.noticed
  simp only [State.answered_port_pending]

/-- The paused flag of the reply stands where the units of the motion do not fit (R112). -/
theorem acceptedFlags_fits (units : Nat) : acceptedFlags false (!s.fits units) false =
    if units + unitsOf s.load ≤ s.budget then 0 else 2 := by
  have fits : s.fits units = decide (units + unitsOf s.load ≤ s.budget) := rfl
  rw [fits]
  by_cases within : units + unitsOf s.load ≤ s.budget <;> simp [within] <;> decide

theorem State.acceptMotion_follows :
    Follows (fun _ => False) (s.setClaim g (some (s.newClaim p m a))) (s.acceptMotion p m g a).1 := by
  unfold State.acceptMotion
  exact (State.admit_follows (F := fun _ => False)).trans (drain_does State.admit_plain).follows

theorem State.acceptMotion_claim_auto (auto : m = .auto) :
    ∀ x, (s.acceptMotion p m g a).1.claim g = some x → x = s.newClaim p m a := by
  unfold State.acceptMotion
  refine drain_claim_auto auto (by simp [State.newClaim]) fun x now => ?_
  have table : _ = (s.setClaim g (some (s.newClaim p m a))).claim g :=
    congrArg (fun table : Vector (Option Claim) 6 => table[groupIndex g]) (State.claims_admitMotion (h := g)
      (o := .port p) (m := m) (a := a))
  replace now := table.symm.trans now
  have made : (s.setClaim g (some (s.newClaim p m a))).claim g = some (s.newClaim p m a) := by
    rw [State.claim_setClaim, if_pos rfl]
  exact Option.some.inj (now.symm.trans made)

theorem State.acceptMotion_placed (e : Entry)
    (new : e = { newEntry g (.port p) m a s.nextOrder with units := s.motionUnits g a }) :
    e ∈ (s.acceptMotion p m g a).1.motions ∨ (s.acceptMotion p m g a).1.noticed .motionEnd = true := by
  unfold State.acceptMotion
  refine (drain_does (F := fun _ => True) State.admit_plain).follows.kept e ?_
  exact State.mem_motions_admitMotion.mpr (.inr new)

end

/-- Settles O21: the new claim and the motion in the event, and what else it leaves as it was. -/
theorem motionIsAccepted : Obligations.MotionIsAccepted := by
  unfold Obligations.MotionIsAccepted
  rintro s p m g a c b e awake room command free first verdict rfl rfl
  have answer : s.motionRequest p m g a =
      ((s.acceptMotion p m g a).1, .accepted false (!s.fits (s.motionUnits g a)) false) := by
    rw [State.motionRequest_free free, first, verdict]
    rfl
  rw [exec_motionCommand awake room command, answer]
  have follows := State.acceptMotion_follows (s := s) (p := p) (m := m) (g := g) (a := a)
  have auto := State.acceptMotion_claim_auto (s := s) (p := p) (m := m) (g := g) (a := a)
  have placed := State.acceptMotion_placed (s := s) (p := p) (m := m) (g := g) (a := a) _ rfl
  have kept := fun still unplanned =>
    State.acceptMotion_kept (s := s) (p := p) (m := m) (a := a) (g := g) still unplanned _ rfl
  generalize (s.acceptMotion p m g a).1 = t at follows auto placed kept
  refine ⟨_, rfl, ?_, fun hold => ?_, fun x mode => auto mode x, ?_, fun still unplanned => ?_, fun h other before => ?_, follows.counts,
    follows.fixed⟩
  · rw [State.port_answered, replies_of_link (follows.links p)]
    refine congrArg _ (congrArg (fun f => [f]) ?_)
    exact congrArg (fun f => frameOf 0x80 [(motionKind m a).code, f]) (acceptedFlags_fits ..)
  · obtain same | ended := follows.held g _ id (by rw [State.claim_setClaim, if_pos rfl]) (by simp [State.newClaim]) hold
    · exact ⟨false, same⟩
    · exact ⟨true, ended⟩
  · obtain mem | past := placed
    · exact .inl mem
    · exact .inr (State.noticed_answered.trans past)
  · cases kept still unplanned with
    | stands mem claim => exact .inl ⟨claim, mem⟩
    | ended gone claim past =>
      refine .inr ⟨?_, gone, ?_⟩
      · refine Eq.trans claim ?_
        cases m <;> rfl
      · exact State.noticed_answered.trans past
  · refine follows.free h ?_
    rw [State.claim_setClaim, if_neg (Ne.symm other)]
    exact before

end Sys2Proof.Machine
end

section
/-! PROOFS. The acceptance of a plan and the beginning of its first step (R149 to R152), by RUN_PLAN and by a rise of IGN
(R126), and the statements on both. -/

namespace Sys2Proof.Machine

section
variable {s t u w : State} {g h : Group} {e x y : Entry} {b c : Claim} {k : Nat} {l : List Task} {task : Task}
  {n : PlanName} {o : PlanOwner} {a : Action} {p : Port} {z : Ending}

/-! ### The motion of a step -/

theorem State.entryOf_motion (found : s.entryOf g = some x) : x.motion ∈ s.motions ∧ x.group = g :=
  ⟨mem_motions.mpr ⟨x, List.mem_of_find?_eq_some found, rfl⟩, by simpa using List.find?_some found⟩

/-- A piece of work that neither takes the plan on nor ends it. -/
def Task.waits : Task → Prop
  | .beginStep | .endPlan | .planTakes .. => False
  | .place rest => rest = []
  | _ => True

theorem EndsOnly.waits (own : EndsOnly g l) : ∀ u ∈ l, u.waits := fun u mem => by
  obtain ⟨z, rfl, -⟩ := own u mem
  trivial

/-- The motion of a step of one group stands, with its claim and its slot, and no other motion is the sequencer's. -/
structure Placed1 (e : Entry) (c : Claim) (s : State) : Prop where
  mem : e ∈ s.motions
  only : ∀ y ∈ s.motions, y.group = e.group ∨ y.owner = .sequencer → y = e
  claim : s.claim e.group = some c
  status : s.plan.status = .running
  index : s.plan.stepIndex = 1
  slots : s.plan.slots = [⟨e.group, none⟩]
  orders : e.order < s.nextOrder

theorem Placed1.desk (a : Placed1 e c s) (d : Desk s t) : Placed1 e c t where
  mem := (d.motions e).mpr a.mem
  only y mem := a.only y ((d.motions y).mp mem)
  claim := by
    rw [State.claim, d.claims]
    exact a.claim
  status := by rw [d.plan, a.status]
  index := by rw [d.plan, a.index]
  slots := by rw [d.plan, a.slots]
  orders := d.orders ▸ a.orders

/-- The motion is over. -/
structure Past (e : Entry) (s : State) : Prop where
  gone : e ∉ s.motions
  orders : e.order < s.nextOrder
  noticed : s.noticed .motionEnd = true

theorem Past.drain (a : Past e s) (plain : Plain l) : e ∉ (drain k (s, l)).motions ∧ (drain k (s, l)).noticed .motionEnd = true := by
  have follows := (drain_does (F := fun _ => True) (s := s) (n := k) plain).follows
  refine ⟨fun mem => ?_, follows.noticed a.noticed⟩
  obtain new | old := follows.entries e mem
  · exact absurd a.orders (Nat.not_lt.mpr new)
  · exact a.gone old

/-- An ending leaves the motion and what it stands in, or it is the motion's own. -/
theorem Placed1.motionEnd (a : Placed1 e c s) :
    (Placed1 e c (s.motionEnd g z).1 ∧ ∀ u ∈ (s.motionEnd g z).2, u.waits) ∨ Past e (s.motionEnd g z).1 := by
  by_cases still : s.still g
  · rw [State.motionEnd_still still]
    exact .inl ⟨a, fun u mem => absurd mem (by simp)⟩
  obtain ⟨x, found⟩ := State.not_still_iff.mp still
  have orders := (State.motionEnd_does (F := fun _ => True) (s := s) (g := g) (e := z) fun _ => trivial).follows.orders
  by_cases own : g = e.group
  · exact .inr ⟨fun mem => (mem_motions_motionEnd.mp mem).2 own.symm, Nat.lt_of_lt_of_le a.orders orders,
      State.noticed_motionEnd found⟩
  · refine .inl ⟨⟨mem_motions_motionEnd.mpr ⟨a.mem, fun same => own same.symm⟩,
      fun y mem => a.only y (mem_motions_motionEnd.mp mem).1, ?_, ?_, ?_, ?_, Nat.lt_of_lt_of_le a.orders orders⟩, fun u mem => ?_⟩
    · rw [State.claim_motionEnd found, if_neg own]
      exact a.claim
    · rw [State.plan_motionEnd, a.status]
    · rw [State.plan_motionEnd, a.index]
    · rw [State.plan_motionEnd, a.slots]
    · obtain ⟨moves, group⟩ := State.entryOf_motion found
      have stranger : x.owner ≠ .sequencer := fun planned => by
        have same := a.only _ moves (.inr planned)
        exact own (by rw [← same, ← group]; rfl)
      rw [State.motionEnd_work found, if_neg stranger, List.append_nil] at mem
      obtain rfl | mem := List.mem_cons.mp mem
      · trivial
      · split at mem
        · obtain rfl := List.mem_singleton.mp mem
          trivial
        · exact absurd mem (by simp)

theorem State.runTask_placed1 (a : Placed1 e c s) (waits : task.waits) :
    (Placed1 e c (s.runTask task).1 ∧ ∀ u ∈ (s.runTask task).2, u.waits) ∨ Past e (s.runTask task).1 := by
  cases task with
  | endMotion g z => exact a.motionEnd
  | handover v =>
    refine .inl ?_
    rw [State.runTask, State.handOver]
    split
    · exact ⟨a, fun u mem => absurd mem (by simp)⟩
    · refine ⟨a.desk .evalAlarm, fun u mem => ?_⟩
      obtain rfl := List.mem_singleton.mp mem
      trivial
  | permits =>
    refine .inl ?_
    rw [State.runTask, State.checkPermits]
    split
    · refine ⟨a, fun u mem => ?_⟩
      simp only [List.mem_cons, List.not_mem_nil, or_false] at mem
      obtain rfl | rfl := mem <;> trivial
    · exact ⟨a, fun u mem => absurd mem (by simp)⟩
  | scan =>
    refine .inl ⟨a.desk .scan, fun u mem => ?_⟩
    obtain ⟨y, -, rfl⟩ := List.mem_map.mp mem
    trivial
  | resume g order first =>
    obtain ⟨desk, work⟩ := State.resumeEntry_desk (s := s) (g := g) (order := order) (first := first)
    refine .inl ⟨a.desk desk, fun u mem => ?_⟩
    obtain none | ⟨l, work, own⟩ := work
    · exact absurd (none ▸ mem) (by simp)
    · rw [State.runTask, work] at mem
      obtain rfl | mem := List.mem_cons.mp mem
      · trivial
      · exact own.waits u mem
  | planTakes => exact waits.elim
  | beginStep => exact waits.elim
  | endPlan => exact waits.elim
  | place rest =>
    obtain rfl : rest = [] := waits
    refine .inl ?_
    have idle : s.stepAdvance = (s, []) := by
      have incomplete : s.stepComplete = false := by simp [State.stepComplete, a.slots]
      simp [State.stepAdvance, incomplete]
    change Placed1 e c s.stepAdvance.1 ∧ ∀ u ∈ s.stepAdvance.2, u.waits
    rw [idle]
    exact ⟨a, fun u mem => absurd mem (by simp)⟩

/-- The motion of a step of one group stands at the end of the event, or it is over. -/
theorem drain_placed1 (a : Placed1 e c s) (waits : ∀ u ∈ l, u.waits) (plain : Plain l) :
    Placed1 e c (drain k (s, l)) ∨ (e ∉ (drain k (s, l)).motions ∧ (drain k (s, l)).noticed .motionEnd = true) := by
  induction k generalizing s l with
  | zero => exact .inl a
  | succ k ih =>
    cases l with
    | nil => exact .inl a
    | cons task rest =>
      have later : Plain ((s.runTask task).2 ++ rest) :=
        State.runTask_plain.append fun u mem => plain u (List.mem_cons_of_mem _ mem)
      rw [drain_cons]
      obtain ⟨now, more⟩ | past := State.runTask_placed1 a (waits task List.mem_cons_self)
      · refine ih now (fun u mem => ?_) later
        obtain mem | mem := List.mem_append.mp mem
        · exact more u mem
        · exact waits u (List.mem_cons_of_mem _ mem)
      · exact .inr (past.drain later)

/-! ### A plan is accepted -/

/-- What stands once a plan has been accepted (R150), whatever becomes of its first step. -/
structure Started (n : PlanName) (o : PlanOwner) (s t : State) : Prop where
  name : t.plan.name = some n
  owner : t.plan.owner = some o
  count : t.plan.stepCount = (s.layout.planSteps n).length
  reserved : ∀ g, t.plan.reserved[groupIndex g] = (planGroups (s.layout.planSteps n)).contains g
  noticed : t.noticed .plan = true
  held : ∀ g b, g ∉ planGroups (s.layout.planSteps n) → s.claim g = some b → b.mode = .hold → b.owner ≠ .sequencer →
    t.claim g = some b ∨ t.claim g = some { b with ended := true }
  free : ∀ g, g ∉ planGroups (s.layout.planSteps n) → s.claim g = none → t.claim g = none
  fixed : t.fixedPart = s.fixedPart
  links : ∀ p, (t.port p).link = (s.port p).link

theorem State.reserved_newPlan (g : Group) :
    (s.newPlan n o).reserved[groupIndex g] = (planGroups (s.layout.planSteps n)).contains g := by
  simp only [State.newPlan, Fin.getElem_fin, Vector.getElem_ofFn, Fin.eta, List.contains_eq_any_beq]
  refine congrArg (fun f => List.any _ f) (funext fun h => ?_)
  rw [Bool.eq_iff_iff, beq_iff_eq, beq_iff_eq, groupIndex_eq, eq_comm]

theorem State.noticed_stepBegin (runs : s.planRunning = true) : s.stepBegin.1.noticed .plan = true := by
  unfold State.stepBegin
  rw [if_pos runs]
  dsimp only
  split
  · exact State.noticed_raise _ _
  · exact State.noticed_raise _ _

theorem drain_beginStep (runs : s.planRunning = true) : (drain (k + 1) (s, [.beginStep])).noticed .plan = true := by
  rw [drain_cons]
  have plain : Plain (s.runTask .beginStep).2 := State.runTask_plain
  rw [List.append_nil]
  exact (drain_does (F := fun _ => True) plain).follows.noticed (State.noticed_stepBegin runs)

theorem State.acceptPlan_started : Started n o s (s.acceptPlan n o) := by
  obtain ⟨table, started, claims⟩ := s.planStart_eq n o
  unfold State.acceptPlan
  rw [started]
  have follows := (drain_does (F := fun _ => False) (n := workBound)
    (s := { s with plan := s.newPlan n o, claims := table }) (l := [.beginStep]) (.cons trivial .nil)).follows
  have noticed : (drain workBound ({ s with plan := s.newPlan n o, claims := table }, [.beginStep])).noticed .plan = true :=
    drain_beginStep rfl
  generalize drain workBound ({ s with plan := s.newPlan n o, claims := table }, [.beginStep]) = t at follows noticed ⊢
  have claim (g : Group) (free : g ∉ planGroups (s.layout.planSteps n)) :
      ({ s with plan := s.newPlan n o, claims := table } : State).claim g = s.claim g :=
    (claims g).trans (if_neg free)
  exact {
    name := follows.planName
    owner := follows.planOwner
    count := follows.planCount
    reserved := fun g => by rw [follows.planReserved]; exact State.reserved_newPlan g
    noticed := noticed
    held := fun g b free held mode owner => follows.held g b id ((claim g free).trans held) owner mode
    free := fun g free none => follows.free g ((claim g free).trans none)
    fixed := follows.fixed
    links := follows.links }

/-! ### The first step -/

/-- The state in which the first step is tested: the plan is on record with no slot, its groups are claimed, and PLAN is
raised. -/
def State.opened (s : State) (n : PlanName) (o : PlanOwner) (table : Vector (Option Claim) 6) : State :=
  { s with plan := s.newPlan n o, claims := table }.raise .plan

theorem State.presentStep_opened {table : Vector (Option Claim) 6} {step : PlanStep} {rest : List PlanStep}
    (first : s.layout.planSteps n = step :: rest) : (s.opened n o table).presentStep = step := by
  change ((s.layout.planSteps n)[0]?).getD [] = step
  rw [first]
  rfl

theorem State.stepTest_opened {table : Vector (Option Claim) 6} : (s.opened n o table).stepTest g a = s.stepTest g a := rfl

theorem State.permitCause_opened {table : Vector (Option Claim) 6} : (s.opened n o table).permitCause g a = s.permitCause g a := rfl

theorem State.stepBegin_newPlan {table : Vector (Option Claim) 6} {step : PlanStep} {rest : List PlanStep}
    (first : s.layout.planSteps n = step :: rest) : ({ s with plan := s.newPlan n o, claims := table } : State).stepBegin =
      match step.findSome? fun e => (s.stepTest e.1 e.2).map fun r => (e.1, r) with
      | some (g, r, c) => (s.opened n o table).planRefused g r c
      | none => (s.opened n o table, [.place step]) := by
  have present := State.presentStep_opened (o := o) (table := table) first
  have begins : ({ s with plan := s.newPlan n o, claims := table } : State).stepBegin =
      match (s.opened n o table).presentStep.findSome? fun e => ((s.opened n o table).stepTest e.1 e.2).map fun r => (e.1, r) with
      | some (g, r, c) => (s.opened n o table).planRefused g r c
      | none => (s.opened n o table, [.place (s.opened n o table).presentStep]) := rfl
  rw [begins, present]
  rfl

/-- A plan without a motion of its own that ends frees its claims, and that is all (R154). -/
theorem drain_planEnd_unmoved {st : PlanStatus} {f : Option PlanFailure} (none : ∀ y ∈ s.motions, y.owner ≠ .sequencer) :
    drain (k + 1) (s.planEnd st f) = (s.planEnd st f).1.freePlanClaims := by
  have next : (s.planEnd st f).1.planEndNext = ((s.planEnd st f).1.freePlanClaims, []) := by
    unfold State.planEndNext
    have idle : ((s.planEnd st f).1.paused ++ (s.planEnd st f).1.load).find? (fun e => e.owner == .sequencer) = Option.none := by
      change (s.paused ++ s.load).find? _ = Option.none
      rw [List.find?_eq_none]
      intro y mem planned
      have moves : y.motion ∈ s.motions := mem_motions.mpr ⟨y, by
        simp only [List.mem_append] at mem ⊢
        exact mem.symm, rfl⟩
      exact none _ moves (show y.owner = .sequencer by simpa using planned)
    rw [idle]
  change drain (k + 1) ((s.planEnd st f).1, [.endPlan]) = _
  rw [drain_cons]
  change drain k ((s.planEnd st f).1.planEndNext.1, (s.planEnd st f).1.planEndNext.2 ++ []) = _
  rw [next, List.append_nil, drain_nil]

/-- A first step whose group fails its test ends the plan before anything moves (R151, R154). -/
structure Refused (n : PlanName) (g : Group) (r : Reason) (x : Option Cause) (s t : State) : Prop where
  status : t.plan.status = .failed
  index : t.plan.stepIndex = 1
  slots : t.plan.slots = []
  failure : t.plan.failure = some { step := 1, group := g, reason := some r, cause := x, outcome := none, fault := none }
  motions : t.motions = s.motions
  freed : ∀ h ∈ planGroups (s.layout.planSteps n), t.claim h = none

theorem State.acceptPlan_refused {step pre post : PlanStep} {rest : List PlanStep} {r : Reason} {x : Option Cause}
    (first : s.layout.planSteps n = step :: rest) (unplanned : ∀ e ∈ s.motions, e.owner ≠ .sequencer)
    (free : ∀ h ∈ planGroups (s.layout.planSteps n), s.claim h = none)
    (split : step = pre ++ (g, a) :: post) (pass : ∀ y ∈ pre, s.stepTest y.1 y.2 = none)
    (fails : s.stepTest g a = some (r, x)) : Refused n g r x s (s.acceptPlan n o) := by
  obtain ⟨table, started, claims⟩ := s.planStart_eq n o
  have found : (step.findSome? fun e => (s.stepTest e.1 e.2).map fun r => (e.1, r)) = some (g, r, x) := by
    rw [split, List.findSome?_append, List.findSome?_cons, fails]
    have before : (pre.findSome? fun e => (s.stepTest e.1 e.2).map fun r => (e.1, r)) = none := by
      rw [List.findSome?_eq_none_iff]
      intro y mem
      rw [pass y mem]
      rfl
    rw [before]
    rfl
  have begins : ({ s with plan := s.newPlan n o, claims := table } : State).runTask .beginStep =
      (s.opened n o table).planRefused g r x := by
    refine (State.stepBegin_newPlan (table := table) (o := o) first).trans ?_
    rw [found]
  have ends : s.acceptPlan n o = ((s.opened n o table).planRefused g r x).1.freePlanClaims := by
    unfold State.acceptPlan
    rw [started]
    change drain (9998 + 1 + 1) _ = _
    rw [drain_cons, begins, List.append_nil]
    exact drain_planEnd_unmoved unplanned
  rw [ends]
  obtain ⟨⟨freed, frame⟩, claim⟩ := freePlanClaims_spec ((s.opened n o table).planRefused g r x).1
  refine ⟨by rw [frame]; rfl, by rw [frame]; rfl, by rw [frame]; rfl, by rw [frame]; rfl, by rw [frame]; rfl, fun h mem => ?_⟩
  rw [claim]
  change (table[groupIndex h]).filter _ = none
  rw [claims, if_pos mem, free h mem, planClaim, Option.or_none]
  cases firstAction (s.layout.planSteps n) h with
  | none => rfl
  | some a => simp

theorem State.permitCause_of_stepTest (pass : s.stepTest g a = none) : s.permitCause g a = none := by
  cases cause : s.permitCause g a with
  | none => rfl
  | some c =>
    unfold State.stepTest at pass
    rw [cause] at pass
    dsimp only at pass
    split_ifs at pass

theorem State.runTask_place {later : PlanStep} (runs : s.planRunning = true) (permitted : s.permitCause g a = none) :
    s.runTask (.place ((g, a) :: later)) =
      ((((s.aimClaim g a).openSlot g).admitMotion g .sequencer .auto a).1,
        (((s.aimClaim g a).openSlot g).admitMotion g .sequencer .auto a).2 ++ [.place later]) := by
  change s.placeNext ((g, a) :: later) = _
  rw [State.placeNext, if_pos runs, permitted]

/-- The first group of the plan's first step has its claim with the step's action, and its slot (R150, R152). -/
theorem State.openSlot_opened {table : Vector (Option Claim) 6} {rest : List PlanStep}
    (first : s.layout.planSteps n = [(g, a)] :: rest)
    (claims : ∀ g, table[groupIndex g] = if g ∈ planGroups (s.layout.planSteps n) then
      (planClaim (s.layout.planSteps n) g).or (s.claim g) else s.claim g) :
    ∃ w : State, ((s.opened n o table).aimClaim g a).openSlot g = w ∧
      (∃ claims ports, w = { s with plan := { s.newPlan n o with slots := [⟨g, none⟩] }, claims := claims, ports := ports }) ∧
      w.claim g = some { owner := .sequencer, mode := .auto, action := a, deadline := none, ended := false } := by
  have named : g ∈ planGroups (s.layout.planSteps n) := by
    simp [planGroups, mem_allGroups, first]
  have claim : (s.opened n o table).claim g =
      some { owner := .sequencer, mode := .auto, action := a, deadline := none, ended := false } := by
    refine (claims g).trans ?_
    rw [if_pos named, first]
    simp [planClaim, firstAction]
  refine ⟨_, rfl, ⟨((s.opened n o table).aimClaim g a).claims, (s.opened n o table).ports, ?_⟩, ?_⟩
  · rw [State.aimClaim_frame]
    rfl
  · change ((s.opened n o table).aimClaim g a).claim g = _
    unfold State.aimClaim
    rw [claim]
    dsimp only
    rw [if_pos rfl, State.claim_setClaim, if_pos rfl]

theorem State.nextOrder_admitMotion {m : Mode} {r : Owner} : (s.admitMotion g r m a).1.nextOrder = s.nextOrder + 1 := by
  have d : Desk (s.placeEntry g r m a).1 (s.admitMotion g r m a).1 := .of_controls State.controllerAdmit_controls
  rw [d.orders, State.placeEntry]
  dsimp only
  split <;> rfl

/-- A first step of one group that passes is placed as a motion of the sequencer (R151, R152). -/
theorem State.acceptPlan_placed {rest : List PlanStep} (first : s.layout.planSteps n = [(g, a)] :: rest)
    (unplanned : ∀ e ∈ s.motions, e.owner ≠ .sequencer) (pass : s.stepTest g a = none) (still : s.still g)
    (new : e = { newEntry g .sequencer .auto a s.nextOrder with units := s.motionUnits g a }) :
    Placed1 e { owner := .sequencer, mode := .auto, action := a, deadline := none, ended := false } (s.acceptPlan n o) ∨
      (e ∉ (s.acceptPlan n o).motions ∧ (s.acceptPlan n o).noticed .motionEnd = true) := by
  obtain ⟨table, started, claims⟩ := s.planStart_eq n o
  have begins : ({ s with plan := s.newPlan n o, claims := table } : State).runTask .beginStep =
      (s.opened n o table, [.place [(g, a)]]) := by
    refine (State.stepBegin_newPlan (table := table) (o := o) first).trans ?_
    simp [pass]
  obtain ⟨v, opened, ⟨held, ports, frame⟩, claim⟩ := State.openSlot_opened (o := o) first claims
  have places : (s.opened n o table).runTask (.place [(g, a)]) =
      ((v.admitMotion g .sequencer .auto a).1, (v.admitMotion g .sequencer .auto a).2 ++ [.place []]) := by
    rw [State.runTask_place (s := s.opened n o table) rfl (State.permitCause_of_stepTest (s := s) pass), opened]
  have ends : s.acceptPlan n o = drain 9998
      ((v.admitMotion g .sequencer .auto a).1, (v.admitMotion g .sequencer .auto a).2 ++ [.place []]) := by
    unfold State.acceptPlan
    rw [started]
    change drain (9998 + 1 + 1) _ = _
    rw [drain_cons, begins, List.append_nil, drain_cons, places, List.append_nil]
  rw [ends]
  have own : e.group = g := by rw [new]; rfl
  have plan : (v.admitMotion g .sequencer .auto a).1.plan = { s.newPlan n o with slots := [⟨g, none⟩] } :=
    State.plan_admitMotion.trans (by rw [frame])
  have motions (y : Entry) : y ∈ (v.admitMotion g .sequencer .auto a).1.motions ↔ y ∈ s.motions ∨ y = e := by
    rw [State.mem_motions_admitMotion, new, frame]
    rfl
  refine drain_placed1 ⟨(motions e).mpr (.inr rfl), fun y mem own' => ?_, ?_, by rw [plan]; rfl, by rw [plan]; rfl,
    by rw [plan, own], ?_⟩ (fun u mem => ?_) (State.admit_plain.append (.cons trivial .nil))
  · obtain mem | rfl := (motions y).mp mem
    · obtain same | planned := own'
      · exact absurd (same.trans own) (still y mem)
      · exact absurd planned (unplanned y mem)
    · rfl
  · rw [own, State.claim, State.claims_admitMotion]
    exact claim
  · rw [State.nextOrder_admitMotion, new, frame]
    exact Nat.lt_succ_self _
  · obtain mem | mem := List.mem_append.mp mem
    · simp only [State.admitMotion, State.placeAndStart, List.mem_append, List.mem_singleton] at mem
      obtain mem | rfl := mem
      · exact State.controllerAdmit_own.waits u mem
      · trivial
    · obtain rfl := List.mem_singleton.mp mem
      rfl

/-! ### The requests -/

theorem exec_runPlan {v : State × Answer} (awake : s.inReset = none) (room : s.hasRoom p) (decided : s.runPlan p n = v) :
    exec (.runPlan p (byteOf n.code)) s = .next (v.1.answered p .runPlan v.2) := by
  rw [← decided]
  exact exec_decided (q := .runPlan n) rfl (by cases n <;> rfl) awake room

/-- The tests of a step's start in their order (R151). -/
theorem State.stepTest_eq : s.stepTest g a =
    if s.configured g = false then some (.notConfigured, none)
    else if ∃ i ∈ s.groupChans g, (s.chan i).census ≠ .seated then some (.unavailable, none)
    else if s.groupFaulted g = true then some (.faulted, none)
    else if s.homeFirst g a = true then some (.homeFirst, none)
    else if s.permitCause g a ≠ none then some (.notPermitted, s.permitCause g a)
    else if a = .level ∧ (s.layout.level.steepLimit < s.tilt.pitch.natAbs ∨
      s.layout.level.steepLimit < s.tilt.roll.natAbs) then some (.tooSteep, none)
    else none := by
  have unavailable : s.unavailable g = true ↔ ∃ i ∈ s.groupChans g, (s.chan i).census ≠ .seated := by
    simp [State.unavailable]
  have steep : s.tooSteep s.tilt.pitch s.tilt.roll = true ↔
      (s.layout.level.steepLimit < s.tilt.pitch.natAbs ∨ s.layout.level.steepLimit < s.tilt.roll.natAbs) := by
    simp [State.tooSteep]
  unfold State.stepTest
  simp only [unavailable, steep]
  cases s.permitCause g a <;> rfl

end

/-- Settles O31: the checks in their order, the record and the claims of an accepted plan, and the start of its first step. -/
theorem runPlanIsAccepted : Obligations.RunPlanIsAccepted := by
  unfold Obligations.RunPlanIsAccepted
  intro s p n awake room
  have active : s.plan.status = .running ↔ s.planRunning = true := by simp [State.planRunning]
  refine ⟨fun write => exec_runPlan (n := n) (v := (s, _)) awake room ?_, fun write road => exec_runPlan (n := n) (v := (s, _)) awake room ?_,
    fun write road empty => exec_runPlan (n := n) (v := (s, _)) awake room ?_, fun write road steps runs => exec_runPlan (n := n) (v := (s, _)) awake room ?_,
    fun g b write road steps idle mem claimed first => exec_runPlan (n := n) awake room (v := (s, _)) ?_, fun write road steps idle free => ?_⟩
  · rw [State.runPlan, if_pos write]
    rfl
  · simp [State.runPlan, write, road, notPermitted, Cause.code]
  · simp [State.runPlan, write, road, empty, refusal]
  · simp [State.runPlan, write, road, steps, active.mp runs, refusal]
  · have owner : s.firstOwner (planGroups (s.layout.planSteps n)) = some b.owner :=
      State.firstOwner_some (allGroups_ordered.filter _) mem claimed first
    simp [State.runPlan, write, road, steps, mt active.mpr idle, owner]
    rfl
  · have decided : s.runPlan p n = (s.acceptPlan n (.port p), .plain) := by
      simp [State.runPlan, write, road, steps, mt active.mpr idle, State.firstOwner_none.mpr free]
    have started := State.acceptPlan_started (s := s) (n := n) (o := .port p)
    have refused := fun {step pre post rest g a r x} first unplanned =>
      State.acceptPlan_refused (s := s) (n := n) (o := .port p) (step := step) (pre := pre) (post := post) (rest := rest)
        (g := g) (a := a) (r := r) (x := x) first unplanned free
    have placed := fun {g a rest e} => State.acceptPlan_placed (s := s) (n := n) (o := .port p) (g := g) (a := a)
      (rest := rest) (e := e)
    generalize s.acceptPlan n (.port p) = t at decided started refused placed
    refine ⟨_, exec_runPlan awake room decided, ?_, started.name, started.owner, started.count, started.reserved,
      State.noticed_answered.trans started.noticed, started.held, started.free, fun step rest first unplanned => ⟨?_, ?_⟩,
      started.fixed⟩
    · rw [State.port_answered, replies_of_link (started.links p)]
      rfl
    · intro pre g a post r x split pass fails
      have ended := refused first unplanned split pass (State.stepTest_eq.trans fails.symm)
      exact ⟨ended.status, ended.index, ended.slots, ended.failure, ended.motions, ended.freed⟩
    · intro g a e one pass still new
      obtain stands | past := placed (one ▸ first) unplanned pass still new
      · refine .inl ⟨stands.mem, stands.status, stands.index, ?_, ?_⟩
        · have slots := stands.slots
          rw [new] at slots
          exact slots
        · have claim := stands.claim
          rw [new] at claim
          exact claim
      · exact .inr ⟨past.1, State.noticed_answered.trans past.2⟩

/-- Settles O32: the three cases of a rise, the STOW plan by the acceptance that RUN_PLAN shares. -/
theorem ignitionStows : Obligations.IgnitionStows := by
  unfold Obligations.IgnitionStows
  rintro s u awake rfl
  have high : exec .ignRise s = .next (s.accept .ign true).ignitionRise := congrArg _ (exec_awake (f := State.ignHigh) awake)
  have accepted : s.accept .ign true = { s with ign := { s.ign with accepted := some true } } := rfl
  rw [high, accepted]
  generalize taken : ({ s with ign := { s.ign with accepted := some true } } : State) = u
  have layout : u.layout = s.layout := by rw [← taken]
  have road : u.road = s.road := by rw [← taken]; rfl
  have write : u.write = s.write := by rw [← taken]
  have claim (g : Group) : u.claim g = s.claim g := by rw [← taken]; rfl
  rw [← layout, ← road, ← write]
  simp only [← claim]
  refine ⟨fun off => ?_, fun auto parked busy => ?_, fun auto parked free idle steps => ?_⟩
  · rw [State.ignitionRise, if_neg]
    rintro ⟨auto, parked⟩
    obtain no | moving := off
    · exact absurd (no.symm.trans auto) (by simp)
    · exact moving parked
  · rw [State.ignitionRise, if_pos ⟨auto, parked⟩, if_neg]
    rintro ⟨free, idle, steps⟩
    obtain ⟨g, claimed⟩ | writing | empty := busy
    · exact claimed (by simpa [State.allFree, mem_allGroups] using List.all_eq_true.mp free g (mem_allGroups g))
    · exact writing idle
    · exact steps empty
  · have all : u.allFree = true := List.all_eq_true.mpr fun g _ => by rw [free g]; rfl
    have started := State.acceptPlan_started (s := u) (n := .stow) (o := .ignition)
    refine ⟨_, by rw [State.ignitionRise, if_pos ⟨auto, parked⟩, if_pos ⟨all, idle, steps⟩], started.name, started.owner,
      started.count, started.noticed, fun g out => started.free g out (free g), started.fixed⟩

end Sys2Proof.Machine
end

section
/-! PROOFS. First accepted levels handed over as initial levels (R23, R123), and the statement on them. -/

namespace Sys2Proof.Machine

section
variable {s t u : State} {n i : Chan} {j : JackId} {id : Slider} {m : Motor} {l : Line} {v w : Work} {x : Line × Bool}
  {closed : Bool} {k : Nat} {tasks : List Task}

/-! ### One event of a home switch -/

theorem State.slideHomeClosed_controls : Controls id.group (s.motorZeroed id m) (s.slideHomeClosed id m).1 := by
  have form : s.slideHomeClosed id m =
      match (s.motorZeroed id m).slideDir id with
      | none => ((s.motorZeroed id m).setSlider id { (s.motorZeroed id m).slider id with
          state := if (s.motorZeroed id m).allHome id then .closed
            else if (s.motorZeroed id m).positionKnown id then .midway else ((s.motorZeroed id m).slider id).state }, [])
      | some d => if (s.motorZeroed id m).anyMotorDriven id then (s.motorZeroed id m).rackCheck id
          (if d = .stowing ∧ ((s.motorZeroed id m).motor id m).phase = .travel ∧ (s.motorZeroed id m).motorDriven id m then
            (s.motorZeroed id m).beginSeat id m else ((s.motorZeroed id m).retrim id, []))
        else if d = .stowing ∧ ((s.motorZeroed id m).motor id m).phase = .travel ∧ (s.motorZeroed id m).motorDriven id m then
          (s.motorZeroed id m).beginSeat id m else ((s.motorZeroed id m).retrim id, []) := rfl
  rw [form]
  generalize s.motorZeroed id m = z
  have seats (d : Dir) : Controls id.group z (if d = .stowing ∧ (z.motor id m).phase = .travel ∧ z.motorDriven id m then
      z.beginSeat id m else (z.retrim id, [])).1 := by
    split
    · exact State.beginSeat_controls
    · exact State.retrim_controls
  split
  · exact .setSlider rfl (fun m => .inl (by cases m <;> rfl)) fun f h => h
  · split
    · exact State.rackCheck_controls (seats _)
    · exact seats _

theorem State.slideHomeClosed_own : EndsOnly id.group (s.slideHomeClosed id m).2 := by
  unfold State.slideHomeClosed
  dsimp only
  generalize s.setMotor id m { s.motor id m with count := some 0 } = z
  have seats (d : Dir) : EndsOnly id.group (if d = .stowing ∧ (z.motor id m).phase = .travel ∧ z.motorDriven id m then
      z.beginSeat id m else (z.retrim id, [])).2 := by
    split
    · exact State.beginSeat_own
    · exact .nil
  split
  · exact .nil
  · split
    · exact State.rackCheck_own (seats _)
    · exact seats _

theorem State.jackHomeClosed_controls : Controls .jacks (s.setJack j (s.jack j).home) (s.jackHomeClosed j).1 := by
  have same : s.jackHomeClosed j = if ((s.setJack j (s.jack j).home).jack j).phase = .active ∧
      ((s.setJack j (s.jack j).home).jack j).dir = .stowing then ((s.setJack j (s.jack j).home).jackDone j).jackSettled
      else (s.setJack j (s.jack j).home, []) := rfl
  rw [same]
  split
  · exact State.jackDone_controls.trans State.jackSettled_controls
  · exact .refl _ _

theorem State.jackHomeClosed_own : EndsOnly .jacks (s.jackHomeClosed j).2 := by
  unfold State.jackHomeClosed
  dsimp only
  split
  · exact State.jackCheck_own
  · exact .nil

/-- An event of a home switch zeroes the count of its motor or jack at a closure, and the rest is its controller's work. -/
theorem State.homeEvent_part : ∃ g u, Controls g u (s.homeEvent n closed).1 ∧ EndsOnly g (s.homeEvent n closed).2 ∧
    (u = s ∨ (∃ id m, u = s.motorZeroed id m) ∨ ∃ j, u = s.setJack j (s.jack j).home) := by
  have idle : ∃ g u, Controls g u (s, ([] : List Task)).1 ∧ EndsOnly g (s, ([] : List Task)).2 ∧
      (u = s ∨ (∃ id m, u = s.motorZeroed id m) ∨ ∃ j, u = s.setJack j (s.jack j).home) :=
    ⟨.awning, s, .refl _ s, .nil, .inl rfl⟩
  unfold State.homeEvent
  split
  · rename_i k m _
    exact ⟨_, _, State.slideHomeClosed_controls (id := .room k), State.slideHomeClosed_own (id := .room k), .inr (.inl ⟨_, _, rfl⟩)⟩
  · rename_i k _ _
    exact ⟨_, _, State.opening_controls (id := .room k), .nil, .inl rfl⟩
  · exact ⟨_, _, State.slideHomeClosed_controls (id := .awning), State.slideHomeClosed_own (id := .awning), .inr (.inl ⟨_, _, rfl⟩)⟩
  · exact ⟨_, _, State.opening_controls (id := .awning), .nil, .inl rfl⟩
  · exact ⟨_, _, State.jackHomeClosed_controls, State.jackHomeClosed_own, .inr (.inr ⟨_, rfl⟩)⟩
  · exact idle
  · exact idle
  · exact idle

theorem State.outer_homeEvent : (s.homeEvent n closed).1.outer = s.outer := by
  obtain ⟨g, u, controls, -, rfl | ⟨id, m, rfl⟩ | ⟨j, rfl⟩⟩ := State.homeEvent_part (s := s) (n := n) (closed := closed)
  · exact controls.outer
  · exact controls.outer.trans (by cases id <;> rfl)
  · exact controls.outer

theorem Controls.zero {g : Group} (a : Controls g s t) (zero : (s.motor id m).count = some 0) : (t.motor id m).count = some 0 := by
  obtain same | ⟨-, home⟩ := a.counts id m
  · exact same.trans zero
  · exact home

theorem State.count_of_reading {a b : Jack} (same : a.reading = b.reading) : a.count = b.count := by
  have e := congrArg Jack.count same
  exact e

/-- A count of 0 is not lost by an event of a home switch. -/
theorem State.zero_homeEvent : ((s.motor id m).count = some 0 → ((s.homeEvent n closed).1.motor id m).count = some 0) ∧
    ((s.jack j).count = some 0 → ((s.homeEvent n closed).1.jack j).count = some 0) := by
  obtain ⟨g, u, controls, -, cases⟩ := State.homeEvent_part (s := s) (n := n) (closed := closed)
  have jack : (u.jack j).count = some 0 → ((s.homeEvent n closed).1.jack j).count = some 0 := fun zero =>
    (State.count_of_reading (controls.jackReading j)).trans zero
  obtain rfl | ⟨i, y, rfl⟩ | ⟨i, rfl⟩ := cases
  · exact ⟨controls.zero, jack⟩
  · refine ⟨fun zero => controls.zero ?_, fun zero => jack ?_⟩
    · rw [State.count_motorZeroed]
      split
      · rfl
      · exact zero
    · rw [← zero]
      cases i <;> rfl
  · refine ⟨fun zero => controls.zero zero, fun zero => jack ?_⟩
    rw [State.jack_setJack]
    split
    · rfl
    · exact zero

/-- A closure gives its motor or jack count 0. -/
theorem State.count_homeEvent : (s.motorChan id m = some n → ((s.homeEvent n true).1.motor id m).count = some 0) ∧
    (s.role n = .jack j → ((s.homeEvent n true).1.jack j).count = some 0) := by
  refine ⟨fun own => ?_, fun own => ?_⟩
  · rw [(State.homeEvent_slide own).1, State.count_slideHomeClosed, if_pos rfl]
  · rw [(State.homeEvent_jack own).1]
    have reading := State.reading_jackHomeClosed (s := s) (j := j) j
    rw [if_pos rfl] at reading
    have e := congrArg Jack.count reading
    exact e

/-! ### The levels handed over -/

/-- What the handing over of first levels leaves alone, and the work it leaves. -/
structure Handed (s : State) (w : Work) : Prop where
  load : w.1.load = s.load
  paused : w.1.paused = s.paused
  plan : w.1.plan = s.plan
  nextOrder : w.1.nextOrder = s.nextOrder
  layout : w.1.layout = s.layout
  straps : w.1.straps = s.straps
  pending : w.1.pending = s.pending
  now : w.1.now = s.now
  ends : ∀ u ∈ w.2, ∃ g z, u = .endMotion g z ∧ z.claim = .byRule

theorem Handed.refl (s : State) : Handed s (s, []) :=
  ⟨rfl, rfl, rfl, rfl, rfl, rfl, rfl, rfl, fun u mem => absurd mem (by simp)⟩

theorem State.firstLevel_eq : State.firstLevel w x =
    if (w.1.conditioned x.1 && (w.1.line x.1).accepted.isNone) = true then
      match x.1 with
      | .hom n => (((w.1.accept x.1 x.2).homeEvent n x.2).1, w.2 ++ ((w.1.accept x.1 x.2).homeEvent n x.2).2)
      | _ => (w.1.accept x.1 x.2, w.2)
    else w := by
  rfl

theorem Handed.firstLevel (a : Handed s w) : Handed s (State.firstLevel w x) := by
  rw [State.firstLevel_eq]
  split
  · have taken : Handed s (w.1.accept x.1 x.2, w.2) := by
      have frame := w.1.accept_frame (l := x.1) (v := x.2)
      generalize w.1.accept x.1 x.2 = u at frame
      exact ⟨by rw [frame, ← a.load], by rw [frame, ← a.paused], by rw [frame, ← a.plan], by rw [frame, ← a.nextOrder],
        by rw [frame, ← a.layout], by rw [frame, ← a.straps], by rw [frame, ← a.pending], by rw [frame, ← a.now], a.ends⟩
    generalize w.1.accept x.1 x.2 = u at taken
    split
    · rename_i n _
      have outer := u.outer_homeEvent (n := n) (closed := x.2)
      obtain ⟨g, -, -, own, -⟩ := u.homeEvent_part (n := n) (closed := x.2)
      generalize u.homeEvent n x.2 = v at outer own
      refine ⟨?_, ?_, ?_, ?_, ?_, ?_, ?_, ?_, fun y mem => ?_⟩
      · exact (by have e := congrArg State.load outer; exact e : v.1.load = u.load).trans taken.load
      · exact (by have e := congrArg State.paused outer; exact e : v.1.paused = u.paused).trans taken.paused
      · exact (by have e := congrArg State.plan outer; exact e : v.1.plan = u.plan).trans taken.plan
      · exact (by have e := congrArg State.nextOrder outer; exact e : v.1.nextOrder = u.nextOrder).trans taken.nextOrder
      · exact (by have e := congrArg State.layout outer; exact e : v.1.layout = u.layout).trans taken.layout
      · exact (by have e := congrArg State.straps outer; exact e : v.1.straps = u.straps).trans taken.straps
      · exact (by have e := congrArg State.pending outer; exact e : v.1.pending = u.pending).trans taken.pending
      · exact (by have e := congrArg State.now outer; exact e : v.1.now = u.now).trans taken.now
      · obtain mem | mem := List.mem_append.mp mem
        · exact a.ends y mem
        · obtain ⟨z, rfl, rule⟩ := own y mem
          exact ⟨g, z, rfl, rule⟩
    · exact taken
  · exact a

theorem State.conditioned_congr (layout : t.layout = s.layout) (straps : t.straps = s.straps) (l : Line) :
    t.conditioned l = s.conditioned l := by
  cases l <;> simp only [State.conditioned, State.hasHome, State.needsReads, State.present, State.role, layout, straps]

theorem State.line_of_outer (outer : t.outer = s.outer) : t.line l = s.line l := by
  have lines : t.lines = s.lines := by
    have e := congrArg State.lines outer
    exact e
  have park : t.park = s.park := by
    have e := congrArg State.park outer
    exact e
  have ign : t.ign = s.ign := by
    have e := congrArg State.ign outer
    exact e
  cases l <;> simp only [State.line, lines, park, ign]

/-- A line takes its first level, and every other keeps its own. -/
theorem State.line_firstLevel : (State.firstLevel w x).1.line l =
    if x.1 = l ∧ w.1.conditioned l = true ∧ (w.1.line l).accepted = none then { w.1.line l with accepted := some x.2 }
    else w.1.line l := by
  have taken : (if (w.1.conditioned x.1 && (w.1.line x.1).accepted.isNone) = true then (w.1.accept x.1 x.2).line l
      else w.1.line l) = if x.1 = l ∧ w.1.conditioned l = true ∧ (w.1.line l).accepted = none then
        { w.1.line l with accepted := some x.2 } else w.1.line l := by
    rw [State.accept, State.line_setLine]
    by_cases same : x.1 = l
    · subst same
      simp
    · simp [same, Ne.symm same]
  rw [← taken, State.firstLevel_eq]
  split
  · split
    · exact State.line_of_outer State.outer_homeEvent
    · rfl
  · rfl

/-- The first level that the list names for a line is taken, and no other. -/
theorem State.line_firstLevels (xs : List (Line × Bool)) (a : Handed s w) :
    ((xs.foldl State.firstLevel w).1.line l).samples = (w.1.line l).samples ∧
      ((xs.foldl State.firstLevel w).1.line l).accepted =
        if s.conditioned l = true ∧ (w.1.line l).accepted = none then (xs.find? fun x => decide (x.1 = l)).map Prod.snd
        else (w.1.line l).accepted := by
  induction xs generalizing w with
  | nil =>
    refine ⟨rfl, ?_⟩
    split
    · rename_i first
      exact first.2
    · rfl
  | cons x rest ih =>
    obtain ⟨samples, accepted⟩ := ih a.firstLevel
    have conditioned : w.1.conditioned l = s.conditioned l := State.conditioned_congr a.layout a.straps l
    rw [List.foldl_cons, samples, accepted, State.line_firstLevel, conditioned]
    by_cases same : x.1 = l
    · by_cases first : s.conditioned l = true ∧ (w.1.line l).accepted = none
      · simp [same, first]
      · simp [same, first]
    · simp [same]

theorem Handed.firstLevels (xs : List (Line × Bool)) (a : Handed s w) : Handed s (xs.foldl State.firstLevel w) := by
  induction xs generalizing w with
  | nil => exact a
  | cons x rest ih => exact ih a.firstLevel

theorem State.zero_firstLevel : ((w.1.motor id m).count = some 0 → ((State.firstLevel w x).1.motor id m).count = some 0) ∧
    ((w.1.jack j).count = some 0 → ((State.firstLevel w x).1.jack j).count = some 0) := by
  have accepted : (w.1.accept x.1 x.2).motor id m = w.1.motor id m ∧ (w.1.accept x.1 x.2).jack j = w.1.jack j := by
    have frame := w.1.accept_frame (l := x.1) (v := x.2)
    generalize w.1.accept x.1 x.2 = u at frame
    rw [frame]
    exact ⟨by cases id <;> rfl, rfl⟩
  rw [State.firstLevel_eq]
  split
  · split
    · obtain ⟨motors, jacks⟩ := State.zero_homeEvent (s := w.1.accept x.1 x.2) (id := id) (m := m) (j := j)
        (n := _) (closed := x.2)
      exact ⟨fun zero => motors (by rw [accepted.1, zero]), fun zero => jacks (by rw [accepted.2, zero])⟩
    · exact ⟨fun zero => by rw [accepted.1, zero], fun zero => by rw [accepted.2, zero]⟩
  · exact ⟨fun zero => zero, fun zero => zero⟩

theorem State.zero_firstLevels (xs : List (Line × Bool)) :
    ((w.1.motor id m).count = some 0 → ((xs.foldl State.firstLevel w).1.motor id m).count = some 0) ∧
      ((w.1.jack j).count = some 0 → ((xs.foldl State.firstLevel w).1.jack j).count = some 0) := by
  induction xs generalizing w with
  | nil => exact ⟨fun zero => zero, fun zero => zero⟩
  | cons x rest ih =>
    obtain ⟨motors, jacks⟩ := ih (w := State.firstLevel w x)
    obtain ⟨motor, jack⟩ := State.zero_firstLevel (w := w) (x := x) (id := id) (m := m) (j := j)
    exact ⟨fun zero => motors (motor zero), fun zero => jacks (jack zero)⟩

/-- A home switch that first reads closed gives its motor or jack count 0. -/
theorem State.zeroed_firstLevels (xs : List (Line × Bool)) (a : Handed s w) (conditioned : s.conditioned (.hom n) = true)
    (first : (w.1.line (.hom n)).accepted = none) (closes : (xs.find? fun x => decide (x.1 = .hom n)) = some (.hom n, true)) :
    (s.motorChan id m = some n → ((xs.foldl State.firstLevel w).1.motor id m).count = some 0) ∧
      (s.role n = .jack j → ((xs.foldl State.firstLevel w).1.jack j).count = some 0) := by
  induction xs generalizing w with
  | nil => simp at closes
  | cons x rest ih =>
    by_cases same : x.1 = .hom n
    · obtain rfl : x = (.hom n, true) := by simpa [same] using closes
      have layout : (w.1.accept (.hom n) true).layout = s.layout := by
        rw [State.accept_frame]
        exact a.layout
      have taken : State.firstLevel w (.hom n, true) =
          (((w.1.accept (.hom n) true).homeEvent n true).1, w.2 ++ ((w.1.accept (.hom n) true).homeEvent n true).2) := by
        rw [State.firstLevel_eq, if_pos]
        simp [State.conditioned_congr a.layout a.straps, conditioned, first]
      obtain ⟨motors, jacks⟩ := State.zero_firstLevels (w := State.firstLevel w (.hom n, true)) (id := id) (m := m) (j := j) rest
      obtain ⟨motor, jack⟩ := State.count_homeEvent (s := w.1.accept (.hom n) true) (id := id) (m := m) (j := j) (n := n)
      rw [taken] at motors jacks
      rw [List.foldl_cons, taken]
      refine ⟨fun own => motors (motor ?_), fun own => jacks (jack ?_)⟩
      · rw [← own]
        cases id <;> simp only [State.motorChan, State.roleChan, State.role, layout]
      · rw [State.role, layout]
        exact own
    · refine ih a.firstLevel ?_ (by simpa [same] using closes)
      rw [State.line_firstLevel, if_neg fun h => same h.1]
      exact first

/-! ### An event without motions -/

/-- The alarm is as the states and the road state make it (R125). -/
def State.alarmRight (s : State) : Prop := s.alarm = true ↔ s.road = .road ∧ s.notStowed = true

theorem State.alarmRight_evalAlarm : s.evalAlarm.alarmRight := by
  have frame := s.butAlarm_evalAlarm
  have alarm := s.alarm_evalAlarm
  unfold State.alarmRight
  generalize s.evalAlarm = w at frame alarm
  rw [alarm, frame.1]
  rfl

/-- A piece of work that finds nothing to do without motions. -/
def Task.rests : Task → Prop
  | .endMotion .. | .handover _ | .permits => True
  | _ => False

theorem drain_rests (load : s.load = []) (paused : s.paused = []) (rests : ∀ u ∈ tasks, u.rests) :
    s.butAlarm (drain k (s, tasks)) ∧ (s.alarmRight → (drain k (s, tasks)).alarmRight) := by
  induction k generalizing s tasks with
  | zero => exact ⟨⟨rfl, fun _ => rfl⟩, id⟩
  | succ k ih =>
    cases tasks with
    | nil => exact ⟨⟨rfl, fun _ => rfl⟩, id⟩
    | cons task rest =>
      have later : ∀ u ∈ rest, u.rests := fun u mem => rests u (List.mem_cons_of_mem _ mem)
      have one : task.rests := rests task List.mem_cons_self
      have still (g : Group) : s.still g := by simp [State.still, State.motions, load, paused]
      cases task with
      | endMotion g z =>
        rw [drain_cons, State.runTask, State.motionEnd_still (still g)]
        exact ih load paused later
      | permits =>
        rw [drain_permits (State.fallenPermit_none load paused)]
        exact ih load paused later
      | handover v =>
        rw [drain_cons, State.runTask, State.handOver]
        split
        · exact ih load paused later
        · have frame := s.butAlarm_evalAlarm
          have right := s.alarmRight_evalAlarm
          generalize s.evalAlarm = w at frame right ⊢
          obtain ⟨same, alarm⟩ := ih (s := w) (tasks := [.permits] ++ rest) (by rw [frame.1]; exact load)
            (by rw [frame.1]; exact paused) fun u mem => by
              obtain mem | mem := List.mem_append.mp mem
              · obtain rfl := List.mem_singleton.mp mem
                trivial
              · exact later u mem
          exact ⟨frame.trans same, fun _ => alarm right⟩
      | scan => exact one.elim
      | resume => exact one.elim
      | planTakes => exact one.elim
      | beginStep => exact one.elim
      | place => exact one.elim
      | endPlan => exact one.elim

/-! ### The order of the levels -/

/-- The home switches come before the others, and no line's first level changes by that. -/
theorem find?_homesFirst (levels : List (Line × Bool)) (l : Line) :
    ((levels.filter fun x => isHomeLine x.1) ++ (levels.filter fun x => !isHomeLine x.1)).find? (fun x => decide (x.1 = l)) =
      levels.find? fun x => decide (x.1 = l) := by
  rw [List.find?_append, List.find?_filter, List.find?_filter]
  have among (p : Line → Bool) (is : p l = true) : (fun x : Line × Bool => decide (p x.1 = true ∧ decide (x.1 = l) = true)) = fun x => decide (x.1 = l) := by
    funext x
    by_cases same : x.1 = l
    · simp [same, is]
    · simp [same]
  have outside (p : Line → Bool) (is : p l = false) : (fun x : Line × Bool => decide (p x.1 = true ∧ decide (x.1 = l) = true)) = fun _ => false := by
    funext x
    by_cases same : x.1 = l
    · simp [same, is]
    · simp [same]
  have nothing : levels.find? (fun _ => false) = none := by simp
  cases home : isHomeLine l with
  | true =>
    rw [among isHomeLine home, outside (fun l => !isHomeLine l) (by simp [home]), nothing, Option.or_none]
  | false =>
    rw [outside isHomeLine home, among (fun l => !isHomeLine l) (by simp [home]), nothing, Option.none_or]

theorem find?_of_noRepeats {levels : List (Line × Bool)} (once : noRepeats (levels.map fun x => x.1) = true) (mem : x ∈ levels) :
    (levels.find? fun y => decide (y.1 = x.1)) = some x := by
  induction levels with
  | nil => simp at mem
  | cons y rest ih =>
    simp only [List.map_cons, noRepeats, Bool.and_eq_true, Bool.not_eq_true', List.contains_eq_mem, List.mem_map,
      decide_eq_false_iff_not, not_exists, not_and] at once
    obtain rfl | later := List.mem_cons.mp mem
    · simp
    · have other : y.1 ≠ x.1 := fun same => once.1 x later same.symm
      rw [List.find?_cons_of_neg (by simpa using other)]
      exact ih once.2 later

/-- The levels of a sample, handed over with the alarm. -/
def State.levelsTaken (s : State) (levels : List (Line × Bool)) : Work :=
  ((levels.filter fun x => isHomeLine x.1) ++ (levels.filter fun x => !isHomeLine x.1)).foldl State.firstLevel (s, [])

theorem State.initialLevels_eq (levels : List (Line × Bool)) : s.initialLevels levels = drain workBound
    (if s.park.accepted.isNone && (s.levelsTaken levels).1.park.accepted.isSome then (s.levelsTaken levels).1.evalAlarm
      else (s.levelsTaken levels).1, .handover s.view :: (s.levelsTaken levels).2) := by
  have form : s.initialLevels levels = drain workBound
      ((if s.park.accepted.isNone && (s.levelsTaken levels).1.park.accepted.isSome then
          ((s.levelsTaken levels).1.evalAlarm, (s.levelsTaken levels).2) else s.levelsTaken levels).1,
        .handover s.view :: (if s.park.accepted.isNone && (s.levelsTaken levels).1.park.accepted.isSome then
          ((s.levelsTaken levels).1.evalAlarm, (s.levelsTaken levels).2) else s.levelsTaken levels).2) := rfl
  rw [form]
  split <;> rfl

end

/-- Settles O8: the levels one after another, the home switches first, and then the alarm. -/
theorem initialLevelsAreTaken : Obligations.InitialLevelsAreTaken := by
  unfold Obligations.InitialLevelsAreTaken
  intro s levels awake wellFormed
  have handed : Handed s (s.levelsTaken levels) := (Handed.refl s).firstLevels _
  have lines (l : Line) := State.line_firstLevels (l := l)
    ((levels.filter fun x => isHomeLine x.1) ++ (levels.filter fun x => !isHomeLine x.1)) (Handed.refl s)
  have zeroed {n id m j} := State.zeroed_firstLevels (n := n) (id := id) (m := m) (j := j)
    ((levels.filter fun x => isHomeLine x.1) ++ (levels.filter fun x => !isHomeLine x.1)) (Handed.refl s)
  simp only [find?_homesFirst] at lines zeroed
  have run := State.initialLevels_eq (s := s) levels
  change ∀ l, ((s.levelsTaken levels).1.line l).samples = _ ∧ ((s.levelsTaken levels).1.line l).accepted = _ at lines
  change ∀ {n : Chan} {id : Slider} {m : Motor} {j : JackId}, _ → _ → _ →
    (_ → ((s.levelsTaken levels).1.motor id m).count = _) ∧ (_ → ((s.levelsTaken levels).1.jack j).count = _) at zeroed
  generalize s.levelsTaken levels = w at handed lines zeroed run
  obtain ⟨u, before⟩ : ∃ u, u = if s.park.accepted.isNone && w.1.park.accepted.isSome then w.1.evalAlarm else w.1 := ⟨_, rfl⟩
  rw [← before] at run
  have alarm : w.1.butAlarm u ∧ (s.park.accepted = none → w.1.park.accepted ≠ none → u.alarmRight) := by
    rw [before]
    split
    · exact ⟨w.1.butAlarm_evalAlarm, fun _ _ => State.alarmRight_evalAlarm⟩
    · rename_i kept
      refine ⟨⟨rfl, fun _ => rfl⟩, fun none some => absurd ?_ kept⟩
      simp [none, Option.isSome_iff_ne_none, some]
  clear before
  obtain ⟨frame, right⟩ := alarm
  have plain : Plain (.handover s.view :: w.2) := .cons trivial fun y mem => by
    obtain ⟨g, z, rfl, rule⟩ := handed.ends y mem
    exact fun free => by simp [rule] at free
  have does := drain_does (F := fun _ => True) (n := workBound) (s := u) plain
  have taken : exec (.initialAcceptedLevel levels) s = .next (s.initialLevels levels) :=
    congrArg Host.Outcome.next (exec_awake (f := fun t => t.initialLevels levels) awake)
  refine ⟨_, taken, ?_⟩
  rw [run]
  have rests := fun load paused => drain_rests (k := workBound) (s := u) (tasks := .handover s.view :: w.2) load paused
    fun y mem => by
      obtain rfl | mem := List.mem_cons.mp mem
      · trivial
      · obtain ⟨g, z, rfl, -⟩ := handed.ends y mem
        trivial
  generalize drain workBound (u, .handover s.view :: w.2) = t at does rests
  have line (l : Line) : t.line l = w.1.line l := by
    rw [State.line_of_fixed does.follows.fixed, frame.1]
    cases l <;> rfl
  have silent (idle : s.planRunning = false) : t.plan = s.plan ∧ t.nextOrder = s.nextOrder := by
    have same : u.plan = s.plan ∧ u.nextOrder = s.nextOrder := by
      rw [frame.1]
      exact ⟨handed.plan, handed.nextOrder⟩
    have rests := does.rests (by rw [State.planRunning, same.1]; exact idle)
    exact ⟨rests.plan.trans same.1, rests.orders.trans same.2⟩
  have zero {id m} (zero : (w.1.motor id m).count = some 0) : (t.motor id m).count = some 0 := by
    obtain same | ⟨-, home⟩ := does.follows.counts id m
    · rw [same, frame.1]
      rw [← zero]
      cases id <;> rfl
    · exact home
  have jack {j} (zero : (w.1.jack j).count = some 0) : (t.jack j).count = some 0 := by
    rw [State.count_of_reading (does.follows.jackReading j), frame.1]
    exact zero
  have outer : t.layout = w.1.layout ∧ t.pending = w.1.pending ∧ t.now = w.1.now ∧ t.park = w.1.park := by
    have e := does.follows.fixed
    have same : u.layout = w.1.layout ∧ u.pending = w.1.pending ∧ u.now = w.1.now ∧ u.park = w.1.park := by
      rw [frame.1]
      exact ⟨rfl, rfl, rfl, rfl⟩
    obtain ⟨layout, pending, now, park⟩ := same
    exact ⟨(congrArg State.layout e).trans layout, (congrArg State.pending e).trans pending,
      (congrArg State.now e).trans now, (congrArg State.park e).trans park⟩
  refine ⟨fun l => ?_, silent, fun n home first closes => ?_, fun rest none some => ?_, outer.1.trans handed.layout,
    outer.2.1.trans handed.pending, outer.2.2.1.trans handed.now⟩
  · rw [line, (lines l).1, (lines l).2]
    simp
  · have found := find?_of_noRepeats wellFormed closes
    refine ⟨fun id m own => zero ((zeroed (j := 0) home first found).1 own), fun j own => jack ((zeroed (id := .awning) (m := .a) home first found).2 own)⟩
  · have lists : s.load = [] ∧ s.paused = [] := by simpa [State.motions] using rest
    obtain ⟨same, keeps⟩ := rests (by rw [frame.1]; exact handed.load.trans lists.1)
      (by rw [frame.1]; exact handed.paused.trans lists.2)
    have alarm := keeps (right none fun gone => some (by rw [outer.2.2.2, gone]))
    rw [State.alarmRight, State.notStowed_iff] at alarm
    exact alarm

end Sys2Proof.Machine
end

section
/-! PROOFS. The completion of a store write (R181, R182): the items of the record at their bytes (section 11.3), what the new
layout leaves of every block, and the statement on both. -/

namespace Sys2Proof.Machine

section
variable {m : Image} {p : PlanName} {e a : Nat} {n : Chan}

/-! ### The items of a record -/

theorem groupOfCode_code (g : Group) : groupOfCode (groupCode g) = some g := by
  cases g with
  | room k => revert k; decide
  | jacks => rfl
  | awning => rfl

theorem readEntry_valid {g : Group} (group : groupCode g = m.u8 a / 16)
    (action : m.u8 a % 16 = 1 ∨ m.u8 a % 16 = 2 ∨ (m.u8 a % 16 = 3 ∧ g = .jacks)) : ∃ x, readEntry m a = some (g, x) := by
  unfold readEntry
  dsimp only
  rw [← group, groupOfCode_code]
  obtain one | two | ⟨three, rfl⟩ := action
  · exact ⟨.toward .outward, by rw [one]; rfl⟩
  · exact ⟨.toward .stowing, by rw [two]; rfl⟩
  · exact ⟨.level, by rw [three]; rfl⟩

theorem action_of_readEntry {g : Group} {x : Action} (read : readEntry m a = some (g, x)) :
    (m.u8 a % 16 = 1 → x = .toward .outward) ∧ (m.u8 a % 16 = 2 → x = .toward .stowing) ∧ (m.u8 a % 16 = 3 → x = .level) := by
  unfold readEntry at read
  dsimp only at read
  split at read
  · exact nomatch read
  · rename_i h _
    obtain ⟨act, action, same⟩ := Option.map_eq_some_iff.mp read
    obtain rfl : act = x := congrArg Prod.snd same
    refine ⟨fun code => ?_, fun code => ?_, fun code => ?_⟩
    · rw [code] at action
      exact (Option.some.inj action).symm
    · rw [code] at action
      exact (Option.some.inj action).symm
    · rw [code] at action
      simp only [actionOfCode, dirOfCode, true_and] at action
      split at action
      · exact (Option.some.inj action).symm
      · exact nomatch action

/-- A step whose entries are all in range holds them in their order (section 11.3). -/
theorem readStep_getElem {i : Nat} (few : m.u8 (stepBase p i) ≤ 6)
    (entries : ∀ e, e < m.u8 (stepBase p i) → ∃ x, readEntry m (stepBase p i + 1 + e) = some x) :
    (readStep m p i).length = m.u8 (stepBase p i) ∧
      ∀ e x, (readStep m p i)[e]? = some x → readEntry m (stepBase p i + 1 + e) = some x := by
  have whole : readStep m p i = (List.range (m.u8 (stepBase p i))).map fun e =>
      (readEntry m (stepBase p i + 1 + e)).getD (.jacks, .level) := by
    unfold readStep
    dsimp only
    rw [Nat.min_eq_left few, ← List.filterMap_eq_map]
    refine List.filterMap_congr fun e mem => ?_
    obtain ⟨x, read⟩ := entries e (List.mem_range.mp mem)
    simp [read]
  refine ⟨by rw [whole]; simp, fun e x found => ?_⟩
  rw [whole, List.getElem?_map, Option.map_eq_some_iff] at found
  obtain ⟨d, at_e, rfl⟩ := found
  obtain ⟨listed, same⟩ := List.getElem?_eq_some_iff.mp at_e
  rw [List.getElem_range] at same
  subst same
  rw [List.length_range] at listed
  obtain ⟨x, read⟩ := entries e listed
  rw [read]
  rfl

theorem roles_none_of_byte (zero : m.u8 (2 * n.val) = 0) : (Layout.ofImage m).roles[n] = .none := by
  rw [roles_ofImage, zero]
  rfl

theorem planSteps_ofImage (m : Image) (p : PlanName) : (Layout.ofImage m).planSteps p = readPlan m p := by cases p <;> rfl

theorem readPlan_getElem {i : Nat} {st : PlanStep} (found : (readPlan m p)[i]? = some st) : st = readStep m p i := by
  rw [readPlan, List.getElem?_map, Option.map_eq_some_iff] at found
  obtain ⟨d, listed, rfl⟩ := found
  obtain ⟨_, same⟩ := List.getElem?_eq_some_iff.mp listed
  rw [List.getElem_range] at same
  rw [same]

/-! ### The layout in force on every block -/

section
variable {s t u w : State} {old : Layout} {g : Group} {id : Slider} {x : Motor} {j : JackId}

theorem State.restartCensus_frame : s.restartCensus = { s with
    channels := Vector.ofFn fun n => s.recensusChannel n, censusStart := s.now, ports := s.restartCensus.ports } := by
  unfold State.restartCensus
  dsimp only
  split <;> rfl

theorem State.newWind_frame : s.newWind old = { s with wind := (s.newWind old).wind } := by
  unfold State.newWind
  split
  · split
    · dsimp only
      split <;> rfl
    · rfl
  · rfl

/-- A change of a channel's census state is noticed (R5). -/
theorem State.noticed_restartCensus (changed : ∃ n, (s.recensusChannel n).census ≠ (s.chan n).census) :
    s.restartCensus.noticed .census = true := by
  obtain ⟨n, changed⟩ := changed
  unfold State.restartCensus
  dsimp only
  rw [if_pos]
  · exact State.noticed_raise _ _
  · rw [List.any_eq_true]
    refine ⟨n, mem_allChans n, ?_⟩
    rw [decide_eq_true_eq]
    have chan : ({ s with channels := Vector.ofFn fun n => s.recensusChannel n, censusStart := s.now } : State).chan n =
        s.recensusChannel n := ofFn_getElem _ n
    rw [chan]
    exact changed

/-- The record of the image is stored and its layout in force, before any block takes it up. -/
def State.withLayout (s : State) (m : Image) : State :=
  { s with layout := Layout.ofImage m, stored := .record m, write := none }

/-- What the layout of an image in force leaves on every block (R182). -/
structure LaidOut (s t : State) (m : Image) : Prop where
  layout : t.layout = Layout.ofImage m
  stored : t.stored = .record m
  write : t.write = none
  staging : t.staging = s.staging
  now : t.now = s.now
  park : t.park = s.park
  ign : t.ign = s.ign
  supply : t.supply = s.supply
  straps : t.straps = s.straps
  load : t.load = s.load
  paused : t.paused = s.paused
  claims : t.claims = s.claims
  plan : t.plan = freshPlan
  censusStart : t.censusStart = s.now
  chan : ∀ n, t.chan n = (s.withLayout m).recensusChannel n
  links : ∀ p, (t.port p).link = (s.port p).link
  changed : (∃ n, (t.chan n).census ≠ (s.chan n).census) → t.noticed .census = true
  noticed : t.noticed .layout = true
  counts : ∀ id x, (t.motor id x).count = if t.configured id.group = true ∧ s.configured id.group = true ∧
    t.motorHome id x = true then some 0 else none
  jacks : ∀ j, (t.jack j).count = if t.jackConfigured j = true ∧ s.jackConfigured j = true ∧ t.jackHome j = true
    then some 0 else none

theorem State.chan_congr (same : t.channels = s.channels) (n : Chan) : t.chan n = s.chan n := by
  rw [State.chan, same]
  rfl

theorem State.link_raise (c : Notice) (p : Port) : ((s.raise c).port p).link = (s.port p).link :=
  (Acts.raise c).links p

theorem State.link_restartCensus (p : Port) : (s.restartCensus.port p).link = (s.port p).link := by
  unfold State.restartCensus
  dsimp only
  split
  · exact State.link_raise _ p
  · rfl

theorem State.count_newSlider (known : Bool) : ((s.newSlider id known).motor x).count =
    if s.configured id.group = true ∧ known = true ∧ s.motorHome id x = true then some 0 else none := by
  unfold State.newSlider
  by_cases kept : (s.configured id.group && known) = true
  · rw [if_pos kept]
    rw [Bool.and_eq_true] at kept
    cases x <;> simp [SliderRec.motor, kept]
  · rw [if_neg kept, if_neg]
    · cases x <;> rfl
    · rintro ⟨configured, was, -⟩
      exact kept (by rw [configured, was]; rfl)

theorem State.count_newJack (known : Bool) : (s.newJack j known).count =
    if s.jackConfigured j = true ∧ known = true ∧ s.jackHome j = true then some 0 else none := by
  unfold State.newJack
  by_cases kept : (s.jackConfigured j && known) = true
  · rw [if_pos kept]
    rw [Bool.and_eq_true] at kept
    simp only [kept, true_and]
    split <;> rfl
  · rw [if_neg kept, if_neg]
    · rfl
    · rintro ⟨configured, was, -⟩
      exact kept (by rw [configured, was]; rfl)

/-- The fields that the blocks of axes, inputs and wind leave as the new layout and its census left them. -/
def State.board (s : State) : State :=
  { State.reset with
    layout := s.layout, stored := s.stored, write := s.write, staging := s.staging, now := s.now, park := s.park
    ign := s.ign, supply := s.supply, straps := s.straps, load := s.load, paused := s.paused, claims := s.claims
    censusStart := s.censusStart, channels := s.channels, ports := s.ports }

theorem State.board_newInputs : (s.newInputs old).board = s.board := rfl

theorem State.board_newAxes : (s.newAxes old).board = s.board := rfl

/-- The plan record is put back to its reset value. -/
def State.unplan (s : State) : State := { s with plan := freshPlan }

theorem State.board_unplan : s.unplan.board = s.board := rfl

theorem State.board_newWind : (s.newWind old).board = s.board := by
  rw [State.newWind_frame]
  rfl

theorem State.board_restartCensus : s.restartCensus.board = State.board { s with
    channels := Vector.ofFn fun n => s.recensusChannel n, censusStart := s.now, ports := s.restartCensus.ports } :=
  congrArg State.board State.restartCensus_frame

/-- The state in which the blocks take up a new layout: it stands with its record, and its census has begun. -/
def State.enforced (s : State) (m : Image) : State := (s.withLayout m).restartCensus

/-- The new layout on every block, before its notice. -/
def State.settled (s : State) (m : Image) : State :=
  (((s.enforced m).newInputs s.layout).newAxes s.layout).unplan.newWind s.layout

theorem State.board_settled (m : Image) : (s.settled m).board = (s.enforced m).board := by
  unfold State.settled
  rw [State.board_newWind, State.board_unplan, State.board_newAxes, State.board_newInputs]

theorem State.plan_settled (m : Image) : (s.settled m).plan = freshPlan := by
  rw [State.settled, State.newWind_frame, State.unplan]

theorem State.laidOut_settled (m : Image) : s.laidOut m = (s.settled m).raise .layout := rfl

theorem State.hasRole_layout (r : Role) : s.layout.hasRole r = (s.roleChan r).isSome := by
  rw [Bool.eq_iff_iff, Layout.hasRole, State.roleChan, List.find?_isSome, List.any_eq_true]
  rfl

theorem State.count_newAxes : ((s.newAxes u.layout).motor id x).count =
    if s.configured id.group = true ∧ u.configured id.group = true ∧ s.motorHome id x = true then some 0 else none := by
  cases id with
  | room k =>
    have room : (s.newAxes u.layout).slider (.room k) = s.newSlider (.room k) (u.layout.hasRole (.room k .a)) := ofFn_getElem _ k
    rw [State.motor, room, State.count_newSlider, State.hasRole_layout]
    rfl
  | awning =>
    have awning : (s.newAxes u.layout).slider .awning = s.newSlider .awning (u.layout.hasRole .awning) := rfl
    rw [State.motor, awning, State.count_newSlider, State.hasRole_layout]
    rfl

theorem State.jackCount_newAxes : ((s.newAxes u.layout).jack j).count =
    if s.jackConfigured j = true ∧ u.jackConfigured j = true ∧ s.jackHome j = true then some 0 else none := by
  have jack : (s.newAxes u.layout).jack j = s.newJack j (u.layout.hasRole (.jack j)) := ofFn_getElem _ j
  rw [jack, State.count_newJack, State.hasRole_layout]
  rfl

theorem State.configured_congr (layout : t.layout = s.layout) : t.configured g = s.configured g := by
  have roles (r : Role) : t.roleChan r = s.roleChan r := by simp only [State.roleChan, State.role, layout]
  cases g with
  | room k => rw [State.configured, State.configured, roles]
  | jacks => rw [State.configured, State.configured, State.jackCount, State.jackCount, State.configuredJacks_congr layout]
  | awning => rw [State.configured, State.configured, roles]

theorem State.jackConfigured_congr (layout : t.layout = s.layout) : t.jackConfigured j = s.jackConfigured j := by
  simp only [State.jackConfigured, State.roleChan, State.role, layout]

theorem State.jackHome_congr (layout : t.layout = s.layout) (lines : t.lines = s.lines) : t.jackHome j = s.jackHome j := by
  simp only [State.jackHome, State.roleChan, State.role, State.homeClosed, layout, lines]

/-- The counts under the new layout: 0 at home, and none elsewhere (R59, R92, R103, log 43). -/
theorem State.counts_settled (m : Image) : (∀ id x, ((s.settled m).motor id x).count =
    if (s.settled m).configured id.group = true ∧ s.configured id.group = true ∧ (s.settled m).motorHome id x = true
    then some 0 else none) ∧
    ∀ j, ((s.settled m).jack j).count = if (s.settled m).jackConfigured j = true ∧ s.jackConfigured j = true ∧
      (s.settled m).jackHome j = true then some 0 else none := by
  unfold State.settled
  generalize (s.enforced m).newInputs s.layout = q
  have motors (id : Slider) (x : Motor) := State.count_newAxes (s := q) (u := s) (id := id) (x := x)
  have jacks (j : JackId) := State.jackCount_newAxes (s := q) (u := s) (j := j)
  have layout : (q.newAxes s.layout).layout = q.layout := rfl
  have lines : (q.newAxes s.layout).lines = q.lines := rfl
  generalize q.newAxes s.layout = z at motors jacks layout lines
  obtain ⟨axes, legs⟩ := z.unplan.axes_newWind (old := s.layout)
  have wind := State.newWind_frame (s := z.unplan) (old := s.layout)
  generalize z.unplan.newWind s.layout = w at axes legs wind
  have layout' : w.layout = q.layout := by rw [wind, ← layout]; rfl
  have lines' : w.lines = q.lines := by rw [wind, ← lines]; rfl
  refine ⟨fun id x => ?_, fun j => ?_⟩
  · rw [axes, State.configured_congr layout', State.motorHome_congr layout' lines', ← motors id x]
    cases id <;> rfl
  · rw [legs, State.jackConfigured_congr layout', State.jackHome_congr layout' lines', ← jacks j]
    rfl

theorem State.laidOut_spec (m : Image) : LaidOut s (s.laidOut m) m := by
  have board := (State.board_settled (s := s) m).trans State.board_restartCensus
  have plan := State.plan_settled (s := s) m
  rw [State.laidOut_settled]
  have links (p : Port) : ((s.enforced m).port p).link = (s.port p).link := State.link_restartCensus p
  have changed := State.noticed_restartCensus (s := s.withLayout m)
  change _ → (s.enforced m).noticed .census = true at changed
  change _ = State.board { s.withLayout m with
    channels := _, censusStart := _, ports := (s.enforced m).ports } at board
  generalize s.enforced m = r at board links changed
  obtain ⟨counts, jacks⟩ := State.counts_settled (s := s) m
  generalize s.settled m = w at board plan counts jacks ⊢
  have raised : (w.raise .layout).layout = w.layout ∧ (w.raise .layout).lines = w.lines := ⟨rfl, rfl⟩
  simp only [State.board, State.mk.injEq, true_and] at board
  obtain ⟨now, straps, layout, staging, stored, write, channels, park, ign, censusStart, claims, supply, load, paused, ports⟩ := board
  have stands (n : Chan) : (s.withLayout m).chan n = s.chan n := rfl
  generalize recensus : (s.withLayout m).recensusChannel = next at channels changed
  dsimp only [State.withLayout] at now straps layout staging stored write park ign censusStart claims supply load paused
  have chan (n : Chan) : w.chan n = (s.withLayout m).recensusChannel n := by
    rw [State.chan, channels, recensus]
    exact ofFn_getElem _ n
  exact {
    layout := layout
    stored := stored
    write := write
    staging := staging
    now := now
    park := park
    ign := ign
    supply := supply
    straps := straps
    load := load
    paused := paused
    claims := claims
    plan := plan
    censusStart := censusStart
    chan := chan
    links := fun p => (State.link_raise _ p).trans ((by rw [State.port, ports]; rfl : (w.port p).link = (r.port p).link).trans (links p))
    changed := fun ⟨n, other⟩ => (Does.raise (F := fun _ => True) .layout).follows.noticed
      ((State.noticed_of_ports ports).trans (changed ⟨n, fun same => other (by rw [← stands n, ← same, ← recensus, ← chan n]; rfl)⟩))
    noticed := State.noticed_raise _ _
    counts := fun id x => by
      rw [State.configured_congr raised.1, State.motorHome_congr raised.1 raised.2, ← counts id x]
      cases id <;> rfl
    jacks := fun j => (jacks j).trans (by
      rw [State.jackConfigured_congr raised.1, State.jackHome_congr raised.1 raised.2]) }

/-! ### The end of the write -/

/-- Under a layout that has just come into force no awning is available to the wind watch (R3, R107). -/
theorem LaidOut.windWaits {m : Image} (a : LaidOut s t m) : t.windMayTake = false := by
  cases configured : t.configured .awning with
  | false => simp [State.windMayTake, configured]
  | true =>
    obtain ⟨n, own⟩ := Option.isSome_iff_exists.mp configured
    have role : t.role n = .awning := State.role_of_roleChan own
    have layout : (s.withLayout m).layout = t.layout := a.layout.symm
    have unavailable : t.unavailable .awning = true := by
      rw [State.unavailable, List.any_eq_true]
      refine ⟨n, by simp [State.groupChans, mem_allChans, role, Role.group], ?_⟩
      have census : (t.chan n).census = (s.withLayout m).startCensus n := by
        rw [a.chan, State.recensusChannel]
        dsimp only
        split <;> rfl
      rw [census, State.startCensus]
      split
      · rw [if_neg (by rw [State.role, layout, ← State.role, role]; simp)]
        rfl
      · rfl
    simp [State.windMayTake, unavailable]

theorem State.gustAfterWrite_eq (waits : s.windMayTake = false) :
    s.gustAfterWrite = s.setWind { s.wind with gustMissed := false } := by
  have same : (s.setWind { s.wind with gustMissed := false }).windMayTake = s.windMayTake := rfl
  unfold State.gustAfterWrite State.gustCheck
  dsimp only
  rw [same, waits]
  split <;> rfl

/-- The alarm, the wind record and the notices are no part of what a layout brings. -/
theorem LaidOut.congr {m : Image} (a : LaidOut s w m) (frame : u = { w with
    alarm := u.alarm, faultCount := u.faultCount, faultPattern := u.faultPattern, wind := u.wind, ports := u.ports })
    (links : ∀ p, (u.port p).link = (w.port p).link) (noticed : ∀ c, w.noticed c = true → u.noticed c = true) :
    LaidOut s u m where
  layout := by rw [frame]; exact a.layout
  stored := by rw [frame]; exact a.stored
  write := by rw [frame]; exact a.write
  staging := by rw [frame]; exact a.staging
  now := by rw [frame]; exact a.now
  park := by rw [frame]; exact a.park
  ign := by rw [frame]; exact a.ign
  supply := by rw [frame]; exact a.supply
  straps := by rw [frame]; exact a.straps
  load := by rw [frame]; exact a.load
  paused := by rw [frame]; exact a.paused
  claims := by rw [frame]; exact a.claims
  plan := by rw [frame]; exact a.plan
  censusStart := by rw [frame]; exact a.censusStart
  chan n := by rw [frame]; exact a.chan n
  links p := (links p).trans (a.links p)
  changed := fun ⟨n, other⟩ => noticed _ (a.changed ⟨n, by rw [frame] at other; exact other⟩)
  noticed := noticed _ a.noticed
  counts id x := by
    rw [frame]
    refine Eq.trans ?_ ((a.counts id x).trans ?_)
    · cases id <;> rfl
    · cases id <;> rfl
  jacks j := by
    rw [frame]
    exact a.jacks j

/-- A write's completion leaves the layout on every block, with the alarm evaluated. -/
theorem State.takeLayout_calm (m : Image) :
    s.takeLayout m = (s.laidOut m).evalAlarm.setWind { (s.laidOut m).evalAlarm.wind with gustMissed := false } := by
  have spec := State.laidOut_spec (s := s) m
  have same := (s.laidOut m).butAlarm_evalAlarm.1
  rw [State.takeLayout_eq]
  refine State.gustAfterWrite_eq ?_
  generalize s.laidOut m = w at spec same
  have waits := spec.windWaits
  rw [same]
  exact waits

theorem State.takeLayout_spec (m : Image) : LaidOut s (s.takeLayout m) m ∧
    (s.takeLayout m).alarmRight ∧ (s.takeLayout m).noticed .layout = true := by
  have spec := State.laidOut_spec (s := s) m
  have same := (s.laidOut m).butAlarm_evalAlarm
  have right := (s.laidOut m).alarmRight_evalAlarm
  have noticed (c : Notice) := (Does.evalAlarm (F := fun _ => True) (s := s.laidOut m)).follows.noticed (c := c)
  rw [State.takeLayout_calm]
  generalize s.laidOut m = w at spec same right noticed
  generalize w.evalAlarm = u at same right noticed
  have taken : LaidOut s (u.setWind { u.wind with gustMissed := false }) m := by
    refine spec.congr ?_ same.2 noticed
    obtain ⟨frame, -⟩ := same
    calc u.setWind _ = { u with wind := (u.setWind { u.wind with gustMissed := false }).wind } := rfl
      _ = _ := by
        rw [frame]
        rfl
  exact ⟨taken, right, taken.noticed⟩

/-- A channel at the start of the census of a new layout (R2, R3). -/
theorem State.recensusChannel_spec (n : Chan) : (s.recensusChannel n).pendingRead = none ∧
    (s.recensusChannel n).pendingAt = none ∧ (s.recensusChannel n).settledLevels = none ∧
    (s.present n = false → (s.recensusChannel n).census = .absent ∧ (s.recensusChannel n).settled = true ∧
      (s.recensusChannel n).scaled = 0) ∧
    (s.present n = true → s.role n = .none → (s.recensusChannel n).census = .unused ∧
      (s.recensusChannel n).settled = true ∧ (s.recensusChannel n).scaled = 0) ∧
    (s.present n = true → s.role n ≠ .none → (s.recensusChannel n).census = .empty ∧
      (s.recensusChannel n).settled = false ∧ (s.recensusChannel n).kindRead = .slideMotor) := by
  unfold State.recensusChannel
  dsimp only
  refine ⟨?_, ?_, ?_, fun absent => ?_, fun present role => ?_, fun present role => ?_⟩
  · split <;> rfl
  · split <;> rfl
  · split <;> rfl
  · have census : s.startCensus n = .absent := by simp [State.startCensus, absent]
    rw [census]
    exact ⟨rfl, rfl, rfl⟩
  · have census : s.startCensus n = .unused := by simp [State.startCensus, present, role]
    rw [census]
    exact ⟨rfl, rfl, rfl⟩
  · have census : s.startCensus n = .empty := by simp [State.startCensus, present, role]
    rw [census]
    exact ⟨rfl, rfl, rfl⟩

theorem Channel.reading_fields {a b : Channel} (same : a.reading = b.reading) : a.census = b.census ∧ a.settled = b.settled ∧
    a.kindRead = b.kindRead ∧ a.pendingRead = b.pendingRead ∧ a.pendingAt = b.pendingAt ∧
    a.settledLevels = b.settledLevels ∧ a.scaled = b.scaled := by
  refine ⟨?_, ?_, ?_, ?_, ?_, ?_, ?_⟩
  · have e := congrArg Channel.census same
    exact e
  · have e := congrArg Channel.settled same
    exact e
  · have e := congrArg Channel.kindRead same
    exact e
  · have e := congrArg Channel.pendingRead same
    exact e
  · have e := congrArg Channel.pendingAt same
    exact e
  · have e := congrArg Channel.settledLevels same
    exact e
  · have e := congrArg Channel.scaled same
    exact e

/-- The state that the completion of a write leaves at the end of its event. -/
theorem State.written_spec (s : State) : ∃ v, LaidOut s v s.staging ∧ v.alarmRight ∧
    (s.change fun u => u.takeLayout u.staging) = drain workBound (v, [.handover s.view]) := by
  refine ⟨s.takeLayout s.staging, (State.takeLayout_spec s.staging).1, (State.takeLayout_spec s.staging).2.1, ?_⟩
  unfold State.change State.event State.handing
  dsimp only

theorem State.role_withLayout (m : Image) (n : Chan) : (s.withLayout m).role n = (Layout.ofImage m).roles[n] := by
  dsimp only [State.role, State.withLayout]

theorem State.present_withLayout (m : Image) (n : Chan) :
    (s.withLayout m).present n = decide (n.val < variantCount s.straps.variant) := by
  dsimp only [State.present, State.withLayout]

end

end

/-- Settles O33: the layout on every block by the state of the write's completion, which what it hands over leaves, and the
items of the record at their bytes. -/
theorem storeWritePutsTheLayoutInForce : Obligations.StoreWritePutsTheLayoutInForce := by
  unfold Obligations.StoreWritePutsTheLayoutInForce
  refine ⟨fun s awake => ⟨fun none => ?_, fun writing => ?_⟩, fun m l read => ?_⟩
  · refine congrArg Host.Outcome.next ((exec_awake (f := fun t => if t.write.isSome then _ else t) awake).trans ?_)
    rw [none]
    rfl
  · have completes : exec .storeWriteComplete s = .next (s.change fun u => u.takeLayout u.staging) :=
      congrArg Host.Outcome.next ((exec_awake (f := fun t => if t.write.isSome then _ else t) awake).trans (if_pos writing))
    obtain ⟨v, spec, right, ends⟩ := s.written_spec
    have follows := (drain_does (F := fun _ => True) (n := workBound) (s := v) (l := [.handover s.view]) (.cons trivial .nil)).follows
    have rests := (drain_does (F := fun _ => True) (n := workBound) (s := v) (l := [.handover s.view]) (.cons trivial .nil)).rests
      (by rw [State.planRunning, spec.plan]; rfl)
    have idle := fun load paused => drain_rests (k := workBound) (s := v) (tasks := [.handover s.view]) load paused
      fun u mem => by
        obtain rfl := List.mem_singleton.mp mem
        trivial
    refine ⟨_, completes.trans (congrArg Host.Outcome.next ends), ?_⟩
    generalize drain workBound (v, [.handover s.view]) = t at follows rests idle
    have fixed := follows.fixed
    simp only [State.fixedPart, State.mk.injEq, true_and, and_true] at fixed
    obtain ⟨-, now, -, -, -, -, -, layout, staging, stored, write, lines, -, park, ign, -, censusStart, -, -, supply⟩ := fixed
    have reading (n : Chan) := Channel.reading_fields (follows.readings n)
    refine ⟨write.trans spec.write, layout.trans spec.layout, staging.trans spec.staging, stored.trans spec.stored,
      follows.noticed spec.noticed, rests.plan.trans spec.plan, park.trans spec.park, ign.trans spec.ign, now.trans spec.now,
      supply.trans spec.supply, censusStart.trans spec.censusStart,
      fun n => ?_, fun changed => ?_, fun id x before after => ?_, fun j before after => ?_, fun rest _ => ?_,
      fun g free _ => ?_, fun p => (follows.links p).trans (spec.links p)⟩
    · obtain ⟨census, settled, kindRead, pendingRead, pendingAt, settledLevels, scaled⟩ := reading n
      obtain ⟨noRead, notAt, unsettled, absent, unused, empty⟩ := (s.withLayout s.staging).recensusChannel_spec n
      have role : t.role n = (s.withLayout s.staging).role n := by
        rw [State.role, layout, spec.layout, State.role_withLayout]
      have present := State.present_withLayout (s := s) s.staging n
      rw [census, settled, kindRead, pendingRead, pendingAt, settledLevels, scaled, role, spec.chan]
      exact ⟨noRead, notAt, unsettled, fun out => absent (by rw [present]; exact decide_eq_false (Nat.not_lt.mpr out)),
        fun inside => unused (by rw [present]; exact decide_eq_true inside),
        fun inside => empty (by rw [present]; exact decide_eq_true inside)⟩
    · obtain ⟨n, other⟩ := changed
      exact follows.noticed (spec.changed ⟨n, by rw [← (reading n).1]; exact other⟩)
    · have home : t.motorHome id x = v.motorHome id x := State.motorHome_congr layout lines id x
      have count := spec.counts id x
      rw [← State.configured_congr layout, after, before, ← home] at count
      simp only [true_and] at count
      obtain same | ⟨closed, zero⟩ := follows.counts id x
      · rw [same, count]
      · rw [zero, if_pos (home.trans closed)]
    · rw [State.count_of_reading (follows.jackReading j), spec.jacks j, ← State.jackConfigured_congr layout, after, before,
        ← State.jackHome_congr layout lines]
      simp only [true_and]
    · have lists : s.load = [] ∧ s.paused = [] := by simpa [State.motions] using rest
      have alarm := (idle (spec.load.trans lists.1) (spec.paused.trans lists.2)).2 right
      rw [State.alarmRight, State.notStowed_iff] at alarm
      exact alarm
    · refine follows.free g ?_
      rw [State.claim, spec.claims]
      exact free
  subst read
  refine ⟨fun a => ⟨rfl, ?_⟩, fun n => ⟨roles_none_of_byte, fun k => ⟨fun code => ?_, fun code => ?_⟩, fun j code => ?_,
    fun code => ?_, fun code => ?_, ?_, ?_⟩, fun q b at_b => ?_, fun q b at_b => ?_, rfl, rfl, rfl, rfl, rfl, rfl, ?_,
    fun k r same => ?_, rfl, fun j => ?_, rfl, ?_, ?_, rfl, rfl, rfl, rfl, rfl, fun n p base => ?_⟩
  · rw [Image.u16, Nat.mul_comm]
    rfl
  · exact (roles_eq_iff (by simp)).mpr (by rw [code]; rfl)
  · exact (roles_eq_iff (by simp)).mpr (by rw [code]; rfl)
  · exact (roles_eq_iff (by simp)).mpr (by rw [code]; rfl)
  · exact (roles_eq_iff (by simp)).mpr (by rw [code]; rfl)
  · exact (roles_eq_iff (by simp)).mpr (by rw [code]; rfl)
  · simp [Layout.ofImage]
  · simp [Layout.ofImage]
  · obtain ⟨rfl, rfl⟩ | ⟨rfl, rfl⟩ | ⟨rfl, rfl⟩ := at_b <;> exact ⟨rfl, rfl, rfl, rfl, rfl⟩
  · obtain ⟨rfl, rfl⟩ | ⟨rfl, rfl⟩ | ⟨rfl, rfl⟩ := at_b <;> exact ⟨rfl, rfl, rfl, rfl, rfl, rfl⟩
  · simp [Layout.ofImage]
  · subst same
    rw [rooms_ofImage]
    have base (i : Nat) : roomBase k + i = 112 + i + 16 * k.val := by
      unfold roomBase
      omega
    refine ⟨rfl, ?_, ?_, ?_, ?_, ?_, ?_, ?_⟩ <;> simp only [readRoom, base, decide_eq_true_eq, ne_eq]
  · have base (i : Nat) : jackBase j + i = 192 + i + 16 * j.val := by
      unfold jackBase
      omega
    rw [jacks_ofImage]
    simp only [readJack, base]
    rfl
  · simp [Layout.ofImage]
  · change m.u24 433 = _
    rw [Image.u24_eq]
  · have first : p = planBase n := by
      obtain ⟨rfl, rfl⟩ | ⟨rfl, rfl⟩ := base <;> rfl
    subst first
    rw [planSteps_ofImage]
    refine ⟨by simp [readPlan, Nat.min_comm], fun i b st found at_b few entries => ?_⟩
    obtain rfl := readPlan_getElem found
    obtain rfl : b = stepBase n i := at_b
    obtain ⟨length, read⟩ := readStep_getElem few fun e listed => by
      obtain ⟨g, group, action⟩ := entries e listed
      obtain ⟨x, read⟩ := readEntry_valid group action
      exact ⟨(g, x), read⟩
    exact ⟨length, fun e g x holds => ⟨groupCode_of_readEntry (read e _ holds), action_of_readEntry (read e _ holds)⟩⟩

end Sys2Proof.Machine
end

section
/-! PROOFS. What a start of motors aims its channels at, and what shedding and an event without a running plan keep (R8, R54, R137). -/

namespace Sys2Proof.Machine

section
variable {s t u w : State} {g h : Group} {id : Slider} {m : Motor} {n : Chan} {d : Dir} {e x y : Entry} {c : Claim} {k : Nat}
  {l : List Task} {task : Task} {o : Owner} {mo : Mode} {a : Action} {P : State → Prop}

/-! ### The directions that the starts of a slider's motors drive in -/

/-- From one state to the other a channel is driven as it was, or in the direction named, and no outcome on record of a room
or the awning has changed. -/
structure Aims (d : Dir) (s t : State) : Prop where
  driven : ∀ n, (t.chan n).driven = true →
    ((s.chan n).driven = true ∧ (t.chan n).dir = (s.chan n).dir) ∨ (t.chan n).dir = d
  outcome : ∀ id, (t.slider id).lastOutcome = (s.slider id).lastOutcome

theorem Aims.of_chans (chan : ∀ n, (t.chan n).driven = (s.chan n).driven ∧ (t.chan n).dir = (s.chan n).dir)
    (outcome : ∀ id, (t.slider id).lastOutcome = (s.slider id).lastOutcome) : Aims d s t :=
  ⟨fun n driven => .inl ⟨(chan n).1 ▸ driven, (chan n).2⟩, outcome⟩

theorem Aims.refl (d : Dir) (s : State) : Aims d s s := .of_chans (fun _ => ⟨rfl, rfl⟩) fun _ => rfl

theorem Aims.trans (a : Aims d s t) (b : Aims d t u) : Aims d s u := by
  refine ⟨fun n driven => ?_, fun id => (b.outcome id).trans (a.outcome id)⟩
  obtain ⟨before, same⟩ | aimed := b.driven n driven
  · obtain ⟨first, dir⟩ | aimed := a.driven n before
    · exact .inl ⟨first, same.trans dir⟩
    · exact .inr (same.trans aimed)
  · exact .inr aimed

theorem Aims.forEach {α : Type} {l : List α} {f : α → State → State} (step : ∀ a t, Aims d t (f a t)) (s : State) :
    Aims d s (forEach l f s) := by
  induction l generalizing s with
  | nil => exact .refl d s
  | cons a rest ih => exact (step a s).trans (ih (f a s))

theorem Aims.setChan {r : Channel}
    (driven : r.driven = true → ((s.chan n).driven = true ∧ r.dir = (s.chan n).dir) ∨ r.dir = d) : Aims d s (s.setChan n r) := by
  refine ⟨fun i on => ?_, fun id => by cases id <;> rfl⟩
  rw [State.chan_setChan] at on ⊢
  split at on
  · rename_i same
    rw [if_pos same, ← same]
    exact driven on
  · rename_i other
    rw [if_neg other]
    exact .inl ⟨on, rfl⟩

theorem Aims.stopChan : Aims d s (s.stopChan n) := by
  rw [State.stopChan_eq]
  refine .setChan fun on => ?_
  rw [Channel.driven_stopped] at on
  cases on

theorem Aims.setMotor {r : MotorRec} : Aims d s (s.setMotor id m r) := by
  refine .of_chans (fun n => by rw [State.chan_setMotor]; exact ⟨rfl, rfl⟩) fun i => ?_
  rw [State.slider_setMotor]
  split
  · rename_i same
    subst same
    cases m <;> rfl
  · rfl

theorem Aims.setSlider {r : SliderRec} (outcome : r.lastOutcome = (s.slider id).lastOutcome) : Aims d s (s.setSlider id r) := by
  refine .of_chans (fun n => by rw [State.chan_setSlider]; exact ⟨rfl, rfl⟩) fun i => ?_
  rw [State.slider_setSlider]
  split
  · rename_i same
    subst same
    exact outcome
  · rfl

theorem Aims.retrim : Aims d s (s.retrim id) := by
  have trims := State.retrim_retrimmed (s := s) (id := id)
  exact .of_chans (fun n => by rw [trims.chan]; exact ⟨rfl, rfl⟩) fun i => by rw [trims.slider]

theorem Aims.driveStart : Aims d s (s.driveStart n d) := by
  refine ⟨fun i on => ?_, fun id => ?_⟩
  · rw [State.chan_driveStart] at on ⊢
    split
    · exact .inr rfl
    · rename_i other
      rw [if_neg other] at on
      exact .inl ⟨on, rfl⟩
  · unfold State.driveStart State.mirrorTally
    dsimp only
    have same (v : State) (slider : ∀ i, v.slider i = s.slider i) (j : Slider) (q : Motor) (r : MotorRec) :
        ((v.setMotor j q r).slider id).lastOutcome = (s.slider id).lastOutcome := by
      rw [(Aims.setMotor (d := d) (s := v) (id := j) (m := q) (r := r)).outcome id, slider]
    split <;> split <;> first | exact same _ (fun i => by cases i <;> rfl) _ _ _ | (cases id <;> rfl)

theorem Aims.startChan : Aims d s (s.startChan n d).1 := by
  have held (v : State) : Aims d v (v.startHeld n d).1 := by
    unfold State.startHeld
    split
    · exact .setChan fun _ => .inr rfl
    · exact .driveStart
  unfold State.startChan
  split
  · split
    · exact held s
    · exact held s
    · split
      · exact .refl d s
      · exact Aims.stopChan.trans (held _)
    · split
      · exact .refl d s
      · exact Aims.stopChan.trans (held _)
    · split
      · exact .refl d s
      · exact .driveStart
  · exact .refl d s

theorem Aims.stopMotor : Aims d s (s.stopMotor id m) := by
  unfold State.stopMotor
  split
  · exact .stopChan
  · exact .refl d s

theorem Aims.zeroMotor : Aims d s (s.zeroMotor id m) := by
  unfold State.zeroMotor
  split
  · exact .setMotor
  · exact .refl d s

theorem Aims.beginSeat : Aims d s (s.beginSeat id m).1 := by
  unfold State.beginSeat
  dsimp only
  split
  · exact Aims.setMotor.trans (Aims.stopMotor.trans (Aims.setMotor.trans .retrim))
  · exact Aims.setMotor.trans .retrim

theorem Aims.rackCheck {v : Work} (b : Aims d s v.1) : Aims d s (s.rackCheck id v).1 := by
  unfold State.rackCheck
  split
  · exact .refl d s
  · exact b

theorem Aims.motorStarted : Aims d s (s.motorStarted id m).1 := by
  unfold State.motorStarted
  split
  · exact .refl d s
  · refine .rackCheck ?_
    split
    · split <;> exact .refl d s
    · split
      · exact Aims.zeroMotor.trans (Aims.rackCheck .beginSeat)
      · exact .refl d s

theorem Aims.startMotor : Aims d s (s.startMotor id m d).1 := by
  unfold State.startMotor
  split
  · dsimp only
    split
    · exact Aims.startChan.trans .motorStarted
    · exact .startChan
  · exact .refl d s

theorem Aims.startMotors : Aims d s (s.startMotors id d).1 := by
  have fold (l : List Motor) (v : Work) (b : Aims d s v.1) :
      Aims d s (l.foldl (fun (v : Work) m =>
        if v.2.isEmpty && (v.1.motor id m).phase == .travel then v.1.startMotor id m d else v) v).1 := by
    induction l generalizing v with
    | nil => exact b
    | cons m rest ih =>
      refine ih _ ?_
      beta_reduce
      split
      · exact b.trans .startMotor
      · exact b
  exact (fold _ (s, []) (.refl d s)).trans .retrim

/-- A motion of a room or the awning that is admitted drives in its own direction alone. -/
theorem Aims.slideAdmit {run : Bool} : Aims d s (s.slideAdmit id d run).1 := by
  have first : Aims d s
      (((s.setSlider id { s.slider id with runTime := 0 }).setPhases id (s.firstPhase id d)).zeroFinished id d) := by
    have set : Aims d s (s.setSlider id { s.slider id with runTime := 0 }) := .setSlider rfl
    have phases (v : State) (f : Motor → MotorPhase) : Aims d v (v.setPhases id f) := .forEach (fun _ _ => .setMotor) v
    refine (set.trans (phases _ (s.firstPhase id d))).trans ?_
    cases d with
    | outward => exact .refl _ _
    | stowing => exact .forEach (fun _ _ => .zeroMotor) _
  unfold State.slideAdmit
  dsimp only
  generalize ((s.setSlider id { s.slider id with runTime := 0 }).setPhases id (s.firstPhase id d)).zeroFinished id d = v at first ⊢
  split
  · exact first
  · have moving : Aims d s (v.setSlider id { v.slider id with state := movingState d }) := first.trans (.setSlider rfl)
    split
    · exact moving.trans .startMotors
    · exact moving

/-- A motion that resumes drives in the direction of its entry. -/
theorem Aims.slideResume (dir : ∀ e ∈ s.motions, e.group = id.group → e.action.dir = d) : Aims d s (s.slideResume id).1 := by
  unfold State.slideResume
  split
  · rename_i b found
    obtain ⟨x, entry, rfl⟩ := Option.map_eq_some_iff.mp found
    obtain ⟨mem, own⟩ := State.entryOf_motion entry
    rw [show x.action.dir = d from dir x.motion mem own]
    exact .startMotors
  · exact .refl d s

/-! ### Shedding keeps what the desk holds -/

theorem State.stopped_desk (e : Entry) :
    Desk s ((forEach (s.motionChans e) (fun n t => t.stopChan n) s).controllerShed e.group) := by
  have stops (l : List Chan) (v : State) : Desk v (forEach l (fun n t => t.stopChan n) v) := by
    induction l generalizing v with
    | nil => exact .refl v
    | cons n rest ih =>
      refine Desk.trans ?_ (ih (v.stopChan n))
      rw [State.stopChan_eq]
      exact .of_fields rfl rfl rfl rfl rfl rfl rfl
  refine (stops (s.motionChans e) s).trans ?_
  generalize forEach (s.motionChans e) (fun n t => t.stopChan n) s = v
  unfold State.controllerShed
  split
  · rename_i id _
    exact .of_controls (State.slideShed_controls (id := id))
  · exact .refl v

theorem mem_motions_shed (mem : e ∈ s.load) : y ∈ (s.shed e).motions ↔ y ∈ s.motions := by
  obtain ⟨load, paused⟩ := s.lists_stopped e
  unfold State.shed
  dsimp only
  generalize (forEach (s.motionChans e) (fun n t => t.stopChan n) s).controllerShed e.group = v at load paused ⊢
  simp only [State.enterPause, State.setLoad, mem_motions, List.mem_append, mem_insertByOrder, load, paused, List.mem_filter]
  constructor
  · rintro ⟨x, (⟨hx, -⟩ | rfl | hx), rfl⟩
    · exact ⟨x, .inl hx, rfl⟩
    · exact ⟨e, .inl mem, rfl⟩
    · exact ⟨x, .inr hx, rfl⟩
  · rintro ⟨x, hx | hx, rfl⟩
    · by_cases same : x = e
      · exact ⟨_, .inr (.inl rfl), by rw [same]; rfl⟩
      · exact ⟨x, .inl ⟨hx, by simpa using same⟩, rfl⟩
    · exact ⟨x, .inr (.inr hx), rfl⟩

theorem Desk.shed (mem : e ∈ s.load) : Desk s (s.shed e) := by
  have stopped := State.stopped_desk (s := s) e
  refine ⟨fun y => mem_motions_shed mem, ?_, ?_, ?_, ?_, ?_⟩
  all_goals
    unfold State.shed
    dsimp only [State.enterPause, State.setLoad]
  · exact stopped.claims
  · exact stopped.plan
  · exact stopped.layout
  · exact stopped.noticed
  · exact stopped.orders

theorem Aims.shed : Aims d s (s.shed e) := by
  have stops : Aims d s (Machine.forEach (s.motionChans e) (fun n t => t.stopChan n) s) := .forEach (fun _ _ => .stopChan) s
  have shed (v : State) : Aims d v (v.controllerShed e.group) := by
    unfold State.controllerShed
    split
    · refine .forEach (fun m t => ?_) v
      split
      · exact .setMotor
      · exact .refl d t
    · exact .refl d v
  refine (stops.trans (shed _)).trans (.of_chans (fun _ => ⟨rfl, rfl⟩) fun id => ?_)
  cases id <;> rfl

/-- Shedding to a limit moves entries from the load list to the pause list, and that is all that the desk sees of it. -/
theorem State.shedTo_desk {limit : Nat} : Desk s (s.shedTo limit) ∧ Aims d s (s.shedTo limit) := by
  have down (fuel : Nat) (v : State) : Desk v (State.shedDown fuel limit v) ∧ Aims d v (State.shedDown fuel limit v) := by
    induction fuel generalizing v with
    | zero => exact ⟨.refl v, .refl d v⟩
    | succ fuel ih =>
      unfold State.shedDown
      split
      · exact ⟨.refl v, .refl d v⟩
      · split
        · rename_i e next
          obtain ⟨desk, aims⟩ := ih (v.shed e)
          exact ⟨(Desk.shed (shedNext_mem next)).trans desk, Aims.shed.trans aims⟩
        · exact ⟨.refl v, .refl d v⟩
  exact down _ s

/-! ### An event while no plan runs -/

/-- The work that is not the sequencer's own, and ends no motion but by its claim's rule. -/
def Task.planless : Task → Prop
  | .beginStep | .place _ | .endPlan => False
  | .endMotion _ z => z.claim = .byRule
  | _ => True

theorem EndsOnly.planless (own : EndsOnly g l) : ∀ u ∈ l, u.planless := fun u mem => by
  obtain ⟨z, rfl, rule⟩ := own u mem
  exact rule

/-- While no plan runs, work that is not the sequencer's leaves no work of the sequencer's. -/
theorem State.runTask_planless (silent : s.planRunning = false) (own : task.planless) :
    (s.runTask task).1.planRunning = false ∧ ∀ u ∈ (s.runTask task).2, u.planless := by
  have none (u : Task) (mem : u ∈ ([] : List Task)) : u.planless := absurd mem (by simp)
  cases task with
  | endMotion h z =>
    refine ⟨(by rw [State.planRunning, State.runTask, State.plan_motionEnd]; exact silent), ?_⟩
    rw [State.runTask]
    unfold State.motionEnd
    split
    · exact none
    · intro u mem
      simp only [List.mem_cons, List.mem_append] at mem
      rcases mem with rfl | mem | mem
      · trivial
      · split at mem
        · obtain rfl := List.mem_singleton.mp mem
          trivial
        · simp at mem
      · split at mem
        · obtain rfl := List.mem_singleton.mp mem
          trivial
        · simp at mem
  | handover v =>
    change (s.handOver v).1.planRunning = false ∧ ∀ u ∈ (s.handOver v).2, u.planless
    unfold State.handOver
    split
    · exact ⟨silent, none⟩
    · refine ⟨(by rw [State.planRunning, Desk.evalAlarm.plan]; exact silent), fun u mem => ?_⟩
      obtain rfl := List.mem_singleton.mp mem
      trivial
  | permits =>
    change s.checkPermits.1.planRunning = false ∧ ∀ u ∈ s.checkPermits.2, u.planless
    unfold State.checkPermits
    split
    · refine ⟨silent, fun u mem => ?_⟩
      simp only [List.mem_cons, List.not_mem_nil, or_false] at mem
      obtain rfl | rfl := mem
      · rfl
      · trivial
    · exact ⟨silent, none⟩
  | scan =>
    refine ⟨(by rw [State.planRunning, State.runTask, Desk.scan.plan]; exact silent), fun u mem => ?_⟩
    obtain ⟨y, -, rfl⟩ := List.mem_map.mp mem
    trivial
  | resume h order first =>
    obtain ⟨desk, work⟩ := State.resumeEntry_desk (s := s) (g := h) (order := order) (first := first)
    refine ⟨(by rw [State.planRunning, State.runTask, desk.plan]; exact silent), fun u mem => ?_⟩
    obtain none | ⟨l, work, own⟩ := work
    · exact absurd (none ▸ mem) (by simp)
    · rw [State.runTask, work] at mem
      obtain rfl | mem := List.mem_cons.mp mem
      · trivial
      · exact own.planless u mem
  | planTakes h b z f =>
    change (s.planTakes h b z f).1.planRunning = false ∧ ∀ u ∈ (s.planTakes h b z f).2, u.planless
    unfold State.planTakes
    rw [if_pos (.inl silent)]
    exact ⟨silent, none⟩
  | beginStep => exact own.elim
  | place _ => exact own.elim
  | endPlan => exact own.elim

/-- What each piece of work keeps while no plan runs stands to the end of the event. -/
theorem drain_planless
    (step : ∀ (s : State) (task : Task), P s → s.planRunning = false → task.planless → P (s.runTask task).1)
    (held : P s) (silent : s.planRunning = false) (own : ∀ u ∈ l, u.planless) :
    P (drain k (s, l)) ∧ (drain k (s, l)).planRunning = false := by
  induction k generalizing s l with
  | zero => exact ⟨held, silent⟩
  | succ k ih =>
    cases l with
    | nil => exact ⟨held, silent⟩
    | cons task rest =>
      have first := own task List.mem_cons_self
      obtain ⟨silent', own'⟩ := State.runTask_planless silent first
      refine ih (step s task held silent first) silent' fun u mem => ?_
      rcases List.mem_append.mp mem with mem | mem
      · exact own' u mem
      · exact own u (List.mem_cons_of_mem _ mem)

/-- A motion stands with its claim through a piece of work that is not the sequencer's, or its own ending is taken. -/
theorem Held.runTask (held : Held e c s) (silent : s.planRunning = false) (own : task.planless) : Held e c (s.runTask task).1 := by
  cases task with
  | endMotion h z => exact held.motionEnd fun _ => own
  | handover v =>
    change Held e c (s.handOver v).1
    unfold State.handOver
    split
    · exact held
    · exact held.desk .evalAlarm
  | permits => exact (State.checkPermits_fst (s := s)).symm ▸ held
  | scan => exact held.desk .scan
  | resume h order first => exact held.desk State.resumeEntry_desk.1
  | planTakes h b z f =>
    change Held e c (s.planTakes h b z f).1
    unfold State.planTakes
    rw [if_pos (.inl silent)]
    exact held
  | beginStep => exact own.elim
  | place _ => exact own.elim
  | endPlan => exact own.elim

theorem drain_held (held : Held e c s) (silent : s.planRunning = false) (own : ∀ u ∈ l, u.planless) :
    Held e c (drain k (s, l)) :=
  (drain_planless (fun _ _ a b c => a.runTask b c) held silent own).1

end

end Sys2Proof.Machine
end

section
/-! PROOFS. The wind watch at an entry into GUSTY: what it ends, the claim it takes and the retract it places (R107, R120, R139,
R157). -/

namespace Sys2Proof.Machine

section
variable {s t u w : State} {g h : Group} {id : Slider} {m : Motor} {n : Chan} {d : Dir} {e x y : Entry} {c : Claim} {k : Nat}
  {l : List Task} {task : Task} {o : MotionOutcome} {z : Ending} {P : State → Prop}

/-! ### The awning on its way in, or at rest -/

/-- An ending reaches no channel of another group. -/
theorem State.chan_motionEnd_other (other : (s.role n).group ≠ some h) : (s.motionEnd h z).1.chan n = s.chan n := by
  cases found : s.entryOf h with
  | none => rw [State.motionEnd, found]
  | some x =>
    have frame := State.motionEnd_frame (e := z) found
    have part := (State.controllerEnd_controls (s := s) (g := h) (a := x.action) (e := z)).chans n other
    generalize (s.motionEnd h z).1 = w at frame ⊢
    rw [frame]
    exact part

/-- An ending of another group leaves the axis record. -/
theorem State.axis_motionEnd_other (other : g ≠ h) : axisSame s (s.motionEnd h z).1 g := by
  cases found : s.entryOf h with
  | none =>
    rw [State.motionEnd, found]
    exact axisSame_refl s g
  | some x =>
    have frame := State.motionEnd_frame (e := z) found
    have part := (State.controllerEnd_controls (s := s) (g := h) (a := x.action) (e := z)).axes g other
    generalize (s.motionEnd h z).1 = w at frame ⊢
    rw [frame]
    cases g <;> exact part

theorem State.motorChan_motionEnd : (s.motionEnd h z).1.motorChan id m = s.motorChan id m :=
  State.motorChan_layout (State.motionEnd_does (F := fun _ => True) fun _ => trivial).follows.layout id m

/-- The awning's motor is not driven out, no motion of it goes out, and while a motion of it is left its record shows the
outcome of the one before. -/
structure Retracting (o : MotionOutcome) (s : State) : Prop where
  drives : ∀ n, s.motorChan .awning .a = some n → (s.chan n).driven = true → (s.chan n).dir = .stowing
  moves : ∀ y ∈ s.motions, y.group = .awning → y.action.dir = .stowing
  outcome : s.still .awning ∨ s.awning.lastOutcome = some o

theorem Retracting.aims (a : Retracting o s) (layout : t.layout = s.layout) (aims : Aims .stowing s t)
    (motions : ∀ y, y ∈ t.motions ↔ y ∈ s.motions) : Retracting o t where
  drives n own driven := by
    obtain ⟨before, same⟩ | aimed := aims.driven n driven
    · rw [same]
      exact a.drives n (State.motorChan_layout layout .awning .a ▸ own) before
    · exact aimed
  moves y mem := a.moves y ((motions y).mp mem)
  outcome := a.outcome.imp (fun still y mem => still y ((motions y).mp mem)) fun last => (aims.outcome .awning).trans last

/-- Work of another group leaves the awning. -/
theorem Retracting.other (a : Retracting o s) (layout : t.layout = s.layout)
    (chan : ∀ n, s.motorChan .awning .a = some n → t.chan n = s.chan n) (axis : t.awning = s.awning)
    (motions : ∀ y ∈ t.motions, y ∈ s.motions) : Retracting o t where
  drives n own := by
    have own' : s.motorChan .awning .a = some n := State.motorChan_layout layout .awning .a ▸ own
    rw [chan n own']
    exact a.drives n own'
  moves y mem := a.moves y (motions y mem)
  outcome := a.outcome.imp (fun still y mem => still y (motions y mem)) fun last => axis ▸ last

theorem awning_group (own : s.motorChan .awning .a = some n) : (s.role n).group = some .awning :=
  State.group_motorChan (id := .awning) own

theorem Retracting.motionEnd (a : Retracting o s) : Retracting o (s.motionEnd h z).1 := by
  have layout := (State.motionEnd_does (F := fun _ => True) (s := s) (g := h) (e := z) fun _ => trivial).follows.layout
  have motions (y : Entry) (mem : y ∈ (s.motionEnd h z).1.motions) : y ∈ s.motions := (mem_motions_motionEnd.mp mem).1
  by_cases own : h = .awning
  · subst own
    refine ⟨fun n chan driven => ?_, fun y mem => a.moves y (motions y mem), .inl fun y mem => (mem_motions_motionEnd.mp mem).2⟩
    rw [State.motorChan_motionEnd] at chan
    cases found : s.entryOf .awning with
    | none =>
      rw [State.motionEnd, found] at driven ⊢
      exact a.drives n chan driven
    | some x =>
      have stopped := State.chan_motionEnd_slide (id := .awning) (e := z) (n := n) found
      have mem : n ∈ s.slideChans .awning :=
        State.mem_slideChans.mpr ⟨.a, by unfold State.motors; split <;> simp, chan⟩
      rw [if_pos mem] at stopped
      have off := congrArg Channel.driven stopped
      rw [Channel.driven_stopped] at off
      exact absurd (driven.symm.trans off) (by simp)
  · exact a.other layout (fun n chan => State.chan_motionEnd_other (by rw [awning_group chan]; simpa using Ne.symm own))
      (State.axis_motionEnd_other (g := .awning) (Ne.symm own)) motions

/-- While no plan runs the awning stays on its way in, or comes to rest. -/
theorem Retracting.runTask (a : Retracting o s) (silent : s.planRunning = false) (own : task.planless) :
    Retracting o (s.runTask task).1 := by
  cases task with
  | endMotion h z => exact a.motionEnd
  | handover v =>
    change Retracting o (s.handOver v).1
    unfold State.handOver
    split
    · exact a
    · have same := s.butAlarm_evalAlarm.1
      have desk := Desk.evalAlarm (s := s)
      generalize s.evalAlarm = w at same desk
      refine a.aims desk.layout (.of_chans (fun n => ?_) fun id => ?_) desk.motions
      · rw [same]
        exact ⟨rfl, rfl⟩
      · rw [same]
        cases id <;> rfl
  | permits => exact (State.checkPermits_fst (s := s)).symm ▸ a
  | scan =>
    have same := s.scan_frame
    have desk := Desk.scan (s := s)
    change Retracting o s.scan.1
    generalize s.scan.1 = w at same desk
    refine a.aims desk.layout (.of_chans (fun n => ?_) fun id => ?_) desk.motions
    · rw [same]
      exact ⟨rfl, rfl⟩
    · rw [same]
      cases id <;> rfl
  | resume h order first =>
    have desk := (State.resumeEntry_desk (s := s) (g := h) (order := order) (first := first)).1
    have other (part : Controls h s (s.resumeEntry h order first).1) (apart : h ≠ .awning) :
        Retracting o (s.resumeEntry h order first).1 :=
      a.other desk.layout (fun n chan => part.chans n (by rw [awning_group chan]; simpa using apart.symm))
        (part.axes .awning apart.symm) fun y => (desk.motions y).mp
    change Retracting o (s.resumeEntry h order first).1
    unfold State.resumeEntry at desk other ⊢
    split at desk
    · rename_i moved
      rw [if_pos moved] at other ⊢
      cases h with
      | room q => exact other (State.slideResume_controls (id := .room q)) (by simp)
      | jacks => exact other State.jackResume_controls (by simp)
      | awning => exact a.aims desk.layout (Aims.slideResume (id := .awning) a.moves) desk.motions
    · rename_i stays
      rw [if_neg stays]
      exact a
  | planTakes h b z f =>
    change Retracting o (s.planTakes h b z f).1
    unfold State.planTakes
    rw [if_pos (.inl silent)]
    exact a
  | beginStep => exact own.elim
  | place _ => exact own.elim
  | endPlan => exact own.elim

theorem drain_retracting (a : Retracting o s) (silent : s.planRunning = false) (own : ∀ u ∈ l, u.planless) :
    Retracting o (drain k (s, l)) :=
  (drain_planless (fun _ _ a b c => a.runTask b c) a silent own).1

/-! ### The retract that the wind watch places -/

/-- The entry of the wind retract with an admission order (R107, R136). -/
def State.windEntry (s : State) (order : Nat) : Entry :=
  { group := .awning, owner := .wind, mode := .auto, action := .toward .stowing
    units := s.motionUnits .awning (.toward .stowing), order := order, state := .running, pausedSince := none }

theorem State.motionUnits_layout {a : Action} (layout : t.layout = s.layout) : t.motionUnits g a = s.motionUnits g a := by
  have role (n : Chan) : t.role n = s.role n := by rw [State.role, State.role, layout]
  simp only [State.motionUnits, State.motionChans, State.groupChans, role]

/-- The claim of the wind watch is made, room is made by shedding, and the retract is placed; the states are then handed over,
first those that the retract changes and then the event's own. -/
structure WindPlaced (y v t : State) : Prop where
  desk : Desk (y.setClaim .awning (some windClaim)) v
  fixed : v.fixedPart = y.fixedPart
  aims : Aims .stowing (y.setClaim .awning (some windClaim)) v
  follows : Follows (fun _ => True) (v.placeAndStart .awning .wind .auto (.toward .stowing)).1 t
  rests : (v.placeAndStart .awning .wind .auto (.toward .stowing)).1.planRunning = false →
    Rests (v.placeAndStart .awning .wind .auto (.toward .stowing)).1 t
  ran : ∃ i j old new, t = drain j (drain i ((v.placeAndStart .awning .wind .auto (.toward .stowing)).1,
    (v.placeAndStart .awning .wind .auto (.toward .stowing)).2 ++ [.handover old]), [.handover new])

theorem Desk.raise (f : Notice) : Desk s (s.raise f) where
  motions _ := .rfl
  claims := rfl
  plan := rfl
  layout := rfl
  noticed _ past := (Does.raise (F := fun _ => True) (s := s) f).follows.noticed past
  orders := rfl

theorem State.placeWind_from : ∃ v : State, Desk s v ∧ v.fixedPart = s.fixedPart ∧ Aims .stowing s v ∧
    s.placeWind = v.placeAndStart .awning .wind .auto (.toward .stowing) := by
  unfold State.placeWind
  dsimp only
  split
  · exact ⟨s, .refl s, rfl, .refl _ s, rfl⟩
  · obtain ⟨desk, aims⟩ := State.shedTo_desk (d := .stowing) (s := s)
      (limit := s.budget - s.motionUnits .awning (.toward .stowing))
    exact ⟨_, desk.trans (.raise .supply),
      (State.shedTo_acts (s := s) (limit := s.budget - s.motionUnits .awning (.toward .stowing))).fixed, aims.trans (.of_chans (fun _ => ⟨rfl, rfl⟩) fun id => by cases id <;> rfl), rfl⟩

theorem State.windRetract_placed {i : Nat} {old : View} :
    ∃ v, WindPlaced s v (drain i (s.windRetract, [.handover old])) := by
  obtain ⟨v, desk, fixed, aims, placed⟩ := State.placeWind_from (s := s.setClaim .awning (some windClaim))
  have plain : Plain ((v.placeAndStart .awning .wind .auto (.toward .stowing)).2 ++ [.handover s.view]) :=
    .append (fun u mem => State.admit_plain (s := v) u (List.mem_append_left _ mem)) (.cons trivial .nil)
  have retract : s.windRetract = drain workBound ((v.placeAndStart .awning .wind .auto (.toward .stowing)).1,
      (v.placeAndStart .awning .wind .auto (.toward .stowing)).2 ++ [.handover s.view]) := by
    unfold State.windRetract
    rw [placed]
  have does := (drain_does (F := fun _ => True) (n := workBound)
    (s := (v.placeAndStart .awning .wind .auto (.toward .stowing)).1) plain).trans
    (drain_does (F := fun _ => True) (n := i) (l := [.handover old]) (.cons trivial .nil))
  refine ⟨v, desk, fixed, aims, ?_, ?_, workBound, i, s.view, old, by rw [retract]⟩
  · rw [retract]
    exact does.follows
  · rw [retract]
    exact does.rests

namespace WindPlaced

variable {q v t : State} (p : WindPlaced q v t)
include p

theorem layout : v.layout = q.layout := p.desk.layout

theorem fixedPart : t.fixedPart = q.fixedPart :=
  p.follows.fixed.trans ((State.admit_follows (F := fun _ => True) (s := v) (g := .awning) (o := .wind) (m := .auto)
    (a := .toward .stowing)).fixed.trans p.fixed)

/-- The wind's claim stands or is freed, and no other comes (R120). -/
theorem claimed : ∀ b, t.claim .awning = some b → b.owner = .wind := by
  intro b held
  obtain ⟨x, now, owner, -⟩ := p.follows.claimed _ _ held
  have claims := (State.claims_admitMotion (s := v) (h := .awning) (o := .wind) (m := .auto) (a := .toward .stowing)).trans
    p.desk.claims
  have stood : x = windClaim := by
    have read := congrArg (fun table : Vector (Option Claim) 6 => table[groupIndex .awning]) claims
    have wind : (q.setClaim .awning (some windClaim)).claim .awning = some windClaim := by rw [State.claim_setClaim, if_pos rfl]
    exact Option.some.inj (now.symm.trans (read.trans wind))
  rw [owner, stood]
  rfl

/-- The motions of the event's end are those from before, or admitted later. -/
theorem entries (mem : e ∈ t.motions) : q.nextOrder ≤ e.order ∨ e ∈ q.motions := by
  have orders : v.nextOrder = q.nextOrder := p.desk.orders
  obtain later | before := p.follows.entries e mem
  · refine .inl (Nat.le_trans ?_ later)
    rw [← orders]
    exact (State.admit_follows (F := fun _ => True) (s := v) (g := .awning) (o := .wind) (m := .auto) (a := .toward .stowing)).orders
  · obtain held | rfl := State.mem_motions_admitMotion.mp before
    · exact .inr ((p.desk.motions e).mp held)
    · exact .inl (Nat.le_of_eq orders.symm)

theorem noticed {f : Notice} (past : q.noticed f = true) : t.noticed f = true :=
  p.follows.noticed ((State.admit_follows (F := fun _ => True) (s := v) (g := .awning) (o := .wind) (m := .auto)
    (a := .toward .stowing)).noticed (p.desk.noticed f past))

theorem plan (silent : q.planRunning = false) : t.plan = q.plan := by
  have same : (v.placeAndStart .awning .wind .auto (.toward .stowing)).1.plan = q.plan :=
    (State.plan_admitMotion (s := v) (g := .awning) (o := .wind) (m := .auto) (a := .toward .stowing)).trans p.desk.plan
  exact (p.rests (by rw [State.planRunning, same]; exact silent)).plan.trans same

/-- A claim of another group that is free stays so. -/
theorem free (other : g ≠ .awning) (unclaimed : q.claim g = none) : t.claim g = none := by
  refine p.follows.free g ?_
  have claims := (State.claims_admitMotion (s := v) (h := .awning) (o := .wind) (m := .auto) (a := .toward .stowing)).trans
    p.desk.claims
  have read := congrArg (fun table : Vector (Option Claim) 6 => table[groupIndex g]) claims
  exact read.trans ((State.claim_setClaim (s := q) .awning g (some windClaim)).trans ((if_neg other.symm).trans unclaimed))

/-- The retract's entry is admitted next. -/
theorem entry : v.windEntry v.nextOrder = q.windEntry q.nextOrder := by
  have orders : v.nextOrder = q.nextOrder := p.desk.orders
  rw [State.windEntry, State.motionUnits_layout p.layout, orders]
  rfl

/-- Where no plan reaches the awning the retract stands with its claim, or is over. -/
theorem kept (still : q.still .awning) (free : q.unplanned .awning) : Held (q.windEntry q.nextOrder) windClaim t := by
  have still' : v.still .awning := fun y mem => still y ((p.desk.motions y).mp mem)
  have claim : v.claim .awning = some windClaim := by
    rw [State.claim, p.desk.claims]
    exact (State.claim_setClaim (s := q) .awning .awning (some windClaim)).trans (if_pos rfl)
  obtain ⟨held, apart, leaves⟩ := State.placeAndStart_kept (o := .wind) (m := .auto) (a := .toward .stowing) still'
    (State.unplanned_congr p.desk.plan p.desk.layout free) claim (by simp) (v.windEntry v.nextOrder) rfl
  rw [p.entry] at held
  obtain ⟨i, j, old, new, ran⟩ := p.ran
  obtain ⟨first, apart⟩ := drain_kept (k := i) (l := _ ++ [.handover old]) held apart (fun u mem => by
    rcases List.mem_append.mp mem with mem | mem
    · exact leaves u mem
    · obtain rfl := List.mem_singleton.mp mem
      trivial) (by simp [windClaim])
  rw [ran]
  exact (drain_kept first apart (fun u mem => by
    obtain rfl := List.mem_singleton.mp mem
    trivial) (by simp [windClaim])).1

/-- What stands as the retract is placed, and through every piece of work while no plan runs, stands at the event's end. -/
theorem silent_drains (silent : q.planRunning = false)
    (placed : P (v.placeAndStart .awning .wind .auto (.toward .stowing)).1)
    (step : ∀ (s : State) (task : Task), P s → s.planRunning = false → task.planless → P (s.runTask task).1) : P t := by
  have same : (v.placeAndStart .awning .wind .auto (.toward .stowing)).1.plan = q.plan :=
    (State.plan_admitMotion (s := v) (g := .awning) (o := .wind) (m := .auto) (a := .toward .stowing)).trans p.desk.plan
  have own : ∀ u ∈ (v.placeAndStart .awning .wind .auto (.toward .stowing)).2, u.planless :=
    EndsOnly.planless State.controllerAdmit_own
  obtain ⟨i, j, old, new, ran⟩ := p.ran
  obtain ⟨first, still⟩ := drain_planless (k := i) (l := _ ++ [.handover old]) step placed
    (by rw [State.planRunning, same]; exact silent) (fun u mem => by
      rcases List.mem_append.mp mem with mem | mem
      · exact own u mem
      · obtain rfl := List.mem_singleton.mp mem
        trivial)
  rw [ran]
  exact (drain_planless step first still (fun u mem => by
    obtain rfl := List.mem_singleton.mp mem
    trivial)).1

/-- While no plan runs the retract stands with its claim, or is over. -/
theorem held (silent : q.planRunning = false) : Held (q.windEntry q.nextOrder) windClaim t := by
  refine p.silent_drains silent (.stands (State.mem_motions_admitMotion.mpr (.inr p.entry.symm)) ?_) fun _ _ a b c =>
    a.runTask b c
  have claims := (State.claims_admitMotion (s := v) (h := .awning) (o := .wind) (m := .auto) (a := .toward .stowing)).trans
    p.desk.claims
  have read := congrArg (fun table : Vector (Option Claim) 6 => table[groupIndex .awning]) claims
  exact read.trans ((State.claim_setClaim (s := q) .awning .awning (some windClaim)).trans (if_pos rfl))

/-- While no plan runs the awning is on its way in at the event's end, or at rest with the outcome of its retract. -/
theorem retracting (silent : q.planRunning = false) (a : Retracting o q) (last : q.awning.lastOutcome = some o) :
    Retracting o t := by
  have claimed : Aims .stowing q (q.setClaim .awning (some windClaim)) :=
    .of_chans (fun _ => ⟨rfl, rfl⟩) fun id => by cases id <;> rfl
  have frame := v.placeEntry_frame (h := .awning) (o := .wind) (m := .auto) (a := .toward .stowing)
  have entered : Aims .stowing v (v.placeEntry .awning .wind .auto (.toward .stowing)).1 := by
    generalize (v.placeEntry .awning .wind .auto (.toward .stowing)).1 = w at frame
    rw [frame]
    exact .of_chans (fun _ => ⟨rfl, rfl⟩) fun id => by cases id <;> rfl
  have layout : (v.placeAndStart .awning .wind .auto (.toward .stowing)).1.layout = q.layout :=
    (State.admit_follows (F := fun _ => True) (s := v) (g := .awning) (o := .wind) (m := .auto)
      (a := .toward .stowing)).layout.trans p.desk.layout
  have aims : Aims .stowing q (v.placeAndStart .awning .wind .auto (.toward .stowing)).1 :=
    ((claimed.trans p.aims).trans entered).trans (Aims.slideAdmit (id := .awning))
  refine p.silent_drains silent ⟨fun n own driven => ?_, fun y mem own => ?_, .inr ((aims.outcome .awning).trans last)⟩
    fun _ _ a b c => a.runTask b c
  · obtain ⟨before, same⟩ | aimed := aims.driven n driven
    · rw [same]
      exact a.drives n (State.motorChan_layout layout .awning .a ▸ own) before
    · exact aimed
  · obtain mem | rfl := State.mem_motions_admitMotion.mp mem
    · exact a.moves y ((p.desk.motions y).mp mem) own
    · rfl

end WindPlaced

end

end Sys2Proof.Machine
end

section
/-! PROOFS. The motion and the claim that the wind watch displaces (R107, R120, R157). -/

namespace Sys2Proof.Machine

section
variable {s t u w a : State} {g h : Group} {n : Chan} {e x y : Entry} {c : Claim} {k : Nat}
  {l : List Task} {task : Task} {o : MotionOutcome} {z : Ending} {P : State → Prop}

/-! ### A claim of the sequencer stands as long as its plan runs -/

/-- The plan is over, or it runs, holds the group's claim and is not about to end. -/
def Led (g : Group) (w : Work) : Prop :=
  w.1.planRunning = false ∨ ((∃ c, w.1.claim g = some c ∧ c.owner = .sequencer) ∧ ∀ u ∈ w.2, u ≠ .endPlan)

theorem Led.planEnd {st : PlanStatus} {f : Option PlanFailure} (done : st ≠ .running) : Led g (s.planEnd st f) :=
  .inl (by simpa [State.planRunning, State.planEnd, State.raise] using done)

theorem Led.none (claim : ∃ c, s.claim g = some c ∧ c.owner = .sequencer) : Led g (s, []) :=
  .inr ⟨claim, fun u mem => absurd mem (by simp)⟩

theorem Led.one (claim : ∃ c, s.claim g = some c ∧ c.owner = .sequencer) (other : task ≠ .endPlan) : Led g (s, [task]) :=
  .inr ⟨claim, fun u mem => by
    obtain rfl := List.mem_singleton.mp mem
    exact other⟩

theorem Led.stepAdvance (claim : ∃ c, s.claim g = some c ∧ c.owner = .sequencer) : Led g s.stepAdvance := by
  unfold State.stepAdvance
  split
  · split
    · exact .one claim (by simp)
    · exact .planEnd (by simp)
  · exact .none claim

theorem EndsOnly.notEnd (own : EndsOnly h l) : ∀ u ∈ l, u ≠ .endPlan := fun u mem => by
  obtain ⟨z, rfl, -⟩ := own u mem
  simp

theorem State.aimClaim_sequenced {b : Action} (claim : ∃ c, s.claim g = some c ∧ c.owner = .sequencer) :
    ∃ c, (s.aimClaim h b).claim g = some c ∧ c.owner = .sequencer := by
  obtain ⟨c, held, owner⟩ := claim
  unfold State.aimClaim
  split
  · rename_i x found
    split
    · rename_i planned
      rw [State.claim_setClaim]
      split
      · exact ⟨_, rfl, planned⟩
      · exact ⟨c, held, owner⟩
    · exact ⟨c, held, owner⟩
  · exact ⟨c, held, owner⟩

/-- No piece of work but the plan's end frees a claim of the sequencer (R120, R154). -/
theorem State.runTask_led (claim : ∃ c, s.claim g = some c ∧ c.owner = .sequencer) (plain : task.plain)
    (other : task ≠ .endPlan) : Led g (s.runTask task) := by
  have desk {v : State} (d : Desk s v) : ∃ c, v.claim g = some c ∧ c.owner = .sequencer := by
    obtain ⟨c, held, owner⟩ := claim
    exact ⟨c, by rw [State.claim, d.claims]; exact held, owner⟩
  cases task with
  | endMotion h z =>
    refine .inr ⟨?_, fun u mem => ?_⟩
    · cases found : s.entryOf h with
      | none => rw [State.runTask, State.motionEnd, found]; exact claim
      | some x =>
        obtain ⟨c, held, owner⟩ := claim
        rw [State.runTask, State.claim_motionEnd found]
        split
        · rename_i own
          subst own
          rw [held]
          cases effect : z.claim with
          | byRule =>
            simp only [ClaimEffect.apply, Option.bind_some, endedByRule]
            split
            · exact ⟨_, rfl, owner⟩
            · rw [if_pos owner]
              exact ⟨c, rfl, owner⟩
          | free => exact absurd effect plain
          | keep => exact ⟨c, rfl, owner⟩
        · exact ⟨c, held, owner⟩
    · cases found : s.entryOf h with
      | none => rw [State.runTask, State.motionEnd, found] at mem; exact absurd mem (by simp)
      | some x =>
        rw [State.runTask, State.motionEnd_work found] at mem
        simp only [List.mem_cons, List.mem_append] at mem
        rcases mem with rfl | mem | mem
        · simp
        · split at mem
          · obtain rfl := List.mem_singleton.mp mem
            simp
          · simp at mem
        · split at mem
          · obtain rfl := List.mem_singleton.mp mem
            simp
          · simp at mem
  | handover v =>
    change Led g (s.handOver v)
    unfold State.handOver
    split
    · exact .none claim
    · exact .one (desk .evalAlarm) (by simp)
  | permits =>
    change Led g s.checkPermits
    unfold State.checkPermits
    split
    · refine .inr ⟨claim, fun u mem => ?_⟩
      simp only [List.mem_cons, List.not_mem_nil, or_false] at mem
      obtain rfl | rfl := mem <;> simp
    · exact .none claim
  | scan =>
    refine .inr ⟨desk .scan, fun u mem => ?_⟩
    obtain ⟨y, -, rfl⟩ := List.mem_map.mp mem
    simp
  | resume h order first =>
    obtain ⟨d, work⟩ := State.resumeEntry_desk (s := s) (g := h) (order := order) (first := first)
    refine .inr ⟨desk d, fun u mem => ?_⟩
    obtain none | ⟨l, work, own⟩ := work
    · exact absurd (none ▸ mem) (by simp)
    · rw [State.runTask, work] at mem
      obtain rfl | mem := List.mem_cons.mp mem
      · simp
      · exact own.notEnd u mem
  | planTakes h b z f =>
    change Led g (s.planTakes h b z f)
    unfold State.planTakes
    split
    · exact .none claim
    · split
      · exact .stepAdvance claim
      · refine .planEnd ?_
        split <;> simp
  | beginStep =>
    change Led g s.stepBegin
    unfold State.stepBegin
    split
    · dsimp only
      split
      · exact .planEnd (by simp)
      · exact .one claim (by simp)
    · exact .none claim
  | place step =>
    cases step with
    | nil => exact .stepAdvance claim
    | cons y later =>
      change Led g (s.placeNext (y :: later))
      unfold State.placeNext
      dsimp only
      split
      · split
        · exact .planEnd (by simp)
        · refine .inr ⟨?_, fun u mem => ?_⟩
          · obtain ⟨c, held, owner⟩ := State.aimClaim_sequenced (h := y.1) (b := y.2) claim
            refine ⟨c, ?_, owner⟩
            rw [State.claim, State.claims_admitMotion]
            exact held
          · simp only [State.admitMotion, State.placeAndStart, List.mem_append, List.mem_singleton] at mem
            obtain (mem | rfl) | rfl := mem
            · exact EndsOnly.notEnd State.controllerAdmit_own u mem
            · simp
            · simp
      · exact .none claim
  | endPlan => exact absurd rfl other

theorem drain_led (led : Led g (s, l)) (plain : Plain l) : (drain k (s, l)).planRunning = false ∨
    ∃ c, (drain k (s, l)).claim g = some c ∧ c.owner = .sequencer := by
  induction k generalizing s l with
  | zero => exact led.imp id And.left
  | succ k ih =>
    cases l with
    | nil => exact led.imp id And.left
    | cons task rest =>
      have first : task.plain := plain task List.mem_cons_self
      have rest' : Plain rest := fun u mem => plain u (List.mem_cons_of_mem _ mem)
      refine ih ?_ (State.runTask_plain.append rest')
      obtain silent | ⟨claim, others⟩ := led
      · refine .inl ?_
        have plan := ((State.runTask_does (F := fun _ => True) first).rests silent).plan
        rw [State.planRunning, plan]
        exact silent
      · obtain silent | ⟨claim', others'⟩ := State.runTask_led claim first (others task List.mem_cons_self)
        · exact .inl silent
        · refine .inr ⟨claim', fun u mem => ?_⟩
          rcases List.mem_append.mp mem with mem | mem
          · exact others' u mem
          · exact others u (List.mem_cons_of_mem _ mem)

/-! ### The awning's motion ends -/

/-- The ending that the wind watch gives an awning motion (R107). -/
theorem State.windEndsMotion_cases (a : State) : (a.entryOf .awning = none ∧ a.windEndsMotion = a) ∨
    ∃ e z, a.entryOf .awning = some e ∧ z.claim = .keep ∧
      z.outcome = (if e.action.dir = .outward then .interlock else .preempted) ∧
      a.windEndsMotion = drain (9999 + 1) (a, [.endMotion .awning z]) := by
  cases found : a.entryOf .awning with
  | none => exact .inl ⟨rfl, by rw [State.windEndsMotion, found]⟩
  | some e =>
    refine .inr ?_
    cases dir : e.action.dir with
    | outward =>
      refine ⟨e, { outcome := .interlock, cause := some .wind, claim := .keep }, rfl, rfl, by simp [dir], ?_⟩
      rw [State.windEndsMotion, found]
      simp only [dir]
      rfl
    | stowing =>
      refine ⟨e, { outcome := .preempted, claim := .keep }, rfl, rfl, by simp [dir], ?_⟩
      rw [State.windEndsMotion, found]
      simp only [dir]
      rfl

theorem Task.plain_keep (keep : z.claim = .keep) : (Task.endMotion g z).plain := by
  change z.claim ≠ .free
  rw [keep]
  simp

theorem State.windEndsMotion_does (a : State) : Does (fun _ => True) a a.windEndsMotion := by
  obtain ⟨-, same⟩ | ⟨e, z, -, keep, -, run⟩ := a.windEndsMotion_cases
  · rw [same]
    exact .refl _ a
  · rw [run]
    exact drain_does (.cons (Task.plain_keep keep) .nil)

/-- The awning's motion that the wind watch ends is over, with its outcome and notices (R107). -/
theorem State.windEndsMotion_ends (found : a.entryOf .awning = some e) : ∃ z, z.claim = .keep ∧
    z.outcome = (if e.action.dir = .outward then .interlock else .preempted) ∧ Ends .awning z a a.windEndsMotion := by
  obtain ⟨none, -⟩ | ⟨x, z, entry, keep, outcome, run⟩ := a.windEndsMotion_cases
  · exact absurd (none.symm.trans found) (by simp)
  · obtain rfl := Option.some.inj (entry.symm.trans found)
    refine ⟨z, keep, outcome, ?_⟩
    rw [run]
    exact drain_ends found .nil

/-- The motions that the awning had are over. -/
theorem State.windEndsMotion_gone (mem : y ∈ a.windEndsMotion.motions) (own : y.group = .awning) : a.nextOrder ≤ y.order := by
  cases found : a.entryOf .awning with
  | none =>
    obtain ⟨-, same⟩ | ⟨x, z, entry, -⟩ := a.windEndsMotion_cases
    · rw [same] at mem
      exact absurd own (State.still_iff_entryOf.mpr found y mem)
    · exact absurd (entry.symm.trans found) (by simp)
  | some e =>
    obtain ⟨z, -, -, ends⟩ := State.windEndsMotion_ends found
    exact ends.ended.gone y mem own

/-- A group at rest whose claim no plan holds keeps its claim while no plan runs. -/
theorem drain_still_claim (still : s.still g) (silent : s.planRunning = false) (own : ∀ u ∈ l, u.planless) :
    (drain k (s, l)).still g ∧ (drain k (s, l)).claim g = s.claim g := by
  refine (drain_planless (P := fun t => t.still g ∧ t.claim g = s.claim g) (fun t task rest silent own => ?_)
    ⟨still, rfl⟩ silent own).1
  obtain ⟨rest, claim⟩ := rest
  have desk {v : State} (d : Desk t v) : v.still g ∧ v.claim g = s.claim g :=
    ⟨fun y mem => rest y ((d.motions y).mp mem), by rw [State.claim, d.claims]; exact claim⟩
  cases task with
  | endMotion h z =>
    refine ⟨fun y mem => rest y (mem_motions_motionEnd.mp mem).1, ?_⟩
    cases found : t.entryOf h with
    | none => rw [State.runTask, State.motionEnd, found]; exact claim
    | some x =>
      rw [State.runTask, State.claim_motionEnd found]
      have other : h ≠ g := by
        rintro rfl
        exact absurd (found.symm.trans (State.still_iff_entryOf.mp rest)) (by simp)
      rw [if_neg other]
      exact claim
  | handover v =>
    change (t.handOver v).1.still g ∧ (t.handOver v).1.claim g = s.claim g
    unfold State.handOver
    split
    · exact ⟨rest, claim⟩
    · exact desk .evalAlarm
  | permits => exact (State.checkPermits_fst (s := t)).symm ▸ ⟨rest, claim⟩
  | scan => exact desk .scan
  | resume h order first => exact desk State.resumeEntry_desk.1
  | planTakes h b z f =>
    change (t.planTakes h b z f).1.still g ∧ (t.planTakes h b z f).1.claim g = s.claim g
    unfold State.planTakes
    rw [if_pos (.inl silent)]
    exact ⟨rest, claim⟩
  | beginStep => exact own.elim
  | place _ => exact own.elim
  | endPlan => exact own.elim

theorem State.motionEnd_planless : ∀ u ∈ (s.motionEnd g z).2, u.planless := by
  cases found : s.entryOf g with
  | none => rw [State.motionEnd, found]; exact fun u mem => absurd mem (by simp)
  | some x =>
    intro u mem
    rw [State.motionEnd_work found] at mem
    simp only [List.mem_cons, List.mem_append] at mem
    rcases mem with rfl | mem | mem
    · trivial
    · split at mem
      · obtain rfl := List.mem_singleton.mp mem
        trivial
      · simp at mem
    · split at mem
      · obtain rfl := List.mem_singleton.mp mem
        trivial
      · simp at mem

theorem State.motionEnd_stills : (s.motionEnd g z).1.still g := fun _ mem => (mem_motions_motionEnd.mp mem).2

/-- While no plan runs the awning is at rest after the wind watch has ended its motion, and its claim stands (R107). -/
theorem State.windEndsMotion_silent (silent : a.planRunning = false) : a.windEndsMotion.still .awning ∧
    a.windEndsMotion.claim .awning = a.claim .awning ∧ a.windEndsMotion.plan = a.plan := by
  refine ⟨?_, ?_, (a.windEndsMotion_does.rests silent).plan⟩
  all_goals
    obtain ⟨none, same⟩ | ⟨x, z, entry, keep, -, run⟩ := a.windEndsMotion_cases
  · rw [same]
    exact State.still_iff_entryOf.mpr none
  · rw [run, drain_cons]
    exact (drain_still_claim State.motionEnd_stills (by rw [State.planRunning, State.plan_motionEnd]; exact silent)
      (by rw [List.append_nil]; exact State.motionEnd_planless)).1
  · rw [same]
  · rw [run, drain_cons]
    refine (drain_still_claim State.motionEnd_stills (by rw [State.planRunning, State.plan_motionEnd]; exact silent)
      (by rw [List.append_nil]; exact State.motionEnd_planless)).2.trans ?_
    rw [State.claim_motionEnd entry, if_pos rfl, keep]
    rfl

/-- An awning that no running plan names is at rest after the wind watch has ended its motion, and apart from every plan. -/
theorem State.windEndsMotion_apart (free : a.unplanned .awning) : a.windEndsMotion.still .awning ∧
    a.windEndsMotion.unplanned .awning := by
  obtain ⟨none, same⟩ | ⟨x, z, entry, keep, -, run⟩ := a.windEndsMotion_cases
  · rw [same]
    exact ⟨State.still_iff_entryOf.mpr none, free⟩
  · rw [run, drain_cons]
    have still : (a.motionEnd .awning z).1.still .awning := State.motionEnd_stills
    obtain ⟨rest, apart⟩ := drain_lasting (k := 9999) (l := (a.motionEnd .awning z).2 ++ []) (still_lasting .awning) still
      ⟨State.unplanned_congr State.plan_motionEnd
        (State.motionEnd_does (F := fun _ => True) fun _ => trivial).follows.layout free,
        fun y mem own => absurd own (still y mem)⟩ (by rw [List.append_nil]; exact spared_of_motionEnd)
    exact ⟨rest, apart.unplanned⟩

/-! ### The claim is displaced -/

/-- What a running plan's record shows of the awning's claim that the wind watch takes from it (R157). -/
def State.lostAwning (s : State) : PlanFailure :=
  { step := s.plan.stepIndex, group := .awning, reason := none, cause := none, outcome := some .preempted, fault := none }

theorem drain_planEnd_does {st : PlanStatus} {f : Option PlanFailure} (runs : s.planRunning = true) :
    Does (fun _ => True) s (drain k (s.planEnd st f)) :=
  (State.planEnd_does runs).trans (drain_does (s := (s.planEnd st f).1) (l := (s.planEnd st f).2) (State.planEnd_plain (s := s)))

theorem drain_planEnd_silent {st : PlanStatus} {f : Option PlanFailure} (done : st ≠ .running) :
    (drain k (s.planEnd st f)).plan = { s.plan with status := st, failure := f } := by
  have silent : (s.planEnd st f).1.planRunning = false := by
    simpa [State.planRunning, State.planEnd, State.raise] using done
  exact ((drain_does (F := fun _ => True) (s := (s.planEnd st f).1) (l := (s.planEnd st f).2) (n := k)
    (State.planEnd_plain (s := s))).rests silent).plan

theorem State.windDisplaces_cases (s : State) : (s.claim .awning = none ∧ s.windDisplaces = s) ∨
    ∃ c, s.claim .awning = some c ∧
      ((¬(c.owner = .sequencer ∧ s.planRunning = true) ∧ s.windDisplaces = s.raise .preempt) ∨
        (c.owner = .sequencer ∧ s.planRunning = true ∧ s.windDisplaces = drain workBound ((s.raise .preempt).planEnd .preempted
          (some s.lostAwning)))) := by
  cases claim : s.claim .awning with
  | none => exact .inl ⟨rfl, by rw [State.windDisplaces, claim]⟩
  | some c =>
    refine .inr ⟨c, rfl, ?_⟩
    by_cases planned : c.owner = .sequencer ∧ s.planRunning = true
    · refine .inr ⟨planned.1, planned.2, ?_⟩
      rw [State.windDisplaces, claim]
      exact if_pos planned
    · refine .inl ⟨planned, ?_⟩
      rw [State.windDisplaces, claim]
      exact if_neg planned

theorem State.windDisplaces_does (s : State) : Does (fun _ => True) s s.windDisplaces := by
  obtain ⟨-, same⟩ | ⟨c, -, ⟨-, raised⟩ | ⟨-, runs, run⟩⟩ := s.windDisplaces_cases
  · rw [same]
    exact .refl _ s
  · rw [raised]
    exact .raise _
  · rw [run]
    exact (Does.raise .preempt).trans (drain_planEnd_does (s := s.raise .preempt) runs)

theorem State.windDisplaces_preempts (claim : s.claim .awning ≠ none) : s.windDisplaces.noticed .preempt = true := by
  obtain ⟨none, -⟩ | ⟨c, -, ⟨-, raised⟩ | ⟨-, runs, run⟩⟩ := s.windDisplaces_cases
  · exact absurd none claim
  · rw [raised]
    exact State.noticed_raise ..
  · rw [run]
    exact (drain_planEnd_does (s := s.raise .preempt) runs).follows.noticed (State.noticed_raise ..)

/-- While no plan runs the claim's displacing changes nothing but the notice. -/
theorem State.windDisplaces_silent (silent : s.planRunning = false) :
    s.windDisplaces = s ∨ s.windDisplaces = s.raise .preempt := by
  obtain ⟨-, same⟩ | ⟨c, -, ⟨-, raised⟩ | ⟨-, runs, -⟩⟩ := s.windDisplaces_cases
  · exact .inl same
  · exact .inr raised
  · exact absurd (silent.symm.trans runs) (by simp)

/-- No plan runs after the displacing of a claim of the running plan. -/
theorem State.windDisplaces_led (led : s.planRunning = false ∨ ∃ c, s.claim .awning = some c ∧ c.owner = .sequencer) :
    s.windDisplaces.planRunning = false := by
  obtain ⟨none, same⟩ | ⟨c, claim, ⟨kept, raised⟩ | ⟨-, runs, run⟩⟩ := s.windDisplaces_cases
  · rw [same]
    refine led.elim id fun ⟨c, claim, _⟩ => absurd (none.symm.trans claim) (by simp)
  · rw [raised]
    refine led.elim id fun ⟨b, held, owner⟩ => ?_
    obtain rfl := Option.some.inj (claim.symm.trans held)
    simpa [owner] using kept
  · rw [run, State.planRunning, drain_planEnd_silent (s := s.raise .preempt) (by simp)]
    rfl

/-- An awning at rest that no running plan names stays so. -/
theorem State.windDisplaces_apart (still : s.still .awning) (free : s.unplanned .awning) :
    s.windDisplaces.still .awning ∧ s.windDisplaces.unplanned .awning := by
  obtain ⟨-, same⟩ | ⟨c, -, ⟨-, raised⟩ | ⟨-, runs, run⟩⟩ := s.windDisplaces_cases
  · rw [same]
    exact ⟨still, free⟩
  · rw [raised]
    exact ⟨still, free⟩
  · rw [run]
    have ended : Kept .awning (fun t => t.still .awning) ((s.raise .preempt).planEnd .preempted (some s.lostAwning)) :=
      .planEnd (s := s.raise .preempt) (still_lasting .awning) still ⟨free, fun y mem own => absurd own (still y mem)⟩ (by simp)
    obtain ⟨rest, apart⟩ := drain_lasting (k := workBound) (still_lasting .awning) ended.held ended.unplanned ended.tasks
    exact ⟨rest, apart.unplanned⟩

end

end Sys2Proof.Machine
end

section
/-! PROOFS. The admission of a motion of a room or the awning whose controller has nothing to end: the record it takes, the
starts of its motors, and the permits that stand (R44, R97, R127). -/

namespace Sys2Proof.Machine

section
variable {s t u w : State} {g h : Group} {id : Slider} {m x : Motor} {n i : Chan} {d : Dir} {e y : Entry} {k : Nat} {a : Action}

/-! ### The record of an admitted motion -/

/-- The record of a room or the awning whose motion has begun (R44, R97). -/
def SliderRec.moving (r : SliderRec) (two : Bool) (d : Dir) : SliderRec :=
  { r.phased two (fun _ => .travel) with state := movingState d, runTime := 0 }

/-- No motor of a motion IN is at home at its admission: every motor travels, and the starts follow where the motion fits. -/
theorem State.slideAdmit_travels {run : Bool} (away : d = .stowing → ∀ m, s.motorHome id m = false) :
    s.slideAdmit id d run =
      if run then (s.setSlider id ((s.slider id).moving (s.twoMotors id) d)).startMotors id d
      else (s.setSlider id ((s.slider id).moving (s.twoMotors id) d), []) := by
  have first : s.firstPhase id d = fun _ => .travel := by
    funext m
    cases d with
    | outward => rfl
    | stowing => simp [State.firstPhase, away rfl m]
  have record : (s.setSlider id { s.slider id with runTime := 0 }).setPhases id (s.firstPhase id d) =
      s.setSlider id ({ s.slider id with runTime := 0 }.phased (s.twoMotors id) fun _ => .travel) := by
    have two : (s.setSlider id { s.slider id with runTime := 0 }).twoMotors id = s.twoMotors id := by
      unfold State.twoMotors
      rw [State.motorChan_layout (s := s) (by cases id <;> rfl)]
    rw [first, State.setPhases_eq, State.slider_setSlider_same, State.setSlider_setSlider, two]
  have zeroed (w : State) (layout : w.layout = s.layout) (lines : w.lines = s.lines) : w.zeroFinished id d = w := by
    cases d with
    | outward => rfl
    | stowing =>
      have none (l : List Motor) : forEach l (fun m t => t.zeroMotor id m) w = w := by
        induction l with
        | nil => rfl
        | cons m rest ih =>
          have same : w.zeroMotor id m = w := by
            unfold State.zeroMotor
            rw [State.motorHome_congr layout lines, away rfl m]
            rfl
          change forEach rest (fun m t => t.zeroMotor id m) (w.zeroMotor id m) = w
          rw [same]
          exact ih
      exact none _
  unfold State.slideAdmit
  dsimp only
  rw [record, zeroed _ (by cases id <;> rfl) (by cases id <;> rfl)]
  have travels : (s.setSlider id ({ s.slider id with runTime := 0 }.phased (s.twoMotors id) fun _ => .travel)).allFinished id =
      false := by
    unfold State.allFinished
    rw [List.all_eq_false]
    refine ⟨.a, by unfold State.motors; split <;> simp, ?_⟩
    rw [State.motor, State.slider_setSlider_same]
    simp [SliderRec.motor, SliderRec.phased]
  rw [if_neg (by simp [travels]), State.slider_setSlider_same, State.setSlider_setSlider]
  rfl

/-! ### The start of a motor that ends nothing -/

/-- A start request to a motor's channel leaves the axis records, but for the tally that follows its channel. -/
theorem State.startChan_motor : ∃ v, ((s.startChan n d).1.motor id m) = { s.motor id m with tally := v } := by
  have kept (v : State) (motor : v.motor id m = s.motor id m) :
      ∃ y, ((v.driveStart n d).motor id m) = { s.motor id m with tally := y } := by
    obtain ⟨y, eq⟩ := State.motor_driveStart (s := v) (n := n) (d := d) (id := id) (m := m)
    exact ⟨y, by rw [eq, motor]⟩
  obtain eq | ⟨c, eq⟩ | eq | ⟨c, eq⟩ := s.startChan_cases (n := n) (d := d) <;> rw [eq]
  · exact ⟨(s.motor id m).tally, rfl⟩
  · exact ⟨(s.motor id m).tally, by cases id <;> rfl⟩
  · exact kept s rfl
  · exact kept _ (by cases id <;> rfl)

theorem State.view_startChan (own : ∀ j, s.role n ≠ .jack j) : (s.startChan n d).1.view = s.view := by
  obtain eq | ⟨c, eq⟩ | eq | ⟨c, eq⟩ := s.startChan_cases (n := n) (d := d) <;> rw [eq]
  · rfl
  · exact State.view_driveStart fun ⟨j, jack⟩ => absurd jack (own j)
  · exact State.view_driveStart (s := s.setChan n c) fun ⟨j, jack⟩ => absurd jack (own j)

/-- The start of a motor in whose event the controller has nothing to do (R44, R46, R50). -/
theorem State.startMotor_free (chan : s.motorChan id m = some n) (dir : s.slideDir id = some d) (apart : s.racked id = false)
    (short : d = .outward → ∀ c, (s.motor id m).count = some c → c < s.travelLimit id)
    (away : d = .stowing → s.motorHome id m = false) : s.startMotor id m d = ((s.startChan n d).1, []) := by
  have part := State.startChan_controls (s := s) (d := d) (State.group_motorChan chan)
  have lines : (s.startChan n d).1.lines = s.lines := by
    have e := congrArg State.lines part.outer
    exact e
  have count (q : Motor) : ((s.startChan n d).1.motor id q).count = (s.motor id q).count := by
    obtain ⟨v, eq⟩ := s.startChan_motor (n := n) (d := d) (id := id) (m := q)
    rw [eq]
  have dir' : (s.startChan n d).1.slideDir id = some d := by
    unfold State.slideDir at dir ⊢
    rw [part.entryOf]
    exact dir
  have limit : (s.startChan n d).1.travelLimit id = s.travelLimit id :=
    State.travelLimit_layout part.layout id
  have started : (s.startChan n d).1.motorStarted id m = ((s.startChan n d).1, []) := by
    refine State.motorStarted_free ((State.racked_congr part.layout count).trans apart) (fun out c held => ?_) fun inward => ?_
    · rw [limit]
      exact short (Option.some.inj (dir'.symm.trans out)) c (by rw [← count m]; exact held)
    · rw [State.motorHome_congr part.layout lines]
      exact away (Option.some.inj (dir'.symm.trans inward))
  unfold State.startMotor
  rw [chan]
  dsimp only
  rw [started]
  split <;> rfl

/-- The start of the one motor of a room or of the awning. -/
theorem State.startMotors_one (chan : s.motorChan id .a = some n) (one : s.motorChan id .b = none)
    (travel : (s.motor id .a).phase = .travel) (dir : s.slideDir id = some d)
    (short : d = .outward → ∀ c, (s.motor id .a).count = some c → c < s.travelLimit id)
    (away : d = .stowing → s.motorHome id .a = false) : s.startMotors id d = ((s.startChan n d).1, []) := by
  have apart : s.racked id = false := by simp [State.racked, State.bothCounts, State.twoMotors, one]
  have motors : s.motors id = [.a] := by simp [State.motors, one]
  have layout := (State.startChan_controls (s := s) (d := d) (State.group_motorChan chan)).layout
  unfold State.startMotors
  rw [motors]
  simp only [List.foldl_cons, List.foldl_nil, List.isEmpty_nil, travel, beq_self_eq_true, Bool.and_self, if_true]
  rw [State.startMotor_free chan dir apart short away]
  have single : (s.startChan n d).1.twoMotors id = false := by
    unfold State.twoMotors
    rw [State.motorChan_layout layout, one]
    rfl
  simp [State.retrim, single]

/-! ### Permits by their parts -/

/-- The permit table reads of the state whether the jacks support, the rooms and the awning are out, and the wind blows
(R127). -/
theorem State.permitCause_parts (layout : t.layout = s.layout) (support : t.supported = s.supported)
    (out : t.roomsOut = s.roomsOut) (spread : t.awningNotStowed = s.awningNotStowed) (windy : t.windy = s.windy) :
    t.permitCause g a = s.permitCause g a := by
  unfold State.permitCause
  rw [layout, support, out, spread, windy]

/-- Every motion has its permit. -/
theorem State.fallenPermit_none_iff : s.fallenPermit = none ↔ ∀ y ∈ s.motions, s.permitCause y.group y.action = none := by
  unfold State.fallenPermit
  simp only [List.findSome?_eq_none_iff, Option.map_eq_none_iff]
  constructor
  · intro calm y mem
    obtain ⟨x, hx, rfl⟩ := mem_motions.mp mem
    exact calm x hx
  · intro calm x mem
    exact calm x.motion (mem_motions.mpr ⟨x, mem, rfl⟩)

/-- States handed over twice while every permit stands change the alarm at most. -/
theorem drain_handovers_calm {i j : Nat} {old new : View} (calm : s.fallenPermit = none) :
    s.butAlarm (drain (j + 2) (drain (i + 2) (s, [.handover old]), [.handover new])) ∧
      Does (fun _ => True) s (drain (j + 2) (drain (i + 2) (s, [.handover old]), [.handover new])) := by
  obtain ⟨w, p, one, does, -, -, first⟩ := drain_handover_calm (F := fun _ => True) (k := i) (v := old) (rest := []) calm
  obtain ⟨v, q, two, more, -, -, second⟩ := drain_handover_calm (F := fun _ => True) (k := j) (v := new) (rest := [])
    ((State.fallenPermit_butAlarm one).trans calm)
  rw [first, drain_nil, second, drain_nil]
  exact ⟨one.trans two, does.trans more⟩

/-! ### Shedding from the tail -/

/-- Without an entry of WIND the load list is shed from its tail until it is within the limit (R137). -/
theorem State.shedDown_take {fuel limit : Nat} (bound : s.load.length ≤ fuel) (distinct : s.load.Nodup)
    (calm : ∀ x ∈ s.load, x.owner ≠ .wind) : ∃ k, k ≤ s.load.length ∧ (State.shedDown fuel limit s).load = s.load.take k ∧
      unitsOf (s.load.take k) ≤ limit ∧ (k < s.load.length → limit < unitsOf (s.load.take (k + 1))) := by
  induction fuel generalizing s with
  | zero =>
    have none : s.load = [] := List.length_eq_zero_iff.mp (Nat.le_zero.mp bound)
    exact ⟨0, by simp, by simp [State.shedDown, none], by simp [none, unitsOf], by simp [none]⟩
  | succ fuel ih =>
    unfold State.shedDown
    split
    · rename_i fits
      exact ⟨s.load.length, Nat.le_refl _, by rw [List.take_length], by rw [List.take_length]; exact fits,
        fun less => absurd less (Nat.lt_irrefl _)⟩
    · rename_i above
      have filled : s.load ≠ [] := fun none => above (by simp [State.heldUnits, none, unitsOf])
      have next : shedNext s.load = some (s.load.getLast filled) := by
        unfold shedNext
        rw [List.filter_eq_self.mpr fun x mem => by simpa using calm x mem, List.getLast?_eq_some_getLast filled]
      rw [next]
      dsimp only
      have left : (s.shed (s.load.getLast filled)).load = s.load.dropLast := by
        rw [State.load_shed]
        obtain ⟨pre, last, eq⟩ : ∃ pre last, s.load = pre ++ [last] := ⟨_, _, (List.dropLast_append_getLast filled).symm⟩
        have apart : last ∉ pre := by
          rw [eq, List.nodup_append] at distinct
          exact fun mem => distinct.2.2 last mem last (by simp) rfl
        simp only [eq, List.getLast_append_singleton, List.dropLast_concat, List.filter_append]
        rw [List.filter_eq_self.mpr fun x mem => by simpa using fun (same : x = last) => apart (same ▸ mem)]
        simp
      have short : s.load.dropLast.length = s.load.length - 1 := List.length_dropLast
      have positive : 0 < s.load.length := List.length_pos_iff.mpr filled
      obtain ⟨k, le, taken, within, next⟩ := ih (s := s.shed (s.load.getLast filled)) (by rw [left, short]; omega)
        (by rw [left]; exact distinct.sublist (List.dropLast_sublist _))
        (by rw [left]; exact fun x mem => calm x (List.dropLast_subset _ mem))
      rw [left] at le taken within next
      rw [short] at le next
      have prefixes (i : Nat) (small : i ≤ s.load.length - 1) : s.load.dropLast.take i = s.load.take i := by
        rw [List.dropLast_eq_take, List.take_take, Nat.min_eq_left small]
      rw [prefixes k le] at taken within
      refine ⟨k, by omega, taken, within, fun less => ?_⟩
      by_cases last : k < s.load.length - 1
      · have := next last
        rwa [prefixes (k + 1) (by omega)] at this
      · rw [show k + 1 = s.load.length by omega, List.take_length]
        exact Nat.lt_of_not_le above

theorem State.view_shed : (s.shed e).view = s.view := by
  have stops (l : List Chan) (v : State) : (forEach l (fun n t => t.stopChan n) v).view = v.view := by
    induction l generalizing v with
    | nil => rfl
    | cons n rest ih => exact (ih (v.stopChan n)).trans (by rw [State.stopChan_eq]; rfl)
  have kept (v : State) : (v.controllerShed e.group).view = v.view := by
    unfold State.controllerShed
    split
    · rename_i id _
      unfold State.slideShed
      generalize v.motors id = l
      induction l generalizing v with
      | nil => rfl
      | cons m rest ih =>
        refine (ih _).trans ?_
        beta_reduce
        split
        · exact State.view_setMotor _
        · rfl
    · rfl
  exact (kept _).trans (stops _ s)

theorem State.shedTo_view {limit : Nat} : (s.shedTo limit).view = s.view := by
  have down (fuel : Nat) (v : State) : (State.shedDown fuel limit v).view = v.view := by
    induction fuel generalizing v with
    | zero => rfl
    | succ fuel ih =>
      unfold State.shedDown
      split
      · rfl
      · split
        · exact (ih _).trans State.view_shed
        · rfl
  exact down _ s

/-! ### The wind retract is placed and ends nothing -/

/-- The wind retract of an awning that is out and not at home leaves no work, and fells no permit. -/
theorem State.placeRetract_calm (still : s.still .awning) (configured : s.configured .awning = true)
    (away : s.allHome .awning = false) (spread : s.awningNotStowed = true) (calm : s.fallenPermit = none) :
    (s.placeAndStart .awning .wind .auto (.toward .stowing)).2 = [] ∧
    (s.placeAndStart .awning .wind .auto (.toward .stowing)).1.load =
      (s.placeEntry .awning .wind .auto (.toward .stowing)).1.load ∧
    (s.placeAndStart .awning .wind .auto (.toward .stowing)).1.paused =
      (s.placeEntry .awning .wind .auto (.toward .stowing)).1.paused ∧
    (s.placeAndStart .awning .wind .auto (.toward .stowing)).1.fallenPermit = none := by
  have placed := s.placeEntry_frame (h := .awning) (o := .wind) (m := .auto) (a := .toward .stowing)
  have moves (y : Entry) := State.mem_motions_placeEntry (s := s) (h := .awning) (o := .wind) (m := .auto)
    (a := .toward .stowing) (y := y)
  obtain ⟨n, chan⟩ : ∃ n, s.motorChan .awning .a = some n := Option.isSome_iff_exists.mp configured
  have home (m : Motor) : s.motorHome .awning m = false := by
    have motors : s.motors .awning = [.a] := rfl
    simp only [State.allHome, motors, List.all_cons, List.all_nil, Bool.and_true] at away
    cases m with
    | a => exact away
    | b => rfl
  change (State.slideAdmit _ .awning .stowing _).2 = [] ∧ (State.slideAdmit _ .awning .stowing _).1.load = _ ∧
    (State.slideAdmit _ .awning .stowing _).1.paused = _ ∧ (State.slideAdmit _ .awning .stowing _).1.fallenPermit = none
  generalize (s.placeEntry .awning .wind .auto (.toward .stowing)).2 = run
  generalize (s.placeEntry .awning .wind .auto (.toward .stowing)).1 = w at placed moves ⊢
  have layout : w.layout = s.layout := by rw [placed]
  have lines : w.lines = s.lines := by rw [placed]
  have home' (m : Motor) : w.motorHome .awning m = false := (State.motorHome_congr layout lines .awning m).trans (home m)
  have chan' : w.motorChan .awning .a = some n := (State.motorChan_layout layout .awning .a).trans chan
  have part := State.slideAdmit_controls (s := w) (id := .awning) (d := .stowing) (run := run)
  have admitted := State.slideAdmit_travels (s := w) (id := .awning) (d := .stowing) (run := run) fun _ => home'
  have dir : ∃ x, w.entryOf .awning = some x ∧ x.action.dir = .stowing := by
    obtain ⟨x, found⟩ := State.not_still_iff.mp fun none => none _ ((moves _).mpr (.inr rfl)) rfl
    obtain ⟨mem, own⟩ := State.entryOf_motion found
    obtain before | new := (moves _).mp mem
    · exact absurd own (still x.motion before)
    · exact ⟨x, found, congrArg (fun e : Entry => e.action.dir) new⟩
  have role := State.role_of_roleChan chan'
  generalize record : (w.slider .awning).moving (w.twoMotors .awning) .stowing = r at admitted
  have state : r.state = .closing := by rw [← record]; rfl
  have travel : r.motorA.phase = .travel := by rw [← record]; rfl
  have started : (w.setSlider .awning r).startMotors .awning .stowing =
      (((w.setSlider .awning r).startChan n .stowing).1, []) := by
    obtain ⟨x, found, inward⟩ := dir
    refine State.startMotors_one chan' rfl travel ?_ (fun out => absurd out (by simp)) fun _ => home' .a
    change (w.entryOf .awning).map _ = _
    rw [found]
    exact congrArg some inward
  have view : (w.slideAdmit .awning .stowing run).1.view = (w.setSlider .awning r).view := by
    rw [admitted]
    cases run with
    | true =>
      rw [if_pos rfl, started]
      exact State.view_startChan fun j jack => by
        have own : w.role n = .jack j := jack
        rw [role] at own
        cases own
    | false => rfl
  refine ⟨?_, ?_, ?_, ?_⟩
  · rw [admitted]
    cases run with
    | true => rw [if_pos rfl, started]
    | false => rfl
  · have e := congrArg State.load part.outer
    exact e
  · have e := congrArg State.paused part.outer
    exact e
  · have desk := Desk.of_controls part
    generalize (w.slideAdmit .awning .stowing run).1 = q at view desk
    have same {h : Group} {b : Action} : q.permitCause h b = s.permitCause h b := by
      refine (State.permitCause_congr (s := w.setSlider .awning r) desk.layout view).trans (State.permitCause_parts layout ?_ ?_ ?_ ?_)
      · rw [placed]; rfl
      · rw [placed]; rfl
      · have out : (w.setSlider .awning r).awningNotStowed = true := by
          have set : (w.setSlider .awning r).configured .awning = true := by
            change (w.motorChan .awning .a).isSome = true
            rw [chan']
            rfl
          unfold State.awningNotStowed State.sliderState State.sliderRead
          dsimp only
          rw [set]
          change (r.state != .closed) = true
          rw [state]
          rfl
        rw [out, spread]
      · rw [placed]; rfl
    rw [State.fallenPermit_none_iff] at calm ⊢
    intro y mem
    rw [same]
    obtain before | rfl := (moves y).mp ((desk.motions y).mp mem)
    · exact calm y before
    · rfl

end

end Sys2Proof.Machine
end

section
/-! PROOFS. The entry into GUSTY, the wind speed and the holds of the wind watch (R39, R104, R105, R107). -/

namespace Sys2Proof.Machine

section
variable {s t u w a : State} {g h : Group} {n : Chan} {e x y : Entry} {b c : Claim} {j k : Nat} {new : View}

/-! ### The check at an entry into GUSTY -/

/-- The awning's claim and motion as the wind watch finds them once it has displaced what it may. -/
def State.displaced (a : State) : State := a.windEndsMotion.windDisplaces

theorem State.displaced_does (a : State) : Does (fun _ => True) a a.displaced :=
  a.windEndsMotion_does.trans a.windEndsMotion.windDisplaces_does

/-- The wind watch takes the claim where its conditions hold and the claim is not WIND's already (R107). -/
theorem State.gustCheck_takes (out : a.sliderState .awning ≠ .closed) (parked : a.road = .parked)
    (configured : a.configured .awning = true) (available : a.unavailable .awning = false)
    (other : ∀ b, a.claim .awning = some b → b.owner ≠ .wind) : a.gustCheck = a.displaced.windRetract := by
  have may : a.windMayTake = true := by
    simp [State.windMayTake, State.awningNotStowed, out, parked, configured, available]
  have free : a.windHolds = false := by
    unfold State.windHolds
    split
    · rename_i c claim
      simpa using other c claim
    · rfl
  unfold State.gustCheck
  rw [may, free]
  rfl

theorem State.gustCheck_holds (held : a.claim .awning = some c) (wind : c.owner = .wind) : a.gustCheck = a := by
  unfold State.gustCheck State.windHolds
  rw [held]
  simp [wind]

/-- The motions that the awning had are over. -/
theorem State.displaced_gone (mem : y ∈ a.displaced.motions) (own : y.group = .awning) : a.nextOrder ≤ y.order := by
  obtain later | before := a.windEndsMotion.windDisplaces_does.follows.entries y mem
  · exact Nat.le_trans a.windEndsMotion_does.follows.orders later
  · exact State.windEndsMotion_gone before own

/-- Where no plan runs the claim that is displaced is the one that stood, with notice PREEMPT (R107). -/
theorem State.displaced_preempts (silent : a.planRunning = false) (claim : a.claim .awning ≠ none) :
    a.displaced.noticed .preempt = true :=
  State.windDisplaces_preempts (by rw [(State.windEndsMotion_silent silent).2.1]; exact claim)

/-- Nothing of the running plan is left at the awning, or no plan runs. -/
theorem State.displaced_apart (case : a.unplanned .awning ∨ ∃ b, a.claim .awning = some b ∧ b.owner = .sequencer) :
    (a.displaced.still .awning ∧ a.displaced.unplanned .awning) ∨ a.displaced.planRunning = false := by
  obtain free | held := case
  · obtain ⟨still, apart⟩ := State.windEndsMotion_apart free
    exact .inl (State.windDisplaces_apart still apart)
  · refine .inr (State.windDisplaces_led ?_)
    obtain ⟨-, same⟩ | ⟨e, z, -, keep, -, run⟩ := a.windEndsMotion_cases
    · rw [same]
      exact .inr held
    · rw [run]
      exact drain_led (.inr ⟨held, fun u mem => by
        obtain rfl := List.mem_singleton.mp mem
        simp⟩) (.cons (Task.plain_keep keep) .nil)

/-- The retract that is placed stands with WIND's claim, or is over (R107, R120). -/
theorem State.displaced_held {v : State} (p : WindPlaced a.displaced v t)
    (case : a.unplanned .awning ∨ ∃ b, a.claim .awning = some b ∧ b.owner = .sequencer) :
    Held (a.displaced.windEntry a.displaced.nextOrder) windClaim t := by
  obtain ⟨still, apart⟩ | silent := State.displaced_apart case
  · exact p.kept still apart
  · exact p.held silent

/-- While no plan runs the awning is at rest where it is displaced, with the outcome of the motion that ended. -/
theorem State.displaced_retracting {z : Ending} (silent : a.planRunning = false) (found : a.entryOf .awning = some e)
    (ends : Ends .awning z a a.windEndsMotion) :
    Retracting z.outcome a.displaced ∧ a.displaced.awning.lastOutcome = some z.outcome ∧ a.displaced.planRunning = false := by
  obtain ⟨still, -, plan⟩ := State.windEndsMotion_silent silent
  have quiet : a.windEndsMotion.planRunning = false := by rw [State.planRunning, plan]; exact silent
  have last : a.windEndsMotion.awning.lastOutcome = some z.outcome := (ends.ended.recorded silent).2
  have layout := a.windEndsMotion_does.follows.layout
  have first : Retracting z.outcome a.windEndsMotion := by
    refine ⟨fun n own driven => ?_, fun y mem group => absurd group (still y mem), .inl still⟩
    have own' : a.motorChan .awning .a = some n := State.motorChan_layout layout .awning .a ▸ own
    have stopped := (ends.chan found silent (awning_group own')).1
    have ended := State.chan_motionEnd_slide (id := .awning) (e := z) (n := n) found
    rw [if_pos (State.mem_slideChans.mpr ⟨.a, by unfold State.motors; split <;> simp, own'⟩)] at ended
    have off := congrArg Channel.driven (stopped.trans ended)
    rw [Channel.driven_stopped] at off
    exact absurd (driven.symm.trans off) (by simp)
  unfold State.displaced
  obtain same | raised := State.windDisplaces_silent quiet
  · rw [same]
    exact ⟨first, last, quiet⟩
  · rw [raised]
    exact ⟨first.aims rfl (.of_chans (fun _ => ⟨rfl, rfl⟩) fun id => by cases id <;> rfl) fun _ => .rfl, last, quiet⟩

/-- An awning at rest whose claim the running plan holds loses it, and the plan ends PREEMPTED (R157). -/
theorem State.displaced_plan (still : a.still .awning) (claim : a.claim .awning = some b) (owner : b.owner = .sequencer)
    (runs : a.planRunning = true) : a.displaced = drain workBound ((a.raise .preempt).planEnd .preempted (some a.lostAwning)) := by
  have same : a.windEndsMotion = a := by
    obtain ⟨-, same⟩ | ⟨e, z, found, -⟩ := a.windEndsMotion_cases
    · exact same
    · exact absurd (found.symm.trans (State.still_iff_entryOf.mp still)) (by simp)
  unfold State.displaced
  rw [same]
  obtain ⟨none, -⟩ | ⟨c, held, ⟨kept, -⟩ | ⟨-, -, run⟩⟩ := a.windDisplaces_cases
  · exact absurd (none.symm.trans claim) (by simp)
  · obtain rfl := Option.some.inj (held.symm.trans claim)
    exact absurd ⟨owner, runs⟩ kept
  · exact run

theorem State.displaced_plan_over {v : State} (p : WindPlaced a.displaced v t) (still : a.still .awning)
    (claim : a.claim .awning = some b) (owner : b.owner = .sequencer) (runs : a.planRunning = true) :
    t.noticed .plan = true ∧ t.noticed .preempt = true ∧
      t.plan = { a.plan with status := .preempted, failure := some a.lostAwning } ∧
      (a.motions = [] → ∀ g c, g ≠ .awning → a.claim g = some c → c.owner = .sequencer → t.claim g = none) := by
  have run := State.displaced_plan still claim owner runs
  have plan : a.displaced.plan = { a.plan with status := .preempted, failure := some a.lostAwning } := by
    rw [run, drain_planEnd_silent (s := a.raise .preempt) (by simp)]
    rfl
  have follows := (drain_does (F := fun _ => True) (n := workBound)
    (s := ((a.raise .preempt).planEnd .preempted (some a.lostAwning)).1)
    (l := ((a.raise .preempt).planEnd .preempted (some a.lostAwning)).2) State.planEnd_plain).follows
  refine ⟨p.noticed ?_, p.noticed ?_, (p.plan (by rw [State.planRunning, plan]; rfl)).trans plan, fun none g c other held planned => ?_⟩
  · rw [run]
    exact follows.noticed (State.noticed_raise ..)
  · rw [run]
    exact (drain_planEnd_does (s := a.raise .preempt) runs).follows.noticed (State.noticed_raise ..)
  · refine p.free other ?_
    rw [run]
    have unmoved := drain_planEnd_unmoved (k := 9999) (s := a.raise .preempt) (st := .preempted) (f := some a.lostAwning)
      fun y mem => by
        have moved : y ∈ a.motions := mem
        rw [none] at moved
        simp at moved
    refine (congrArg (fun v : State => v.claim g) unmoved).trans ?_
    rw [State.claim_freePlanClaims]
    change (a.claim g).filter _ = Option.none
    rw [held]
    simp [planned]

/-! ### Where the retract is placed -/

/-- The entry of the wind retract that waits for the budget. -/
def State.windWaiting (s : State) : Entry := { s.windEntry s.nextOrder with state := .waiting, pausedSince := some s.now }

/-- The course of the wind retract by the budget (R139). -/
structure WindCourse (s t : State) : Prop where
  fits : s.motionUnits .awning (.toward .stowing) + unitsOf s.load ≤ s.budget →
    t.load = s.load ++ [s.windEntry s.nextOrder] ∧ t.paused = s.paused
  sheds : s.motionUnits .awning (.toward .stowing) ≤ s.budget →
    s.budget < s.motionUnits .awning (.toward .stowing) + unitsOf s.load → t.noticed .supply = true ∧
      ∃ k, t.load = s.load.take k ++ [s.windEntry s.nextOrder] ∧
        s.motionUnits .awning (.toward .stowing) + unitsOf (s.load.take k) ≤ s.budget ∧
        s.budget < s.motionUnits .awning (.toward .stowing) + unitsOf (s.load.take (k + 1))
  waits : s.budget < s.motionUnits .awning (.toward .stowing) →
    t.load = s.load ∧ ∃ x ∈ t.paused, x = s.windWaiting

/-- What the budget reads of a state and keeps of it. -/
theorem WindCourse.congr {s' t' : State} (c : WindCourse s t) (units : s'.motionUnits .awning (.toward .stowing) =
    s.motionUnits .awning (.toward .stowing)) (load : s'.load = s.load) (paused : s'.paused = s.paused)
    (budget : s'.budget = s.budget) (order : s'.nextOrder = s.nextOrder) (now : s'.now = s.now) (tl : t'.load = t.load)
    (tp : t'.paused = t.paused) (notice : t.noticed .supply = true → t'.noticed .supply = true) : WindCourse s' t' := by
  have entry : s'.windEntry s'.nextOrder = s.windEntry s.nextOrder := by rw [State.windEntry, units, order]; rfl
  have waiting : s'.windWaiting = s.windWaiting := by rw [State.windWaiting, entry, now]; rfl
  refine ⟨?_, ?_, ?_⟩ <;> rw [units, load, budget, tl]
  · rw [paused, tp, entry]
    exact c.fits
  · rw [entry]
    exact fun small above => ⟨notice (c.sheds small above).1, (c.sheds small above).2⟩
  · rw [tp, waiting]
    exact c.waits

/-- An awning at rest and out is placed by the budget: in the load list, after the entries shed for it, or waiting. -/
theorem State.placeWind_course (still : s.still .awning) (configured : s.configured .awning = true)
    (away : s.allHome .awning = false) (spread : s.awningNotStowed = true) (calm : s.fallenPermit = none)
    (distinct : s.load.Nodup) (none : ∀ x ∈ s.load, x.owner ≠ .wind) :
    s.placeWind.2 = [] ∧ s.placeWind.1.fallenPermit = Option.none ∧ WindCourse s s.placeWind.1 := by
  have entered (v : State) (fits : v.fits (v.motionUnits .awning (.toward .stowing)) = true) :
      (v.placeEntry .awning .wind .auto (.toward .stowing)).1.load = v.load ++ [v.windEntry v.nextOrder] ∧
      (v.placeEntry .awning .wind .auto (.toward .stowing)).1.paused = v.paused := by
    unfold State.placeEntry
    dsimp only
    rw [if_pos fits]
    exact ⟨rfl, rfl⟩
  unfold State.placeWind
  dsimp only
  by_cases fits : s.motionUnits .awning (.toward .stowing) + unitsOf s.load ≤ s.budget
  · have holds : s.fits (s.motionUnits .awning (.toward .stowing)) = true := decide_eq_true fits
    rw [if_pos (by rw [holds]; rfl)]
    obtain ⟨work, load, paused, permits⟩ := State.placeRetract_calm still configured away spread calm
    obtain ⟨placed, rest⟩ := entered s holds
    refine ⟨work, permits, fun _ => ⟨load.trans placed, paused.trans rest⟩, fun _ above => ?_, fun above => ?_⟩
    · omega
    · omega
  · have above : s.fits (s.motionUnits .awning (.toward .stowing)) = false := decide_eq_false fits
    by_cases small : s.motionUnits .awning (.toward .stowing) ≤ s.budget
    · rw [if_neg (by simp [above, small])]
      obtain ⟨desk, -⟩ := State.shedTo_desk (d := .stowing) (s := s)
        (limit := s.budget - s.motionUnits .awning (.toward .stowing))
      have acts := State.shedTo_acts (s := s) (limit := s.budget - s.motionUnits .awning (.toward .stowing))
      have view := State.shedTo_view (s := s) (limit := s.budget - s.motionUnits .awning (.toward .stowing))
      obtain ⟨k, le, taken, within, next⟩ := State.shedDown_take (s := s) (Nat.le_refl _)
        (limit := s.budget - s.motionUnits .awning (.toward .stowing)) distinct none
      change (s.shedTo (s.budget - s.motionUnits .awning (.toward .stowing))).load = _ at taken
      have fixed := acts.fixed
      generalize s.shedTo (s.budget - s.motionUnits .awning (.toward .stowing)) = w at desk view taken fixed ⊢
      simp only [State.fixedPart, State.mk.injEq, true_and, and_true] at fixed
      have layout : (w.raise .supply).layout = s.layout := desk.layout
      have lines : (w.raise .supply).lines = s.lines := by simp [fixed]
      have supply : w.supply = s.supply := by simp [fixed]
      have units : (w.raise .supply).motionUnits .awning (.toward .stowing) = s.motionUnits .awning (.toward .stowing) :=
        State.motionUnits_layout layout
      have order : (w.raise .supply).nextOrder = s.nextOrder := desk.orders
      have budget : (w.raise .supply).budget = s.budget := by
        change w.supply.band.budget = s.supply.band.budget
        rw [supply]
      have chan := State.motorChan_layout layout .awning .a
      obtain ⟨work, load, -, permits⟩ := State.placeRetract_calm (s := w.raise .supply)
        (fun y mem => still y ((desk.motions y).mp mem))
        (by
          change ((w.raise .supply).motorChan .awning .a).isSome = true
          rw [chan]
          exact configured)
        (by
          have motors (v : State) : v.motors .awning = [.a] := rfl
          simp only [State.allHome, motors, List.all_cons, List.all_nil, Bool.and_true] at away ⊢
          rw [State.motorHome_congr layout lines]
          exact away)
        (by
          have seen : w.sliderState .awning = s.sliderState .awning := congrArg View.awning view
          change (w.sliderState .awning != .closed) = true
          rw [seen]
          exact spread)
        (by
          rw [State.fallenPermit_none_iff] at calm ⊢
          intro y mem
          refine (State.permitCause_congr (s := s) layout view).trans (calm y ((desk.motions y).mp mem)))
      have fitted : (w.raise .supply).fits ((w.raise .supply).motionUnits .awning (.toward .stowing)) = true := by
        refine decide_eq_true ?_
        rw [units, budget]
        change _ + unitsOf w.load ≤ _
        rw [taken]
        omega
      obtain ⟨placed, -⟩ := entered _ fitted
      refine ⟨work, permits, fun fits' => absurd fits' fits, fun _ _ => ⟨?_, k, ?_, by omega, ?_⟩, fun above => by omega⟩
      · exact (State.admit_follows (F := fun _ => True) (s := w.raise .supply) (g := .awning) (o := .wind) (m := .auto)
          (a := .toward .stowing)).noticed (State.noticed_raise ..)
      · rw [load, placed, State.windEntry, units, order]
        change w.load ++ _ = _
        rw [taken]
        rfl
      · by_cases less : k < s.load.length
        · have := next less
          omega
        · rw [List.take_of_length_le (by omega)]
          omega
    · rw [if_pos (by simp [Nat.lt_of_not_le small])]
      obtain ⟨work, load, paused, permits⟩ := State.placeRetract_calm still configured away spread calm
      refine ⟨work, permits, fun fits' => absurd fits' fits, fun small' => absurd small' small, fun _ => ?_⟩
      rw [load, paused]
      unfold State.placeEntry
      dsimp only
      rw [if_neg (by simp [above])]
      refine ⟨rfl, _, ?_, rfl⟩
      simp only [State.enterPause, mem_insertByOrder]
      exact .inl rfl

/-- The wind watch's own event where the awning is at rest, no plan runs and every motion has its permit (R139). -/
theorem State.displaced_course (silent : a.planRunning = false) (still : a.still .awning) (calm : a.fallenPermit = none)
    (distinct : a.load.Nodup) (unwound : ∀ x ∈ a.load, x.owner ≠ .wind) (configured : a.configured .awning = true)
    (away : a.allHome .awning = false) (out : a.sliderState .awning ≠ .closed) :
    WindCourse a (drain (j + 2) (a.displaced.windRetract, [.handover new])) := by
  have spread : a.awningNotStowed = true := by simpa [State.awningNotStowed] using out
  have same : a.windEndsMotion = a := by
    obtain ⟨-, same⟩ | ⟨e, z, found, -⟩ := a.windEndsMotion_cases
    · exact same
    · exact absurd (found.symm.trans (State.still_iff_entryOf.mp still)) (by simp)
  have course (p : State) (ports : ∃ q r, p = { a with ports := q, claims := r }) (old : View) :
      WindCourse a (drain (j + 2) (drain workBound (p.placeWind.1, p.placeWind.2 ++ [.handover old]), [.handover new])) := by
    obtain ⟨q, r, rfl⟩ := ports
    obtain ⟨work, permits, course⟩ := State.placeWind_course (s := ({ a with ports := q, claims := r } : State)) still configured
      away spread calm distinct unwound
    rw [work, List.nil_append]
    obtain ⟨butAlarm, does⟩ := drain_handovers_calm (i := 9998) (j := j) (old := old) (new := new) permits
    change WindCourse a (drain (j + 2) (drain (9998 + 2) _, _))
    generalize drain (j + 2) (drain (9998 + 2) (_, _), _) = t at butAlarm does ⊢
    refine course.congr rfl rfl rfl rfl rfl rfl ?_ ?_ does.follows.noticed
    · rw [butAlarm.1]
    · rw [butAlarm.1]
  unfold State.displaced
  rw [same]
  obtain kept | raised := State.windDisplaces_silent silent
  · rw [kept]
    exact course _ ⟨a.ports, _, rfl⟩ _
  · rw [raised]
    exact course _ ⟨(a.raise .preempt).ports, _, rfl⟩ _

/-- At an entry into GUSTY the wind watch takes the awning (R107). -/
theorem State.gustEntered_takes : Safety.WindTakesTheAwning a a (drain (j + 2) (a.gustEntered, [.handover new])) := by
  refine ⟨fun writing => ?_, fun idle out parked configured available => ?_⟩
  · have entered : a.gustEntered = { a with wind := { a.wind with gustMissed := true } } := by
      unfold State.gustEntered
      rw [if_pos writing]
    rw [entered]
    have follows := (drain_does (F := fun _ => True) (n := j + 2)
      (s := { a with wind := { a.wind with gustMissed := true } }) (l := [.handover new]) (.cons trivial .nil)).follows
    exact ⟨(congrArg (fun s : State => s.wind.gustMissed) follows.fixed).trans rfl, follows.free⟩
  · have entered : a.gustEntered = a.gustCheck := by
      unfold State.gustEntered
      rw [if_neg (by simp [idle])]
    rw [entered]
    by_cases held : ∃ c, a.claim .awning = some c ∧ c.owner = .wind
    · obtain ⟨c, claim, wind⟩ := held
      rw [State.gustCheck_holds claim wind]
      have follows := (drain_does (F := fun _ => True) (n := j + 2) (s := a) (l := [.handover new]) (.cons trivial .nil)).follows
      refine ⟨fun b stands => ?_, fun other => absurd wind (other c claim)⟩
      obtain ⟨x, before, owner, -⟩ := follows.claimed _ _ stands
      obtain rfl := Option.some.inj (before.symm.trans claim)
      exact owner.trans wind
    · have other : ∀ b, a.claim .awning = some b → b.owner ≠ .wind := fun b claim wind => held ⟨b, claim, wind⟩
      rw [State.gustCheck_takes out parked configured available other]
      have course := State.displaced_course (a := a) (j := j) (new := new)
      obtain ⟨v, p⟩ := State.windRetract_placed (s := a.displaced) (i := j + 2) (old := new)
      generalize drain (j + 2) (a.displaced.windRetract, [.handover new]) = t at p course ⊢
      refine ⟨p.claimed, fun _ => ⟨fun e mem own => ?_, fun claim silent => ?_, fun case => ?_, fun e found => ?_,
        fun b claim owner runs still => ?_, fun e units hu he silent still calm distinct unwound away => ?_⟩⟩
      · obtain later | before := p.entries mem
        · exact Nat.le_trans a.displaced_does.follows.orders later
        · exact State.displaced_gone before own
      · exact p.noticed (State.displaced_preempts (by simpa using silent) claim)
      · cases State.displaced_held p case with
        | stands mem claim =>
          refine .inl ⟨claim, a.displaced.nextOrder, a.displaced_does.follows.orders, ?_⟩
          have units : a.displaced.motionUnits .awning (.toward .stowing) = a.motionUnits .awning (.toward .stowing) :=
            State.motionUnits_layout a.displaced_does.follows.layout
          rw [State.windEntry, units] at mem
          exact mem
        | ended still claim noticed => exact .inr ⟨claim, still, noticed⟩
      · obtain ⟨z, -, outcome, ends⟩ := State.windEndsMotion_ends found
        have follows := a.windEndsMotion.windDisplaces_does.follows
        refine ⟨p.noticed (follows.noticed ends.ended.motionEnd), fun outward => p.noticed (follows.noticed
          (ends.ended.interlock (by rw [outcome, if_pos outward]))), fun silent => ?_⟩
        obtain ⟨awning, last, quiet⟩ := State.displaced_retracting silent found ends
        obtain ⟨drives, -, shown⟩ := p.retracting quiet awning last
        have layout : t.layout = a.layout := p.follows.layout.trans ((State.admit_follows (F := fun _ => True) (s := v)
          (g := .awning) (o := .wind) (m := .auto) (a := .toward .stowing)).layout.trans
          (p.layout.trans a.displaced_does.follows.layout))
        refine ⟨fun n own ⟨driven, dir⟩ => ?_, fun moving => ?_⟩
        · have own' : t.motorChan .awning .a = some n := (State.motorChan_layout layout .awning .a).trans own
          exact absurd ((drives n own' driven).symm.trans dir) (by simp)
        · rw [← outcome]
          exact shown.resolve_left moving
      · exact State.displaced_plan_over p still claim owner runs
      · subst hu he
        obtain ⟨fits, sheds, waits⟩ := course silent still calm distinct unwound configured away out
        exact ⟨fits, sheds, waits⟩

end

end Sys2Proof.Machine
end

section
/-! PROOFS. The wind speed and the holds of the wind watch (R38, R39, R104, R105, R107). -/

namespace Sys2Proof.Machine

section
variable {s t u w a : State} {g : Group} {j v : Nat} {new : View} {due : Time}

/-! ### The event of an entry into GUSTY -/

/-- An entry into GUSTY leaves the part of the state that no event's work changes, but for the check that a store write puts
off, and loses no notice. -/
theorem State.gustEntered_rest : (∃ b, (drain (j + 2) (a.gustEntered, [.handover new])).fixedPart =
      ({ a with wind := { a.wind with gustMissed := b } } : State).fixedPart) ∧
    ∀ f, a.noticed f = true → (drain (j + 2) (a.gustEntered, [.handover new])).noticed f = true := by
  have quiet (s : State) := (drain_does (F := fun _ => True) (n := j + 2) (s := s) (l := [.handover new])
    (.cons trivial .nil)).follows
  unfold State.gustEntered
  split
  · exact ⟨⟨true, (quiet _).fixed⟩, fun f past => (quiet _).noticed past⟩
  · unfold State.gustCheck
    split
    · obtain ⟨v, p⟩ := State.windRetract_placed (s := a.displaced) (i := j + 2) (old := new)
      exact ⟨⟨a.wind.gustMissed, p.fixedPart.trans a.displaced_does.follows.fixed⟩,
        fun f past => p.noticed (a.displaced_does.follows.noticed past)⟩
    · exact ⟨⟨a.wind.gustMissed, (quiet a).fixed⟩, fun f past => (quiet a).noticed past⟩

/-- The wind fells the permit of no motion but the awning's (R105, R127). -/
theorem State.fallenPermit_wind (later : Later s u) (still : s.still .awning) (calm : s.fallenPermit = none)
    (same : a = { u with wind := a.wind, ports := a.ports }) : a.fallenPermit = none := by
  have motions : a.motions = s.motions := by
    rw [← later.motions, same]
    rfl
  rw [State.fallenPermit_none_iff] at calm ⊢
  intro y mem
  rw [motions] at mem
  have permitted := calm y mem
  have other : y.group ≠ .awning := still y mem
  have before : u.permitCause y.group y.action = none := (State.permitCause_congr later.layout later.view).trans permitted
  rw [same]
  generalize y.group = g at other before
  cases g with
  | room k => exact before
  | jacks => exact before
  | awning => exact absurd rfl other

/-- What the wind watch finds at the moment of its event is what the state before it holds. -/
theorem takes_of_later (later : Later s u) (same : a = { u with wind := a.wind, ports := a.ports })
    (takes : Safety.WindTakesTheAwning a a t) : Safety.WindTakesTheAwning s u t := by
  have permits (still : s.still .awning) (calm : s.fallenPermit = none) : a.fallenPermit = none :=
    State.fallenPermit_wind later still calm same
  have layout : a.layout = s.layout := by rw [same]; exact later.layout
  have write : a.write = s.write := by rw [same]; exact later.write
  have road : a.road = s.road := by rw [same]; exact later.road
  have load : a.load = s.load := by rw [same]; exact later.load
  have paused : a.paused = s.paused := by rw [same]; exact later.paused
  have claims : a.claims = s.claims := by rw [same]; exact later.claims
  have plan : a.plan = s.plan := by rw [same]; exact later.plan
  have order : a.nextOrder = s.nextOrder := by rw [same]; exact later.nextOrder
  have supply : a.supply = s.supply := by rw [same]; exact later.supply
  have lines : a.lines = s.lines := by rw [same]; exact later.lines
  have now : a.now = u.now := by rw [same]
  have closed : a.sliderState .awning = s.sliderState .awning := by
    refine Eq.trans ?_ (congrArg View.awning later.view)
    rw [same]
    rfl
  have chan (r : Role) : a.roleChan r = s.roleChan r := by
    rw [← later.roleChan, same]
    rfl
  have configured : a.configured .awning = s.configured .awning := by
    change (a.roleChan .awning).isSome = (s.roleChan .awning).isSome
    rw [chan]
  have census (n : Chan) : (a.chan n).census = (s.chan n).census := by
    have one := congrArg Channel.census (later.chan n)
    rw [same]
    exact one
  have role (n : Chan) : a.role n = s.role n := by rw [State.role, State.role, layout]
  have unavailable : a.unavailable .awning = s.unavailable .awning := by
    simp only [State.unavailable, State.groupChans, role, census]
  have claim (g : Group) : a.claim g = s.claim g := by simp only [State.claim, claims]
  have running : a.planRunning = s.planRunning := by simp only [State.planRunning, plan]
  have unplanned : a.unplanned .awning ↔ s.unplanned .awning := by simp only [State.unplanned, running, plan, layout]
  have units : a.motionUnits .awning (.toward .stowing) = s.motionUnits .awning (.toward .stowing) :=
    State.motionUnits_layout layout
  have entry : a.entryOf .awning = s.entryOf .awning := by simp only [State.entryOf, load, paused]
  have motions : a.motions = s.motions := by simp only [State.motions, load, paused]
  have still : a.still .awning ↔ s.still .awning := by simp only [State.still, motions]
  have budget : a.budget = s.budget := by simp only [State.budget, supply]
  have home : a.allHome .awning = s.allHome .awning := by
    change (a.motorHome .awning .a && _) = (s.motorHome .awning .a && _)
    rw [State.motorHome_congr layout lines]
    rfl
  unfold Safety.WindTakesTheAwning at takes ⊢
  simp only [write, road, load, paused, plan, order, closed, chan, configured, unavailable, claim, running, unplanned, units,
    entry, motions, still, budget, home, now] at takes
  refine ⟨takes.1, fun idle out parked set free => ?_⟩
  obtain ⟨owner, rest⟩ := takes.2 idle out parked set free
  refine ⟨owner, fun other => ?_⟩
  obtain ⟨gone, preempts, taken, ended, planned, placed⟩ := rest other
  exact ⟨gone, preempts, taken, ended, planned, fun e units hu he silent rest calm =>
    placed e units hu he silent rest (permits rest calm)⟩

/-! ### The holds -/

theorem exec_gustHold (awake : s.inReset = none) (rising : s.wind.state = .rising) (deadline : s.wind.deadline = some due)
    (comes : s.comes due = true) : exec .gustHoldReached s = .next (s.advanceTo due).gustReached := by
  have arm : exec .gustHoldReached s = .next (s.awake fun t => t.gustHold) := rfl
  rw [arm, exec_awake (f := fun t : State => t.gustHold) awake]
  simp [State.gustHold, State.windDue, rising, deadline, comes]

theorem exec_calmHold (awake : s.inReset = none) (easing : s.wind.state = .easing) (deadline : s.wind.deadline = some due)
    (comes : s.comes due = true) : exec .calmHoldReached s = .next (s.advanceTo due).calmReached := by
  have arm : exec .calmHoldReached s = .next (s.awake fun t => t.calmHold) := rfl
  rw [arm, exec_awake (f := fun t : State => t.calmHold) awake]
  simp [State.calmHold, State.windDue, easing, deadline, comes]

/-- The gust hold ends in GUSTY, with notice WIND and the check of R107 (R105). -/
theorem State.gustReached_spec (later : Later s u) :
    u.gustReached.wind.state = .gusty ∧ u.gustReached.wind.deadline = none ∧ u.gustReached.wind.timer = 0 ∧
    u.gustReached.wind.speed = u.wind.speed ∧ u.gustReached.noticed .wind = true ∧
    Safety.WindTakesTheAwning s u u.gustReached ∧
    { u.gustReached.fixedPart with wind := s.wind } = { u.fixedPart with wind := s.wind } := by
  have run : u.gustReached =
      drain (9998 + 2) (((u.setWind (u.wind.settledIn .gusty)).raise .wind).gustEntered, [.handover u.view]) := rfl
  have takes := takes_of_later later rfl
    (State.gustEntered_takes (a := (u.setWind (u.wind.settledIn .gusty)).raise .wind) (j := 9998) (new := u.view))
  obtain ⟨⟨b, fixed⟩, notices⟩ := State.gustEntered_rest (a := (u.setWind (u.wind.settledIn .gusty)).raise .wind) (j := 9998)
    (new := u.view)
  rw [← run] at takes fixed notices
  generalize u.gustReached = t at takes fixed notices
  have wind := congrArg State.wind fixed
  change t.wind = _ at wind
  refine ⟨by rw [wind]; rfl, by rw [wind]; rfl, by rw [wind]; rfl, by rw [wind]; rfl, notices _ (State.noticed_raise ..), takes, ?_⟩
  rw [fixed]
  rfl

/-- The calm hold ends in CALM, with notice WIND (R105). -/
theorem State.calmReached_spec :
    u.calmReached.wind.state = .calm ∧ u.calmReached.wind.deadline = none ∧ u.calmReached.wind.timer = 0 ∧
    u.calmReached.wind.speed = u.wind.speed ∧ u.calmReached.noticed .wind = true ∧
    (∀ g, u.claim g = none → u.calmReached.claim g = none) ∧
    ∀ x, { u.calmReached.fixedPart with wind := x } = { u.fixedPart with wind := x } := by
  have run : u.calmReached =
      drain workBound ((u.setWind (u.wind.settledIn .calm)).raise .wind, [.handover u.view]) := rfl
  have follows := (drain_does (F := fun _ => True) (n := workBound) (s := (u.setWind (u.wind.settledIn .calm)).raise .wind)
    (l := [.handover u.view]) (.cons trivial .nil)).follows
  rw [← run] at follows
  generalize u.calmReached = t at follows
  have fixed := follows.fixed
  have wind := congrArg State.wind fixed
  change t.wind = _ at wind
  refine ⟨by rw [wind]; rfl, by rw [wind]; rfl, by rw [wind]; rfl, by rw [wind]; rfl, follows.noticed (State.noticed_raise ..),
    fun g none => follows.free g none, fun x => ?_⟩
  rw [fixed]
  rfl

/-! ### The wind speed -/

/-- The speed of a record: 0 before four captures and at a full counter, else the constant by the larger of the wind pace and
the counter, up to 999 (R39). -/
theorem windSpeed_eq {k : Nat} {w : Wind} : windSpeed k w =
    if w.ring.length < 4 ∨ w.counter = 65535 then 0
    else
      let divisor := max ((w.ring.drop (w.ring.length - 4)).sum / 4) w.counter
      if divisor = 0 then 999 else min 999 (k / divisor) := by
  unfold windSpeed windPace meanOfRecent
  by_cases few : w.ring.length < 4
  · rw [if_neg (Nat.not_le.mpr few), if_pos (.inl few)]
  · rw [if_pos (Nat.not_lt.mp few)]
    dsimp only
    by_cases full : w.counter = 65535
    · rw [if_pos full, if_pos (.inr full)]
    · rw [if_neg full, if_neg (not_or.mpr ⟨few, full⟩)]

theorem Wind.pulse_eq (w : Wind) : w.pulse = { w with
    counter := 0
    ring := (if w.ring.length < 8 then w.ring else w.ring.drop (w.ring.length - 7)) ++ [w.counter] } := by
  unfold Wind.pulse pushCapture
  split <;> rfl

/-- A speed that leads to no entry into GUSTY changes the wind record alone, and where the wind state stays nothing else
(R104). -/
theorem State.windSet_spec {w' : Wind} (set : s.windHanded v = s.setWind w') :
    (drain (9998 + 2) (s.windHanded v, [.handover s.view])).wind = w' ∧
    (drain (9998 + 2) (s.windHanded v, [.handover s.view])).fixedPart = (s.setWind w').fixedPart ∧
    (w'.state = s.wind.state → drain (9998 + 2) (s.windHanded v, [.handover s.view]) = s.setWind w') := by
  rw [set]
  have fixed := (drain_does (F := fun _ => True) (n := 9998 + 2) (s := s.setWind w') (l := [.handover s.view])
    (.cons trivial .nil)).follows.fixed
  refine ⟨congrArg State.wind fixed, fixed, fun same => ?_⟩
  have view : (s.setWind w').view = s.view := by
    change ({ s.view with wind := w'.state } : View) = s.view
    rw [same]
    rfl
  exact (drain_handover_same view).trans (drain_nil _)

/-- The wind record that a speed leads to, by the wind state (R104). -/
def State.windNext (s : State) (w : Wind) (v : Nat) : Wind :=
  match w.state with
  | .unwatched => w
  | .calm =>
    if s.layout.wind.gust ≤ v then
      { w with speed := v, state := .rising, deadline := some (s.now + seconds s.layout.wind.gustHold), timer := 0 }
    else { w with speed := v }
  | .rising =>
    if v < s.layout.wind.gust then { w with speed := v, state := .calm, deadline := none, timer := 0 }
    else { w with speed := v }
  | .gusty =>
    if v < s.layout.wind.calm then
      { w with speed := v, state := .easing, deadline := some (s.now + seconds s.layout.wind.calmHold), timer := 0 }
    else { w with speed := v }
  | .easing =>
    if s.layout.wind.calm ≤ v then { w with speed := v, state := .gusty, deadline := none, timer := 0 }
    else { w with speed := v }

theorem State.missed_windNext {w : Wind} : (s.windNext w v).gustMissed = w.gustMissed := by
  unfold State.windNext
  split
  · rfl
  all_goals split <;> rfl

/-- A speed is handed to the wind watch: the next record, and from EASING back into GUSTY the check of R107 with it. -/
theorem State.windHanded_next {w : Wind} : (s.setWind w).windHanded v =
    if w.state = .easing ∧ s.layout.wind.calm ≤ v then (s.setWind (s.windNext w v)).gustEntered
    else s.setWind (s.windNext w v) := by
  obtain ⟨state, speed, deadline, timer, counter, ring, missed⟩ := w
  cases state with
  | easing =>
    by_cases rough : s.layout.wind.calm ≤ v
    · have next : s.windNext ⟨.easing, speed, deadline, timer, counter, ring, missed⟩ v =
          ⟨.gusty, v, none, 0, counter, ring, missed⟩ := if_pos rough
      rw [if_pos ⟨rfl, rough⟩, next]
      exact if_pos rough
    · have next : s.windNext ⟨.easing, speed, deadline, timer, counter, ring, missed⟩ v =
          ⟨.easing, v, deadline, timer, counter, ring, missed⟩ := if_neg rough
      rw [if_neg fun both => rough both.2, next]
      exact if_neg rough
  | _ => rfl

/-- What the wind watch is handed by a speed, where it leads to no entry into GUSTY. -/
theorem State.windQuiet_spec {w : Wind} (state : w.state = s.wind.state)
    (quiet : ¬(w.state = .easing ∧ s.layout.wind.calm ≤ v)) :
    { (drain (9998 + 2) ((s.setWind w).windHanded v, [.handover (s.setWind w).view])).wind with
      gustMissed := w.gustMissed } = s.windNext w v ∧
    ((drain (9998 + 2) ((s.setWind w).windHanded v, [.handover (s.setWind w).view])).wind.state = s.wind.state →
      drain (9998 + 2) ((s.setWind w).windHanded v, [.handover (s.setWind w).view]) =
        { s with wind := (drain (9998 + 2) ((s.setWind w).windHanded v, [.handover (s.setWind w).view])).wind }) ∧
    { (drain (9998 + 2) ((s.setWind w).windHanded v, [.handover (s.setWind w).view])).fixedPart with wind := s.wind } =
      s.fixedPart := by
  obtain ⟨wind, fixed, quiet⟩ := State.windSet_spec (s := s.setWind w) (State.windHanded_next.trans (if_neg quiet))
  have missed := State.missed_windNext (s := s) (w := w) (v := v)
  generalize drain (9998 + 2) ((s.setWind w).windHanded v, [.handover (s.setWind w).view]) = t at wind fixed quiet
  refine ⟨by rw [wind, ← missed], fun same => ?_, by rw [fixed]; rfl⟩
  rw [wind] at same ⊢
  exact quiet (same.trans state.symm)

/-- A speed that leads from EASING back to GUSTY is an entry into GUSTY (R104, R107). -/
theorem State.windEntry_spec {w : Wind} (easing : w.state = .easing) (rough : s.layout.wind.calm ≤ v) :
    { (drain (9998 + 2) ((s.setWind w).windHanded v, [.handover (s.setWind w).view])).wind with
      gustMissed := w.gustMissed } = s.windNext w v ∧
    (drain (9998 + 2) ((s.setWind w).windHanded v, [.handover (s.setWind w).view])).wind.state = .gusty ∧
    Safety.WindTakesTheAwning s s (drain (9998 + 2) ((s.setWind w).windHanded v, [.handover (s.setWind w).view])) ∧
    { (drain (9998 + 2) ((s.setWind w).windHanded v, [.handover (s.setWind w).view])).fixedPart with wind := s.wind } =
      s.fixedPart := by
  have next : (s.windNext w v).state = .gusty := by
    unfold State.windNext
    rw [easing]
    exact congrArg Wind.state (if_pos rough)
  have missed := State.missed_windNext (s := s) (w := w) (v := v)
  rw [State.windHanded_next, if_pos ⟨easing, rough⟩]
  generalize s.windNext w v = w' at next missed
  have takes := takes_of_later (.refl s) rfl (State.gustEntered_takes (a := s.setWind w') (j := 9998) (new := (s.setWind w).view))
  obtain ⟨⟨b, fixed⟩, -⟩ := State.gustEntered_rest (a := s.setWind w') (j := 9998) (new := (s.setWind w).view)
  generalize drain (9998 + 2) ((s.setWind w').gustEntered, _) = t at takes fixed
  have wind := congrArg State.wind fixed
  change t.wind = _ at wind
  refine ⟨by rw [wind, ← missed]; rfl, by rw [wind]; exact next, takes, by rw [fixed]; rfl⟩

end

/-- Settles O43: an entry into GUSTY is the wind watch's check on the state at the hold's moment, whose claim, motion and budget
are those from before; the calm hold raises a notice alone. -/
theorem windHoldsAreReached : Obligations.WindHoldsAreReached := by
  unfold Obligations.WindHoldsAreReached
  intro s due u awake hu
  have later : Later s u := hu ▸ .advanceTo s due
  have speed : u.wind.speed = s.wind.speed := by rw [later.wind]
  have gust : exec .gustHoldReached s = .next s.gustHold := by
    have arm : exec .gustHoldReached s = .next (s.awake fun t => t.gustHold) := rfl
    rw [arm, exec_awake (f := fun t : State => t.gustHold) awake]
  have calm : exec .calmHoldReached s = .next s.calmHold := by
    have arm : exec .calmHoldReached s = .next (s.awake fun t => t.calmHold) := rfl
    rw [arm, exec_awake (f := fun t : State => t.calmHold) awake]
  refine ⟨fun rising deadline => ⟨fun waits => ?_, fun comes => ?_⟩, fun other => ?_, fun easing deadline =>
    ⟨fun waits => ?_, fun comes => ?_⟩, fun other => ?_⟩
  · rw [gust]
    simp [State.gustHold, State.windDue, rising, deadline, waits]
  · obtain ⟨state, cleared, timer, same, notice, takes, fixed⟩ := State.gustReached_spec later
    refine ⟨u.gustReached, ?_, state, cleared, timer, same.trans speed, notice, takes, fixed⟩
    rw [exec_gustHold awake rising deadline comes, hu]
  · rw [gust]
    simp [State.gustHold, State.windDue, other]
  · rw [calm]
    simp [State.calmHold, State.windDue, easing, deadline, waits]
  · obtain ⟨state, cleared, timer, same, notice, free, fixed⟩ := State.calmReached_spec (u := u)
    refine ⟨u.calmReached, ?_, state, cleared, timer, same.trans speed, notice, fun g none => free g ?_, fixed _⟩
    · rw [exec_calmHold awake easing deadline comes, hu]
    · rw [later.claim]
      exact none
  · rw [calm]
    simp [State.calmHold, State.windDue, other]

/-- Settles O42: the speed is handed to the wind watch by its state, and the entry into GUSTY is its check. -/
theorem windSpeedIsHandedOver : Obligations.WindSpeedIsHandedOver := by
  unfold Obligations.WindSpeedIsHandedOver
  intro s c w awake command
  have state : w.state = s.wind.state := by
    obtain ⟨-, rfl⟩ | ⟨-, rfl⟩ := command <;> rfl
  have run : exec c s = .next (if s.layout.wind.present then (s.setWind w).computeWind else s) := by
    obtain ⟨rfl, rfl⟩ | ⟨rfl, rfl⟩ := command
    · have arm : exec .windSpeedTick s = .next (s.awake fun t => if t.layout.wind.present then t.computeWind else t) := rfl
      rw [arm, exec_awake (f := fun t : State => if t.layout.wind.present then t.computeWind else t) awake]
      rfl
    · have arm : exec .wndPulse s =
        .next (s.awake fun t => if t.layout.wind.present then (t.setWind t.wind.pulse).computeWind else t) := rfl
      rw [arm, exec_awake
        (f := fun t : State => if t.layout.wind.present then (t.setWind t.wind.pulse).computeWind else t) awake,
        Wind.pulse_eq]
  refine ⟨fun absent => ?_, fun present => ?_⟩
  · rw [run, absent]
    rfl
  · rw [run, present]
    refine ⟨_, windSpeed s.layout.wind.constantK w, rfl, windSpeed_eq, ?_⟩
    have handed : (s.setWind w).computeWind = drain (9998 + 2)
        ((s.setWind w).windHanded (windSpeed s.layout.wind.constantK w), [.handover (s.setWind w).view]) := rfl
    rw [handed]
    generalize windSpeed s.layout.wind.constantK w = v
    by_cases entry : w.state = .easing ∧ s.layout.wind.calm ≤ v
    · obtain ⟨wind, gusty, takes, fixed⟩ := State.windEntry_spec entry.1 entry.2
      exact ⟨wind, fun same => absurd (gusty.symm.trans (same.trans (state.symm.trans entry.1))) (by simp),
        fun _ _ => takes, fixed⟩
    · obtain ⟨wind, still, fixed⟩ := State.windQuiet_spec state entry
      exact ⟨wind, still, fun easing rough => absurd ⟨easing, rough⟩ entry, fixed⟩

end Sys2Proof.Machine
end

section
/-! PROOFS. The pitch and the roll that a level run stored stand through the work of an event (R83, R85). -/

namespace Sys2Proof.Machine

section
variable {s t u w : State} {g h : Group} {n : Chan} {d : Dir} {e : Entry} {i j : JackId} {k : Nat} {l : List Task} {task : Task}
  {z : Ending} {a : Action}

/-- From one state to the other the stored pitch and roll have not changed. -/
def SameTilt (s t : State) : Prop := t.level.pitch = s.level.pitch ∧ t.level.roll = s.level.roll

theorem SameTilt.of_level (same : t.level = s.level) : SameTilt s t := by
  unfold SameTilt
  rw [same]
  exact ⟨rfl, rfl⟩

theorem SameTilt.refl (s : State) : SameTilt s s := .of_level rfl

theorem SameTilt.trans (a : SameTilt s t) (b : SameTilt t u) : SameTilt s u := ⟨b.1.trans a.1, b.2.trans a.2⟩

theorem SameTilt.forEach {α : Type} {l : List α} {f : α → State → State} (step : ∀ a t, SameTilt t (f a t)) (s : State) :
    SameTilt s (forEach l f s) := by
  induction l generalizing s with
  | nil => exact .refl s
  | cons a rest ih => exact (step a s).trans (ih (f a s))

theorem SameTilt.stopChan : SameTilt s (s.stopChan n) := .of_level (by rw [State.stopChan_eq]; rfl)

theorem SameTilt.startChan : SameTilt s (s.startChan n d).1 := by
  have started (v : State) : (v.driveStart n d).level = v.level := by
    unfold State.driveStart State.mirrorTally
    dsimp only
    split <;> split <;> rfl
  obtain eq | ⟨c, eq⟩ | eq | ⟨c, eq⟩ := s.startChan_cases (n := n) (d := d) <;> rw [eq]
  · exact .refl s
  · exact .of_level rfl
  · exact .of_level (started s)
  · exact .of_level (started _)

theorem SameTilt.stopValve : SameTilt s (s.stopValve j) := by
  unfold State.stopValve
  split
  · exact .stopChan
  · exact .refl s

theorem SameTilt.startValve : SameTilt s (s.startValve j d) := by
  unfold State.startValve
  split
  · exact .startChan
  · exact .refl s

theorem SameTilt.pumpFollow : SameTilt s s.pumpFollow := .of_level State.level_pumpFollow

theorem SameTilt.startActive {l : List JackId} : SameTilt s (s.startActive l) := by
  refine .forEach (fun j t => ?_) s
  split
  · exact .startValve
  · exact .refl t

theorem SameTilt.onJack {f : Jack → Jack} : SameTilt s (s.onJack j f) := .of_level rfl

theorem SameTilt.onJacks {l : List JackId} {f : JackId → Jack → Jack} : SameTilt s (Machine.forEach l (fun j t => t.onJack j (f j)) s) :=
  .forEach (fun _ _ => .onJack) s

theorem SameTilt.settleBegin : SameTilt s s.settleBegin :=
  SameTilt.trans (t := { s with level := { s.level with phase := .settle, phaseTime := 0 } }) ⟨rfl, rfl⟩ .pumpFollow

theorem SameTilt.contactBegin : SameTilt s s.contactBegin := by
  unfold State.contactBegin
  dsimp only
  have begun (v : State) (same : SameTilt s v) : SameTilt s (if v.anyActive s.configuredJacks then v else v.settleBegin) := by
    split
    · exact same
    · exact same.trans .settleBegin
  refine begun _ (SameTilt.trans (SameTilt.trans (t := { s with level := { s.level with phase := .contact, phaseTime := 0 } })
    ⟨rfl, rfl⟩ (.forEach (fun _ _ => .onJack) _)) (SameTilt.startActive.trans .pumpFollow))

theorem SameTilt.levelAdmit {run : Bool} : SameTilt s (s.levelAdmit run) := by
  unfold State.levelAdmit
  dsimp only
  have admitted : SameTilt s (Machine.forEach s.configuredJacks
      (fun j t => t.onJack j fun r => { r with phase := .done, atStroke := false })
      { s with level := s.level.admitted, jackSet := { s.jackSet with levelMark := false } }) :=
    SameTilt.trans (t := { s with level := s.level.admitted, jackSet := { s.jackSet with levelMark := false } }) ⟨rfl, rfl⟩
      (.forEach (fun _ _ => .onJack) _)
  split
  · exact admitted.trans .contactBegin
  · exact admitted

theorem SameTilt.jackCheck : SameTilt s s.jackCheck.1 := by
  unfold State.jackCheck
  split
  · exact .refl s
  · split
    · exact .refl s
    · split
      · split
        · split
          · exact .settleBegin
          · exact SameTilt.trans (t := { s with level := { s.level with pass := s.level.pass + 1 } }) ⟨rfl, rfl⟩ .settleBegin
          · exact .refl s
        · exact .refl s
      · exact .refl s

theorem SameTilt.doneAtOnce : SameTilt s (s.doneAtOnce a j) := by
  unfold State.doneAtOnce
  dsimp only
  split
  all_goals first | exact .refl s | (split <;> first | exact .onJack | exact .refl s)

theorem SameTilt.jackAdmit {run : Bool} : SameTilt s (s.jackAdmit a run).1 := by
  have begun : SameTilt s { s with jackSet := { s.jackSet with runTime := 0 } } := .of_level rfl
  unfold State.jackAdmit
  dsimp only
  split
  · exact begun.trans .levelAdmit
  · have active : SameTilt s (Machine.forEach (({ s with jackSet := { s.jackSet with runTime := 0 } } : State).jacksOf a)
        (fun j t => (t.jackActivate j a.dir).doneAtOnce a j) { s with jackSet := { s.jackSet with runTime := 0 } }) :=
      begun.trans (.forEach (fun j t => SameTilt.trans (t := t.jackActivate j a.dir) .onJack .doneAtOnce) _)
    split
    · refine active.trans ?_
      split
      · exact SameTilt.startActive.trans .pumpFollow
      · exact .refl _
    · exact active.trans .jackCheck

theorem SameTilt.jackResume {first : Bool} : SameTilt s (s.jackResume first).1 := by
  have settled {l : List JackId} : SameTilt s (s.startActive l).jackSettled.1 :=
    SameTilt.startActive.trans (SameTilt.pumpFollow.trans .jackCheck)
  unfold State.jackResume
  split
  · exact .refl s
  · split
    · split
      · exact .contactBegin
      · split
        · exact ⟨rfl, rfl⟩
        · exact settled
    · exact settled

theorem SameTilt.jackEnd : SameTilt s (s.jackEnd a z) := by
  have stops : SameTilt s (Machine.forEach (s.jacksOf a) (fun j t => t.stopValve j) s) := .forEach (fun _ _ => .stopValve) s
  have pump (v : State) : SameTilt v v.stopPump := by
    unfold State.stopPump
    split
    · exact .stopChan
    · exact .refl v
  have idle (v : State) : SameTilt v v.idleJacks := .forEach (fun _ _ => .onJack) v
  have stored (v : State) : SameTilt v (v.storeEndFault z) := by
    unfold State.storeEndFault
    split
    · refine .forEach (fun j t => ?_) v
      unfold State.storeJackFault
      split
      · exact .refl t
      · exact .of_level rfl
    · exact .refl v
  have recorded (v : State) : SameTilt v (v.recordJackEnd a z.outcome) := by
    unfold State.recordJackEnd
    split
    · exact ⟨rfl, rfl⟩
    · exact .of_level rfl
  exact (((stops.trans (pump _)).trans (idle _)).trans (stored _)).trans (recorded _)

/-! ### Through the work of an event -/

/-- Work of a group other than the jacks leaves the level run. -/
theorem SameTilt.of_controls (part : Controls g s t) (other : g ≠ .jacks) : SameTilt s t :=
  .of_level (part.axes .jacks other.symm).2.2

theorem SameTilt.controllerEnd : SameTilt s (s.controllerEnd g a z) := by
  cases g with
  | room k => exact .of_controls (State.controllerEnd_controls (g := .room k)) (by simp)
  | jacks => exact .jackEnd
  | awning => exact .of_controls (State.controllerEnd_controls (g := .awning)) (by simp)

theorem SameTilt.controllerAdmit {run : Bool} : SameTilt s (s.controllerAdmit g a run).1 := by
  cases g with
  | room k => exact .of_controls (State.controllerAdmit_controls (g := .room k)) (by simp)
  | jacks => exact .jackAdmit
  | awning => exact .of_controls (State.controllerAdmit_controls (g := .awning)) (by simp)

theorem SameTilt.motionEnd : SameTilt s (s.motionEnd g z).1 := by
  cases found : s.entryOf g with
  | none =>
    rw [State.motionEnd, found]
    exact .refl s
  | some x =>
    have frame := State.motionEnd_frame (e := z) found
    have part := SameTilt.controllerEnd (s := s) (g := g) (a := x.action) (z := z)
    generalize (s.motionEnd g z).1 = w at frame ⊢
    rw [frame]
    exact part

/-- No piece of work within an event changes the stored pitch and roll. -/
theorem State.runTask_sameTilt : SameTilt s (s.runTask task).1 := by
  have frees (v : State) : SameTilt v v.freePlanClaims := by
    obtain ⟨⟨table, freed⟩, -⟩ := freePlanClaims_spec v
    rw [freed]
    exact .refl v
  have advanced (v : State) : SameTilt v v.stepAdvance.1 := by
    unfold State.stepAdvance
    split
    · split <;> exact .of_level rfl
    · exact .refl v
  cases task with
  | endMotion h z => exact .motionEnd
  | handover v =>
    change SameTilt s (s.handOver v).1
    unfold State.handOver
    split
    · exact .refl s
    · exact .of_level (by rw [s.butAlarm_evalAlarm.1])
  | permits => exact (State.checkPermits_fst (s := s)).symm ▸ .refl s
  | scan => exact .of_level (by change s.scan.1.level = _; rw [s.scan_frame])
  | resume h order first =>
    change SameTilt s (s.resumeEntry h order first).1
    unfold State.resumeEntry
    split
    · cases h with
      | room q => exact .of_controls (State.slideResume_controls (id := .room q)) (by simp [Slider.group])
      | jacks => exact .jackResume
      | awning => exact .of_controls (State.slideResume_controls (id := .awning)) (by simp [Slider.group])
    · exact .refl s
  | planTakes h b z f =>
    change SameTilt s (s.planTakes h b z f).1
    unfold State.planTakes
    split
    · exact .refl s
    · split
      · exact SameTilt.trans (.of_level rfl) (advanced _)
      · exact .of_level rfl
  | beginStep =>
    change SameTilt s s.stepBegin.1
    unfold State.stepBegin
    split
    · dsimp only
      split <;> exact .of_level rfl
    · exact .refl s
  | place step =>
    cases step with
    | nil => exact advanced s
    | cons y later =>
      change SameTilt s (s.placeNext (y :: later)).1
      unfold State.placeNext
      dsimp only
      split
      · split
        · exact .of_level rfl
        · have aimed : SameTilt s ((s.aimClaim y.1 y.2).openSlot y.1) := by
            have frame := s.aimClaim_frame (h := y.1) (a := y.2)
            unfold State.openSlot
            generalize s.aimClaim y.1 y.2 = w at frame
            rw [frame]
            exact .refl s
          refine aimed.trans ?_
          generalize (s.aimClaim y.1 y.2).openSlot y.1 = w
          have frame := w.placeEntry_frame (h := y.1) (o := .sequencer) (m := .auto) (a := y.2)
          have placed : SameTilt w (w.placeEntry y.1 .sequencer .auto y.2).1 := by
            generalize (w.placeEntry y.1 .sequencer .auto y.2).1 = v at frame
            rw [frame]
            exact .refl w
          exact placed.trans .controllerAdmit
      · exact .refl s
  | endPlan =>
    change SameTilt s s.planEndNext.1
    unfold State.planEndNext
    split
    · exact .refl s
    · exact frees s

theorem drain_sameTilt : SameTilt s (drain k (s, l)) := by
  induction k generalizing s l with
  | zero => exact .refl s
  | succ k ih =>
    cases l with
    | nil => exact .refl s
    | cons task rest => exact State.runTask_sameTilt.trans ih

end

end Sys2Proof.Machine
end

section
/-! PROOFS. The phases of a level run that begin with starts of its jacks: CONTACT and LIFT (R84, R87). -/

namespace Sys2Proof.Machine

section
variable {s t u w : State} {n q : Chan} {e : Entry} {i j : JackId} {l : List JackId}

/-! ### The valves of ACTIVE jacks -/

theorem State.jack_startValve {d : Dir} (i : JackId) : (s.startValve j d).jack i = s.jack i := by
  obtain ⟨frame, -⟩ := s.startValve_spec (j := j) (d := d)
  rw [frame]
  rfl

/-- The valves of the ACTIVE jacks of a list are started, each in its jack's direction. -/
theorem State.startActive_eq (l : List JackId) (s : State) : s.startActive l =
    s.startValves (l.filter fun j => (s.jack j).phase == .active) fun j => (s.jack j).dir := by
  have walk (l : List JackId) (t : State) (jack : ∀ j, t.jack j = s.jack j) : t.startActive l =
      t.startValves (l.filter fun j => (s.jack j).phase == .active) fun j => (s.jack j).dir := by
    induction l generalizing t with
    | nil => rfl
    | cons j rest ih =>
      have step : t.startActive (j :: rest) =
          (if (t.jack j).phase = .active then t.startValve j (t.jack j).dir else t).startActive rest := rfl
      rw [step, jack, List.filter_cons]
      by_cases active : (s.jack j).phase = .active
      · rw [if_pos active, if_pos (by simpa using active)]
        exact ih _ fun i => (State.jack_startValve i).trans (jack i)
      · rw [if_neg active, if_neg (by simpa using active)]
        exact ih t jack
  exact walk l s fun _ => rfl

theorem State.startValves_congr {b d : JackId → Dir} (same : ∀ j ∈ l, b j = d j) : s.startValves l b = s.startValves l d := by
  induction l generalizing s with
  | nil => rfl
  | cons j rest ih =>
    change (s.startValve j (b j)).startValves rest b = (s.startValve j (d j)).startValves rest d
    rw [same j List.mem_cons_self]
    exact ih fun i mem => same i (List.mem_cons_of_mem _ mem)

/-- The valves of a motion's ACTIVE jacks start, the pump follows, and nothing else of the state moves but the level mark. -/
structure Lowering (s t : State) (l : List JackId) (d : JackId → Dir) : Prop where
  frame : t = { s with channels := t.channels, pace := t.pace, jackSet := t.jackSet }
  mark : t.jackSet = s.jackSet ∨ t.jackSet = { s.jackSet with levelMark := false }
  started : ∀ e, s.entryOf .jacks = some e → e ∈ s.load → (∀ j ∈ l, j ∈ s.jacksOf e.action) → ValvesStarted s t l d
  others : ∀ n, s.role n ≠ .pump → (∀ j ∈ l, s.roleChan (.jack j) ≠ some n) → t.chan n = s.chan n ∧ t.paceRec n = s.paceRec n

theorem State.startValves_lowering {d : JackId → Dir} (once : l.Nodup) : Lowering s (s.startValves l d).pumpFollow l d := by
  obtain ⟨frame, mark, others, -⟩ := s.startValves_spec (d := d) once
  obtain ⟨outer, follows⟩ := (s.startValves l d).pumpFollow_spec
  have started := fun e found loaded among => State.valvesStarted (s := s) (e := e) (d := d) found loaded once among
  have role (n : Chan) : (s.startValves l d).role n = s.role n := by rw [frame]; rfl
  have set : (s.startValves l d).pumpFollow.jackSet = (s.startValves l d).jackSet := by rw [outer]
  refine ⟨?_, ?_, started, fun n away none => ?_⟩
  · rw [outer, frame]
  · rw [set]
    exact mark
  · obtain ⟨chan, pace⟩ := follows n (by rw [role]; exact away)
    obtain ⟨chan', pace'⟩ := others n none
    exact ⟨chan.trans chan', pace.trans pace'⟩

/-- What the valves and the pump are started from is the state before the jacks' own records changed. -/
theorem Lowering.rebase {d : JackId → Dir} (a : Lowering s t l d) (same : s = { w with jacks := s.jacks, level := s.level }) :
    t = { w with channels := t.channels, pace := t.pace, jackSet := t.jackSet, jacks := s.jacks, level := s.level } ∧
    (t.jackSet = w.jackSet ∨ t.jackSet = { w.jackSet with levelMark := false }) ∧
    (∀ e, w.entryOf .jacks = some e → e ∈ w.load → (∀ j ∈ l, j ∈ w.jacksOf e.action) → ValvesStarted w t l d) ∧
    ∀ n, w.role n ≠ .pump → (∀ j ∈ l, w.roleChan (.jack j) ≠ some n) → t.chan n = w.chan n ∧ t.paceRec n = w.paceRec n := by
  obtain ⟨frame, mark, started, others⟩ := a
  generalize s.jacks = jacks at *
  generalize s.level = level at *
  subst same
  refine ⟨frame, mark, fun e found loaded among => ?_, others⟩
  obtain ⟨valves, pump⟩ := started e found loaded among
  exact ⟨fun j mem n own once => ⟨(valves j mem n own once).1, (valves j mem n own once).2⟩, fun q own ⟨j, mem, n, valve, once⟩ =>
    ⟨fun at_once => ⟨((pump q own ⟨j, mem, n, valve, once⟩).1 at_once).1, ((pump q own ⟨j, mem, n, valve, once⟩).1 at_once).2⟩,
      (pump q own ⟨j, mem, n, valve, once⟩).2⟩⟩

/-! ### The CONTACT phase -/

/-- A jack's record at the beginning of a CONTACT phase (R84). -/
def Jack.lowered (r : Jack) : Jack :=
  if r.contact || r.atStroke then { r with phase := .done } else { r with phase := .active, dir := .outward }

/-- The jacks that a CONTACT phase lowers. -/
def State.lowering (s : State) : List JackId := s.configuredJacks.filter fun j => !(s.jack j).contact && !(s.jack j).atStroke

theorem State.configuredJacks_nodup : s.configuredJacks.Nodup := (allJacks_nodup.filter _)

/-- The CONTACT phase begins with the starts of the jacks it lowers; with none it passes on to SETTLE (R84). -/
theorem State.contactBegin_eq : ∃ v : State, v = { s with jacks := v.jacks, level := v.level } ∧
    v.level = { s.level with phase := .contact, phaseTime := 0 } ∧
    (∀ j, v.jack j = if j ∈ s.configuredJacks then (s.jack j).lowered else s.jack j) ∧
    s.contactBegin = (if s.lowering = [] then (v.startValves s.lowering fun _ => .outward).pumpFollow.settleBegin
      else (v.startValves s.lowering fun _ => .outward).pumpFollow) := by
  obtain ⟨frame, jack⟩ := forEach_onJack (fun _ => Jack.lowered) s.configuredJacks State.configuredJacks_nodup
    { s with level := { s.level with phase := .contact, phaseTime := 0 } }
  have begun : s.contactBegin =
      (if ((forEach s.configuredJacks (fun j t => t.onJack j Jack.lowered)
          { s with level := { s.level with phase := .contact, phaseTime := 0 } }).startActive s.configuredJacks).pumpFollow.anyActive
            s.configuredJacks then
        ((forEach s.configuredJacks (fun j t => t.onJack j Jack.lowered)
          { s with level := { s.level with phase := .contact, phaseTime := 0 } }).startActive s.configuredJacks).pumpFollow
      else ((forEach s.configuredJacks (fun j t => t.onJack j Jack.lowered)
          { s with level := { s.level with phase := .contact, phaseTime := 0 } }).startActive s.configuredJacks).pumpFollow.settleBegin) :=
    rfl
  rw [begun]
  generalize forEach s.configuredJacks (fun j t => t.onJack j Jack.lowered)
    { s with level := { s.level with phase := .contact, phaseTime := 0 } } = v at frame jack ⊢
  have active (j : JackId) (mem : j ∈ s.configuredJacks) :
      (v.jack j).phase = .active ↔ (s.jack j).contact = false ∧ (s.jack j).atStroke = false := by
    rw [jack, if_pos mem]
    change (s.jack j).lowered.phase = .active ↔ _
    unfold Jack.lowered
    cases (s.jack j).contact <;> cases (s.jack j).atStroke <;> simp
  have chosen : (s.configuredJacks.filter fun j => (v.jack j).phase == .active) = s.lowering := by
    refine List.filter_congr fun j mem => ?_
    rw [Bool.eq_iff_iff]
    simpa using active j mem
  have starts : v.startActive s.configuredJacks = v.startValves s.lowering fun _ => .outward := by
    rw [State.startActive_eq, chosen]
    refine State.startValves_congr fun j mem => ?_
    simp only [State.lowering, List.mem_filter, Bool.and_eq_true, Bool.not_eq_true'] at mem
    rw [jack, if_pos mem.1]
    change (s.jack j).lowered.dir = .outward
    unfold Jack.lowered
    rw [mem.2.1, mem.2.2]
    rfl
  refine ⟨v, by rw [frame], by rw [frame], jack, ?_⟩
  rw [starts]
  have kept := (State.startValves_lowering (s := v) (l := s.lowering) (d := fun _ => .outward)
    (State.configuredJacks_nodup.filter _)).frame
  generalize (v.startValves s.lowering fun _ => .outward).pumpFollow = w at kept ⊢
  have some_active : w.anyActive s.configuredJacks = true ↔ s.lowering ≠ [] := by
    have phases (j : JackId) : (w.jack j).phase = (v.jack j).phase := by rw [kept]; rfl
    rw [← chosen, Ne, List.filter_eq_nil_iff]
    simp [State.anyActive, phases]
  by_cases none : s.lowering = []
  · rw [if_pos none, if_neg fun some => some_active.mp some none]
  · rw [if_neg none, if_pos (some_active.mpr none)]

/-- A phase that starts valves has begun: the records of the jacks and of the level run are new, and beside them only the
started channels and the level mark have changed. -/
structure PhaseBegun (s t : State) (l : List JackId) : Prop where
  frame : t = { s with
    channels := t.channels, pace := t.pace, jackSet := t.jackSet, jacks := t.jacks, level := t.level }
  mark : t.jackSet = s.jackSet ∨ t.jackSet = { s.jackSet with levelMark := false }
  started : ∀ e, s.entryOf .jacks = some e → e ∈ s.load → (∀ j ∈ l, j ∈ s.jacksOf e.action) →
    ValvesStarted s t l fun _ => .outward
  others : ∀ n, s.role n ≠ .pump → (∀ j ∈ l, s.roleChan (.jack j) ≠ some n) → t.chan n = s.chan n ∧ t.paceRec n = s.paceRec n

theorem State.contactBegin_spec : PhaseBegun s s.contactBegin s.lowering ∧
    s.contactBegin.level = { s.level with phase := if s.lowering = [] then .settle else .contact, phaseTime := 0 } ∧
    ∀ j, s.contactBegin.jack j = if j ∈ s.configuredJacks then (s.jack j).lowered else s.jack j := by
  obtain ⟨v, same, level, jacks, begun⟩ := s.contactBegin_eq
  rw [begun]
  have lowered := State.startValves_lowering (s := v) (l := s.lowering) (d := fun _ => .outward)
    (State.configuredJacks_nodup.filter _)
  obtain ⟨frame, mark, started, others⟩ := lowered.rebase same
  by_cases none : s.lowering = []
  · rw [if_pos none, if_pos none]
    rw [none] at frame mark started others ⊢
    have nothing : (v.startValves [] fun _ => .outward) = v := rfl
    rw [nothing] at frame mark others ⊢
    have others' : ∀ n, s.role n ≠ .pump → v.pumpFollow.chan n = s.chan n ∧ v.pumpFollow.paceRec n = s.paceRec n :=
      fun n away => others n away (by simp)
    generalize v.pumpFollow = w at frame mark others' ⊢
    unfold State.settleBegin
    obtain ⟨outer, follows⟩ := State.pumpFollow_spec (s := { w with level := { w.level with phase := .settle, phaseTime := 0 } })
    have wlevel : w.level = v.level := by rw [frame]
    generalize ({ w with level := { w.level with phase := .settle, phaseTime := 0 } } : State).pumpFollow = x at outer follows ⊢
    refine ⟨⟨?_, ?_, fun e found loaded among => ⟨by simp, by simp⟩, fun n away _ => ?_⟩, ?_, fun j => ?_⟩
    · rw [outer, frame]
    · rw [outer]
      exact mark
    · have role : w.role n = s.role n := by rw [frame]; rfl
      obtain ⟨chan, pace⟩ := follows n (by
        change w.role n ≠ .pump
        rw [role]
        exact away)
      obtain ⟨chan', pace'⟩ := others' n away
      exact ⟨chan.trans chan', pace.trans pace'⟩
    · rw [outer]
      change { w.level with phase := .settle, phaseTime := 0 } = _
      rw [wlevel, level]
    · rw [← jacks j, outer]
      change w.jack j = v.jack j
      rw [frame]
      rfl
  · rw [if_neg none, if_neg none]
    generalize (v.startValves s.lowering fun _ => .outward).pumpFollow = w at frame mark started others ⊢
    refine ⟨⟨?_, mark, started, others⟩, ?_, fun j => ?_⟩
    · rw [frame]
    · rw [frame]
      exact level
    · rw [← jacks j, frame]
      rfl

/-- A RUNNING level run begins its CONTACT phase (R84). -/
theorem State.contactBegun (found : s.entryOf .jacks = some e) (loaded : e ∈ s.load) (action : e.action = .level) :
    ContactBegun s s.contactBegin := by
  obtain ⟨⟨-, -, started, others⟩, level, jacks⟩ := s.contactBegin_spec
  have lowers : s.lowering = [] ↔ ¬ ∃ j ∈ s.configuredJacks, (s.jack j).contact = false ∧ (s.jack j).atStroke = false := by
    simp [State.lowering, List.filter_eq_nil_iff]
  refine ⟨?_, fun j => ?_, started e found loaded fun j mem => ?_, fun j mem rests n own => ?_⟩
  · rw [level]
    by_cases none : s.lowering = []
    · rw [if_pos none, if_neg (lowers.mp none)]
    · rw [if_neg none, if_pos (Decidable.not_not.mp fun absent => none (lowers.mpr absent))]
  · rw [jacks]
    by_cases mem : j ∈ s.configuredJacks
    · rw [if_pos mem, if_neg (not_not.mpr mem)]
      unfold Jack.lowered
      simp only [Bool.or_eq_true]
    · rw [if_neg mem, if_pos mem]
  · rw [action]
    exact (List.mem_filter.mp mem).1
  · have role := State.role_of_roleChan own
    refine (others n (by rw [role]; simp) fun i low same => ?_).1
    have equal : i = j := Role.jack.inj ((State.role_of_roleChan same).symm.trans role)
    subst equal
    simp only [State.lowering, List.mem_filter, Bool.and_eq_true, Bool.not_eq_true'] at low
    rcases rests with up | up
    · exact absurd (low.2.1.symm.trans up) (by simp)
    · exact absurd (low.2.2.symm.trans up) (by simp)

/-- With a jack LIFTED the jack set reads DEPLOYED, or FAULTED, before and after a CONTACT phase begins (R63, R70). -/
theorem State.view_contactBegin (lifted : s.anyLifted = true) : s.contactBegin.view = s.view := by
  obtain ⟨⟨frame, -, -, -⟩, -, jacks⟩ := s.contactBegin_spec
  generalize s.contactBegin = t at frame jacks ⊢
  obtain ⟨i, mem, state⟩ := List.any_eq_true.mp lifted
  have state : s.jackState i = .lifted := by simpa using state
  have configured : t.configuredJacks = s.configuredJacks := by rw [frame]; rfl
  have count : t.jackCount = s.jackCount := by rw [frame]; rfl
  have home : t.jackHome i = s.jackHome i := by rw [frame]; rfl
  have faults (j : JackId) : (t.jack j).fault = (s.jack j).fault := by
    rw [jacks]
    split
    · unfold Jack.lowered
      split <;> rfl
    · rfl
  have faulted : t.jacksFaulted = s.jacksFaulted := by
    unfold State.jacksFaulted
    rw [configured]
    simp only [faults]
  have up : (s.jack i).phase ≠ .active ∧ s.jackHome i = false ∧ (s.jack i).contact = false := by
    unfold State.jackState at state
    dsimp only at state
    split at state
    · split at state <;> cases state
    · rename_i idle
      split at state
      · cases state
      · rename_i away
        split at state
        · cases state
        · rename_i loose
          exact ⟨idle, by simpa using away, by simpa using loose⟩
  have deployed (v : State) (set : v.configuredJacks = s.configuredJacks) (home : v.jackHome i = false)
      (loose : (v.jack i).contact = false) (dir : (v.jack i).phase = .active → (v.jack i).dir = .outward)
      (many : v.jackCount = s.jackCount) (fault : v.jacksFaulted = s.jacksFaulted) :
      v.jackSetState = if s.jackCount = 0 then .stowed else if s.jacksFaulted then .faulted else .deployed := by
    have out : v.jackState i ≠ .retracted := by
      unfold State.jackState
      dsimp only
      by_cases active : (v.jack i).phase = .active
      · rw [if_pos active, dir active]
        simp
      · rw [if_neg active, home, loose]
        simp only [Bool.false_eq_true, if_false]
        split <;> simp
    have notHome : (v.configuredJacks.all fun j => v.jackState j == .retracted) = false := by
      rw [List.all_eq_false]
      exact ⟨i, set ▸ mem, by simpa using out⟩
    have notDown : (v.configuredJacks.all fun j => v.planted j) = false := by
      rw [List.all_eq_false]
      exact ⟨i, set ▸ mem, by simp [State.planted, loose]⟩
    unfold State.jackSetState
    rw [notHome, notDown, many, fault]
    rfl
  have lowered : t.jack i = (s.jack i).lowered := by rw [jacks, if_pos mem]
  have same : t.jackSetState = s.jackSetState := by
    rw [deployed t configured (home.trans up.2.1) ?_ ?_ count faulted,
      deployed s rfl up.2.1 up.2.2 (fun active => absurd active up.1) rfl rfl]
    · rw [lowered]
      unfold Jack.lowered
      split <;> exact up.2.2
    · rw [lowered]
      unfold Jack.lowered
      split
      · exact fun done => absurd done (by simp)
      · exact fun _ => rfl
  have whole : t.view = { s.view with jackSet := t.jackSetState } := by rw [frame]; rfl
  rw [whole, same]
  rfl

/-! ### The LIFT phase -/

/-- The LIFT phase begins with the starts of the selected jacks (R87). -/
theorem State.liftBegin_spec : PhaseBegun s s.liftBegin s.selectedJacks ∧
    s.liftBegin.level = { s.level with phase := .lift, phaseTime := 0, progress := Vector.replicate 6 0 } ∧
    ∀ j, s.liftBegin.jack j =
      if j ∈ s.selectedJacks then { s.jack j with phase := .active, dir := .outward } else s.jack j := by
  have once : s.selectedJacks.Nodup := allJacks_nodup.filter _
  obtain ⟨frame, jack⟩ := forEach_onJack (fun _ r => { r with phase := .active, dir := .outward }) s.selectedJacks once
    { s with level := { s.level with phase := .lift, phaseTime := 0, progress := Vector.replicate 6 0 } }
  have begun : s.liftBegin = ((forEach s.selectedJacks (fun j t => t.onJack j fun r => { r with phase := .active, dir := .outward })
      { s with level := { s.level with phase := .lift, phaseTime := 0, progress := Vector.replicate 6 0 } }).startActive
        s.selectedJacks).pumpFollow := rfl
  rw [begun]
  generalize forEach s.selectedJacks (fun j t => t.onJack j fun r => { r with phase := .active, dir := .outward })
    { s with level := { s.level with phase := .lift, phaseTime := 0, progress := Vector.replicate 6 0 } } = v at frame jack ⊢
  have starts : v.startActive s.selectedJacks = v.startValves s.selectedJacks fun _ => .outward := by
    have all : (s.selectedJacks.filter fun j => (v.jack j).phase == .active) = s.selectedJacks :=
      List.filter_eq_self.mpr fun j mem => by rw [jack, if_pos mem]; rfl
    rw [State.startActive_eq, all]
    exact State.startValves_congr fun j mem => by rw [jack, if_pos mem]
  rw [starts]
  obtain ⟨outer, mark, started, others⟩ := (State.startValves_lowering (s := v) (d := fun _ => .outward) once).rebase
    (w := s) (by rw [frame])
  have level : v.level = { s.level with phase := .lift, phaseTime := 0, progress := Vector.replicate 6 0 } := by rw [frame]
  have jacks (j : JackId) : v.jack j =
      if j ∈ s.selectedJacks then { s.jack j with phase := .active, dir := .outward } else s.jack j := jack j
  generalize (v.startValves s.selectedJacks fun _ => .outward).pumpFollow = w at outer mark started others ⊢
  refine ⟨⟨by rw [outer], mark, started, others⟩, ?_, fun j => ?_⟩
  · rw [outer]
    exact level
  · rw [← jacks j, outer]
    rfl

/-! ### The end of SETTLE -/

/-- The record of a level run whose tilt has been taken (R85). -/
def State.tilted (s : State) : State := { s with level := { s.level with pitch := s.tilt.pitch, roll := s.tilt.roll } }

/-- The first test of R85 that applies decides the course. -/
theorem State.settleDecide_eq (s : State) : s.settleDecide =
    if s.anyLifted then
      if s.layout.level.passLimit ≤ s.level.returns then (s.tilted, jackEnding { outcome := .limited })
      else ({ s with level := { s.level with
        pitch := s.tilt.pitch, roll := s.tilt.roll, returns := s.level.returns + 1 } }.contactBegin, [])
    else if s.tilt.pitch.natAbs ≤ s.layout.level.tolerance ∧ s.tilt.roll.natAbs ≤ s.layout.level.tolerance then
      (s.tilted, jackEnding { outcome := if s.level.limited then .limited else .levelled })
    else if s.tooSteep s.tilt.pitch s.tilt.roll then (s.tilted, jackEnding { outcome := .tooSteep })
    else if s.layout.level.passLimit ≤ s.level.pass then (s.tilted, jackEnding { outcome := .limited })
    else if s.tilted.solveLifts.selectedJacks.isEmpty then
      ({ s.tilted.solveLifts with level := { s.tilted.solveLifts.level with limited := true } }, jackEnding { outcome := .limited })
    else (s.tilted.solveLifts.liftBegin, []) := rfl

/-- An ending that a level run's controller asks for in an event is the event's (R89). -/
theorem State.event_settle_ends {z : Ending} (found : s.entryOf .jacks = some e) (work : s.settleDecide.2 = jackEnding z)
    (view : s.settleDecide.1.view = s.view) : Ends .jacks z s.settleDecide.1 (s.event fun t => t.settleDecide) ∧
    Ended .jacks z.outcome s (s.event fun t => t.settleDecide) := by
  have part := State.settleDecide_controls (s := s)
  have ends := State.event_ends (f := fun t : State => t.settleDecide) (s := s) (g := .jacks) (e := z) (rest := []) work view
    (part.entryOf.trans found) .nil
  exact ⟨ends, ends.ended.from_controls part⟩

/-- The tilt that the end of SETTLE takes stands at the event's end. -/
theorem State.event_settle_tilt : (s.event fun t => t.settleDecide).level.pitch = s.tilt.pitch ∧
    (s.event fun t => t.settleDecide).level.roll = s.tilt.roll := by
  have decided : s.settleDecide.1.level.pitch = s.tilt.pitch ∧ s.settleDecide.1.level.roll = s.tilt.roll := by
    have begun (v : State) (pitch : v.level.pitch = s.tilt.pitch) (roll : v.level.roll = s.tilt.roll) :
        v.contactBegin.level.pitch = s.tilt.pitch ∧ v.contactBegin.level.roll = s.tilt.roll := by
      obtain ⟨one, two⟩ := SameTilt.contactBegin (s := v)
      exact ⟨one.trans pitch, two.trans roll⟩
    rw [State.settleDecide_eq]
    repeat' split
    · exact ⟨rfl, rfl⟩
    · exact begun _ rfl rfl
    · exact ⟨rfl, rfl⟩
    · exact ⟨rfl, rfl⟩
    · exact ⟨rfl, rfl⟩
    · exact ⟨rfl, rfl⟩
    · exact ⟨rfl, rfl⟩
    · rw [State.liftBegin_spec.2.1]
      exact ⟨rfl, rfl⟩
  have kept : SameTilt s.settleDecide.1 (s.event fun t => t.settleDecide) := drain_sameTilt
  exact ⟨kept.1.trans decided.1, kept.2.trans decided.2⟩

/-- A jack that is LIFTED returns the run to CONTACT while returns are left: nothing else happens in the event (R85). -/
theorem State.event_settle_returns (lifted : s.anyLifted = true) (left : s.level.returns < s.layout.level.passLimit) :
    (s.event fun t => t.settleDecide) = { s with level := { s.level with
      pitch := s.tilt.pitch, roll := s.tilt.roll, returns := s.level.returns + 1 } }.contactBegin := by
  have decided : s.settleDecide = ({ s with level := { s.level with
      pitch := s.tilt.pitch, roll := s.tilt.roll, returns := s.level.returns + 1 } }.contactBegin, []) := by
    rw [State.settleDecide_eq, if_pos lifted, if_neg (Nat.not_le.mpr left)]
  have quiet := State.event_quiet (s := s) (f := fun t : State => t.settleDecide) (by rw [decided])
    (by
      rw [decided]
      exact State.view_contactBegin (s := { s with level := { s.level with
        pitch := s.tilt.pitch, roll := s.tilt.roll, returns := s.level.returns + 1 } }) lifted)
  rw [quiet, decided]

/-- A LIFT begins where the run is the only motion: nothing but the alarm happens besides (R85, R87). -/
theorem State.event_settle_lifts (decided : s.settleDecide = (w.liftBegin, []))
    (same : w = { s with level := w.level }) (sole : s.load = [e]) (alone : s.paused = []) (group : e.group = .jacks)
    (action : e.action = .level) : w.liftBegin.butAlarm (s.event fun t => t.settleDecide) := by
  have frame := w.liftBegin_spec.1.frame
  have calm : w.liftBegin.fallenPermit = none := by
    generalize w.liftBegin = x at frame
    have load : x.load = [e] := by rw [frame, same]; exact sole
    have paused : x.paused = [] := by rw [frame, same]; exact alone
    unfold State.fallenPermit
    rw [load, paused]
    simp [group, action, State.permitCause, Action.retracts]
  have event := State.event_calm (F := fun _ => True) (s := s) (f := fun t : State => t.settleDecide) (by rw [decided])
    (by rw [decided]; exact calm)
  rw [decided] at event
  exact event.1

/-- The record of a level run that ends (R89). -/
theorem State.level_ended {z : Ending} (found : s.entryOf .jacks = some e) (action : e.action = .level)
    (ends : Ends .jacks z s t) (silent : s.planRunning = false) :
    t.level = { s.level with status := .ended, outcome := some z.outcome } := by
  have frame := State.motionEnd_frame (e := z) found
  have plan : (s.motionEnd .jacks z).1.plan = s.plan := State.plan_motionEnd
  have rests := (ends.rests silent).axes .jacks State.motionEnd_stills
  refine rests.2.2.trans ?_
  obtain ⟨⟨table, x, ended⟩, -⟩ := jackEnd_spec e.action z s
  have level : (s.controllerEnd .jacks e.action z).level = { s.level with status := .ended, outcome := some z.outcome } := by
    change (s.jackEnd e.action z).level = _
    rw [ended]
    exact if_pos action
  rw [← level]
  generalize (s.motionEnd .jacks z).1 = w at frame
  rw [frame]

end

/-- Settles O50: the course is decided by the tests in their order; a return to CONTACT hands over no state, since a LIFTED jack
keeps the jack set out of STABILISED, and a LIFT of the only motion ends none. -/
theorem settleDecidesTheCourse : Obligations.SettleDecidesTheCourse := by
  unfold Obligations.SettleDecidesTheCourse
  intro s u v e lifted level steep awake active phase running found may hu hv hl hlevel hsteep
  have later : Later s u := hu ▸ .advanceRun s _ _
  have run : exec .settleEnd s = .next (u.event fun t => t.settleDecide) := by
    have arm : exec .settleEnd s = .next (s.awake fun t => t.settleDone) := rfl
    rw [arm, exec_awake (f := fun t : State => t.settleDone) awake, State.settleDone, State.atPhaseLimit]
    have limit : s.phaseLimit = ms s.layout.level.settleTime := by rw [State.phaseLimit, phase]
    rw [limit, running, may, hu]
    simp [State.levelActive, active, phase]
  have found' : u.entryOf .jacks = some e := (later.entryOf .jacks).trans found
  have group : e.group = .jacks := by simpa using List.find?_some found
  have loaded : e ∈ s.load := by
    obtain ⟨x, mem, own⟩ := List.any_eq_true.mp running
    rw [State.entryOf, List.find?_append] at found
    cases first : s.load.find? fun e => e.group == .jacks with
    | none => exact absurd own (List.find?_eq_none.mp first x mem)
    | some y =>
      rw [first] at found
      obtain rfl := Option.some.inj found
      exact List.mem_of_find?_eq_some first
  have layout := later.layout
  have tilt : u.tilt = s.tilt := by rw [later.frame]
  have record := later.level
  have returns : u.level.returns = s.level.returns := by rw [record]
  have pass : u.level.pass = s.level.pass := by rw [record]
  have limited : u.level.limited = s.level.limited := by rw [record]
  have liftedAt : u.anyLifted = lifted := by
    rw [hl]
    unfold State.anyLifted
    rw [later.configuredJacks]
    have home (j : JackId) : u.jackHome j = s.jackHome j := by
      simp only [State.jackHome, State.homeClosed, later.roleChan, later.lines]
    have state (j : JackId) : u.jackState j = s.jackState j := by
      unfold State.jackState
      rw [later.jack, home]
    simp only [state]
  have levelAt : (u.tilt.pitch.natAbs ≤ u.layout.level.tolerance ∧ u.tilt.roll.natAbs ≤ u.layout.level.tolerance) ↔ level = true := by
    rw [hlevel, tilt, layout]
    simp
  have steepAt : u.tooSteep u.tilt.pitch u.tilt.roll = steep := by
    rw [hsteep, tilt]
    unfold State.tooSteep
    rw [layout]
  have lifts : u.tilted.solveLifts.level = { v.level with phaseTime := u.level.phaseTime } := by
    have frame := later.frame
    rw [hv]
    generalize u.now = a, u.channels = b, u.pace = c, u.rooms = d, u.awning = f, u.jackSet = g, u.wind = i at frame
    rw [frame]
    rw [record]
    rfl
  have selects (j : JackId) : u.tilted.solveLifts.level.selected[j] = v.level.selected[j] := by rw [lifts]
  refine ⟨_, run, ?_⟩
  obtain ⟨pitch, roll⟩ := u.event_settle_tilt
  refine ⟨pitch.trans (by rw [tilt]), roll.trans (by rw [tilt]), fun up none => ?_, fun up left => ?_, fun down flat => ?_,
    fun down tilted tooSteep => ?_, fun down tilted gentle none => ?_, fun down tilted gentle left unselected => ?_,
    fun down tilted gentle left some sole alone action => ?_⟩
  · have decided : u.settleDecide = (u.tilted, jackEnding { outcome := .limited }) := by
      rw [State.settleDecide_eq, if_pos (liftedAt.trans up), if_pos (by rw [layout, returns]; exact none)]
    exact (State.event_settle_ends (z := { outcome := .limited }) found' (by rw [decided]) (by rw [decided]; rfl)).2
  · have event := u.event_settle_returns (liftedAt.trans up) (by rw [layout, returns]; exact left)
    rw [event]
    obtain ⟨⟨frame, -, -, -⟩, record, -⟩ := State.contactBegin_spec (s := { u with level := { u.level with
      pitch := u.tilt.pitch, roll := u.tilt.roll, returns := u.level.returns + 1 } })
    refine ⟨by rw [record]; exact congrArg (· + 1) returns, by rw [record]; exact pass, fun action => ⟨?_, ?_, ?_, ?_, ?_⟩⟩
    · have begun := State.contactBegun (s := { u with level := { u.level with
        pitch := u.tilt.pitch, roll := u.tilt.roll, returns := u.level.returns + 1 } }) found' (later.load.symm ▸ loaded) action
      rw [returns, congrArg Tilt.pitch tilt, congrArg Tilt.roll tilt] at begun ⊢
      exact begun
    all_goals
      generalize State.contactBegin _ = t at frame
      rw [frame]
    · exact later.load
    · exact later.paused
    · exact later.claims
    · rfl
  · have decided : u.settleDecide = (u.tilted, jackEnding { outcome := if s.level.limited then .limited else .levelled }) := by
      rw [State.settleDecide_eq, if_neg (by rw [liftedAt, down]; simp), if_pos (levelAt.mpr flat), limited]
    exact (State.event_settle_ends (z := { outcome := if s.level.limited then .limited else .levelled }) found'
      (by rw [decided]) (by rw [decided]; rfl)).2
  · have decided : u.settleDecide = (u.tilted, jackEnding { outcome := .tooSteep }) := by
      rw [State.settleDecide_eq, if_neg (by rw [liftedAt, down]; simp),
        if_neg (fun flat => absurd ((levelAt.mp flat).symm.trans tilted) (by simp)), if_pos (steepAt.trans tooSteep)]
    exact (State.event_settle_ends (z := { outcome := .tooSteep }) found' (by rw [decided]) (by rw [decided]; rfl)).2
  · have decided : u.settleDecide = (u.tilted, jackEnding { outcome := .limited }) := by
      rw [State.settleDecide_eq, if_neg (by rw [liftedAt, down]; simp),
        if_neg (fun flat => absurd ((levelAt.mp flat).symm.trans tilted) (by simp)),
        if_neg (by rw [steepAt, gentle]; simp), if_pos (by rw [layout, pass]; exact none)]
    exact (State.event_settle_ends (z := { outcome := .limited }) found' (by rw [decided]) (by rw [decided]; rfl)).2
  · have empty : u.tilted.solveLifts.selectedJacks.isEmpty = true := by
      rw [List.isEmpty_iff, State.selectedJacks, List.filter_eq_nil_iff]
      exact fun j _ => by rw [selects, unselected]; simp
    have decided : u.settleDecide = ({ u.tilted.solveLifts with level := { u.tilted.solveLifts.level with limited := true } },
        jackEnding { outcome := .limited }) := by
      rw [State.settleDecide_eq, if_neg (by rw [liftedAt, down]; simp),
        if_neg (fun flat => absurd ((levelAt.mp flat).symm.trans tilted) (by simp)),
        if_neg (by rw [steepAt, gentle]; simp), if_neg (by rw [layout, pass]; exact Nat.not_le.mpr left), if_pos empty]
    obtain ⟨ends, ended⟩ := State.event_settle_ends (z := { outcome := .limited }) found' (by rw [decided]) (by rw [decided]; rfl)
    refine ⟨ended, fun silent _ _ action => ?_⟩
    rw [decided] at ends
    have finished := State.level_ended (s := { u.tilted.solveLifts with level :=
      { u.tilted.solveLifts.level with limited := true } }) found' action ends (by
      change u.planRunning = false
      rw [later.planRunning]
      exact silent)
    rw [finished]
    change { u.tilted.solveLifts.level with status := .ended, limited := true, outcome := some .limited } = _
    rw [lifts]
  · have chosen : u.tilted.solveLifts.selectedJacks.isEmpty ≠ true := by
      obtain ⟨j, selected⟩ := some
      intro none
      rw [List.isEmpty_iff, State.selectedJacks, List.filter_eq_nil_iff] at none
      exact none j (mem_allJacks j) (by rw [selects, selected])
    have decided : u.settleDecide = (u.tilted.solveLifts.liftBegin, []) := by
      rw [State.settleDecide_eq, if_neg (by rw [liftedAt, down]; simp),
        if_neg (fun flat => absurd ((levelAt.mp flat).symm.trans tilted) (by simp)),
        if_neg (by rw [steepAt, gentle]; simp), if_neg (by rw [layout, pass]; exact Nat.not_le.mpr left), if_neg chosen]
    have butAlarm := u.event_settle_lifts decided rfl (later.load.trans sole) (later.paused.trans alone) group action
    obtain ⟨⟨frame, -, started, -⟩, record, jacks⟩ := u.tilted.solveLifts.liftBegin_spec
    have mem (j : JackId) : j ∈ u.tilted.solveLifts.selectedJacks ↔ v.level.selected[j] = true := by
      rw [State.selectedJacks, List.mem_filter, selects]
      simp [mem_allJacks]
    have list : u.tilted.solveLifts.selectedJacks = allJacks.filter fun j => v.level.selected[j] := by
      rw [State.selectedJacks]
      exact List.filter_congr fun j _ => selects j
    generalize (u.event fun t => t.settleDecide) = t at butAlarm
    generalize u.tilted.solveLifts.liftBegin = x at butAlarm frame started record jacks
    have jack (j : JackId) : t.jack j = x.jack j := by rw [butAlarm.1]; rfl
    have same (j : JackId) : u.tilted.solveLifts.jack j = s.jack j := later.jack j
    refine ⟨?_, ?_, ?_, ?_, ?_, fun j selected => ?_, ?_, fun j unselected => ?_⟩
    · rw [butAlarm.1]
      refine record.trans ?_
      rw [lifts]
    · rw [butAlarm.1, frame]
      exact later.load
    · rw [butAlarm.1, frame]
      exact later.paused.trans alone
    · rw [butAlarm.1, frame]
      exact later.claims
    · rw [butAlarm.1, frame]
      rfl
    · rw [jack, jacks, if_pos ((mem j).mpr selected), same]
    · rw [list] at started
      obtain ⟨valves, pump⟩ := started e found' (later.load.symm ▸ loaded) fun j mem => by
        rw [action]
        refine List.mem_filter.mpr ⟨mem_allJacks j, ?_⟩
        have chosen := (List.mem_filter.mp mem).2
        rw [← selects] at chosen
        have picks : u.tilted.solveLifts.level.selected[j] = (u.tilted.jackConfigured j &&
            decide (u.tilted.layout.level.deadband ≤ (u.tilted.targetOf j).1)) := ofFn_getElem _ j
        rw [picks, Bool.and_eq_true] at chosen
        exact chosen.1
      have chan (n : Chan) : t.chan n = x.chan n := by rw [butAlarm.1]; rfl
      have pace (n : Chan) : t.paceRec n = x.paceRec n := by rw [butAlarm.1]; rfl
      have started {n : Chan} (begun : DriveStarted u.tilted.solveLifts x n .outward none) : DriveStarted u t n .outward none :=
        ⟨by rw [chan]; exact begun.record, by rw [pace]; exact begun.pace⟩
      exact ⟨fun j mem n own once => started (valves j mem n own once), fun q own some =>
        ⟨fun once => started ((pump q own some).1 once), fun runs => by rw [chan]; exact (pump q own some).2 runs⟩⟩
    · rw [jack, jacks, if_neg (fun chosen => absurd (((mem j).mp chosen).symm.trans unselected) (by simp)), same]

end Sys2Proof.Machine
end

section
/-! PROOFS. Pulses of a room's, the awning's or a jack's channel: the mask, the steps they make, and what a step ends (R25, R32 to
R36, R41, R49 to R51, R64, R76, R87). -/

namespace Sys2Proof.Machine

section
variable {s t u w v : State} {g h : Group} {n i : Chan} {id : Slider} {m y : Motor} {d : Dir} {e x : Entry} {j : JackId} {k c : Nat}
  {l : List Task} {task : Task} {z : Ending}

/-! ### A group that is faulted and at rest keeps its record -/

theorem axisSame_of_axes (rooms : t.rooms = s.rooms) (awning : t.awning = s.awning) (jacks : t.jacks = s.jacks)
    (set : t.jackSet = s.jackSet) (level : t.level = s.level) : axisSame s t g := by
  cases g with
  | room k => exact congrArg (fun r : Vector SliderRec 4 => r[k]) rooms
  | jacks => exact ⟨jacks, set, level⟩
  | awning => exact awning

/-- A piece of work that places no motion of a group at rest leaves its axis record. -/
theorem State.runTask_axis (still : s.still g) (spare : task.spares g) : axisSame s (s.runTask task).1 g := by
  cases task with
  | endMotion h z =>
    by_cases own : h = g
    · rw [State.runTask, State.motionEnd_still (own ▸ still)]
      exact axisSame_refl s g
    · exact State.axis_motionEnd_other (Ne.symm own)
  | handover v =>
    change axisSame s (s.handOver v).1 g
    unfold State.handOver
    split
    · exact axisSame_refl s g
    · refine axisSame_of_axes ?_ ?_ ?_ ?_ ?_ <;> rw [s.butAlarm_evalAlarm.1]
  | permits => exact (State.checkPermits_fst (s := s)).symm ▸ axisSame_refl s g
  | scan =>
    change axisSame s s.scan.1 g
    refine axisSame_of_axes ?_ ?_ ?_ ?_ ?_ <;> rw [s.scan_frame]
  | resume h order first =>
    change axisSame s (s.resumeEntry h order first).1 g
    unfold State.resumeEntry
    split
    · rename_i moved
      obtain ⟨x, mem, own⟩ := List.any_eq_true.mp moved
      have other : g ≠ h := fun same => still _ (mem_motions.mpr ⟨x, List.mem_append_left _ mem, rfl⟩) (by
        simp only [Bool.and_eq_true, beq_iff_eq] at own
        exact own.1.trans same.symm)
      cases h with
      | room q => exact (State.slideResume_controls (id := .room q)).axes g other
      | jacks => exact State.jackResume_controls.axes g other
      | awning => exact (State.slideResume_controls (id := .awning)).axes g other
    · exact axisSame_refl s g
  | planTakes h b z f =>
    change axisSame s (s.planTakes h b z f).1 g
    unfold State.planTakes State.stepAdvance
    dsimp only
    split
    · exact axisSame_refl s g
    · split
      · split
        · split <;> exact axisSame_of_axes rfl rfl rfl rfl rfl
        · exact axisSame_of_axes rfl rfl rfl rfl rfl
      · exact axisSame_of_axes rfl rfl rfl rfl rfl
  | beginStep =>
    change axisSame s s.stepBegin.1 g
    unfold State.stepBegin
    split
    · dsimp only
      split <;> exact axisSame_of_axes rfl rfl rfl rfl rfl
    · exact axisSame_refl s g
  | place step =>
    cases step with
    | nil =>
      change axisSame s s.stepAdvance.1 g
      unfold State.stepAdvance
      split
      · split <;> exact axisSame_of_axes rfl rfl rfl rfl rfl
      · exact axisSame_refl s g
    | cons y later =>
      change axisSame s (s.placeNext (y :: later)).1 g
      have other : g ≠ y.1 := (spare y List.mem_cons_self).symm
      unfold State.placeNext
      dsimp only
      split
      · split
        · exact axisSame_of_axes rfl rfl rfl rfl rfl
        · have aimed := s.aimClaim_frame (h := y.1) (a := y.2)
          have opened : axisSame s ((s.aimClaim y.1 y.2).openSlot y.1) g := by
            unfold State.openSlot
            generalize s.aimClaim y.1 y.2 = w at aimed
            refine axisSame_of_axes ?_ ?_ ?_ ?_ ?_ <;> rw [aimed]
          refine axisSame_trans opened ?_
          generalize (s.aimClaim y.1 y.2).openSlot y.1 = w
          have frame := w.placeEntry_frame (h := y.1) (o := .sequencer) (m := .auto) (a := y.2)
          have placed : axisSame w (w.placeEntry y.1 .sequencer .auto y.2).1 g := by
            generalize (w.placeEntry y.1 .sequencer .auto y.2).1 = v at frame
            refine axisSame_of_axes ?_ ?_ ?_ ?_ ?_ <;> rw [frame]
          exact axisSame_trans placed (State.controllerAdmit_controls.axes g other)
      · exact axisSame_refl s g
  | endPlan =>
    change axisSame s s.planEndNext.1 g
    unfold State.planEndNext
    split
    · exact axisSame_refl s g
    · obtain ⟨⟨table, freed⟩, -⟩ := freePlanClaims_spec s
      refine axisSame_of_axes ?_ ?_ ?_ ?_ ?_ <;> rw [freed]

/-- A group that is faulted and at rest keeps its axis record through the work of an event. -/
theorem drain_axis (a : Downed g n s) (spare : ∀ u ∈ l, u.spares g) : axisSame s (drain k (s, l)) g := by
  induction k generalizing s l with
  | zero => exact axisSame_refl s g
  | succ k ih =>
    cases l with
    | nil => exact axisSame_refl s g
    | cons task rest =>
      have first := spare task List.mem_cons_self
      obtain ⟨downed, spares⟩ := State.runTask_spared a first
      refine axisSame_trans (State.runTask_axis a.still first) (ih downed fun u mem => ?_)
      rcases List.mem_append.mp mem with mem | mem
      · exact spares u mem
      · exact spare u (List.mem_cons_of_mem _ mem)

/-! ### The records of the pace watch -/

/-- A capture joins the ring, the oldest of eight dropped (R33). -/
theorem PaceRecord.accept_eq (r : PaceRecord) : r.accept = { r with
    ring := (if r.ring.length < 8 then r.ring else r.ring.drop (r.ring.length - 7)) ++ [r.counter]
    counter := 0, stallRaised := false } := by
  unfold PaceRecord.accept pushCapture
  split <;> rfl

/-- A pulse is the event of its channel (R25). -/
theorem exec_plsPulse (awake : s.inReset = none) (present : s.present n = true) (pulses : (s.role n).hasPulses = true) :
    exec (.plsPulse n) s = .next (s.event fun t => t.pulse n) := by
  have arm : exec (.plsPulse n) s = .next (s.awake fun t => if t.hasPulses n then t.event fun u => u.pulse n else t) := rfl
  rw [arm, exec_awake (f := fun t : State => if t.hasPulses n then t.event fun u => u.pulse n else t) awake]
  simp [State.hasPulses, present, pulses]

/-- Where a pulse goes: a driven one to the mask, one within 50 ms of the last stop to the axis, any other nowhere (R25). -/
theorem State.pulse_eq (s : State) (n : Chan) : s.pulse n =
    if (s.chan n).driven then
      if (s.paceRec n).counter < s.maskLimit n then
        if (s.paceRec n).tally = 63 then
          ((s.setPace n (s.paceRec n).reject).mirrorTally n).channelFault n .pulseNoise
        else ((s.setPace n (s.paceRec n).reject).mirrorTally n, [])
      else (s.setPace n (s.paceRec n).accept).handStep n (s.chan n).dir true
    else
      match (s.chan n).lastStop with
      | some l => if s.now < l.time + coastTime then s.handStep n l.dir false else (s, [])
      | none => (s, []) := by
  have full : ((s.paceRec n).reject.tally = 64 ∧ (s.paceRec n).tally ≠ 64) ↔ (s.paceRec n).tally = 63 := by
    simp only [PaceRecord.reject]
    omega
  unfold State.pulse State.drivenPulse
  dsimp only
  simp only [full] <;> rfl

theorem State.pace_motionEnd : (s.motionEnd g z).1.pace = s.pace := by
  cases found : s.entryOf g with
  | none => rw [State.motionEnd, found]
  | some x =>
    have frame := State.motionEnd_frame (e := z) found
    have kept : (s.controllerEnd g x.action z).pace = s.pace := by
      have slide (id : Slider) : (s.slideEnd id z).pace = s.pace := by
        rw [State.slideEnd_eq, (stops_spec _ s).1]
        cases id <;> rfl
      cases g with
      | room q => exact slide (.room q)
      | jacks =>
        obtain ⟨⟨table, r, frame⟩, -⟩ := jackEnd_spec x.action z s
        change (s.jackEnd x.action z).pace = _
        rw [frame]
      | awning => exact slide .awning
    generalize (s.motionEnd g z).1 = w at frame ⊢
    rw [frame]
    exact kept

/-- An ending drives no channel that was not driven. -/
theorem State.off_motionEnd (off : (s.chan n).driven = false) : ((s.motionEnd g z).1.chan n).driven = false := by
  have stopped (b : Prop) [Decidable b] : (if b then (s.chan n).stopped s.now else s.chan n).driven = false := by
    split
    · exact Channel.driven_stopped _ _
    · exact off
  cases found : s.entryOf g with
  | none => rw [State.motionEnd, found]; exact off
  | some x =>
    have slide (id : Slider) (own : id.group = g) : ((s.motionEnd g z).1.chan n).driven = false := by
      subst own
      rw [State.chan_motionEnd_slide found]
      exact stopped _
    cases g with
    | room q => exact slide (.room q) rfl
    | jacks => rw [State.chan_motionEnd_jacks found]; exact stopped _
    | awning => exact slide .awning rfl

/-! ### A position step of a motor -/

/-- The count of a motor after one step. -/
def State.steppedMotor (s : State) (id : Slider) (m : Motor) (d : Dir) : State :=
  s.setMotor id m { s.motor id m with count := (s.motor id m).count.map (stepCount (s.travelLimit id) d) }

/-- A position step counts where the count is known and the motor is not in SEAT or FINISHED, and then ends the motion at
the travel limit or by a lead at the rack limit, or sets the trims (R41, R49, R50, R51). -/
theorem State.slideStep_eq {driven : Bool} (count : (s.motor id m).count = some c) (seat : (s.motor id m).phase ≠ .seat)
    (finished : (s.motor id m).phase ≠ .finished) : s.slideStep id m d driven =
      if driven = true ∧ s.slideDir id = some .outward ∧ d = .outward ∧ s.travelLimit id ≤ stepCount (s.travelLimit id) d c then
        (s.steppedMotor id m d, slideFault id .overtravel)
      else if (s.steppedMotor id m d).anyMotorDriven id = true then
        (s.steppedMotor id m d).rackCheck id ((s.steppedMotor id m d).retrim id, [])
      else (s.steppedMotor id m d, []) := by
  have stepped : s.steppedMotor id m d = s.setMotor id m { s.motor id m with count := some (stepCount (s.travelLimit id) d c) } := by
    rw [State.steppedMotor, count]
    rfl
  have test : (driven && s.slideDir id == some .outward && d == .outward &&
      decide (s.travelLimit id ≤ stepCount (s.travelLimit id) d c)) = true ↔ (driven = true ∧ s.slideDir id = some .outward ∧
        d = .outward ∧ s.travelLimit id ≤ stepCount (s.travelLimit id) d c) := by
    simp [and_assoc]
  unfold State.slideStep
  dsimp only
  split
  · rename_i none
    exact absurd (none.symm.trans count) (by simp)
  · rename_i inSeat
    exact absurd inSeat seat
  · rename_i done
    exact absurd done finished
  · rename_i known _ _
    obtain rfl := Option.some.inj (known.symm.trans count)
    rw [← stepped]
    simp only [test]

theorem State.slideStep_still {driven : Bool}
    (deaf : (s.motor id m).count = none ∨ (s.motor id m).phase = .seat ∨ (s.motor id m).phase = .finished) :
    s.slideStep id m d driven = (s, []) := by
  unfold State.slideStep
  dsimp only
  split
  · rfl
  · rfl
  · rfl
  · rename_i count seat finished
    rcases deaf with deaf | deaf | deaf
    · rw [deaf] at count; exact absurd count (by simp)
    · exact absurd deaf seat
    · exact absurd deaf finished

/-- A position step of a motor's channel is the motor's (R36). -/
theorem State.handStep_slider {driven : Bool} (chan : s.motorChan id m = some n) :
    s.handStep n d driven = s.slideStep id m d driven := by
  unfold State.handStep
  cases id with
  | room q => rw [State.role_of_roleChan chan]
  | awning =>
    cases m with
    | a => rw [State.role_of_roleChan chan]
    | b => exact absurd chan (by simp [State.motorChan])

end

end Sys2Proof.Machine
end

section
/-! PROOFS. What each pulse leads to: the clauses of R25, R32 to R36, R41, R49 to R51, R64, R76 and R87. -/

namespace Sys2Proof.Machine

section
variable {s t u w v : State} {g h : Group} {n i : Chan} {id : Slider} {m y : Motor} {d : Dir} {e x : Entry} {j : JackId} {k c : Nat}
  {l rest : List Task} {z : Ending} {f : State → Work}

/-! ### Events by their first work -/

theorem State.event_quiet_at (work : f s = (w, [])) (view : w.view = s.view) : s.event f = w := by
  have first : (f s).1 = w := by rw [work]
  rw [State.event_quiet (by rw [work]) (by rw [first]; exact view), first]

theorem State.event_ends_at (work : f s = (w, .endMotion g z :: rest)) (view : w.view = s.view)
    (found : w.entryOf g = some x) (plain : Plain rest) : Ends g z w (s.event f) := by
  have first : (f s).1 = w := by rw [work]
  have ends := State.event_ends (f := f) (s := s) (by rw [work]) (by rw [first]; exact view) (by rw [first]; exact found) plain
  rw [first] at ends
  exact ends

/-! ### Pulses below the mask -/

theorem State.mirrorTally_spec : (∀ id m, ((s.mirrorTally n).motor id m).count = (s.motor id m).count) ∧
    (s.mirrorTally n).jacks = s.jacks ∧ (s.mirrorTally n).channels = s.channels ∧ (s.mirrorTally n).load = s.load ∧
    (s.mirrorTally n).fixedPart = s.fixedPart := by
  have set (q : Slider) (p : Motor) (r : MotorRec) (same : r.count = (s.motor q p).count) :
      (∀ id m, ((s.setMotor q p r).motor id m).count = (s.motor id m).count) ∧ (s.setMotor q p r).jacks = s.jacks ∧
        (s.setMotor q p r).channels = s.channels ∧ (s.setMotor q p r).load = s.load ∧
        (s.setMotor q p r).fixedPart = s.fixedPart := by
    refine ⟨fun id m => ?_, ?_, ?_, ?_, ?_⟩
    · rw [State.motor_setMotor]
      split
      · next own => obtain ⟨rfl, rfl⟩ := own; exact same
      · rfl
    all_goals cases q <;> rfl
  unfold State.mirrorTally
  split
  · exact set _ _ _ rfl
  · exact set _ _ _ rfl
  · exact ⟨fun _ _ => rfl, rfl, rfl, rfl, rfl⟩

/-- A rejected pulse short of the sixty-fourth raises the tally alone (R34). -/
theorem State.pulse_rejected (driven : (s.chan n).driven = true) (below : (s.paceRec n).counter < s.maskLimit n)
    (short : (s.paceRec n).tally ≠ 63) :
    s.event (fun t => t.pulse n) = (s.setPace n (s.paceRec n).reject).mirrorTally n :=
  State.event_quiet_at (f := fun t => t.pulse n)
    (by rw [State.pulse_eq, if_pos driven, if_pos below, if_neg short]) (State.view_mirrorTally.trans (State.view_setPace _))

/-- The sixty-fourth rejected pulse ends the motion of the channel FAULT (R34). -/
theorem State.pulse_noise (driven : (s.chan n).driven = true) (below : (s.paceRec n).counter < s.maskLimit n)
    (full : (s.paceRec n).tally = 63) (own : (s.role n).group = some g) (found : s.entryOf g = some x) :
    ∃ t, s.event (fun t => t.pulse n) = t ∧ Ended g .fault s t ∧
      (s.planRunning = false → (t.paceRec n).tally = 64 ∧ t.enOut n = false) ∧
      (∀ id, id.group = g → (t.slider id).fault = some ((s.slider id).fault.getD .pulseNoise)) ∧
      ∀ j, s.role n = .jack j → (t.jack j).fault = some ((s.jack j).fault.getD .pulseNoise) := by
  refine ⟨_, rfl, ?_⟩
  have whole : s.event (fun t => t.pulse n) =
      s.event fun t => ((t.setPace n (t.paceRec n).reject).mirrorTally n).channelFault n .pulseNoise := by
    refine State.event_congr ?_ rfl
    rw [State.pulse_eq, if_pos driven, if_pos below, if_pos full]
  rw [whole]
  have pace : Controls g s (s.setPace n (s.paceRec n).reject) := .setPace own
  have part : Controls g s ((s.setPace n (s.paceRec n).reject).mirrorTally n) := pace.trans (State.mirrorTally_controls own)
  obtain ⟨js, ends, ended, sliders, jacks, -⟩ := State.event_channelFault (f := .pulseNoise) (s := s)
    (c := fun t => (t.setPace n (t.paceRec n).reject).mirrorTally n) own found part
    State.view_mirrorTally (fun id => State.mirrorTally_fault.trans (by cases id <;> rfl))
    (State.mirrorTally_spec.2.1)
  refine ⟨ended, fun silent => ?_, sliders, jacks⟩
  have counted : (((s.setPace n (s.paceRec n).reject).mirrorTally n).paceRec n) = (s.paceRec n).reject := by
    rw [State.paceRec_mirrorTally, State.paceRec_setPace_same]
  have stopped : Controls g ((s.setPace n (s.paceRec n).reject).mirrorTally n)
      (((s.setPace n (s.paceRec n).reject).mirrorTally n).stopChan n) :=
    State.stopChan_controls ((part.role n).symm ▸ own)
  have there := stopped.entryOf.trans (part.entryOf.trans found)
  obtain ⟨chan, rec⟩ := ends.chan there (by
    rw [State.planRunning, stopped.plan, part.plan]
    exact silent) (n := n) (((stopped.role n).trans (part.role n)).symm ▸ own)
  refine ⟨?_, ?_⟩
  · rw [rec]
    have kept := State.pace_motionEnd (s := ((s.setPace n (s.paceRec n).reject).mirrorTally n).stopChan n) (g := g)
      (z := { outcome := .fault, fault := some .pulseNoise, jacks := js })
    have tally : ((((s.setPace n (s.paceRec n).reject).mirrorTally n).stopChan n).paceRec n).tally = 64 := by
      rw [State.stopChan_frame]
      refine Eq.trans (congrArg PaceRecord.tally counted) ?_
      simp [PaceRecord.reject, full]
    rw [← tally]
    exact congrArg (fun p : Vector PaceRecord 16 => (p[n]).tally) kept
  · rw [State.enOut, chan]
    refine State.off_motionEnd ?_
    rw [State.stopChan_eq, State.chan_setChan_same]
    exact Channel.driven_stopped _ _

/-! ### Steps of a motor -/

/-- The channel of a motor and the pace record a capture leaves (R33). -/
theorem State.pulse_captured (driven : (s.chan n).driven = true) (above : s.maskLimit n ≤ (s.paceRec n).counter) :
    s.pulse n = (s.setPace n (s.paceRec n).accept).handStep n (s.chan n).dir true := by
  rw [State.pulse_eq, if_pos driven, if_neg (Nat.not_lt.mpr above)]

theorem SliderRec.setMotor_self (r : SliderRec) : r.setMotor m (r.motor m) = r := by
  cases m <;> rfl

theorem State.setMotor_self : s.setMotor id m (s.motor id m) = s := by
  rw [State.setMotor, State.motor, SliderRec.setMotor_self, State.setSlider_slider]

theorem State.steppedMotor_unknown (unknown : (s.motor id m).count = none) : s.steppedMotor id m d = s := by
  have same : ({ s.motor id m with count := (s.motor id m).count.map (stepCount (s.travelLimit id) d) } : MotorRec) =
      s.motor id m := by
    cases record : s.motor id m
    rw [record] at unknown
    simp only at unknown
    subst unknown
    rfl
  rw [State.steppedMotor, same, State.setMotor_self]

theorem State.view_steppedMotor : (s.steppedMotor id m d).view = s.view := State.view_setMotor _

theorem State.racked_one (one : s.motorChan id .b = none) : s.racked id = false := by
  simp [State.racked, State.bothCounts, State.twoMotors, one]

theorem State.retrim_one (one : s.motorChan id .b = none) : s.retrim id = s := by
  simp [State.retrim, State.twoMotors, one]

theorem State.motorChan_steppedMotor {p : Slider} : (s.steppedMotor id m d).motorChan p y = s.motorChan p y :=
  State.motorChan_layout (by cases id <;> rfl) p y

theorem State.entryOf_steppedMotor : (s.steppedMotor id m d).entryOf g = s.entryOf g := State.entryOf_setMotor ..

theorem State.chan_steppedMotor : (s.steppedMotor id m d).chan i = s.chan i := by cases id <;> rfl

theorem State.fault_steppedMotor {p : Slider} : ((s.steppedMotor id m d).slider p).fault = (s.slider p).fault := by
  rw [State.steppedMotor, State.setMotor, State.slider_setSlider]
  split
  · next same => rw [same, SliderRec.fault_setMotor]
  · rfl

theorem State.rackCheck_apart (apart : s.racked id = false) {work : Work} : s.rackCheck id work = work := by
  rw [State.rackCheck, apart]
  rfl

theorem State.rackCheck_racked (racked : s.racked id = true) {work : Work} :
    s.rackCheck id work = (s, slideFault id .racked) := by
  rw [State.rackCheck, racked]
  rfl

/-- A step of a one-motor slider short of its travel limit counts, and no more (R41, R49). -/
theorem State.slideStep_one {driven : Bool} (one : s.motorChan id .b = none) (seat : (s.motor id m).phase ≠ .seat)
    (finished : (s.motor id m).phase ≠ .finished)
    (short : ∀ c, (s.motor id m).count = some c → d = .outward → s.slideDir id = some .outward → c + 1 < s.travelLimit id) :
    s.slideStep id m d driven = (s.steppedMotor id m d, []) := by
  cases count : (s.motor id m).count with
  | none => rw [State.slideStep_still (.inl count), State.steppedMotor_unknown count]
  | some c =>
    rw [State.slideStep_eq count seat finished, if_neg]
    · have alone : (s.steppedMotor id m d).motorChan id .b = none := State.motorChan_steppedMotor.trans one
      rw [State.rackCheck_apart (State.racked_one alone), State.retrim_one alone, ite_self]
    · rintro ⟨-, moving, rfl, past⟩
      have := short c count rfl moving
      simp only [stepCount] at past
      omega

/-- A driven step of a motion OUT to the travel limit ends it OVERTRAVEL (R49). -/
theorem State.slideStep_over (count : (s.motor id m).count = some c) (seat : (s.motor id m).phase ≠ .seat)
    (finished : (s.motor id m).phase ≠ .finished) (moving : s.slideDir id = some .outward)
    (past : s.travelLimit id ≤ c + 1) :
    s.slideStep id m .outward true = (s.steppedMotor id m .outward, slideFault id .overtravel) := by
  rw [State.slideStep_eq count seat finished, if_pos]
  refine ⟨rfl, moving, rfl, ?_⟩
  simp only [stepCount]
  omega

theorem State.anyMotorDriven_of (chan : s.motorChan id m = some n) (driven : (s.chan n).driven = true) :
    s.anyMotorDriven id = true := by
  have own : s.motorDriven id m = true := by rw [State.motorDriven, chan]; exact driven
  unfold State.anyMotorDriven State.motors
  cases m with
  | a => split <;> simp [own]
  | b => simp [chan, own]

/-- A driven step that ends no motion OUT checks the rack and sets the trims (R50, R51). -/
theorem State.slideStep_two (count : (s.motor id m).count = some c) (seat : (s.motor id m).phase ≠ .seat)
    (finished : (s.motor id m).phase ≠ .finished) (chan : s.motorChan id m = some n) (driven : (s.chan n).driven = true)
    (short : d = .outward → s.slideDir id = some .outward → c + 1 < s.travelLimit id) :
    s.slideStep id m d true =
      (s.steppedMotor id m d).rackCheck id ((s.steppedMotor id m d).retrim id, []) := by
  rw [State.slideStep_eq count seat finished, if_neg, if_pos]
  · exact State.anyMotorDriven_of (State.motorChan_steppedMotor.trans chan) (by rw [State.chan_steppedMotor]; exact driven)
  · rintro ⟨-, moving, rfl, past⟩
    have := short rfl moving
    simp only [stepCount] at past
    omega

/-- The trims of a two-motor room whose counts and motion are known (R51). -/
theorem State.chan_retrim_two {q : RoomId} {a b : Nat} (two : s.motorChan (.room q) .b ≠ none)
    (found : s.entryOf (.room q) = some e) (mine : (s.motor (.room q) .a).count = some a)
    (other : (s.motor (.room q) .b).count = some b) (chan : s.motorChan (.room q) y = some i) :
    (s.retrim (.room q)).chan i = { s.chan i with
      trimmed := if s.motorDriven (.room q) .a = true ∧ s.motorDriven (.room q) .b = true ∧
          (s.layout.rooms[q]).syncWindow < max a b - min a b ∧
          ((y = .a ∧ (if e.action.dir = .outward then b < a else a < b)) ∨
            (y = .b ∧ (if e.action.dir = .outward then a < b else b < a))) then
        some (max 64 ((s.chan i).ramped - 32 * (max a b - min a b - (s.layout.rooms[q]).syncWindow)))
      else none } := by
  have pair : s.twoMotors (.room q) = true := by
    rw [State.twoMotors]
    exact Option.isSome_iff_ne_none.mpr two
  have dir : s.slideDir (.room q) = some e.action.dir := congrArg (Option.map fun e : Entry => e.action.dir) found
  have ramped : s.motorRamped (.room q) y = (s.chan i).ramped := by rw [State.motorRamped, chan]
  rw [(State.retrim_retrimmed (s := s) (id := .room q)).chan i, (State.trimmed_retrim pair).1 y i chan,
    State.trimOf_eq pair, dir, ramped]
  by_cases both : s.motorDriven (.room q) .a = true ∧ s.motorDriven (.room q) .b = true
  · rw [if_pos both]
    obtain ⟨runsA, runsB⟩ := both
    cases y with
    | a => simp [runsA, runsB, otherMotor, mine, other, trimFor, State.syncWindow] <;> rfl
    | b => simp [runsA, runsB, otherMotor, mine, other, trimFor, State.syncWindow, Nat.max_comm b a, Nat.min_comm b a]
  · rw [if_neg both, if_neg fun all => both ⟨all.1, all.2.1⟩]

end

end Sys2Proof.Machine
end

section
/-! PROOFS. Pulses are sorted: what each pulse leads to, from the mask to the ending of a motion (R25, R32 to R36, R41, R49 to R51,
R64, R76, R87). -/

namespace Sys2Proof.Machine

section
variable {s t u w v : State} {g h : Group} {n i : Chan} {id : Slider} {m y : Motor} {d : Dir} {e x : Entry} {j : JackId} {k c : Nat}
  {l rest : List Task} {z : Ending} {f : State → Work}

/-! ### Coast steps of a motor -/

/-- A coast step is handed on while its 50 ms last (R36). -/
theorem State.pulse_coast {q : LastStop} (off : (s.chan n).driven = false) (last : (s.chan n).lastStop = some q)
    (young : s.now < q.time + ms 50) : s.pulse n = s.handStep n q.dir false := by
  rw [State.pulse_eq, if_neg (by rw [off]; simp), last]
  exact if_pos young

theorem axisSame.slider (a : axisSame s t id.group) : t.slider id = s.slider id := by
  cases id <;> exact a

theorem State.groupFaulted_slider : s.groupFaulted id.group = (s.slider id).fault.isSome := by
  cases id <;> rfl

/-- The counts of a slider whose motion an event ends with a fault are the counts at its ending, as no motor of it moves
again. -/
theorem drain_fault_motor (found : s.entryOf id.group = some x) {q : FaultCode} (fault : z.fault = some q)
    (chan : s.motorChan id m = some n) (off : (s.chan n).driven = false) :
    ((drain (k + 1) (s, [.endMotion id.group z])).motor id y).count = (s.motor id y).count := by
  rw [drain_cons]
  have ended := State.slider_motionEnd (e := z) found
  have faulted : (s.motionEnd id.group z).1.groupFaulted id.group = true := by
    rw [State.groupFaulted_slider, ended]
    change (if (s.slider id).fault.isSome then (s.slider id).fault else z.fault).isSome = true
    split
    · assumption
    · rw [fault]; rfl
  have role : ((s.motionEnd id.group z).1.role n).group = some id.group := by
    have layout := (State.motionEnd_does (F := fun _ => True) (s := s) (g := id.group) (e := z) fun _ => trivial).follows.layout
    rw [State.role, layout]
    exact State.group_motorChan chan
  have downed : Downed id.group n (s.motionEnd id.group z).1 :=
    ⟨role, faulted, State.motionEnd_stills, State.off_motionEnd off⟩
  have kept := drain_axis (k := k) (l := (s.motionEnd id.group z).2 ++ []) downed (by
    rw [List.append_nil]
    exact spares_motionEnd)
  refine Eq.trans (congrArg (fun r : SliderRec => (r.motor y).count) kept.slider) ?_
  rw [ended]
  cases y
  · rfl
  · change (MotorRec.count (SliderRec.motorB _)) = _
    unfold SliderRec.ended SliderRec.phased
    dsimp only
    split <;> rfl

theorem State.event_passed (work : f s = (w, l)) (view : w.view = s.view) : s.event f = drain (9998 + 1) (w, l) := by
  unfold State.event State.handing
  dsimp only
  rw [work]
  exact drain_handover_same view

/-- A coast step of a motor counts where the count is known and the motor is not in SEAT or FINISHED, whatever it ends
(R36, R41). -/
theorem State.pulse_coasted {q : LastStop} (off : (s.chan n).driven = false) (last : (s.chan n).lastStop = some q)
    (young : s.now < q.time + ms 50) (chan : s.motorChan id m = some n) :
    ((s.event fun t => t.pulse n).motor id m).count =
        (if (s.motor id m).phase = .seat ∨ (s.motor id m).phase = .finished then (s.motor id m).count
        else (s.motor id m).count.map (stepCount (s.travelLimit id) q.dir)) ∧
      (s.event fun t => t.pulse n).fixedPart = s.fixedPart := by
  have coast : s.pulse n = s.slideStep id m q.dir false := (State.pulse_coast off last young).trans (State.handStep_slider chan)
  by_cases deaf : (s.motor id m).phase = .seat ∨ (s.motor id m).phase = .finished
  · rw [if_pos deaf, State.event_quiet_at (coast.trans (State.slideStep_still (.inr deaf))) rfl]
    exact ⟨rfl, rfl⟩
  rw [if_neg deaf]
  obtain ⟨seat, finished⟩ := not_or.mp deaf
  cases count : (s.motor id m).count with
  | none =>
    rw [State.event_quiet_at (coast.trans (State.slideStep_still (.inl count))) rfl, count]
    exact ⟨rfl, rfl⟩
  | some c =>
    have stepped : ((s.steppedMotor id m q.dir).motor id m).count = (s.motor id m).count.map (stepCount (s.travelLimit id) q.dir) := by
      rw [State.steppedMotor, State.motor_setMotor_same]
    have fixed : (s.steppedMotor id m q.dir).fixedPart = s.fixedPart := by cases id <;> rfl
    have view := s.view_steppedMotor (id := id) (m := m) (d := q.dir)
    have step := State.slideStep_eq (driven := false) (d := q.dir) count seat finished
    rw [if_neg (by simp)] at step
    rw [← count, ← stepped, ← fixed]
    have chan' : (s.steppedMotor id m q.dir).motorChan id m = some n := State.motorChan_steppedMotor.trans chan
    have off' : ((s.steppedMotor id m q.dir).chan n).driven = false := by rw [State.chan_steppedMotor]; exact off
    generalize s.steppedMotor id m q.dir = w at *
    split at step
    · next driven =>
      by_cases racked : w.racked id = true
      · have work : s.pulse n = (w, slideFault id .racked) := by rw [coast, step, State.rackCheck_racked racked]
        rw [State.event_passed (f := fun t => t.pulse n) work view]
        refine ⟨?_, (drain_does (F := fun _ => True) slideFault_plain).follows.fixed⟩
        cases found : w.entryOf id.group with
        | none =>
          have rests : w.runTask (.endMotion id.group { outcome := .fault, fault := some .racked }) = (w, []) := by
            rw [State.runTask, State.motionEnd, found]
          rw [slideFault, drain_cons, rests]
          rfl
        | some x => exact drain_fault_motor found rfl chan' off'
      · have work : s.pulse n = (w.retrim id, []) := by
          rw [coast, step, State.rackCheck_apart (Bool.eq_false_iff.mpr racked)]
        have trims : Retrimmed w (w.retrim id) := State.retrim_retrimmed
        rw [State.event_quiet_at (f := fun t => t.pulse n) work (trims.view.trans view)]
        refine ⟨congrArg (fun r : SliderRec => (r.motor m).count) (trims.slider id), ?_⟩
        rw [trims.frame]
        rfl
    · have work : s.pulse n = (w, []) := coast.trans step
      rw [State.event_quiet_at (f := fun t => t.pulse n) work view]
      exact ⟨rfl, rfl⟩

end

end Sys2Proof.Machine
end

section
/-! PROOFS. Position steps of a jack (R41, R64, R76, R84, R87), and the sorting of pulses as a whole. -/

namespace Sys2Proof.Machine

section
variable {s t u w v : State} {n i : Chan} {id : Slider} {m y : Motor} {d : Dir} {e x : Entry} {j : JackId} {k c : Nat}
  {p : Vector Nat 6} {driven : Bool}

/-- The record of a jack after one position step. -/
def State.steppedJack (s : State) (j : JackId) (d : Dir) : Jack :=
  { s.jack j with count := (s.jack j).count.map (stepCount (s.countCeiling j) d) }

/-- The state after a jack's step is counted, before what it ends. -/
def State.jackCounted (s : State) (j : JackId) (d : Dir) (p : Vector Nat 6) : State :=
  { s.setJack j (s.steppedJack j d) with level := { s.level with progress := p } }

/-- The step brings the count of an ACTIVE extending jack to its stroke max (R76, R84). -/
def State.stepsToStroke (s : State) (j : JackId) (d : Dir) (driven : Bool) : Prop :=
  driven = true ∧ d = .outward ∧ (s.jack j).phase = .active ∧ (s.jack j).dir = .outward ∧
    0 < (s.jackParams j).strokeMax ∧ (s.steppedJack j d).count = some (s.jackParams j).strokeMax

/-- The step leaves the progress of an ACTIVE extending jack at its target or above (R87). -/
def State.stepsToTarget (s : State) (j : JackId) (d : Dir) (p : Vector Nat 6) : Prop :=
  s.feedsProgress j d = true ∧ (s.jack j).phase = .active ∧ (s.jack j).dir = .outward ∧ ∃ x ∈ s.level.targets[j], x ≤ p[j]

/-- What a jack's step ends, in the state `w` that it has counted in. -/
def State.stepEnds (s w : State) (j : JackId) (d : Dir) (driven : Bool) : Work :=
  if (decide ((w.jack j).phase = .active ∧ (w.jack j).dir = .outward) && driven && d == .outward &&
      decide (0 < (s.jackParams j).strokeMax) && decide ((w.jack j).count = some (s.jackParams j).strokeMax)) = true then
    (w.jackAtStroke j).jackSettled
  else if (decide ((w.jack j).phase = .active ∧ (w.jack j).dir = .outward) && s.feedsProgress j d &&
      match w.level.targets[j] with
      | some t => decide (t ≤ w.level.progress[j])
      | none => false) = true then (w.jackDone j).jackSettled
  else (w, [])

/-- A position step of a jack counts, feeds the progress of a LIFT phase, and ends the jack's drive at its stroke max or at
its target (R64, R76, R84, R87). -/
theorem State.jackStep_eq (fed : ∀ i : JackId, p[i] = if s.feedsProgress j d = true ∧ i = j then
      min 65535 (s.level.progress[i] + 1) else s.level.progress[i]) :
    (s.stepsToStroke j d driven → s.jackStep j d driven = ((s.jackCounted j d p).jackAtStroke j).jackSettled) ∧
    (¬ s.stepsToStroke j d driven → s.stepsToTarget j d p →
      s.jackStep j d driven = ((s.jackCounted j d p).jackDone j).jackSettled) ∧
    (¬ s.stepsToStroke j d driven → ¬ s.stepsToTarget j d p → s.jackStep j d driven = (s.jackCounted j d p, [])) := by
  have progress : p = if s.feedsProgress j d = true then s.level.progress.set j (min 65535 (s.level.progress[j] + 1))
      else s.level.progress := by
    refine Vector.ext fun i small => ?_
    refine (fed ⟨i, small⟩).trans ?_
    by_cases feeds : s.feedsProgress j d = true
    · rw [if_pos feeds, Vector.getElem_set]
      by_cases same : (⟨i, small⟩ : JackId) = j
      · subst same
        simp [feeds]
      · rw [if_neg fun both => same both.2, if_neg fun eq => same (Fin.ext eq.symm)]
        rfl
    · rw [if_neg feeds, if_neg fun both => feeds both.1]
      rfl
  have counted : (if s.feedsProgress j d = true then
        ({ s.setJack j (s.steppedJack j d) with
          level := { s.level with progress := s.level.progress.set j (min 65535 (s.level.progress[j] + 1)) } } : State)
      else s.setJack j (s.steppedJack j d)) = s.jackCounted j d p := by
    rw [State.jackCounted, progress]
    split <;> rfl
  have jack : (s.jackCounted j d p).jack j = s.steppedJack j d := State.jack_setJack_same ..
  have stroke : (decide ((s.steppedJack j d).phase = .active ∧ (s.steppedJack j d).dir = .outward) && driven && d == .outward &&
      decide (0 < (s.jackParams j).strokeMax) &&
      decide ((s.steppedJack j d).count = some (s.jackParams j).strokeMax)) = true ↔ s.stepsToStroke j d driven := by
    have phase : (s.steppedJack j d).phase = (s.jack j).phase := rfl
    have dir : (s.steppedJack j d).dir = (s.jack j).dir := rfl
    rw [phase, dir]
    simp only [Bool.and_eq_true, decide_eq_true_eq, beq_iff_eq, State.stepsToStroke]
    tauto
  have target : (decide ((s.steppedJack j d).phase = .active ∧ (s.steppedJack j d).dir = .outward) && s.feedsProgress j d &&
      match s.level.targets[j] with
      | some t => decide (t ≤ p[j])
      | none => false) = true ↔ s.stepsToTarget j d p := by
    have phase : (s.steppedJack j d).phase = (s.jack j).phase := rfl
    have dir : (s.steppedJack j d).dir = (s.jack j).dir := rfl
    rw [phase, dir]
    unfold State.stepsToTarget
    cases s.level.targets[j] <;> simp [and_assoc, and_left_comm]
  have step : s.jackStep j d driven = s.stepEnds (s.jackCounted j d p) j d driven := by
    rw [← counted]
    rfl
  have ends : s.stepEnds (s.jackCounted j d p) j d driven =
      if (decide (((s.jackCounted j d p).jack j).phase = .active ∧ ((s.jackCounted j d p).jack j).dir = .outward) && driven &&
          d == .outward && decide (0 < (s.jackParams j).strokeMax) &&
          decide (((s.jackCounted j d p).jack j).count = some (s.jackParams j).strokeMax)) = true then
        ((s.jackCounted j d p).jackAtStroke j).jackSettled
      else if (decide (((s.jackCounted j d p).jack j).phase = .active ∧ ((s.jackCounted j d p).jack j).dir = .outward) &&
          s.feedsProgress j d && match s.level.targets[j] with
          | some t => decide (t ≤ p[j])
          | none => false) = true then ((s.jackCounted j d p).jackDone j).jackSettled
      else (s.jackCounted j d p, []) := rfl
  rw [step, ends, jack]
  refine ⟨fun strikes => if_pos (stroke.mpr strikes), fun short reached => ?_, fun short below => ?_⟩
  · exact (if_neg fun strikes => short (stroke.mp strikes)).trans (if_pos (target.mpr reached))
  · exact (if_neg fun strikes => short (stroke.mp strikes)).trans (if_neg fun reached => below (target.mp reached))

theorem State.jackStep_counted (fed : ∀ i : JackId, p[i] = if s.feedsProgress j d = true ∧ i = j then
      min 65535 (s.level.progress[i] + 1) else s.level.progress[i]) :
    ((s.jackStep j d driven).1.jack j).count = (s.steppedJack j d).count ∧
      (s.jackStep j d driven).1.fixedPart = s.fixedPart := by
  obtain ⟨strikes, reaches, neither⟩ := State.jackStep_eq (driven := driven) fed
  have part : Controls .jacks (s.jackCounted j d p) (s.jackStep j d driven).1 := by
    by_cases stroke : s.stepsToStroke j d driven
    · rw [strikes stroke]
      exact State.jackAtStroke_controls.trans State.jackSettled_controls
    by_cases target : s.stepsToTarget j d p
    · rw [reaches stroke target]
      exact State.jackDone_controls.trans State.jackSettled_controls
    · rw [neither stroke target]
      exact .refl ..
  have counted : (s.jackCounted j d p).jack j = s.steppedJack j d := State.jack_setJack_same ..
  have fixed := congrArg State.fixedPart part.outer
  have reading := congrArg Jack.count (part.jackReading j)
  refine ⟨?_, fixed⟩
  rw [← counted]
  exact reading

theorem State.view_jackCounted : (s.jackCounted j d p).view = s.view :=
  State.view_setJack (s := s) (s.steppedJack j d) rfl rfl rfl rfl rfl

/-- What an event that is a jack's position step leaves: the count, and the state where the jack is not done by it. -/
theorem State.event_jackStep {f : State → Work} (work : f s = v.jackStep j d driven) (view : v.view = s.view)
    (fed : ∀ i : JackId, p[i] = if v.feedsProgress j d = true ∧ i = j then
      min 65535 (v.level.progress[i] + 1) else v.level.progress[i]) :
    (((s.event f).jack j).count = (v.steppedJack j d).count ∧ (s.event f).fixedPart = v.fixedPart) ∧
    (¬ v.stepsToStroke j d driven → ¬ v.stepsToTarget j d p → s.event f = v.jackCounted j d p) := by
  obtain ⟨count, fixed⟩ := State.jackStep_counted (driven := driven) fed
  have does : Does (fun _ => True) (v.jackStep j d driven).1 (s.event f) := by
    rw [← work]
    exact State.event_does (by rw [work]; exact State.jackStep_plain)
  refine ⟨⟨?_, does.follows.fixed.trans fixed⟩, fun short below => ?_⟩
  · have reading := congrArg Jack.count (does.follows.jackReading j)
    rw [← count]
    exact reading
  · exact State.event_quiet_at (work.trans ((State.jackStep_eq fed).2.2 short below)) (State.view_jackCounted.trans view)

/-- A step that makes a jack DONE stops its valve, and the motion with the last of its jacks. -/
theorem State.event_jackStops {f : State → Work} {stroke : Bool} (work : f s = v.jackStep j d driven)
    (fed : ∀ i : JackId, p[i] = if v.feedsProgress j d = true ∧ i = j then
      min 65535 (v.level.progress[i] + 1) else v.level.progress[i])
    (strikes : stroke = true ↔ v.stepsToStroke j d driven) (ends : stroke = true ∨ v.stepsToTarget j d p)
    (result : w = { v.setJack j { v.steppedJack j d with phase := .done, atStroke := stroke || (v.jack j).atStroke } with
      level := { v.level with
        progress := p, limited := v.level.limited || (stroke && decide (v.level.status = .active)) } })
    (found : v.entryOf .jacks = some e) (calm : w.fallenPermit = none) : JackStops w (s.event f) e j := by
  have there : w.entryOf .jacks = some e := by rw [result]; exact found
  have counted : (v.jackCounted j d p).jack j = v.steppedJack j d := State.jack_setJack_same ..
  refine jackStops_of_work (work.trans ?_) there calm
  obtain ⟨atStroke, atTarget, -⟩ := State.jackStep_eq (driven := driven) fed
  by_cases struck : v.stepsToStroke j d driven
  · rw [atStroke struck, State.jackAtStroke_eq, counted, result, strikes.mpr struck]
    simp only [Bool.true_or, Bool.true_and]
    congr 2
    rw [State.jackCounted]
    simp [State.setJack]
  · have short : stroke = false := Bool.eq_false_iff.mpr fun yes => struck (strikes.mp yes)
    rw [atTarget struck (ends.resolve_left (by rw [short]; simp)), State.jackDone_eq, counted, result, short]
    simp only [Bool.false_or, Bool.false_and, Bool.or_false]
    congr 2
    rw [State.jackCounted]
    simp [State.setJack]
    rfl

end

/-- Settles O40: the pulse goes by the mask and the last stop, and each step is what its controller makes of it. -/
theorem pulsesAreSorted : Obligations.PulsesAreSorted := by
  unfold Obligations.PulsesAreSorted
  intro s n awake
  refine ⟨fun idle => ?_, fun present pulses => ?_⟩
  · have arm : exec (.plsPulse n) s = .next (s.awake fun t => if t.hasPulses n then t.event fun u => u.pulse n else t) := rfl
    rw [arm, exec_awake (f := fun t : State => if t.hasPulses n then t.event fun u => u.pulse n else t) awake]
    rcases idle with idle | idle <;> simp [State.hasPulses, idle]
  rw [exec_plsPulse awake present pulses]
  simp only [← PaceRecord.accept_eq]
  refine ⟨fun driven below short => ⟨_, rfl, ?_⟩, fun g e driven below full own found => ?_,
    fun id m d v driven above chan seat finished aim stepped => ?_,
    fun j d v r driven fed stroke target p role where' record feeds progress strikes reaches => ?_,
    fun id m l off last young chan => ?_, fun off old => ?_⟩
  · rw [State.pulse_rejected driven below short]
    obtain ⟨counts, jacks, channels, load, fixed⟩ := State.mirrorTally_spec (s := s.setPace n (s.paceRec n).reject) (n := n)
    refine ⟨?_, fun id m => (counts id m).trans ?_, jacks, channels, load, fixed⟩
    · rw [State.paceRec_mirrorTally, State.paceRec_setPace_same]
      rfl
    · cases id <;> rfl
  · obtain ⟨t, run, noise⟩ := State.pulse_noise driven below full own found
    exact ⟨t, congrArg _ run, noise⟩
  · have hand : s.pulse n = (s.setPace n (s.paceRec n).accept).slideStep id m d true := by
      rw [State.pulse_captured driven above, ← aim]
      exact State.handStep_slider (s := s.setPace n (s.paceRec n).accept) chan
    have result : v = (s.setPace n (s.paceRec n).accept).steppedMotor id m d := by
      rw [stepped]
      cases id <;> cases d <;> rfl
    have motor (p : Slider) (y : Motor) : (s.setPace n (s.paceRec n).accept).motor p y = s.motor p y := by cases p <;> rfl
    have view : v.view = s.view := result ▸ State.view_steppedMotor
    have chans (i : Chan) : v.chan i = s.chan i := result ▸ State.chan_steppedMotor
    have entries (g : Group) : v.entryOf g = s.entryOf g := result ▸ State.entryOf_steppedMotor
    have faults : (v.slider id).fault = (s.slider id).fault := by
      rw [result, State.fault_steppedMotor]
      cases id <;> rfl
    have seat' : ((s.setPace n (s.paceRec n).accept).motor id m).phase ≠ .seat := by rw [motor]; exact seat
    have finished' : ((s.setPace n (s.paceRec n).accept).motor id m).phase ≠ .finished := by rw [motor]; exact finished
    have known {c : Nat} (count : (s.motor id m).count = some c) :
        ((s.setPace n (s.paceRec n).accept).motor id m).count = some c := by rw [motor]; exact count
    have unknown {c : Nat} (count : ((s.setPace n (s.paceRec n).accept).motor id m).count = some c) :
        (s.motor id m).count = some c := by rw [← motor]; exact count
    refine ⟨fun one short => ?_, fun c e count found action out past => ?_,
      fun q e a b lead isRoom two found mine other leads short => ?_⟩
    · have work : s.pulse n = (v, []) := by
        rw [hand, result]
        exact State.slideStep_one one seat' finished' fun c count out moving => short c (unknown count) out moving
      rw [State.event_quiet_at (f := fun t => t.pulse n) work view]
    · have moving : s.slideDir id = some .outward := by
        rw [← action]
        exact congrArg (Option.map fun e : Entry => e.action.dir) found
      have work : s.pulse n = (v, slideFault id .overtravel) := by
        rw [hand, result, out]
        exact State.slideStep_over (known count) seat' finished' moving past
      have there : v.entryOf id.group = some e := (entries _).trans found
      have ends := State.event_ends_at (f := fun t => t.pulse n) work view there .nil
      refine ⟨_, rfl, ends.ended, ?_, fun silent => ?_⟩
      · rw [ends.slider_fault there rfl, faults]
      · have silent' : v.planRunning = false := by rw [result]; cases id <;> exact silent
        rw [ends.slider there silent']
        rfl
    · subst isRoom
      obtain ⟨c, count⟩ : ∃ c, (s.motor (.room q) m).count = some c := by
        have after : (v.motor (.room q) m).count = (s.motor (.room q) m).count.map (stepCount (s.travelLimit (.room q)) d) := by
          rw [result, State.steppedMotor, State.motor_setMotor_same]
          rfl
        have isSome : (v.motor (.room q) m).count ≠ none := by
          cases m
          · rw [mine]; simp
          · rw [other]; simp
        rw [after] at isSome
        exact Option.ne_none_iff_exists'.mp fun none => isSome (by rw [none]; rfl)
      have two' : v.motorChan (.room q) .b ≠ none := by
        rw [result, State.motorChan_steppedMotor]
        exact two
      have motors : v.motorChan (.room q) = s.motorChan (.room q) := by
        funext y
        rw [result, State.motorChan_steppedMotor]
        rfl
      have work : s.pulse n = v.rackCheck (.room q) (v.retrim (.room q), []) := by
        rw [hand, result]
        refine State.slideStep_two (known count) seat' finished' chan driven fun out moving => short c count out ?_
        rw [show (s.setPace n (s.paceRec n).accept).slideDir (.room q) = some e.action.dir from
          congrArg (Option.map fun e : Entry => e.action.dir) found] at moving
        exact Option.some.inj moving
      have layout : v.layout = s.layout := by rw [result]; rfl
      have racks : v.racked (.room q) = decide ((s.layout.rooms[q]).rackLimit ≤ lead) := by
        have pair : v.twoMotors (.room q) = true := Option.isSome_iff_ne_none.mpr two'
        rw [leads, ← layout, State.racked, State.bothCounts, if_pos pair, mine, other]
        rfl
      have there : v.entryOf (.room q) = some e := (entries _).trans found
      refine ⟨fun apart => ?_, fun near => ?_⟩
      · rw [State.rackCheck_racked (racks.trans (decide_eq_true apart))] at work
        have ends := State.event_ends_at (f := fun t => t.pulse n) work view there .nil
        refine ⟨_, rfl, ends.ended, ?_⟩
        rw [Ends.slider_fault (id := .room q) ends there rfl, faults]
      · rw [State.rackCheck_apart (racks.trans (decide_eq_false (Nat.not_le.mpr near)))] at work
        have trims : Retrimmed v (v.retrim (.room q)) := State.retrim_retrimmed
        rw [State.event_quiet_at (f := fun t => t.pulse n) work (trims.view.trans view)]
        refine ⟨_, rfl, trims.frame, fun x foreign => ?_, fun y x own => ?_⟩
        · rw [(State.trimmed_retrim (Option.isSome_iff_ne_none.mpr two')).2 x fun y => by rw [motors]; exact foreign y, chans]
        · have drivenAs (y : Motor) : v.motorDriven (.room q) y = s.motorDriven (.room q) y := by
            unfold State.motorDriven
            rw [motors]
            split
            · rw [chans]
            · rfl
          rw [State.chan_retrim_two two' there mine other (motors ▸ own), chans, drivenAs, drivenAs, layout, ← leads]
  · obtain ⟨pace, isPace, work⟩ : ∃ pace, v = { s with pace := pace } ∧ s.pulse n = v.jackStep j d driven := by
      have hand (w : State) (same : w.role n = .jack j) (b : Bool) : w.handStep n d b = w.jackStep j d b := by
        rw [State.handStep, same]
      rcases where' with ⟨rfl, runs, above, aim, place⟩ | ⟨rfl, off, place, l, last, young, aim⟩
      · refine ⟨_, place, ?_⟩
        rw [State.pulse_captured runs above, ← aim, place]
        exact hand (s.setPace n (s.paceRec n).accept) role true
      · refine ⟨s.pace, place, ?_⟩
        rw [State.pulse_coast off last young, ← aim, place]
        exact hand s role false
    have stepped : r = v.steppedJack j d := by
      rw [record, isPace]
      cases d <;> rfl
    have feeding : (v.feedsProgress j d = true) = (fed = true) := by
      rw [feeds, isPace]
      simp [State.feedsProgress, State.levelActive, and_assoc]
    have fedBy (i : JackId) : p[i] = if v.feedsProgress j d = true ∧ i = j then min 65535 (v.level.progress[i] + 1)
        else v.level.progress[i] := by
      simp only [feeding]
      rw [progress i, isPace]
    have stroked : stroke = true ↔ v.stepsToStroke j d driven := by
      rw [strikes, decide_eq_true_iff, stepped, isPace]
      rfl
    have targeted : target = true ↔ v.stepsToTarget j d p := by
      rw [reaches, decide_eq_true_iff, State.stepsToTarget, feeding, isPace]
      rfl
    have view : v.view = s.view := by rw [isPace]; rfl
    obtain ⟨⟨count, fixed⟩, quiet⟩ := State.event_jackStep (f := fun t => t.pulse n) work view fedBy
    refine ⟨⟨_, rfl, ?_, ?_⟩, fun short below => ?_, fun e w ends found mem result calm => ⟨_, rfl, ?_⟩⟩
    · rw [count, stepped]
    · rw [fixed, isPace]
      rfl
    · rw [quiet (fun yes => by rw [stroked.mpr yes] at short; exact absurd short (by simp))
        (fun yes => by rw [targeted.mpr yes] at below; exact absurd below (by simp)), State.jackCounted, ← stepped, isPace]
    · refine State.event_jackStops (f := fun t => t.pulse n) (stroke := stroke) work fedBy stroked (ends.imp_right targeted.mp) ?_
        (by rw [isPace]; exact found) calm
      rw [result, stepped, isPace]
      rfl
  · obtain ⟨count, fixed⟩ := State.pulse_coasted off last young chan
    exact ⟨_, rfl, count, fixed⟩
  · have quiet : s.pulse n = (s, []) := by
      rw [State.pulse_eq, if_neg (by rw [off]; simp)]
      cases last : (s.chan n).lastStop with
      | none => rfl
      | some l => exact if_neg (Nat.not_lt.mpr (old l last))
    rw [State.event_quiet_at (f := fun t => t.pulse n) quiet rfl]

end Sys2Proof.Machine
end

section
/-! PROOFS. A motion accepted while nothing moves: the state in which its controller receives it, and what the event leaves
of it (R112, R125, R128, R134 to R136). -/

namespace Sys2Proof.Machine

section
variable {s t u w v : State} {g h : Group} {n i : Chan} {id : Slider} {m y : Motor} {d : Dir} {e x : Entry} {j : JackId} {k c : Nat}
  {b : Claim} {p : Port} {a : Action} {moved : List Chan} {l : List Task}

/-- Nothing moves, and a claim and its entry are placed: in the load list or in the pause list by the entry's state. -/
def State.admitted (s : State) (b : Claim) (e : Entry) : State :=
  { s with
    claims := s.claims.set (groupIndex e.group) (some b)
    load := if e.state = .running then [e] else [], paused := if e.state = .running then [] else [e]
    nextOrder := s.nextOrder + 1
    motionPeriod := if e.state = .running then some s.now else s.motionPeriod
    motionPulse := e.state = .running || s.motionPulse }

/-- The entry of a motion that is accepted now (R112, R136). -/
def State.entryNow (s : State) (p : Port) (m : Mode) (g : Group) (a : Action) : Entry :=
  { group := g, owner := .port p, mode := m, action := a, units := s.motionUnits g a, order := s.nextOrder
    state := if s.motionUnits g a ≤ s.budget then .running else .waiting
    pausedSince := if s.motionUnits g a ≤ s.budget then none else some s.now }

theorem State.placeEntry_admitted {m : Mode} (idle : s.motions = []) :
    (s.setClaim g (some b)).placeEntry g (.port p) m a =
      (s.admitted b (s.entryNow p m g a), decide (s.motionUnits g a ≤ s.budget)) := by
  have lists : s.load = [] ∧ s.paused = [] := by simpa [State.motions] using idle
  obtain ⟨load, paused⟩ := lists
  have fits : (s.setClaim g (some b)).fits (s.motionUnits g a) = decide (s.motionUnits g a ≤ s.budget) := by
    have held : (s.setClaim g (some b)).heldUnits = 0 := by
      change unitsOf s.load = 0
      rw [load]
      rfl
    rw [State.fits, held]
    rfl
  have units : (s.setClaim g (some b)).motionUnits g a = s.motionUnits g a := rfl
  unfold State.placeEntry
  dsimp only
  rw [units, fits]
  by_cases small : s.motionUnits g a ≤ s.budget
  · rw [if_pos (decide_eq_true small), decide_eq_true small]
    simp [State.enterLoad, State.setLoad, State.admitted, State.entryNow, newEntry, load, paused, small, State.setClaim]
  · rw [if_neg (by rw [decide_eq_false small]; simp), decide_eq_false small]
    simp [State.enterPause, insertByOrder, State.admitted, State.entryNow, newEntry, load, paused, small, State.setClaim]

/-- While the vehicle is parked and every permit holds, handing states over changes nothing but an alarm that stood. -/
theorem drain_parked {old : View} (calm : w.fallenPermit = none) (parked : w.road = .parked) :
    w.butAlarm (drain (k + 2) (w, [.handover old])) ∧ (w.alarm = false → drain (k + 2) (w, [.handover old]) = w) := by
  by_cases same : w.view = old
  · rw [drain_handover_same same]
    have finished : drain (k + 1) (w, []) = w := rfl
    rw [finished]
    exact ⟨⟨rfl, fun _ => rfl⟩, fun _ => rfl⟩
  · have handed : w.runTask (.handover old) = (w.evalAlarm, [.permits]) := if_neg same
    have calmer : w.evalAlarm.fallenPermit = none := (State.fallenPermit_butAlarm w.butAlarm_evalAlarm).trans calm
    have checked : w.evalAlarm.runTask .permits = (w.evalAlarm, []) := by
      change w.evalAlarm.checkPermits = _
      rw [State.checkPermits, calmer]
    have whole : drain (k + 2) (w, [.handover old]) = w.evalAlarm := by
      rw [drain_cons, handed]
      change drain (k + 1) (w.evalAlarm, [.permits]) = _
      rw [drain_cons, checked]
      cases k <;> rfl
    rw [whole]
    refine ⟨w.butAlarm_evalAlarm, fun silent => ?_⟩
    unfold State.evalAlarm
    rw [parked, silent]
    rfl

/-- What an accepted motion leaves, from what its controller does with it: its claim and its entry stand. -/
theorem Placed.of (frame : w = { s.admitted b e with
      channels := w.channels, pace := w.pace, rooms := w.rooms, awning := w.awning, jacks := w.jacks
      jackSet := w.jackSet, level := w.level })
    (channels : ∀ x, x ∉ moved → w.chan x = s.chan x ∧ w.paceRec x = s.paceRec x)
    (axes : ∀ h, h ≠ e.group → axisRecords w h = axisRecords s h) (after : w.butAlarm u) (quiet : w.alarm = false → u = w) :
    Placed s u b e moved := by
  obtain ⟨same, -⟩ := after
  have chan (x : Chan) : u.chan x = w.chan x := by rw [same]; rfl
  have pace (x : Chan) : u.paceRec x = w.paceRec x := by rw [same]; rfl
  have claim (h : Group) : u.claim h = (s.setClaim e.group (some b)).claim h := by rw [same, frame]; rfl
  refine ⟨⟨?_, fun h other => ?_⟩, fun x away => ?_, fun h other => ?_, ?_, fun silent => ?_⟩
  · rw [claim, State.claim_setClaim, if_pos rfl]
  · rw [claim, State.claim_setClaim, if_neg (Ne.symm other)]
  · rw [chan, pace]
    exact channels x away
  · rw [← axes h other, same]
    rfl
  · have kept : u.channels = w.channels ∧ u.pace = w.pace ∧ u.rooms = w.rooms ∧ u.awning = w.awning ∧ u.jacks = w.jacks ∧
        u.jackSet = w.jackSet ∧ u.level = w.level ∧ u.claims = (s.admitted b e).claims := by
      rw [same]
      exact ⟨rfl, rfl, rfl, rfl, rfl, rfl, rfl, by rw [frame]⟩
    obtain ⟨channels', pace', rooms', awning', jacks', jackSet', level', claims'⟩ := kept
    rw [channels', pace', rooms', awning', jacks', jackSet', level', claims']
    refine same.trans ?_
    conv_lhs => rw [frame]
    rfl
  · have still : w.alarm = false := by rw [frame]; exact silent
    rw [quiet still, frame]
    exact ⟨silent, rfl, rfl, rfl⟩

/-- A motion request that passes every check while nothing moves is admitted by its group's controller (R112). -/
theorem exec_admitted {c : Instr} {m : Mode} (awake : s.inReset = none) (room : s.hasRoom p) (idle : s.motions = [])
    (command : motionCommand p m g a = some c) (free : s.claim g = none) (first : s.firstChecks g a = none)
    (verdict : s.verdict m g a = none)
    (received : (s.admitted (s.newClaim p m a) (s.entryNow p m g a)).controllerAdmit g a
      (decide (s.motionUnits g a ≤ s.budget)) = (w, l)) :
    exec c s = .next ((drain workBound (w, l ++ [.handover s.view])).answered p (motionKind m a)
      (.accepted false (!decide (s.motionUnits g a ≤ s.budget)) false)) := by
  have load : s.load = [] := (List.append_eq_nil_iff.mp (List.map_eq_nil_iff.mp idle)).1
  have fits : s.fits (s.motionUnits g a) = decide (s.motionUnits g a ≤ s.budget) := by
    have held : s.heldUnits = 0 := by
      rw [State.heldUnits, load]
      rfl
    rw [State.fits, held]
    rfl
  have accepted : s.acceptMotion p m g a = (drain workBound (w, l ++ [.handover s.view]),
      .accepted false (!decide (s.motionUnits g a ≤ s.budget)) false) := by
    unfold State.acceptMotion State.admitMotion State.placeAndStart
    dsimp only
    rw [fits, State.placeEntry_admitted idle, received]
    rfl
  rw [exec_motionCommand awake room command, State.motionRequest_free free, first, verdict]
  dsimp only
  rw [accepted]

/-! ### The drive start of a motor -/

/-- The drive start of a motor's channel: the channel, its pace record, and the mirror of its tally (R8, R27, R60). -/
theorem State.driveStart_motor (chan : s.motorChan id m = some n) : s.driveStart n d =
    ((s.setChan n ((s.chan n).driveStarted (s.kindParams n) d s.now)).setPace n clearedPace).setMotor id m
      { s.motor id m with tally := 0 } := by
  have pace : (((s.setChan n ((s.chan n).driveStarted (s.kindParams n) d s.now)).setPace n clearedPace).paceRec n).tally = 0 := by
    rw [State.paceRec_setPace_same]
    rfl
  have layout : ((s.setChan n ((s.chan n).driveStarted (s.kindParams n) d s.now)).setPace n clearedPace).role n = s.role n := rfl
  have motor : ((s.setChan n ((s.chan n).driveStarted (s.kindParams n) d s.now)).setPace n clearedPace).motor id m =
      s.motor id m := by cases id <;> rfl
  unfold State.driveStart
  dsimp only
  generalize ((s.setChan n ((s.chan n).driveStarted (s.kindParams n) d s.now)).setPace n clearedPace) = v at *
  unfold State.mirrorTally
  cases id with
  | room q =>
    have role : s.role n = .room q m := State.role_of_roleChan chan
    rw [layout, role]
    dsimp only
    rw [pace, motor]
  | awning =>
    cases m with
    | a =>
      have role : s.role n = .awning := State.role_of_roleChan chan
      rw [layout, role]
      dsimp only
      rw [pace, motor]
    | b => exact absurd chan (by simp [State.motorChan])

end

end Sys2Proof.Machine
end

section
/-! PROOFS. A held motion of a room or of the awning that starts from rest (R8, R44, R50, R51, R97, R112). -/

namespace Sys2Proof.Machine

section
variable {s t u w v : State} {g h : Group} {n i na nb : Chan} {id : Slider} {m y : Motor} {d : Dir} {e x : Entry} {k c : Nat}
  {b : Claim} {p : Port} {a : Action} {moved : List Chan} {l : List Task} {q : RoomId}

/-! ### The checks -/

theorem State.firstChecks_none (idle : s.write = none) (parked : s.road = .parked) (configured : s.actionConfigured g a = true) :
    s.firstChecks g a = none := by
  simp [State.firstChecks, idle, parked, configured]

theorem State.verdict_none {m : Mode} (still : s.motions = []) (seated : ∀ n ∈ s.groupChans g, (s.chan n).census = .seated)
    (faultless : s.groupFaulted g = false ∨ (m = .hold ∧ a.dir = .stowing)) (known : s.homeFirst g a = false)
    (permitted : s.permitCause g a = none)
    (flat : a = .level → s.tilt.pitch.natAbs ≤ s.layout.level.steepLimit ∧ s.tilt.roll.natAbs ≤ s.layout.level.steepLimit)
    (fits : m = .hold → s.motionUnits g a ≤ s.budget) : s.verdict m g a = none := by
  have load : s.load = [] := (List.append_eq_nil_iff.mp (List.map_eq_nil_iff.mp still)).1
  have sound : (s.groupFaulted g && !(m == .hold && a.dir == .stowing)) = false := by
    rcases faultless with faultless | ⟨rfl, inward⟩
    · simp [faultless]
    · simp [inward]
  have ready : ((s.groupChans g).any fun n => (s.chan n).census != .seated) = false :=
    List.any_eq_false.mpr fun n mem => by simp [seated n mem]
  unfold State.verdict
  rw [ready, sound, known, permitted]
  simp only [Bool.false_eq_true, if_false]
  rw [if_neg, if_neg]
  · rintro ⟨hold, above⟩
    have := fits hold
    have free : unitsOf (s.load.filter fun e => e.group != g) = 0 := by rw [load]; rfl
    omega
  · rintro ⟨level, steep⟩
    have := flat level
    omega

/-! ### The state in which a slider's controller receives its motion -/

theorem State.slideDir_admitted (group : e.group = id.group) (action : e.action = .toward d) (runs : e.state = .running) :
    (s.admitted b e).slideDir id = some d := by
  unfold State.slideDir State.entryOf State.admitted
  simp [runs, group, action, Action.dir]

theorem State.mayDrive_admitted (group : (s.role n).group = some e.group) (runs : e.state = .running) (action : e.action = .toward d)
    (seated : (s.chan n).census = .seated) : (s.admitted b e).mayDrive n = true := by
  have own : n ∈ s.groupChans e.group := by simp [State.groupChans, allChans, group]
  unfold State.mayDrive
  have chans : (s.admitted b e).motionChans e = s.groupChans e.group := by
    unfold State.motionChans
    rw [action]
    rfl
  have load : (s.admitted b e).load = [e] := by simp [State.admitted, runs]
  have census : ((s.admitted b e).chan n).census = .seated := seated
  rw [load, census]
  simp [chans, own]

/-- A channel at rest without a last stop starts at once (R8, R14). -/
theorem State.startsAtOnce_rest (seated : (s.chan n).census = .seated) (off : (s.chan n).drive = .off)
    (fresh : (s.chan n).lastStop = none) : s.startsAtOnce n d :=
  ⟨seated, .inl off, fun l mem => by rw [fresh] at mem; exact absurd mem (by simp)⟩

/-- A motor's start that is a drive start in that event. -/
theorem State.startsAtOnce_congr (chan : t.chan n = s.chan n) (layout : t.layout = s.layout) (now : t.now = s.now)
    (once : s.startsAtOnce n d) : t.startsAtOnce n d := by
  unfold State.startsAtOnce at once ⊢
  rw [chan, layout, now]
  exact once

/-- The permits of the sole motion of a slider hold after it has been taken up. -/
theorem fallenPermit_sole (load : w.load = [e]) (paused : w.paused = []) (permitted : w.permitCause e.group e.action = none) :
    w.fallenPermit = none := by
  simp [State.fallenPermit, load, paused, permitted]

/-- The permit of a room or of the awning is not touched by that group's own record. -/
theorem State.permitCause_own (frame : t = { s with
      channels := t.channels, pace := t.pace, rooms := t.rooms, awning := t.awning, claims := t.claims, load := t.load
      paused := t.paused, nextOrder := t.nextOrder, motionPeriod := t.motionPeriod, motionPulse := t.motionPulse })
    (axes : ∀ h, h ≠ id.group → axisRecords t h = axisRecords s h) : t.permitCause id.group a = s.permitCause id.group a := by
  have layout : t.layout = s.layout := by rw [frame]
  have wind : t.wind = s.wind := by rw [frame]
  have support : t.supported = s.supported := by rw [frame]; rfl
  cases id with
  | room k =>
    have awning : t.awning = s.awning := by
      have same := axes .awning (by simp [Slider.group])
      simpa [axisRecords] using same
    have spread : t.awningNotStowed = s.awningNotStowed := by
      have configured : t.configured .awning = s.configured .awning := by
        rw [State.configured, State.configured, State.roleChan_layout layout]
      simp only [State.awningNotStowed, State.sliderState, State.sliderRead, awning, configured]
    simp only [Slider.group, State.permitCause, layout, support, spread]
  | awning =>
    have windy : t.windy = s.windy := by simp [State.windy, wind]
    simp only [Slider.group, State.permitCause, windy]

/-! ### One motor -/

/-- The slider's record is put to move, in the state in which the controller receives the motion. -/
def State.travelling (s : State) (b : Claim) (e : Entry) (id : Slider) (d : Dir) : State :=
  (s.admitted b e).setSlider id ((s.slider id).moving (s.twoMotors id) d)

theorem State.motor_travelling (m : Motor) (mine : m = .a ∨ s.twoMotors id = true) : (s.travelling b e id d).motor id m =
    { s.motor id m with phase := .travel, seatDeadline := none } := by
  rw [State.motor, State.travelling, State.slider_setSlider, if_pos rfl]
  cases m with
  | a => rfl
  | b =>
    have two : s.twoMotors id = true := mine.resolve_left (by simp)
    simp only [SliderRec.moving, SliderRec.phased, two, if_true]
    rfl

/-- The states of the drive start of a slider's motor, beside its own record. -/
theorem State.driveStart_slider (chan : s.motorChan id m = some n) : (s.driveStart n d) = { s with
      channels := (s.driveStart n d).channels, pace := (s.driveStart n d).pace, rooms := (s.driveStart n d).rooms
      awning := (s.driveStart n d).awning } := by
  rw [State.driveStart_motor chan]
  cases id <;> rfl

theorem State.slider_driveStart (chan : s.motorChan id m = some n) (p : Slider) : (s.driveStart n d).slider p =
    if id = p then (s.slider id).setMotor m { s.motor id m with tally := 0 } else s.slider p := by
  rw [State.driveStart_motor chan, State.setMotor, State.slider_setSlider]
  cases id <;> cases p <;> rfl

/-- The axis records of the other groups, where one slider's alone has changed. -/
theorem axisRecords_of_slider (sliders : ∀ p, p ≠ id → t.slider p = s.slider p) (jacks : t.jacks = s.jacks)
    (set : t.jackSet = s.jackSet) (level : t.level = s.level) (other : h ≠ id.group) : axisRecords t h = axisRecords s h := by
  cases h with
  | room k =>
    have same := sliders (.room k) (fun eq => other (by rw [← eq]; rfl))
    exact congrArg (fun r => (some r, none)) same
  | jacks => rw [axisRecords, jacks, set, level]; rfl
  | awning =>
    have same := sliders .awning (fun eq => other (by rw [← eq]; rfl))
    exact congrArg (fun r => (some r, none)) same

/-- The entry of a motion that fits the budget. -/
theorem State.entryNow_fits {m : Mode} (fits : s.motionUnits g a ≤ s.budget) : s.entryNow p m g a =
    { group := g, owner := .port p, mode := m, action := a, units := s.motionUnits g a, order := s.nextOrder
      state := .running, pausedSince := none } := by
  simp [State.entryNow, fits]

theorem State.controllerAdmit_slider {run : Bool} : s.controllerAdmit id.group (.toward d) run = s.slideAdmit id d run := by
  cases id <;> rfl

theorem State.positionKnown_of (known : ∀ m, m = .a ∨ s.twoMotors id = true → ∃ c, (s.motor id m).count = some c)
    (chan : s.motorChan id .a = some n) : s.positionKnown id = true := by
  have read : s.sliderRead id = s.slider id := by
    cases id with
    | room k => rfl
    | awning =>
      have configured : s.configured .awning = true := by
        rw [State.configured, show s.roleChan .awning = some n from chan]
        rfl
      exact if_pos configured
  unfold State.positionKnown State.motors
  rw [read]
  have one : (((s.slider id).motor .a).count.isSome) = true := by
    obtain ⟨c, count⟩ := known .a (.inl rfl)
    rw [show ((s.slider id).motor .a).count = some c from count]
    rfl
  split
  · next two =>
    obtain ⟨c, count⟩ := known .b (.inr two)
    have other : (((s.slider id).motor .b).count.isSome) = true := by
      rw [show ((s.slider id).motor .b).count = some c from count]
      rfl
    simp [one, other]
  · simp [one]

/-- The checks of a held motion of a slider. -/
theorem State.checks_slider (idle : s.motions = []) (write : s.write = none) (parked : s.road = .parked)
    (chan : s.motorChan id .a = some n) (seated : ∀ n ∈ s.groupChans id.group, (s.chan n).census = .seated)
    (out : d = .outward → (s.slider id).fault = none ∧ s.positionKnown id = true)
    (permitted : s.permitCause id.group (.toward d) = none) (fits : s.motionUnits id.group (.toward d) ≤ s.budget) :
    s.firstChecks id.group (.toward d) = none ∧ s.verdict .hold id.group (.toward d) = none := by
  have configured : s.actionConfigured id.group (.toward d) = true := by
    cases id with
    | room k => exact congrArg Option.isSome chan
    | awning => exact congrArg Option.isSome chan
  refine ⟨State.firstChecks_none write parked configured,
    State.verdict_none idle seated ?_ ?_ permitted (by simp) fun _ => fits⟩
  · cases d with
    | outward =>
      refine .inl ?_
      rw [State.groupFaulted_slider, (out rfl).1]
      rfl
    | stowing => exact .inr ⟨rfl, rfl⟩
  · cases d with
    | outward =>
      have known := (out rfl).2
      cases id <;> simp [State.homeFirst, sliderOf, Slider.group, known]
    | stowing => cases id <;> rfl

/-! What the state in which a slider is put to move has of the state before. -/

theorem State.travelling_same : (s.travelling b e id d).layout = s.layout ∧ (s.travelling b e id d).now = s.now ∧
    (s.travelling b e id d).lines = s.lines ∧ (∀ n, (s.travelling b e id d).chan n = s.chan n) ∧
    (∀ n, (s.travelling b e id d).paceRec n = s.paceRec n) ∧ (s.travelling b e id d).load = (s.admitted b e).load := by
  cases id <;> exact ⟨rfl, rfl, rfl, fun _ => rfl, fun _ => rfl, rfl⟩

theorem State.travelling_frame : s.travelling b e id d = { s.admitted b e with
    rooms := (s.travelling b e id d).rooms, awning := (s.travelling b e id d).awning } := by
  cases id <;> rfl

theorem State.slider_travelling (p : Slider) : (s.travelling b e id d).slider p =
    if id = p then (s.slider id).moving (s.twoMotors id) d else s.slider p := by
  rw [State.travelling, State.slider_setSlider]
  cases p <;> rfl

theorem State.slideDir_travelling (group : e.group = id.group) (action : e.action = .toward d) (runs : e.state = .running) :
    (s.travelling b e id d).slideDir id = some d := by
  have same := State.slideDir_admitted (s := s) (b := b) group action runs
  unfold State.slideDir at same ⊢
  rw [State.travelling, State.entryOf_setSlider]
  exact same

theorem State.motorChan_travelling (p : Slider) (m : Motor) : (s.travelling b e id d).motorChan p m = s.motorChan p m :=
  State.motorChan_layout State.travelling_same.1 p m

theorem State.motorHome_travelling (p : Slider) (m : Motor) : (s.travelling b e id d).motorHome p m = s.motorHome p m :=
  State.motorHome_congr State.travelling_same.1 State.travelling_same.2.2.1 p m

/-- A seated motor at rest is driven at once in a motion of its group. -/
theorem State.startChan_travelling (chan : s.motorChan id m = some n) (group : e.group = id.group)
    (action : e.action = .toward d) (runs : e.state = .running) (seated : (s.chan n).census = .seated)
    (off : (s.chan n).drive = .off) (fresh : (s.chan n).lastStop = none) (layout : w.layout = s.layout) (now : w.now = s.now)
    (load : w.load = (s.admitted b e).load) (same : w.chan n = s.chan n) : w.startChan n d = (w.driveStart n d, true) := by
  refine State.startChan_at_once ?_ (State.startsAtOnce_congr same layout now (State.startsAtOnce_rest seated off fresh))
  have own : (s.role n).group = some e.group := by rw [group]; exact State.group_motorChan chan
  have may := State.mayDrive_admitted (b := b) own runs action seated
  rwa [State.mayDrive_congr (s := s.admitted b e) layout load (by rw [same]; rfl)]

theorem State.butAlarm_parts (a : w.butAlarm u) : (∀ x, u.chan x = w.chan x) ∧ (∀ x, u.paceRec x = w.paceRec x) ∧
    (∀ q, u.slider q = w.slider q) ∧ (∀ j, u.jack j = w.jack j) ∧ u.jackSet = w.jackSet ∧ u.level = w.level ∧ u.load = w.load := by
  obtain ⟨same, -⟩ := a
  rw [same]
  exact ⟨fun _ => rfl, fun _ => rfl, fun q => by cases q <;> rfl, fun _ => rfl, rfl, rfl, rfl⟩

/-- A held motion of a one-motor room or of the awning from rest. -/
theorem heldMotion_one {units : Nat} (awake : s.inReset = none) (room : s.hasRoom p) (idle : s.motions = [])
    (write : s.write = none) (parked : s.road = .parked)
    (sum : units = match id with | .room _ => 3 | .awning => 2) (free : s.claim id.group = none)
    (chan : s.motorChan id .a = some n) (one : s.motorChan id .b = none) (group : s.groupChans id.group = [n])
    (seated : (s.chan n).census = .seated)
    (out : d = .outward → (s.slider id).fault = none ∧ ∃ c, (s.motor id .a).count = some c ∧ c < s.travelLimit id)
    (away : d = .stowing → s.motorHome id .a = false) (permitted : s.permitCause id.group (.toward d) = none)
    (fits : units ≤ s.budget) (off : (s.chan n).drive = .off) (fresh : (s.chan n).lastStop = none)
    (entry : e = { group := id.group, owner := .port p, mode := .hold, action := .toward d, units := units
                   order := s.nextOrder, state := .running, pausedSince := none }) :
    ∃ t u, exec (.move p (byteOf (groupCode id.group)) (byteOf d.code)) s = .next t ∧
      t = u.answered p .move (.accepted false false false) ∧ Placed s u (s.newClaim p .hold (.toward d)) e [n] ∧
      DriveStarted s u n d none ∧ u.enOut n = true ∧ u.lamp = true ∧
      u.slider id = { s.slider id with
        state := movingState d, runTime := 0
        motorA := { s.motor id .a with phase := .travel, seatDeadline := none, tally := 0 } } := by
  have single : s.twoMotors id = false := by rw [State.twoMotors, one]; rfl
  have total : s.motionUnits id.group (.toward d) = units := by
    have chans : s.motionChans (newEntry id.group .sequencer .auto (.toward d) 0) = [n] := group
    rw [State.motionUnits, chans, sum]
    cases id with
    | room k => simp [State.role_of_roleChan (show s.roleChan (.room k .a) = some n from chan), Role.units, Role.kind, Kind.units]
    | awning => simp [State.role_of_roleChan (show s.roleChan .awning = some n from chan), Role.units, Role.kind, Kind.units]
  have isEntry : s.entryNow p .hold id.group (.toward d) = e := by
    rw [State.entryNow_fits (total.symm ▸ fits), total, entry]
  obtain ⟨first, verdict⟩ := State.checks_slider (d := d) idle write parked chan
    (by rw [group]; intro i mem; rw [List.mem_singleton.mp mem]; exact seated)
    (fun outward => ⟨(out outward).1, State.positionKnown_of (fun m mine => by
      obtain rfl := mine.resolve_right (by rw [single]; simp)
      obtain ⟨-, c, count, -⟩ := out outward
      exact ⟨c, count⟩) chan⟩) permitted (total.symm ▸ fits)
  have entryGroup : e.group = id.group := by rw [entry]
  have action : e.action = .toward d := by rw [entry]
  have runs : e.state = .running := by rw [entry]
  generalize bound : s.newClaim p .hold (.toward d) = b
  have dir := State.slideDir_travelling (s := s) (b := b) entryGroup action runs
  have chan' := (State.motorChan_travelling (s := s) (b := b) (e := e) (d := d) (id := id) id .a).trans chan
  have one' := (State.motorChan_travelling (s := s) (b := b) (e := e) (d := d) (id := id) id .b).trans one
  have motor := State.motor_travelling (s := s) (b := b) (e := e) (id := id) (d := d) .a (.inl rfl)
  obtain ⟨layout, now, lines, chans, paces, load⟩ := State.travelling_same (s := s) (b := b) (e := e) (id := id) (d := d)
  have homes (inward : d = .stowing) (m : Motor) : s.motorHome id m = false := by
    cases m with
    | a => exact away inward
    | b => rw [State.motorHome, one]
  have received : (s.admitted b e).controllerAdmit id.group (.toward d) true = ((s.travelling b e id d).driveStart n d, []) := by
    rw [State.controllerAdmit_slider, State.slideAdmit_travels, if_pos rfl]
    · change (s.travelling b e id d).startMotors id d = _
      rw [State.startMotors_one chan' one' (by rw [motor]) dir, State.startChan_travelling chan entryGroup action runs seated off fresh
        layout now load (chans n)]
      · intro outward c count
        obtain ⟨-, c', known, short⟩ := out outward
        rw [State.travelLimit_layout layout id]
        rw [motor] at count
        obtain rfl := Option.some.inj (count.symm.trans known)
        exact short
      · intro inward
        rw [State.motorHome_travelling]
        exact away inward
    · exact fun inward m => (State.motorHome_congr (s := s) rfl rfl id m).trans (homes inward m)
  have placed : (s.admitted (s.newClaim p .hold (.toward d)) (s.entryNow p .hold id.group (.toward d))).controllerAdmit id.group
      (.toward d) (decide (s.motionUnits id.group (.toward d) ≤ s.budget)) = ((s.travelling b e id d).driveStart n d, []) := by
    rw [isEntry, bound, total, decide_eq_true fits]
    exact received
  have run := exec_admitted (p := p) (m := .hold) (a := .toward d) (g := id.group) awake room idle
    (c := .move p (byteOf (groupCode id.group)) (byteOf d.code))
    rfl free first verdict placed
  rw [total, decide_eq_true fits] at run
  have slider := State.slider_driveStart (d := d) chan'
  have frame := State.driveStart_slider (d := d) chan'
  have chanAt (i : Chan) := State.chan_driveStart (s := s.travelling b e id d) (n := n) (d := d) (i := i)
  have paceAt (i : Chan) := State.paceRec_driveStart (s := s.travelling b e id d) (n := n) (d := d) (i := i)
  have started : DriveStarted (s.travelling b e id d) ((s.travelling b e id d).driveStart n d) n d none := .of_driveStart
  generalize (s.travelling b e id d).driveStart n d = w at *
  rw [State.travelling_frame] at frame
  have others (q : Slider) (apart : q ≠ id) : w.slider q = s.slider q := by
    rw [slider, if_neg (Ne.symm apart), State.slider_travelling, if_neg (Ne.symm apart)]
  have axes (h : Group) (other : h ≠ id.group) : axisRecords w h = axisRecords s h :=
    axisRecords_of_slider others (by rw [frame]; rfl) (by rw [frame]; rfl) (by rw [frame]; rfl) other
  have calm : w.fallenPermit = none := by
    refine fallenPermit_sole (e := e) (by rw [frame]; simp [State.admitted, runs]) (by rw [frame]; simp [State.admitted, runs]) ?_
    rw [entryGroup, action, State.permitCause_own (s := s) (by rw [frame]; rfl) axes]
    exact permitted
  obtain ⟨after, quiet⟩ := drain_parked (k := 9998) (old := s.view) calm (by rw [frame]; exact parked)
  refine ⟨_, _, run, rfl, .of (by rw [frame]) (fun x away => ?_) (by rw [entryGroup]; exact axes) after quiet, ?_, ?_, ?_, ?_⟩
  · have apart : n ≠ x := fun same => away (by rw [same]; exact List.mem_singleton_self x)
    rw [chanAt, paceAt, if_neg apart, if_neg apart]
    exact ⟨chans x, paces x⟩
  all_goals obtain ⟨chanSame, paceSame, sliderSame, -, -, -, loadSame⟩ := State.butAlarm_parts after
  · exact (started.after (chanSame n) (paceSame n)).congr (chans n) layout now
  · exact (started.after (chanSame n) (paceSame n)).driven
  · refine (congrArg (fun l : List Entry => !l.isEmpty) loadSame).trans ?_
    rw [frame]
    simp [State.admitted, runs]
  · refine (sliderSame id).trans ?_
    rw [slider, if_pos rfl, State.slider_travelling, if_pos rfl, motor, single]
    rfl

end

end Sys2Proof.Machine
end

section
/-! PROOFS. A held motion of a two-motor room that starts from rest: both motors driven and trimmed, or RACKED (R8, R44, R50,
R51). -/

namespace Sys2Proof.Machine

section
variable {s t u w v : State} {g h : Group} {n i na nb : Chan} {id : Slider} {m y : Motor} {d : Dir} {e x : Entry} {k c : Nat}
  {b : Claim} {p : Port} {moved : List Chan} {l : List Task} {q : RoomId} {z : Ending}

/-! ### The work after a motion that was the only one -/

/-- Work that changes nothing but the alarm while nothing moves. -/
def Task.passes : Task → Prop
  | .handover _ | .permits | .scan => True
  | _ => False

theorem State.butAlarm_trans (a : s.butAlarm t) (b : t.butAlarm u) : s.butAlarm u := by
  refine ⟨?_, fun p => (b.2 p).trans (a.2 p)⟩
  rw [b.1, a.1]

theorem State.runTask_passes {task : Task} (passes : task.passes) (load : s.load = []) (paused : s.paused = []) :
    s.butAlarm (s.runTask task).1 ∧ ∀ y ∈ (s.runTask task).2, y.passes := by
  cases task with
  | handover old =>
    change s.butAlarm (s.handOver old).1 ∧ ∀ y ∈ (s.handOver old).2, y.passes
    unfold State.handOver
    split
    · exact ⟨⟨rfl, fun _ => rfl⟩, by simp⟩
    · exact ⟨s.butAlarm_evalAlarm, fun y mem => by rw [List.mem_singleton.mp mem]; trivial⟩
  | permits =>
    have none : s.runTask .permits = (s, []) := by
      change s.checkPermits = _
      unfold State.checkPermits
      rw [State.fallenPermit_none load paused]
    rw [none]
    exact ⟨⟨rfl, fun _ => rfl⟩, by simp⟩
  | scan =>
    have none : s.runTask .scan = (s, []) := by simp [State.runTask, State.scan, paused, scanOrder, State.scanMoves]
    rw [none]
    exact ⟨⟨rfl, fun _ => rfl⟩, by simp⟩
  | _ => exact passes.elim

theorem drain_passes (passes : ∀ y ∈ l, y.passes) (load : s.load = []) (paused : s.paused = []) :
    s.butAlarm (drain k (s, l)) := by
  induction k generalizing s l with
  | zero => exact ⟨rfl, fun _ => rfl⟩
  | succ k ih =>
    cases l with
    | nil => exact ⟨rfl, fun _ => rfl⟩
    | cons task rest =>
      obtain ⟨but, more⟩ := State.runTask_passes (passes task List.mem_cons_self) load paused
      rw [drain_cons]
      refine State.butAlarm_trans but (ih (fun y mem => ?_) ?_ ?_)
      · rcases List.mem_append.mp mem with mem | mem
        · exact more y mem
        · exact passes y (List.mem_cons_of_mem _ mem)
      · rw [but.1]; exact load
      · rw [but.1]; exact paused

/-- An ending of the only motion, of a port's own claim, leaves what the ending itself leaves, but for the alarm. -/
theorem drain_sole_ends {old : View} (sole : w.load ++ w.paused = [e]) (own : e.owner ≠ .sequencer) :
    (w.motionEnd e.group z).1.butAlarm (drain (k + 1) (w, [.endMotion e.group z, .handover old])) := by
  have found : w.entryOf e.group = some e := by simp [State.entryOf, sole]
  obtain ⟨load, paused⟩ := w.lists_motionEnd (g := e.group) (e := z)
  have gone (l : List Entry) (among : ∀ y ∈ l, y = e) : l.filter (fun y => y.group != e.group) = [] :=
    List.filter_eq_nil_iff.mpr fun y mem => by rw [among y mem]; simp
  have among (y : Entry) (mem : y ∈ w.load ++ w.paused) : y = e := by rw [sole] at mem; exact List.mem_singleton.mp mem
  rw [drain_cons]
  refine drain_passes (fun y mem => ?_) (load.trans (gone _ fun y mem => among y (List.mem_append_left _ mem)))
    (paused.trans (gone _ fun y mem => among y (List.mem_append_right _ mem)))
  have shape : (w.runTask (.endMotion e.group z)).2 = .handover w.view :: ((if w.running e.group then [.scan] else []) ++ []) := by
    change (w.motionEnd e.group z).2 = _
    unfold State.motionEnd
    rw [found]
    dsimp only
    rw [if_neg own]
  rw [shape] at mem
  rcases List.mem_append.mp mem with mem | mem
  · rcases List.mem_cons.mp mem with rfl | mem
    · trivial
    · rw [List.append_nil] at mem
      split at mem
      · rw [List.mem_singleton.mp mem]; trivial
      · exact absurd mem (by simp)
  · rw [List.mem_singleton.mp mem]; trivial

/-! ### The starts of two motors -/

theorem DriveStarted.trim {tr : Option Nat} (a : DriveStarted s u n d none) (chan : t.chan n = { u.chan n with trimmed := tr })
    (pace : t.paceRec n = u.paceRec n) : DriveStarted s t n d tr :=
  ⟨by rw [chan, a.record], pace.trans a.pace⟩

/-- The starts of both motors where neither ends the motion. -/
theorem State.startMotors_two (two : s.twoMotors id = true) (travel : ∀ m, (s.motor id m).phase = .travel)
    (startA : s.startMotor id .a d = (v, [])) (startB : v.startMotor id .b d = (w, []))
    (kept : (v.motor id .b).phase = .travel) : s.startMotors id d = (w.retrim id, []) := by
  have motors : s.motors id = [.a, .b] := if_pos two
  unfold State.startMotors
  rw [motors]
  simp [travel .a, startA, kept, startB]

/-- The starts of both motors where the first ends the motion: the second is not made (log 55). -/
theorem State.startMotors_ended (two : s.twoMotors id = true) (travel : (s.motor id .a).phase = .travel) {u : Task}
    (startA : s.startMotor id .a d = (v, u :: l)) : s.startMotors id d = (v.retrim id, u :: l) := by
  have motors : s.motors id = [.a, .b] := if_pos two
  unfold State.startMotors
  rw [motors]
  simp [travel, startA]

/-! ### A room with two motors -/

theorem State.counts_driveStart : ((s.driveStart n d).motor id m).count = (s.motor id m).count ∧
    ((s.driveStart n d).motor id m).phase = (s.motor id m).phase := by
  obtain ⟨v, same⟩ := State.motor_driveStart (s := s) (n := n) (d := d) (id := id) (m := m)
  rw [same]
  exact ⟨rfl, rfl⟩

theorem State.racked_travelling (two : s.twoMotors id = true) : (s.travelling b e id d).racked id = s.racked id :=
  State.racked_congr State.travelling_same.1 fun m => by rw [State.motor_travelling m (.inr two)]

/-- What the two starts of a room's motors need of the state: both channels are seated and at rest. -/
structure TwoReady (s : State) (q : RoomId) (na nb : Chan) : Prop where
  chanA : s.motorChan (.room q) .a = some na
  chanB : s.motorChan (.room q) .b = some nb
  seated : ∀ x, x = na ∨ x = nb → (s.chan x).census = .seated ∧ (s.chan x).drive = .off ∧ (s.chan x).lastStop = none

namespace TwoReady

variable (a : TwoReady s q na nb) (group : e.group = .room q) (action : e.action = .toward d) (runs : e.state = .running)
include a

theorem two : s.twoMotors (.room q) = true := by rw [State.twoMotors, a.chanB]; rfl

theorem apart : na ≠ nb := fun same => by
  have one := State.role_of_roleChan (show s.roleChan (.room q .a) = some na from a.chanA)
  have other := State.role_of_roleChan (show s.roleChan (.room q .b) = some nb from a.chanB)
  rw [same, other] at one
  exact absurd (Role.room.inj one).2 (by simp)

include group action runs

/-- Motor A's start is a drive start. -/
theorem startA : (s.travelling b e (.room q) d).startChan na d = ((s.travelling b e (.room q) d).driveStart na d, true) := by
  obtain ⟨seated, off, fresh⟩ := a.seated na (.inl rfl)
  obtain ⟨layout, now, -, chans, -, load⟩ := State.travelling_same (s := s) (b := b) (e := e) (id := .room q) (d := d)
  exact State.startChan_travelling (id := .room q) a.chanA group action runs seated off fresh layout now load (chans na)

/-- Motor B's start after motor A's is a drive start too. -/
theorem startB : ((s.travelling b e (.room q) d).driveStart na d).startChan nb d =
    (((s.travelling b e (.room q) d).driveStart na d).driveStart nb d, true) := by
  obtain ⟨seated, off, fresh⟩ := a.seated nb (.inr rfl)
  obtain ⟨layout, now, -, chans, -, load⟩ := State.travelling_same (s := s) (b := b) (e := e) (id := .room q) (d := d)
  have chanA := (State.motorChan_travelling (s := s) (b := b) (e := e) (d := d) (id := .room q) (.room q) .a).trans a.chanA
  have frame := State.driveStart_slider (d := d) chanA
  have chan := State.chan_driveStart (s := s.travelling b e (.room q) d) (n := na) (d := d) (i := nb)
  rw [if_neg a.apart, chans] at chan
  refine State.startChan_travelling (b := b) (id := .room q) a.chanB group action runs seated off fresh ?_ ?_ ?_ chan
  · rw [frame]; exact layout
  · rw [frame]; exact now
  · rw [frame]; exact load

/-- The two starts where the counts stand less than the rack limit apart. -/
theorem starts (near : s.racked (.room q) = false)
    (short : d = .outward → ∀ m c, (s.motor (.room q) m).count = some c → c < s.travelLimit (.room q))
    (away : d = .stowing → ∀ m, s.motorHome (.room q) m = false) :
    (s.travelling b e (.room q) d).startMotors (.room q) d =
      ((((s.travelling b e (.room q) d).driveStart na d).driveStart nb d).retrim (.room q), []) := by
  have startA := a.startA (b := b) group action runs
  have startB := a.startB (b := b) group action runs
  have dir := State.slideDir_travelling (s := s) (b := b) (id := .room q) group action runs
  have chans (m : Motor) := State.motorChan_travelling (s := s) (b := b) (e := e) (d := d) (id := .room q) (.room q) m
  have motor (m : Motor) := State.motor_travelling (s := s) (b := b) (e := e) (id := .room q) (d := d) m (.inr a.two)
  obtain ⟨layout, now, lines, -, -, load⟩ := State.travelling_same (s := s) (b := b) (e := e) (id := .room q) (d := d)
  have racked := State.racked_travelling (b := b) (e := e) (d := d) a.two
  generalize s.travelling b e (.room q) d = v at *
  have chanA : v.motorChan (.room q) .a = some na := (chans .a).trans a.chanA
  have frame := State.driveStart_slider (d := d) chanA
  have layout' : (v.driveStart na d).layout = v.layout := by rw [frame]
  have lines' : (v.driveStart na d).lines = v.lines := by rw [frame]
  have counts (m : Motor) := State.counts_driveStart (s := v) (n := na) (d := d) (id := .room q) (m := m)
  have dir' : (v.driveStart na d).slideDir (.room q) = some d := by rw [← dir, frame]; rfl
  refine State.startMotors_two (v := v.driveStart na d) ?_ (fun m => by rw [motor]) ?_ ?_ ?_
  · exact (congrArg Option.isSome (chans .b)).trans a.two
  · rw [State.startMotor_free chanA dir (racked.trans near), startA]
    · intro outward c count
      rw [State.travelLimit_layout layout]
      rw [motor] at count
      exact short outward .a c count
    · intro inward
      rw [State.motorHome_congr layout lines]
      exact away inward .a
  · rw [State.startMotor_free ((State.motorChan_layout layout' _ _).trans ((chans .b).trans a.chanB)) dir', startB]
    · exact (State.racked_congr layout' fun m => (counts m).1).trans (racked.trans near)
    · intro outward c count
      rw [State.travelLimit_layout (layout'.trans layout)]
      rw [(counts .b).1, motor] at count
      exact short outward .b c count
    · intro inward
      rw [State.motorHome_congr (layout'.trans layout) (lines'.trans lines)]
      exact away inward .b
  · rw [(counts .b).2, motor]

/-- The first start where the counts stand the rack limit or more apart: it ends the motion (log 55). -/
theorem racks (racked : s.racked (.room q) = true) : (s.travelling b e (.room q) d).startMotors (.room q) d =
    (((s.travelling b e (.room q) d).driveStart na d).retrim (.room q),
      [.endMotion (.room q) { outcome := .fault, fault := some .racked }]) := by
  have startA := a.startA (b := b) group action runs
  have dir := State.slideDir_travelling (s := s) (b := b) (id := .room q) group action runs
  have chans (m : Motor) := State.motorChan_travelling (s := s) (b := b) (e := e) (d := d) (id := .room q) (.room q) m
  have motor := State.motor_travelling (s := s) (b := b) (e := e) (id := .room q) (d := d) .a (.inl rfl)
  have apart := (State.racked_travelling (b := b) (e := e) (d := d) a.two).trans racked
  generalize s.travelling b e (.room q) d = v at *
  have chanA : v.motorChan (.room q) .a = some na := (chans .a).trans a.chanA
  have frame := State.driveStart_slider (d := d) chanA
  have layout' : (v.driveStart na d).layout = v.layout := by rw [frame]
  have counts (m : Motor) := State.counts_driveStart (s := v) (n := na) (d := d) (id := .room q) (m := m)
  obtain ⟨x, found⟩ : ∃ x, v.entryOf (.room q) = some x := by
    unfold State.slideDir at dir
    exact (Option.map_eq_some_iff.mp dir).imp fun _ both => both.1
  have found' : (v.driveStart na d).entryOf (.room q) = some x := by rw [← found, frame]; rfl
  refine State.startMotors_ended (v := v.driveStart na d) ((congrArg Option.isSome (chans .b)).trans a.two) (by rw [motor]) ?_
  unfold State.startMotor
  rw [chanA]
  dsimp only
  rw [startA]
  exact State.motorStarted_racked (id := .room q) found' ((State.racked_congr layout' fun m => (counts m).1).trans apart)

end TwoReady

end

end Sys2Proof.Machine
end

section
/-! PROOFS. What a held motion of a two-motor room from rest leaves: both motors driven, or the motion ended RACKED (R8, R44, R50,
R51). -/

namespace Sys2Proof.Machine

section
variable {s t u w v : State} {g h : Group} {n i na nb : Chan} {id : Slider} {m y : Motor} {d : Dir} {e x : Entry} {k c : Nat}
  {b : Claim} {p : Port} {moved : List Chan} {l : List Task} {q : RoomId} {z : Ending}

/-- A room with two motors takes six units of the budget (R1, R134). -/
theorem TwoReady.units (a : TwoReady s q na nb) (chans : ∀ x, x ∈ s.groupChans (.room q) ↔ x = na ∨ x = nb) :
    s.motionUnits (.room q) (.toward d) = 6 := by
  have nodup : (s.groupChans (.room q)).Nodup := (List.nodup_finRange 16).filter _
  have perm : (s.groupChans (.room q)).Perm [na, nb] :=
    (List.perm_ext_iff_of_nodup nodup (by simp [a.apart])).mpr fun x => by rw [chans]; simp
  have units (x : Chan) (m : Motor) (chan : s.motorChan (.room q) m = some x) : (s.role x).units = 3 := by
    rw [State.role_of_roleChan (show s.roleChan (.room q m) = some x from chan)]
    rfl
  have sum := (perm.map fun n => (s.role n).units).sum_eq
  refine sum.trans ?_
  simp [units na .a a.chanA, units nb .b a.chanB]

/-- A held motion of a two-motor room from rest is what the two starts make of it. -/
theorem heldRoom_exec (a : TwoReady s q na nb) (awake : s.inReset = none) (room : s.hasRoom p) (idle : s.motions = [])
    (write : s.write = none) (parked : s.road = .parked) (free : s.claim (.room q) = none)
    (chans : ∀ x, x ∈ s.groupChans (.room q) ↔ x = na ∨ x = nb)
    (out : d = .outward → (s.rooms[q]).fault = none ∧
      ∀ m, ∃ c, (s.motor (.room q) m).count = some c ∧ c < s.travelLimit (.room q))
    (away : d = .stowing → ∀ m, s.motorHome (.room q) m = false)
    (permitted : s.permitCause (.room q) (.toward d) = none) (fits : 6 ≤ s.budget) (bound : b = s.newClaim p .hold (.toward d))
    (entry : e = { group := .room q, owner := .port p, mode := .hold, action := .toward d, units := 6
                   order := s.nextOrder, state := .running, pausedSince := none })
    (starts : (s.travelling b e (.room q) d).startMotors (.room q) d = (w, l)) :
    exec (.move p (byteOf (q.val + 1)) (byteOf d.code)) s =
      .next ((drain workBound (w, l ++ [.handover s.view])).answered p .move (.accepted false false false)) := by
  have total := a.units (d := d) chans
  have fits' : s.motionUnits (.room q) (.toward d) ≤ s.budget := by rw [total]; exact fits
  have isEntry : s.entryNow p .hold (.room q) (.toward d) = e := by
    rw [State.entryNow_fits fits', total, entry]
  have known (outward : d = .outward) : s.positionKnown (.room q) = true :=
    State.positionKnown_of (fun m _ => by
      obtain ⟨c, count, -⟩ := (out outward).2 m
      exact ⟨c, count⟩) a.chanA
  obtain ⟨first, verdict⟩ := State.checks_slider (d := d) (id := .room q) idle write parked a.chanA
    (fun x mem => (a.seated x ((chans x).mp mem)).1) (fun outward => ⟨(out outward).1, known outward⟩) permitted fits'
  have received : (s.admitted (s.newClaim p .hold (.toward d)) (s.entryNow p .hold (.room q) (.toward d))).controllerAdmit (.room q)
      (.toward d) (decide (s.motionUnits (.room q) (.toward d) ≤ s.budget)) = (w, l) := by
    rw [isEntry, ← bound, total, decide_eq_true fits]
    refine Eq.trans (State.controllerAdmit_slider (id := .room q)) ?_
    rw [State.slideAdmit_travels, if_pos rfl]
    · exact starts
    · exact fun inward m => (State.motorHome_congr (s := s) rfl rfl (.room q) m).trans (away inward m)
  have run := exec_admitted (p := p) (m := .hold) (a := .toward d) (g := .room q) awake room idle
    (c := .move p (byteOf (q.val + 1)) (byteOf d.code)) rfl free first verdict received
  rw [total, decide_eq_true fits] at run
  exact run

/-! ### Both motors driven -/

/-- The two drive starts of a room's motors, before the trims are set. -/
def State.bothStarted (s : State) (b : Claim) (e : Entry) (q : RoomId) (d : Dir) (na nb : Chan) : State :=
  ((s.travelling b e (.room q) d).driveStart na d).driveStart nb d

namespace TwoReady

variable (a : TwoReady s q na nb)
include a

theorem chanStarted (m : Motor) : ((s.travelling b e (.room q) d).driveStart na d).motorChan (.room q) m =
    s.motorChan (.room q) m := by
  have chanA := (State.motorChan_travelling (s := s) (b := b) (e := e) (d := d) (id := .room q) (.room q) .a).trans a.chanA
  have frame := State.driveStart_slider (d := d) chanA
  exact State.motorChan_layout (by rw [frame]; exact State.travelling_same.1) _ _

/-- What the two starts leave of the state in which the motion is received. -/
theorem bothStarted_frame : s.bothStarted b e q d na nb = { s.admitted b e with
    channels := (s.bothStarted b e q d na nb).channels, pace := (s.bothStarted b e q d na nb).pace
    rooms := (s.bothStarted b e q d na nb).rooms, awning := (s.bothStarted b e q d na nb).awning } := by
  have chanA := (State.motorChan_travelling (s := s) (b := b) (e := e) (d := d) (id := .room q) (.room q) .a).trans a.chanA
  have first := State.driveStart_slider (d := d) chanA
  have second := State.driveStart_slider (d := d) ((a.chanStarted (b := b) (e := e) (d := d) .b).trans a.chanB)
  have base := State.travelling_frame (s := s) (b := b) (e := e) (id := .room q) (d := d)
  unfold State.bothStarted
  generalize ((s.travelling b e (.room q) d).driveStart na d).driveStart nb d = w at second ⊢
  generalize (s.travelling b e (.room q) d).driveStart na d = v at first second
  generalize s.travelling b e (.room q) d = u at base first
  rw [second, first, base]

theorem chan_bothStarted (x : Chan) : (s.bothStarted b e q d na nb).chan x =
    if x = na ∨ x = nb then (s.chan x).driveStarted (s.kindParams x) d s.now else s.chan x := by
  obtain ⟨layout, now, -, chans, -, -⟩ := State.travelling_same (s := s) (b := b) (e := e) (id := .room q) (d := d)
  have chanA := (State.motorChan_travelling (s := s) (b := b) (e := e) (d := d) (id := .room q) (.room q) .a).trans a.chanA
  have frame := State.driveStart_slider (d := d) chanA
  have first (x : Chan) := State.chan_driveStart (s := s.travelling b e (.room q) d) (n := na) (d := d) (i := x)
  unfold State.bothStarted
  generalize s.travelling b e (.room q) d = v at *
  have layout' : (v.driveStart na d).layout = s.layout := by rw [frame]; exact layout
  have now' : (v.driveStart na d).now = s.now := by rw [frame]; exact now
  have params (t : State) (same : t.layout = s.layout) (i : Chan) : t.kindParams i = s.kindParams i := by
    rw [State.kindParams, State.kindParams, State.role, State.role, same]
  rw [State.chan_driveStart, first, first, params _ layout', params _ layout, now', now, chans, chans, if_neg a.apart]
  by_cases isB : nb = x
  · subst isB
    rw [if_pos rfl, if_pos (.inr rfl)]
  · rw [if_neg isB]
    by_cases isA : na = x
    · subst isA
      rw [if_pos rfl, if_pos (.inl rfl)]
    · rw [if_neg isA, if_neg (by rintro (rfl | rfl); exacts [isA rfl, isB rfl])]
      exact chans x

theorem paceRec_bothStarted (x : Chan) : (s.bothStarted b e q d na nb).paceRec x =
    if x = na ∨ x = nb then clearedPace else s.paceRec x := by
  obtain ⟨-, -, -, -, paces, -⟩ := State.travelling_same (s := s) (b := b) (e := e) (id := .room q) (d := d)
  unfold State.bothStarted
  rw [State.paceRec_driveStart, State.paceRec_driveStart, paces]
  by_cases isB : nb = x
  · rw [if_pos isB, if_pos (.inr isB.symm)]
  · by_cases isA : na = x
    · rw [if_neg isB, if_pos isA, if_pos (.inl isA.symm)]
    · rw [if_neg isB, if_neg isA, if_neg (by rintro (rfl | rfl); exacts [isA rfl, isB rfl])]

/-- The slider records after the two starts. -/
theorem slider_bothStarted (p : Slider) : (s.bothStarted b e q d na nb).slider p =
    if .room q = p then { s.slider (.room q) with
      state := movingState d, runTime := 0
      motorA := { (s.slider (.room q)).motorA with phase := .travel, seatDeadline := none, tally := 0 }
      motorB := { (s.slider (.room q)).motorB with phase := .travel, seatDeadline := none, tally := 0 } }
    else s.slider p := by
  have chanA := (State.motorChan_travelling (s := s) (b := b) (e := e) (d := d) (id := .room q) (.room q) .a).trans a.chanA
  have first (p : Slider) := State.slider_driveStart (d := d) chanA p
  have second := State.slider_driveStart (d := d) ((a.chanStarted (b := b) (e := e) (d := d) .b).trans a.chanB) p
  unfold State.bothStarted
  rw [second, first, first, State.slider_travelling, State.slider_travelling]
  by_cases same : .room q = p
  · subst same
    simp only [if_true, State.motor]
    rw [first, State.slider_travelling]
    simp [SliderRec.moving, SliderRec.phased, a.two, SliderRec.setMotor, SliderRec.motor, State.motor, State.slider_travelling]
  · simp only [if_neg same]

end TwoReady

/-- The record of a room whose two motors are put to travel. -/
def SliderRec.underway (r : SliderRec) (d : Dir) : SliderRec :=
  { r with
    state := movingState d, runTime := 0
    motorA := { r.motorA with phase := .travel, seatDeadline := none, tally := 0 }
    motorB := { r.motorB with phase := .travel, seatDeadline := none, tally := 0 } }

/-- Both motors of a room are driven in the state in which its motion is received, before their trims are set. -/
structure BothStarted (s : State) (b : Claim) (e : Entry) (q : RoomId) (d : Dir) (na nb : Chan) (v : State) : Prop where
  frame : v = { s.admitted b e with channels := v.channels, pace := v.pace, rooms := v.rooms, awning := v.awning }
  chans : ∀ x, v.chan x = if x = na ∨ x = nb then (s.chan x).driveStarted (s.kindParams x) d s.now else s.chan x
  paces : ∀ x, v.paceRec x = if x = na ∨ x = nb then clearedPace else s.paceRec x
  sliders : ∀ p, v.slider p = if .room q = p then (s.slider (.room q)).underway d else s.slider p

theorem TwoReady.bothStarted (a : TwoReady s q na nb) : BothStarted s b e q d na nb (s.bothStarted b e q d na nb) :=
  ⟨a.bothStarted_frame, a.chan_bothStarted, a.paceRec_bothStarted, a.slider_bothStarted⟩

namespace BothStarted

variable (a : TwoReady s q na nb) (f : BothStarted s b e q d na nb v)
include f

theorem layout : v.layout = s.layout := by rw [f.frame]; rfl

theorem motorChan (m : Motor) : v.motorChan (.room q) m = s.motorChan (.room q) m := State.motorChan_layout f.layout _ _

theorem count (m : Motor) : (v.motor (.room q) m).count = (s.motor (.room q) m).count := by
  have record := f.sliders (.room q)
  rw [if_pos rfl] at record
  rw [State.motor, record]
  cases m <;> rfl

theorem driven {x : Chan} (mine : x = na ∨ x = nb) : (v.chan x).driven = true := by
  rw [f.chans, if_pos mine]
  unfold Channel.driveStarted Channel.driven
  dsimp only
  split <;> rfl

theorem started {x : Chan} (mine : x = na ∨ x = nb) : DriveStarted s v x d none :=
  ⟨by rw [f.chans, if_pos mine]; rfl, by rw [f.paces, if_pos mine]; rfl⟩

include a

theorem two : v.twoMotors (.room q) = true := (congrArg Option.isSome (f.motorChan .b)).trans a.two

theorem motorDriven (m : Motor) : v.motorDriven (.room q) m = true := by
  unfold State.motorDriven
  cases m
  · rw [f.motorChan, a.chanA]; exact f.driven (.inl rfl)
  · rw [f.motorChan, a.chanB]; exact f.driven (.inr rfl)

theorem trimOf (group : e.group = .room q) (action : e.action = .toward d) (runs : e.state = .running) {x : Chan}
    (chan : s.motorChan (.room q) m = some x) (mine : x = na ∨ x = nb) : v.trimOf (.room q) m =
      trimFor d (s.layout.rooms[q]).syncWindow (s.kindParams x).startDuty (s.motor (.room q) m).count
        (s.motor (.room q) (otherMotor m)).count := by
  have dir : v.slideDir (.room q) = some d := by
    have same : v.slideDir (.room q) = (s.admitted b e).slideDir (.room q) := by rw [f.frame]; rfl
    exact same.trans (State.slideDir_admitted (id := .room q) group action runs)
  have ramped : v.motorRamped (.room q) m = (s.kindParams x).startDuty := by
    unfold State.motorRamped
    rw [f.motorChan, chan]
    dsimp only
    rw [f.chans, if_pos mine]
    rfl
  rw [State.trimOf_eq (f.two a), if_pos ⟨f.motorDriven a .a, f.motorDriven a .b⟩, dir, ramped, f.count, f.count, State.syncWindow,
    f.layout]
  rfl

/-- The drive start of one of the two motors, with the trim that is set for it. -/
theorem trimmed (group : e.group = .room q) (action : e.action = .toward d) (runs : e.state = .running) {x : Chan}
    (chan : s.motorChan (.room q) m = some x) (mine : x = na ∨ x = nb) : DriveStarted s (v.retrim (.room q)) x d
      (trimFor d (s.layout.rooms[q]).syncWindow (s.kindParams x).startDuty (s.motor (.room q) m).count
        (s.motor (.room q) (otherMotor m)).count) := by
  have trims : Retrimmed v (v.retrim (.room q)) := State.retrim_retrimmed
  refine (f.started mine).trim ?_ (by rw [trims.frame]; rfl)
  rw [← f.trimOf a group action runs chan mine, trims.chan x,
    (State.trimmed_retrim (f.two a)).1 m x ((f.motorChan m).trans chan)]

/-- The trims touch no other channel. -/
theorem foreign {x : Chan} (away : x ∉ [na, nb]) : (v.retrim (.room q)).chan x = s.chan x ∧
    (v.retrim (.room q)).paceRec x = s.paceRec x := by
  have apart : ¬(x = na ∨ x = nb) := fun either => away (by simpa using either)
  have pace : (v.retrim (.room q)).paceRec x = v.paceRec x := by
    rw [(State.retrim_retrimmed (s := v) (id := .room q)).frame]
    rfl
  have others := (State.trimmed_retrim (f.two a)).2 x fun m chan => apart (by
    rw [f.motorChan] at chan
    cases m
    · exact .inl (Option.some.inj (chan.symm.trans a.chanA))
    · exact .inr (Option.some.inj (chan.symm.trans a.chanB)))
  rw [pace, f.paces, if_neg apart, others, f.chans, if_neg apart]
  exact ⟨rfl, rfl⟩

omit a in
theorem retrimmed_frame : v.retrim (.room q) = { s.admitted b e with
    channels := (v.retrim (.room q)).channels, pace := (v.retrim (.room q)).pace, rooms := (v.retrim (.room q)).rooms
    awning := (v.retrim (.room q)).awning } := by
  have same := (State.retrim_retrimmed (s := v) (id := .room q)).frame
  generalize v.retrim (.room q) = w at same
  rw [same, f.frame]

omit a in
theorem retrimmed_slider (p : Slider) : (v.retrim (.room q)).slider p =
    if .room q = p then (s.slider (.room q)).underway d else s.slider p :=
  ((State.retrim_retrimmed (s := v) (id := .room q)).slider p).trans (f.sliders p)

end BothStarted

/-- A held motion of a two-motor room whose motors are both driven stands, with the trims that its counts ask for. -/
theorem TwoReady.stands (a : TwoReady s q na nb) (group : e.group = .room q) (action : e.action = .toward d)
    (runs : e.state = .running) (parked : s.road = .parked) (permitted : s.permitCause (.room q) (.toward d) = none)
    (drained : u = drain workBound ((s.bothStarted b e q d na nb).retrim (.room q), [.handover s.view])) :
    Placed s u b e [na, nb] ∧
    DriveStarted s u na d (trimFor d (s.layout.rooms[q]).syncWindow (s.kindParams na).startDuty
      (s.rooms[q]).motorA.count (s.rooms[q]).motorB.count) ∧
    DriveStarted s u nb d (trimFor d (s.layout.rooms[q]).syncWindow (s.kindParams nb).startDuty
      (s.rooms[q]).motorB.count (s.rooms[q]).motorA.count) ∧
    u.enOut na = true ∧ u.enOut nb = true ∧ u.rooms[q] = (s.rooms[q]).underway d := by
  have f := a.bothStarted (b := b) (e := e) (d := d)
  have startedA := f.trimmed a group action runs (m := .a) a.chanA (.inl rfl)
  have startedB := f.trimmed a group action runs (m := .b) a.chanB (.inr rfl)
  have foreign {x : Chan} (away : x ∉ [na, nb]) := f.foreign a away
  have whole := f.retrimmed_frame
  have slider := f.retrimmed_slider
  generalize (s.bothStarted b e q d na nb).retrim (.room q) = w at *
  have axes (h : Group) (other : h ≠ .room q) : axisRecords w h = axisRecords s h :=
    axisRecords_of_slider (id := .room q) (fun p apart => by rw [slider, if_neg (Ne.symm apart)])
      (by rw [whole]; rfl) (by rw [whole]; rfl) (by rw [whole]; rfl) other
  have calm : w.fallenPermit = none := by
    refine fallenPermit_sole (e := e) (by rw [whole]; simp [State.admitted, runs]) (by rw [whole]; simp [State.admitted, runs]) ?_
    have own := State.permitCause_own (s := s) (t := w) (id := .room q) (a := .toward d) (by rw [whole]; rfl) axes
    rw [group, action]
    exact own.trans permitted
  obtain ⟨after, quiet⟩ := drain_parked (k := 9998) (old := s.view) calm (by rw [whole]; exact parked)
  have isU : u = drain (9998 + 2) (w, [.handover s.view]) := drained
  rw [← isU] at after quiet
  obtain ⟨chanSame, paceSame, sliderSame, -⟩ := State.butAlarm_parts after
  have finalA := startedA.after (chanSame na) (paceSame na)
  have finalB := startedB.after (chanSame nb) (paceSame nb)
  refine ⟨.of (by rw [whole]) (fun x away => foreign away) (by rw [group]; exact axes) after quiet, finalA, finalB, finalA.driven,
    finalB.driven, ?_⟩
  have same := (sliderSame (.room q)).trans (slider (.room q))
  rw [if_pos rfl] at same
  exact same

end

end Sys2Proof.Machine
end

section
/-! PROOFS. A held motion of a two-motor room whose counts stand the rack limit or more apart: motor A is started and the motion ends
RACKED in the same event (R8, R50, log 55). -/

namespace Sys2Proof.Machine

section
variable {s t u w v : State} {g h : Group} {n i na nb : Chan} {id : Slider} {m y : Motor} {d : Dir} {e x : Entry} {k c : Nat}
  {b : Claim} {p : Port} {l : List Task} {q : RoomId} {z : Ending}

/-- Motor A of a room has been started, and the trims set, when its motion ends RACKED. -/
structure OneStarted (s : State) (b : Claim) (e : Entry) (q : RoomId) (d : Dir) (na nb : Chan) (w : State) : Prop where
  frame : w = { s.admitted b e with channels := w.channels, pace := w.pace, rooms := w.rooms, awning := w.awning }
  chanA : w.chan na = (s.chan na).driveStarted (s.kindParams na) d s.now
  chanB : w.chan nb = { s.chan nb with trimmed := none }
  chans : ∀ x, x ≠ na → x ≠ nb → w.chan x = s.chan x
  paces : ∀ x, w.paceRec x = if x = na then clearedPace else s.paceRec x
  sliders : ∀ p, p ≠ .room q → w.slider p = s.slider p
  counts : ∀ p m, (w.motor p m).count = (s.motor p m).count
  fault : (w.slider (.room q)).fault = (s.slider (.room q)).fault

theorem TwoReady.oneStarted (a : TwoReady s q na nb) :
    OneStarted s b e q d na nb (((s.travelling b e (.room q) d).driveStart na d).retrim (.room q)) := by
  obtain ⟨layout, now, -, chans, paces, -⟩ := State.travelling_same (s := s) (b := b) (e := e) (id := .room q) (d := d)
  have chanA := (State.motorChan_travelling (s := s) (b := b) (e := e) (d := d) (id := .room q) (.room q) .a).trans a.chanA
  have first := State.driveStart_slider (d := d) chanA
  have base := State.travelling_frame (s := s) (b := b) (e := e) (id := .room q) (d := d)
  have chan (x : Chan) := State.chan_driveStart (s := s.travelling b e (.room q) d) (n := na) (d := d) (i := x)
  have pace (x : Chan) := State.paceRec_driveStart (s := s.travelling b e (.room q) d) (n := na) (d := d) (i := x)
  have sliders (p : Slider) := State.slider_driveStart (d := d) chanA p
  have moving := State.slider_travelling (s := s) (b := b) (e := e) (id := .room q) (d := d)
  have motorChan := a.chanStarted (b := b) (e := e) (d := d)
  generalize s.travelling b e (.room q) d = r at *
  have params : r.kindParams na = s.kindParams na := by rw [State.kindParams, State.kindParams, State.role, State.role, layout]
  rw [params, now] at chan
  generalize r.driveStart na d = v at *
  have two : v.twoMotors (.room q) = true := (congrArg Option.isSome (motorChan .b)).trans a.two
  have trims : Retrimmed v (v.retrim (.room q)) := State.retrim_retrimmed
  obtain ⟨trimmed, others⟩ := State.trimmed_retrim two
  have restB : v.motorDriven (.room q) .b = false := by
    obtain ⟨-, off, -⟩ := a.seated nb (.inr rfl)
    unfold State.motorDriven
    rw [motorChan, a.chanB]
    dsimp only
    rw [chan, if_neg a.apart, chans, Channel.driven, off]
    rfl
  have untrimmed (m : Motor) : v.trimOf (.room q) m = none := by
    rw [State.trimOf_eq two, if_neg fun both => by rw [restB] at both; exact absurd both.2 (by simp)]
  have set (m : Motor) (x : Chan) (own : s.motorChan (.room q) m = some x) :
      (v.retrim (.room q)).chan x = { v.chan x with trimmed := none } := by
    rw [trims.chan x, trimmed m x ((motorChan m).trans own), untrimmed]
  have record (p : Slider) : (v.retrim (.room q)).slider p =
      if .room q = p then (r.slider (.room q)).setMotor .a { r.motor (.room q) .a with tally := 0 } else r.slider p :=
    (trims.slider p).trans (sliders p)
  refine ⟨?_, ?_, ?_, fun x apartA apartB => ?_, fun x => ?_, fun p apart => ?_, fun p m => ?_, ?_⟩
  · have same := trims.frame
    generalize v.retrim (.room q) = w at same
    rw [same, first, base]
  · rw [set .a na a.chanA, chan, if_pos rfl, chans]
    rfl
  · rw [set .b nb a.chanB, chan, if_neg a.apart, chans]
  · rw [others x fun m own => ?_, chan, if_neg (Ne.symm apartA), chans]
    rw [motorChan] at own
    cases m
    · exact apartA (Option.some.inj (own.symm.trans a.chanA))
    · exact apartB (Option.some.inj (own.symm.trans a.chanB))
  · have same : (v.retrim (.room q)).paceRec x = v.paceRec x := by rw [trims.frame]; rfl
    rw [same, pace, paces]
    by_cases isA : na = x
    · rw [if_pos isA, if_pos isA.symm]
    · rw [if_neg isA, if_neg (Ne.symm isA)]
  · rw [record, if_neg (Ne.symm apart), moving, if_neg (Ne.symm apart)]
  · rw [State.motor, record]
    by_cases own : .room q = p
    · subst own
      rw [if_pos rfl, State.motor, moving, if_pos rfl, a.two]
      cases m <;> rfl
    · rw [if_neg own, moving, if_neg own]
      rfl
  · rw [record, if_pos rfl, State.motor, moving, if_pos rfl, a.two]
    rfl

/-! ### What the ending leaves -/

/-- The ending of a motion by a lead at the rack limit (R50). -/
def rackedEnding : Ending := { outcome := .fault, fault := some .racked }

theorem SliderRec.fault_ended (r : SliderRec) (two : Bool) (state : AxisState) :
    (r.ended two state z).fault = if r.fault.isSome then r.fault else z.fault := rfl

theorem Channel.stopped_driveStarted (c : Channel) (r : KindParams) (now : Time) :
    (c.driveStarted r d now).stopped now = (c.driveStarted r d now).halted now := by
  by_cases full : r.runDuty ≤ r.startDuty <;> simp [Channel.stopped, Channel.driveStarted, full]

/-- The channels after the ending of a motion whose motor A alone was started. -/
theorem OneStarted.chans_racked (f : OneStarted s b e q d na nb w) (a : TwoReady s q na nb)
    (found : w.entryOf (.room q) = some x) :
    ((w.motionEnd (.room q) z).1.chan na = ((s.chan na).driveStarted (s.kindParams na) d s.now).halted s.now) ∧
    (w.motionEnd (.room q) z).1.paceRec na = clearedPace ∧
    (w.motionEnd (.room q) z).1.chan nb = { s.chan nb with trimmed := none } ∧
    (w.motionEnd (.room q) z).1.paceRec nb = s.paceRec nb ∧
    ∀ i, i ≠ na → i ≠ nb → (w.motionEnd (.room q) z).1.chan i = s.chan i ∧ (w.motionEnd (.room q) z).1.paceRec i = s.paceRec i := by
  have layout : w.layout = s.layout := by rw [f.frame]; rfl
  have now : w.now = s.now := by rw [f.frame]; rfl
  have motorChan (m : Motor) : w.motorChan (.room q) m = s.motorChan (.room q) m := State.motorChan_layout layout _ _
  have motors : w.motors (.room q) = [.a, .b] := if_pos ((congrArg Option.isSome (motorChan .b)).trans a.two)
  have among (i : Chan) : i ∈ w.slideChans (.room q) ↔ i = na ∨ i = nb := by
    rw [State.mem_slideChans, motors]
    constructor
    · rintro ⟨m, -, chan⟩
      rw [motorChan] at chan
      cases m
      · exact .inl (Option.some.inj (chan.symm.trans a.chanA))
      · exact .inr (Option.some.inj (chan.symm.trans a.chanB))
    · rintro (rfl | rfl)
      · exact ⟨.a, by simp, (motorChan .a).trans a.chanA⟩
      · exact ⟨.b, by simp, (motorChan .b).trans a.chanB⟩
  have chan (i : Chan) := State.chan_motionEnd_slide (id := .room q) (e := z) (n := i) found
  have pace (i : Chan) : (w.motionEnd (.room q) z).1.paceRec i = w.paceRec i :=
    congrArg (fun p : Vector PaceRecord 16 => p[i]) State.pace_motionEnd
  refine ⟨?_, by rw [pace, f.paces, if_pos rfl], ?_, by rw [pace, f.paces, if_neg (Ne.symm a.apart)], fun i apartA apartB => ⟨?_, ?_⟩⟩
  · refine (chan na).trans ?_
    rw [if_pos ((among na).mpr (.inl rfl)), f.chanA, now, Channel.stopped_driveStarted]
  · refine (chan nb).trans ?_
    obtain ⟨-, off, -⟩ := a.seated nb (.inr rfl)
    rw [if_pos ((among nb).mpr (.inr rfl)), f.chanB]
    unfold Channel.stopped
    dsimp only
    rw [off]
  · refine (chan i).trans ?_
    rw [if_neg fun mem => ((among i).mp mem).elim apartA apartB, f.chans i apartA apartB]
  · rw [pace, f.paces, if_neg apartA]

/-- The lists, the claims and the other axes after the ending of the motion. -/
theorem OneStarted.desk_racked (f : OneStarted s b e q d na nb w) (found : w.entryOf (.room q) = some e)
    (group : e.group = .room q) (runs : e.state = .running) :
    (w.motionEnd (.room q) z).1.load = [] ∧ (w.motionEnd (.room q) z).1.paused = [] ∧
    (w.motionEnd (.room q) z).1.nextOrder = s.nextOrder + 1 ∧ (w.motionEnd (.room q) z).1.plan = s.plan ∧
    (∀ h, (w.motionEnd (.room q) z).1.claim h = if .room q = h then z.claim.apply (some b) else s.claim h) ∧
    ∀ h, h ≠ .room q → axisRecords (w.motionEnd (.room q) z).1 h = axisRecords s h := by
  obtain ⟨load, paused⟩ := w.lists_motionEnd (g := .room q) (e := z)
  have loadW : w.load = [e] := by rw [f.frame]; simp [State.admitted, runs]
  have pausedW : w.paused = [] := by rw [f.frame]; simp [State.admitted, runs]
  have claimW (h : Group) : w.claim h = if .room q = h then some b else s.claim h := by
    have same : w.claim h = (s.setClaim e.group (some b)).claim h := by rw [f.frame]; rfl
    rw [same, State.claim_setClaim, group]
  have outer := (State.motionEnd_does (F := fun _ => True) (s := w) (g := .room q) (e := z) fun _ => trivial).follows
  refine ⟨by rw [load, loadW]; simp [group], by rw [paused, pausedW]; rfl, ?_, ?_, fun h => ?_, fun h other => ?_⟩
  · have frame := State.motionEnd_frame (e := z) found
    have orders : (w.controllerEnd (.room q) e.action z).nextOrder = w.nextOrder := by
      have same := congrArg State.nextOrder (State.controllerEnd_controls (s := w) (g := .room q) (a := e.action) (e := z)).outer
      exact same
    generalize (w.motionEnd (.room q) z).1 = r at frame
    rw [frame]
    refine orders.trans ?_
    rw [f.frame]
    rfl
  · rw [State.plan_motionEnd, f.frame]
    rfl
  · rw [State.claim_motionEnd found, claimW, claimW, if_pos rfl]
    split <;> simp_all
  · refine (axisRecords_of_same (State.axis_motionEnd_other other)).trans ?_
    exact axisRecords_of_slider (id := .room q) f.sliders (by rw [f.frame]; rfl) (by rw [f.frame]; rfl) (by rw [f.frame]; rfl) other

/-- The state of a room whose counts are known after a fault of the controller's own. -/
theorem OneStarted.state_racked (f : OneStarted s b e q d na nb w) (a : TwoReady s q na nb)
    (known : ∀ m, ∃ c, (s.motor (.room q) m).count = some c) :
    w.endState (.room q) rackedEnding = if s.allHome (.room q) then .closed else .midway := by
  have layout : w.layout = s.layout := by rw [f.frame]; rfl
  have lines : w.lines = s.lines := by rw [f.frame]; rfl
  have position : w.positionKnown (.room q) = true :=
    State.positionKnown_of (fun m _ => by rw [f.counts]; exact known m) ((State.motorChan_layout layout _ _).trans a.chanA)
  have rest : w.endState (.room q) rackedEnding = w.restState (.room q) := rfl
  rw [rest, State.restState, State.allHome_congr layout lines, position]
  split <;> rfl

/-- What an event leaves in which the first start of a two-motor room ends its motion RACKED. -/
theorem OneStarted.racked (a : TwoReady s q na nb) (f : OneStarted s b e q d na nb w) (group : e.group = .room q)
    (runs : e.state = .running) (owner : e.owner ≠ .sequencer) (hold : b.mode = .hold)
    (known : ∀ m, ∃ c, (s.motor (.room q) m).count = some c)
    (drained : u = drain workBound (w, [.endMotion (.room q) rackedEnding, .handover s.view])) :
    Ended (.room q) .fault s u ∧ (u.rooms[q]).fault = some ((s.rooms[q]).fault.getD .racked) ∧
    (u.rooms[q]).state = (if s.allHome (.room q) then .closed else .midway) ∧
    u.enOut na = false ∧ (u.chan na).drive = .stopping ∧ (u.chan na).lastStop = some { time := s.now, dir := d } ∧
    u.paceRec na = { counter := 0, ring := [], tally := 0, stallRaised := false } ∧
    u.chan nb = { s.chan nb with trimmed := none } ∧ u.paceRec nb = s.paceRec nb ∧
    (∀ n, n ≠ na → n ≠ nb → u.chan n = s.chan n ∧ u.paceRec n = s.paceRec n) ∧
    u.load = [] ∧ u.paused = [] ∧ u.nextOrder = s.nextOrder + 1 ∧ u.plan = s.plan ∧
    u.claim (.room q) = some { b with ended := true } ∧
    ∀ h, h ≠ .room q → u.claim h = s.claim h ∧ axisRecords u h = axisRecords s h := by
  have sole : w.load ++ w.paused = [e] := by rw [f.frame]; simp [State.admitted, runs]
  have found : w.entryOf (.room q) = some e := by simp [State.entryOf, sole, group]
  have but : (w.motionEnd (.room q) rackedEnding).1.butAlarm u := by
    have ends := drain_sole_ends (k := 9999) (z := rackedEnding) (old := s.view) sole owner
    rw [group] at ends
    rw [drained]
    exact ends
  have layout : w.layout = s.layout := by rw [f.frame]; rfl
  have motorChan (m : Motor) : w.motorChan (.room q) m = s.motorChan (.room q) m := State.motorChan_layout layout _ _
  have two : w.twoMotors (.room q) = true := (congrArg Option.isSome (motorChan .b)).trans a.two
  have ended : Ended (.room q) .fault w u := by
    rw [drained]
    exact (drain_ends (k := 9999) (e := rackedEnding) (rest := [.handover s.view]) found (.cons trivial .nil)).ended
  obtain ⟨chanA, paceA, chanB, paceB, others⟩ := f.chans_racked a found
  obtain ⟨load, paused, orders, plan, claims, axes⟩ := f.desk_racked (z := rackedEnding) found group runs
  have slider : (w.motionEnd (.room q) rackedEnding).1.slider (.room q) = (w.slider (.room q)).ended (w.twoMotors (.room q))
      (w.endState (.room q) rackedEnding) rackedEnding := State.slider_motionEnd (id := .room q) found
  have state := f.state_racked a known
  generalize (w.motionEnd (.room q) rackedEnding).1 = r at *
  obtain ⟨chanSame, paceSame, sliderSame, -⟩ := State.butAlarm_parts but
  have listsEmpty : u.load = [] ∧ u.paused = [] := by
    rw [but.1]
    exact ⟨load, paused⟩
  refine ⟨?_, ?_, ?_, ?_, ?_, ?_, ?_, ?_, ?_, fun x apartA apartB => ?_, listsEmpty.1, listsEmpty.2, ?_, ?_, ?_, fun h other => ?_⟩
  · have later : Ended (.room q) .fault { s with nextOrder := s.nextOrder + 1 } u := by
      refine ended.from ?_ ?_ (fun p m => .inl (f.counts p m)) (fun j => ?_) (fun r => ?_) ?_ ?_
      all_goals rw [f.frame]
      case refine_5 => exact State.soundsOn_same rfl rfl rfl
      all_goals rfl
    obtain ⟨-, notice, fault, interlock, sounds, recorded, counts, jacks, links, fixed⟩ := later
    refine ⟨fun y mem => ?_, notice, fault, interlock, sounds, recorded, counts, jacks, links, fixed⟩
    rw [State.motions, listsEmpty.1, listsEmpty.2] at mem
    exact absurd mem (by simp)
  · have same := congrArg SliderRec.fault ((sliderSame (.room q)).trans slider)
    rw [SliderRec.fault_ended, f.fault] at same
    refine same.trans ?_
    cases held : (s.slider (.room q)).fault with
    | none => rw [show (s.rooms[q]).fault = none from held]; rfl
    | some r => rw [show (s.rooms[q]).fault = some r from held]; rfl
  · have same := congrArg SliderRec.state ((sliderSame (.room q)).trans slider)
    exact same.trans state
  · rw [State.enOut, chanSame, chanA]
    rfl
  · rw [chanSame, chanA]
    rfl
  · rw [chanSame, chanA]
    rfl
  · rw [paceSame, paceA]
    rfl
  · rw [chanSame, chanB]
  · rw [paceSame, paceB]
  · rw [chanSame, paceSame]
    exact others x apartA apartB
  · rw [but.1]
    exact orders
  · rw [but.1]
    exact plan
  · have same : u.claim (.room q) = r.claim (.room q) := by rw [but.1]; rfl
    rw [same, claims, if_pos rfl]
    change endedByRule b = _
    rw [endedByRule, hold]
  · have same : u.claim h = r.claim h ∧ axisRecords u h = axisRecords r h := by
      rw [but.1]
      exact ⟨rfl, by cases h <;> rfl⟩
    rw [same.1, same.2, claims, if_neg (Ne.symm other)]
    exact ⟨rfl, axes h other⟩

end

end Sys2Proof.Machine
end

section
/-! PROOFS. A held motion of the jacks and a level run that start from rest (R8, R68, R70, R72, R83, R84, R112). -/

namespace Sys2Proof.Machine

section
variable {s t u w v : State} {n i q : Chan} {d : Dir} {e x : Entry} {j : JackId} {k c : Nat}
  {b : Claim} {p : Port} {a : Action} {l : List JackId} {m : Mode}

/-! ### The valves from rest, and the pump -/

/-- The pump's following touches the pump's channel alone. -/
theorem State.pumpFollow_others (other : s.roleChan .pump ≠ some i) :
    s.pumpFollow.chan i = s.chan i ∧ s.pumpFollow.paceRec i = s.paceRec i := by
  unfold State.pumpFollow
  split
  · rename_i x n moving pump
    have apart : i ≠ n := fun same => other (same ▸ pump)
    split
    · split
      · exact ⟨rfl, rfl⟩
      · exact (s.startChan_pump (d := .outward) (State.role_of_roleChan pump)).2 i apart
    · rw [State.stopChan_eq, State.chan_setChan, if_neg apart.symm]
      exact ⟨rfl, rfl⟩
  · exact ⟨rfl, rfl⟩

/-- A valve's drive start clears the level mark (R70). -/
theorem State.startValve_mark (valve : s.roleChan (.jack j) = some n) (may : s.mayDrive n = true) (once : s.startsAtOnce n d) :
    (s.startValve j d).jackSet = { s.jackSet with levelMark := false } := by
  unfold State.startValve
  rw [valve]
  dsimp only
  rw [State.startChan_at_once may once]
  have role := State.role_of_roleChan valve
  unfold State.driveStart State.mirrorTally
  dsimp only
  have kept : ((s.setChan n ((s.chan n).driveStarted (s.kindParams n) d s.now)).setPace n clearedPace).role n = .jack j := role
  rw [kept, role]
  rfl

/-- Some valves have made their drive starts, the pump with them, and the level mark is cleared. -/
structure ValvesBegun (s w : State) (l : List JackId) (d : Dir) (q : Chan) : Prop where
  frame : w = { s with channels := w.channels, pace := w.pace, jackSet := w.jackSet }
  mark : w.jackSet = { s.jackSet with levelMark := false }
  valves : ∀ j ∈ l, ∀ n, s.roleChan (.jack j) = some n → DriveStarted s w n d none
  pump : DriveStarted s w q .outward none
  others : ∀ x, x ≠ q → (∀ j ∈ l, s.roleChan (.jack j) ≠ some x) → w.chan x = s.chan x ∧ w.paceRec x = s.paceRec x

theorem State.valvesBegun (found : s.entryOf .jacks = some e) (loaded : e ∈ s.load) (once : l.Nodup) (some_jack : l ≠ [])
    (among : ∀ j ∈ l, j ∈ s.jacksOf e.action)
    (rest : ∀ j ∈ l, ∃ n, s.roleChan (.jack j) = some n ∧ s.startsAtOnce n d) (pump : s.roleChan .pump = some q)
    (restPump : s.startsAtOnce q .outward) : ValvesBegun s (s.startValves l fun _ => d).pumpFollow l d q := by
  have group : e.group = .jacks := by
    have same := (State.entryOf_motion found).2
    exact same
  have starts := State.valvesStarted (d := fun _ => d) found loaded once among
  obtain ⟨frame, -, others, -⟩ := State.startValves_spec (d := fun _ => d) once s
  have marked : (s.startValves l fun _ => d).jackSet = { s.jackSet with levelMark := false } := by
    cases l with
    | nil => exact absurd rfl some_jack
    | cons i more =>
      obtain ⟨n, valve, atOnce⟩ := rest i List.mem_cons_self
      have first := State.startValve_mark valve
        (State.mayDrive_valve group loaded (among i List.mem_cons_self) valve atOnce.1) atOnce
      have mark := (State.startValves_spec (d := fun _ => d) (List.nodup_cons.mp once).2 (s.startValve i d)).2.1
      have whole : s.startValves (i :: more) (fun _ => d) = (s.startValve i d).startValves more fun _ => d := rfl
      rw [whole]
      rcases mark with mark | mark <;> rw [mark, first]
  have roleChan (r : Role) : (s.startValves l fun _ => d).roleChan r = s.roleChan r :=
    State.roleChan_layout (by rw [frame]) r
  generalize s.startValves l (fun _ => d) = v at *
  obtain ⟨outer, -⟩ := State.pumpFollow_spec (s := v)
  have away := fun i => State.pumpFollow_others (s := v) (i := i)
  generalize v.pumpFollow = w at *
  refine ⟨by rw [outer, frame], by rw [outer]; exact marked, fun j mem n valve => ?_, ?_, fun x apart foreign => ?_⟩
  · obtain ⟨n', valve', atOnce⟩ := rest j mem
    obtain rfl := Option.some.inj (valve.symm.trans valve')
    exact starts.valves j mem n valve atOnce
  · obtain ⟨j, mem⟩ := List.exists_mem_of_ne_nil l some_jack
    obtain ⟨n, valve, atOnce⟩ := rest j mem
    exact (starts.pump q pump ⟨j, mem, n, valve, atOnce⟩).1 restPump
  · obtain ⟨chan, pace⟩ := away x (by rw [roleChan, pump]; exact fun same => apart (Option.some.inj same).symm)
    obtain ⟨chan', pace'⟩ := others x foreign
    exact ⟨chan.trans chan', pace.trans pace'⟩

/-- Without a driven valve a pump at rest stays so. -/
theorem State.pumpFollow_rest (found : s.entryOf .jacks = some e) (pump : s.roleChan .pump = some q)
    (valves : ∀ j ∈ s.jacksOf e.action, ∀ n, s.roleChan (.jack j) = some n → (s.chan n).drive = .off)
    (off : (s.chan q).drive = .off) : s.pumpFollow = s := by
  rw [(State.pumpFollow_pump found pump).2 fun j mem => ?_]
  · unfold State.stopChan
    rw [off]
  · unfold State.valveDriven
    cases valve : s.roleChan (.jack j) with
    | none => rfl
    | some n =>
      dsimp only
      rw [Channel.driven, valves j mem n valve]
      rfl

/-! ### The jacks of a held motion -/

/-- The record of a jack that becomes ACTIVE in a direction (R67, R72). -/
def Jack.activated (r : Jack) : Dir → Jack
  | .outward => { r with phase := .active, dir := .outward, atStroke := false }
  | .stowing => { r with phase := .active, dir := .stowing, liftOff := false }

theorem State.jackActivate_eq : s.jackActivate j d = s.onJack j fun r => r.activated d := by
  cases d <;> rfl

/-- Nothing ends a jack's part in a new motion at once (R72). -/
structure JackReady (s : State) (a : Action) (j : JackId) : Prop where
  contact : a = .toward .outward → (s.jack j).contact = false
  home : a.dir = .stowing → s.jackHome j = false
  stroke : a = .jack j .outward → 0 < (s.jackParams j).strokeMax → (s.jack j).count ≠ some (s.jackParams j).strokeMax

theorem JackReady.doneAtOnce (ready : JackReady s a j) (mem : j ∈ s.jacksOf a) :
    (s.jackActivate j a.dir).doneAtOnce a j = s.onJack j fun r => r.activated a.dir := by
  rw [State.jackActivate_eq]
  have jack : (s.onJack j fun r => r.activated a.dir).jack j = (s.jack j).activated a.dir := State.jack_setJack_same ..
  have home : (s.onJack j fun r => r.activated a.dir).jackHome j = s.jackHome j := State.jackHome_congr rfl rfl
  unfold State.doneAtOnce
  dsimp only
  rw [jack, home]
  cases a with
  | toward d =>
    cases d with
    | outward => exact if_neg (by rw [show ((s.jack j).activated _).contact = (s.jack j).contact from rfl, ready.contact rfl]; simp)
    | stowing => exact if_neg (by rw [ready.home rfl]; simp)
  | jack k d =>
    obtain rfl : j = k := List.mem_singleton.mp mem
    cases d with
    | outward => exact if_neg fun both => ready.stroke rfl both.1 both.2
    | stowing => exact if_neg (by rw [ready.home rfl]; simp)
  | level => rfl

/-- The records of some jacks, and nothing else, may differ. -/
theorem JackReady.congr (ready : JackReady s a j) (layout : t.layout = s.layout) (lines : t.lines = s.lines)
    (jack : t.jack j = s.jack j) : JackReady t a j := by
  have params : t.jackParams j = s.jackParams j := by rw [State.jackParams, State.jackParams, layout]
  refine ⟨fun down => ?_, fun inward => ?_, fun out => ?_⟩
  · rw [jack]; exact ready.contact down
  · rw [State.jackHome_congr layout lines]; exact ready.home inward
  · rw [jack, params]; exact ready.stroke out

/-- The jacks of a motion from rest all become ACTIVE. -/
theorem State.activates (l : List JackId) (once : l.Nodup) (s : State) (among : ∀ j ∈ l, j ∈ s.jacksOf a)
    (ready : ∀ j ∈ l, JackReady s a j) :
    forEach l (fun j t => (t.jackActivate j a.dir).doneAtOnce a j) s =
      forEach l (fun j t => t.onJack j fun r => r.activated a.dir) s := by
  induction l generalizing s with
  | nil => rfl
  | cons i rest ih =>
    obtain ⟨fresh, once⟩ := List.nodup_cons.mp once
    have first := (ready i List.mem_cons_self).doneAtOnce (among i List.mem_cons_self)
    change forEach rest _ ((s.jackActivate i a.dir).doneAtOnce a i) = forEach rest _ (s.onJack i fun r => r.activated a.dir)
    rw [first]
    refine ih once _ (fun j mem => ?_) fun j mem => ?_
    · have same : (s.onJack i fun r => r.activated a.dir).jacksOf a = s.jacksOf a := State.jacksOf_congr rfl
      rw [same]
      exact among j (List.mem_cons_of_mem _ mem)
    · refine (ready j (List.mem_cons_of_mem _ mem)).congr rfl rfl ?_
      have apart : i ≠ j := fun same => fresh (same ▸ mem)
      rw [State.jack_onJack, if_neg apart]

/-- What a held motion of the jacks leaves when all its valves start at once. -/
structure JacksBegun (s w : State) (a : Action) (q : Chan) : Prop where
  frame : w = { s with channels := w.channels, pace := w.pace, jacks := w.jacks, jackSet := w.jackSet }
  set : w.jackSet = { s.jackSet with levelMark := false, runTime := 0 }
  jacks : ∀ j, w.jack j = if j ∈ s.jacksOf a then (s.jack j).activated a.dir else s.jack j
  valves : ∀ j ∈ s.jacksOf a, ∀ n, s.roleChan (.jack j) = some n → DriveStarted s w n a.dir none
  pump : DriveStarted s w q .outward none
  others : ∀ x, x ≠ q → (∀ j ∈ s.jacksOf a, s.roleChan (.jack j) ≠ some x) → w.chan x = s.chan x ∧ w.paceRec x = s.paceRec x

theorem State.jacksOf_nodup : (s.jacksOf a).Nodup := by
  cases a with
  | jack k d => exact List.nodup_singleton k
  | toward d => exact State.configuredJacks_nodup
  | level => exact State.configuredJacks_nodup

/-- A held motion of the jacks from rest drives the valve of each of its jacks, and the pump (R68, R72). -/
theorem State.jackAdmit_begun (found : s.entryOf .jacks = some e) (loaded : e ∈ s.load) (action : e.action = a)
    (other : a ≠ .level) (some_jack : s.jacksOf a ≠ []) (ready : ∀ j ∈ s.jacksOf a, JackReady s a j)
    (rest : ∀ j ∈ s.jacksOf a, ∃ n, s.roleChan (.jack j) = some n ∧ s.startsAtOnce n a.dir) (pump : s.roleChan .pump = some q)
    (restPump : s.startsAtOnce q .outward) : ∃ w, s.jackAdmit a true = (w, []) ∧ JacksBegun s w a q := by
  obtain ⟨frame, jacks⟩ := forEach_onJack (fun _ r => r.activated a.dir) (s.jacksOf a) State.jacksOf_nodup
    { s with jackSet := { s.jackSet with runTime := 0 } }
  have acts := State.activates (a := a) (s.jacksOf a) State.jacksOf_nodup { s with jackSet := { s.jackSet with runTime := 0 } }
    (fun j mem => mem) fun j mem => (ready j mem).congr rfl rfl rfl
  have shape : s.jackAdmit a true =
      if (forEach (s.jacksOf a) (fun j t => (t.jackActivate j a.dir).doneAtOnce a j)
          { s with jackSet := { s.jackSet with runTime := 0 } }).anyActive (s.jacksOf a) then
        (((forEach (s.jacksOf a) (fun j t => (t.jackActivate j a.dir).doneAtOnce a j)
          { s with jackSet := { s.jackSet with runTime := 0 } }).startActive (s.jacksOf a)).pumpFollow, [])
      else (forEach (s.jacksOf a) (fun j t => (t.jackActivate j a.dir).doneAtOnce a j)
          { s with jackSet := { s.jackSet with runTime := 0 } }).jackCheck := by
    cases a with
    | level => exact absurd rfl other
    | toward d => rfl
    | jack k d => rfl
  rw [shape, acts]
  generalize forEach (s.jacksOf a) (fun j t => t.onJack j fun r => r.activated a.dir)
    { s with jackSet := { s.jackSet with runTime := 0 } } = v at frame jacks ⊢
  have record (j : JackId) (mem : j ∈ s.jacksOf a) : (v.jack j).phase = .active ∧ (v.jack j).dir = a.dir := by
    rw [jacks, if_pos mem]
    unfold Jack.activated
    cases a.dir <;> exact ⟨rfl, rfl⟩
  have active : v.anyActive (s.jacksOf a) = true := by
    obtain ⟨j, mem⟩ := List.exists_mem_of_ne_nil _ some_jack
    exact List.any_eq_true.mpr ⟨j, mem, by rw [(record j mem).1]; rfl⟩
  have starts : v.startActive (s.jacksOf a) = v.startValves (s.jacksOf a) fun _ => a.dir := by
    rw [State.startActive_eq, List.filter_eq_self.mpr fun j mem => by rw [(record j mem).1]; rfl]
    exact State.startValves_congr fun j mem => (record j mem).2
  rw [if_pos active, starts]
  have layout : v.layout = s.layout := by rw [frame]
  have roleChan (r : Role) : v.roleChan r = s.roleChan r := State.roleChan_layout layout r
  have chan (i : Chan) : v.chan i = s.chan i := by rw [frame]; rfl
  have pace (i : Chan) : v.paceRec i = s.paceRec i := by rw [frame]; rfl
  have now : v.now = s.now := by rw [frame]
  have atOnce {i : Chan} {d : Dir} (once : s.startsAtOnce i d) : v.startsAtOnce i d :=
    State.startsAtOnce_congr (chan i) layout now once
  have begun := State.valvesBegun (s := v) (e := e) (l := s.jacksOf a) (d := a.dir) (q := q) (by rw [frame]; exact found)
    (by rw [frame]; exact loaded) State.jacksOf_nodup some_jack
    (fun j mem => by rw [action, State.jacksOf_congr layout]; exact mem)
    (fun j mem => by
      obtain ⟨n, valve, once⟩ := rest j mem
      exact ⟨n, (roleChan _).trans valve, atOnce once⟩)
    ((roleChan _).trans pump) (atOnce restPump)
  generalize (v.startValves (s.jacksOf a) fun _ => a.dir).pumpFollow = w at begun
  refine ⟨w, rfl, ?_, ?_, fun j => ?_, fun j mem n valve => ?_, ?_, fun x apart foreign => ?_⟩
  · rw [begun.frame, frame]
  · rw [begun.mark, frame]
  · have same : w.jack j = v.jack j := by rw [begun.frame]; rfl
    rw [same, jacks]
    rfl
  · exact (begun.valves j mem n ((roleChan _).trans valve)).congr (chan n) layout now
  · exact begun.pump.congr (chan q) layout now
  · obtain ⟨chan', pace'⟩ := begun.others x apart fun j mem => by rw [roleChan]; exact foreign j mem
    exact ⟨chan'.trans (chan x), pace'.trans (pace x)⟩

end

end Sys2Proof.Machine
end

section
/-! PROOFS. Motions that start from rest: the jacks' held motions, the level run, and the obligation as a whole (R8, R68, R70, R72,
R83, R84, R112). -/

namespace Sys2Proof.Machine

section
variable {s t u w v : State} {n i q : Chan} {d : Dir} {e x : Entry} {j : JackId} {k : Nat}
  {b : Claim} {p : Port} {a : Action} {l : List JackId} {m : Mode} {moved : List Chan}

/-! ### Motions of the jacks while nothing else moves -/

/-- The permits of a jack motion read nothing that a jack motion changes. -/
theorem State.permitCause_jacks (layout : t.layout = s.layout) (rooms : t.rooms = s.rooms) (awning : t.awning = s.awning) :
    t.permitCause .jacks a = s.permitCause .jacks a := by
  have configured (g : Group) : t.configured g = s.configured g := by
    cases g with
    | room k => exact congrArg Option.isSome (State.roleChan_layout layout _)
    | jacks => exact congrArg (fun l : List JackId => decide (0 < l.length)) (State.configuredJacks_congr layout)
    | awning => exact congrArg Option.isSome (State.roleChan_layout layout _)
  have out : t.roomsOut = s.roomsOut := by simp [State.roomsOut, rooms, configured]
  have spread : t.awningNotStowed = s.awningNotStowed := by
    simp only [State.awningNotStowed, State.sliderState, State.sliderRead, awning, configured]
  simp only [State.permitCause, out, spread]

/-- What a motion of the jacks that is taken up while nothing moves leaves of the event. -/
theorem jacksPlaced (frame : w = { s.admitted b e with
      channels := w.channels, pace := w.pace, jacks := w.jacks, jackSet := w.jackSet, level := w.level })
    (group : e.group = .jacks) (parked : s.road = .parked) (permitted : s.permitCause .jacks e.action = none)
    (channels : ∀ x, x ∉ moved → w.chan x = s.chan x ∧ w.paceRec x = s.paceRec x)
    (drained : u = drain workBound (w, [.handover s.view])) : Placed s u b e moved ∧ w.butAlarm u := by
  have rooms : w.rooms = s.rooms := by rw [frame]; rfl
  have awning : w.awning = s.awning := by rw [frame]; rfl
  have calm : w.fallenPermit = none := by
    have lists : w.load ++ w.paused = [e] := by
      rw [frame]
      by_cases runs : e.state = .running <;> simp [State.admitted, runs]
    rw [State.fallenPermit, lists]
    simp only [List.findSome?_cons, List.findSome?_nil]
    rw [group, State.permitCause_jacks (s := s) (by rw [frame]; rfl) rooms awning, permitted]
    rfl
  obtain ⟨after, quiet⟩ := drain_parked (k := 9998) (old := s.view) calm (by rw [frame]; exact parked)
  have isU : u = drain (9998 + 2) (w, [.handover s.view]) := drained
  rw [← isU] at after quiet
  refine ⟨.of (by rw [frame]) channels (fun h other => ?_) after quiet, after⟩
  cases h with
  | room k => rw [axisRecords, rooms]; rfl
  | jacks => exact absurd group.symm other
  | awning => rw [axisRecords, awning]; rfl

/-- The valve of a jack is AT_SPEED at full duty from its start. -/
theorem DriveStarted.full (started : DriveStarted s u n d none) (valve : s.roleChan (.jack j) = some n) :
    (u.chan n).ramped = 255 := by
  rw [started.record]
  change (s.kindParams n).startDuty = 255
  rw [State.kindParams, State.role_of_roleChan valve]
  rfl

/-- A held motion of the jacks from rest. -/
theorem heldMotion_jacks {c : Instr} (awake : s.inReset = none) (room : s.hasRoom p) (idle : s.motions = [])
    (write : s.write = none) (parked : s.road = .parked) (command : motionCommand p .hold .jacks a = some c)
    (free : s.claim .jacks = none) (pump : s.roleChan .pump = some q) (off : (s.chan q).drive = .off)
    (fresh : (s.chan q).lastStop = none) (seated : ∀ x ∈ s.groupChans .jacks, (s.chan x).census = .seated)
    (some_jack : s.jacksOf a ≠ [])
    (rest : ∀ j ∈ s.jacksOf a, ∃ n, s.roleChan (.jack j) = some n ∧ (s.chan n).drive = .off ∧ (s.chan n).lastStop = none)
    (ready : ∀ j ∈ s.jacksOf a, JackReady s a j) (sound : a.dir = .outward → s.groupFaulted .jacks = false)
    (permitted : s.permitCause .jacks a = none) (fits : s.motionUnits .jacks a ≤ s.budget)
    (entry : e = { group := .jacks, owner := .port p, mode := .hold, action := a, units := s.motionUnits .jacks a
                   order := s.nextOrder, state := .running, pausedSince := none }) :
    ∃ t u, exec c s = .next t ∧ t = u.answered p (motionKind .hold a) (.accepted false false false) ∧
      Placed s u (s.newClaim p .hold a) e (q :: (s.jacksOf a).filterMap fun j => s.roleChan (.jack j)) ∧
      (∀ j ∈ s.jacksOf a, u.jack j = (s.jack j).activated a.dir ∧ ∀ n, s.roleChan (.jack j) = some n →
        DriveStarted s u n a.dir none ∧ u.enOut n = true ∧ (u.chan n).ramped = 255) ∧
      DriveStarted s u q .outward none ∧ u.enOut q = true ∧
      u.jackSet = { s.jackSet with levelMark := false, runTime := 0 } ∧ u.level = s.level ∧
      ∀ j, j ∉ s.jacksOf a → u.jack j = s.jack j := by
  have other : a ≠ .level := by
    rintro rfl
    exact absurd command (by simp [motionCommand])
  have isEntry : s.entryNow p .hold .jacks a = e := by rw [State.entryNow_fits fits, entry]
  have configured : s.actionConfigured .jacks a = true := by
    cases a with
    | jack k d =>
      obtain ⟨n, valve, -⟩ := rest k (List.mem_singleton_self k)
      exact congrArg Option.isSome valve
    | toward d =>
      have more : 0 < s.jackCount := List.length_pos_iff.mpr some_jack
      exact decide_eq_true more
    | level => exact absurd rfl other
  have inward : s.groupFaulted .jacks = false ∨ (Mode.hold = .hold ∧ a.dir = .stowing) := by
    cases dir : a.dir with
    | outward => exact .inl (sound dir)
    | stowing => exact .inr ⟨rfl, rfl⟩
  have group : e.group = .jacks := by rw [entry]
  have action : e.action = a := by rw [entry]
  have runs : e.state = .running := by rw [entry]
  have inGroup (x : Chan) (r : Role) (role : s.roleChan r = some x) (own : r.group = some .jacks) : (s.chan x).census = .seated :=
    seated x (by simp [State.groupChans, allChans, State.role_of_roleChan role, own])
  have load : (s.admitted (s.newClaim p .hold a) e).load = [e] := by simp [State.admitted, runs]
  obtain ⟨w, received, begun⟩ := State.jackAdmit_begun (s := s.admitted (s.newClaim p .hold a) e) (e := e) (a := a) (q := q)
    (by simp [State.entryOf, load, group]) (by rw [load]; exact List.mem_singleton_self e) action other
    some_jack (fun j mem => (ready j mem).congr rfl rfl rfl)
    (fun j mem => by
      obtain ⟨n, valve, still, none⟩ := rest j mem
      exact ⟨n, valve, State.startsAtOnce_rest (inGroup n _ valve rfl) still none⟩)
    pump (State.startsAtOnce_rest (inGroup q _ pump rfl) off fresh)
  have placed : (s.admitted (s.newClaim p .hold a) (s.entryNow p .hold .jacks a)).controllerAdmit .jacks a
      (decide (s.motionUnits .jacks a ≤ s.budget)) = (w, []) := by
    rw [isEntry, decide_eq_true fits]
    exact received
  have run := exec_admitted awake room idle command free (State.firstChecks_none write parked configured)
    (State.verdict_none idle seated inward (by cases a <;> rfl) permitted (fun level => absurd level other) fun _ => fits) placed
  rw [decide_eq_true fits] at run
  have frame : w = { s.admitted (s.newClaim p .hold a) e with
      channels := w.channels, pace := w.pace, jacks := w.jacks, jackSet := w.jackSet, level := w.level } := by
    have same := begun.frame
    generalize s.admitted (s.newClaim p .hold a) e = v at same
    rw [same]
  obtain ⟨stands, after⟩ := jacksPlaced (moved := q :: (s.jacksOf a).filterMap fun j => s.roleChan (.jack j)) frame group parked
    (by rw [action]; exact permitted) (fun x away => begun.others x (fun same => away (by rw [same]; exact List.mem_cons_self))
      fun j mem valve => away (List.mem_cons_of_mem _ (List.mem_filterMap.mpr ⟨j, mem, valve⟩))) rfl
  obtain ⟨chanSame, paceSame, -, jackSame, setSame, levelSame, -⟩ := State.butAlarm_parts after
  refine ⟨_, _, run, rfl, stands, fun j mem => ⟨?_, fun n valve => ?_⟩, ?_, ?_, ?_, ?_, fun j away => ?_⟩
  · refine (jackSame j).trans ((begun.jacks j).trans (if_pos mem))
  · have started : DriveStarted s _ n a.dir none :=
      ((begun.valves j mem n valve).after (chanSame n) (paceSame n)).congr rfl rfl rfl
    exact ⟨started, started.driven, started.full valve⟩
  · exact (begun.pump.after (chanSame q) (paceSame q)).congr rfl rfl rfl
  · exact (begun.pump.after (chanSame q) (paceSame q)).driven
  · exact setSame.trans begun.set
  · refine levelSame.trans ?_
    rw [begun.frame]
    rfl
  · exact (jackSame j).trans ((begun.jacks j).trans (if_neg away))

/-! ### A level run -/

/-- The record of a jack when a level run is admitted (R83). -/
def Jack.waiting (r : Jack) : Jack := { r with phase := .done, atStroke := false }

theorem Jack.lowered_waiting (r : Jack) : r.waiting.lowered =
    if !r.contact then { r with atStroke := false, phase := .active, dir := .outward }
    else { r with atStroke := false, phase := .done } := by
  cases contact : r.contact <;> simp [Jack.lowered, Jack.waiting, contact]

/-- A level run is received: its record is new, every jack is DONE, and where it runs its CONTACT phase begins (R83, R84). -/
theorem State.levelReceived (run : Bool) : ∃ v, v = { s with
      jacks := v.jacks, jackSet := { s.jackSet with levelMark := false, runTime := 0 }, level := s.level.admitted } ∧
    (∀ j, v.jack j = if j ∈ s.configuredJacks then (s.jack j).waiting else s.jack j) ∧
    s.jackAdmit .level run = (if run then v.contactBegin else v, []) := by
  obtain ⟨frame, jacks⟩ := forEach_onJack (fun _ => Jack.waiting) s.configuredJacks State.configuredJacks_nodup
    { s with level := s.level.admitted, jackSet := { s.jackSet with runTime := 0, levelMark := false } }
  exact ⟨_, frame, jacks, rfl⟩

/-- What a level run leaves whose CONTACT phase begins from rest: the jacks without contact are driven down, or SETTLE begins
where there is none (R84). -/
structure LevelBegun (s w : State) (run planted : Bool) (q : Chan) : Prop where
  frame : w = { s with channels := w.channels, pace := w.pace, jacks := w.jacks, jackSet := w.jackSet, level := w.level }
  set : w.jackSet = { s.jackSet with levelMark := false, runTime := 0 }
  level : w.level = { s.level.admitted with phase := if run && planted then .settle else .contact }
  jacks : ∀ j, w.jack j = if j ∈ s.configuredJacks then
    (if run && !(s.jack j).contact then { s.jack j with atStroke := false, phase := .active, dir := .outward }
      else { s.jack j with atStroke := false, phase := .done }) else s.jack j
  valves : run = true → ∀ j ∈ s.configuredJacks, (s.jack j).contact = false → ∀ n, s.roleChan (.jack j) = some n →
    DriveStarted s w n .outward none
  pump : run = true → planted = false → DriveStarted s w q .outward none
  others : ∀ x, ((run && !planted) = true → x ≠ q ∧ ∀ j ∈ s.configuredJacks, (s.jack j).contact = false →
    s.roleChan (.jack j) ≠ some x) → w.chan x = s.chan x ∧ w.paceRec x = s.paceRec x

/-- A level run that waits in the pause list drives nothing. -/
theorem State.levelWaits {planted : Bool} : ∃ w, s.jackAdmit .level false = (w, []) ∧ LevelBegun s w false planted q := by
  obtain ⟨v, frame, jacks, received⟩ := State.levelReceived (s := s) false
  refine ⟨v, received, ?_, ?_, ?_, fun j => ?_, nofun, nofun, fun x _ => ?_⟩
  · rw [frame]
  · rw [frame]
  · rw [frame]
    rfl
  · rw [jacks]
    rfl
  · rw [frame]
    exact ⟨rfl, rfl⟩

/-- A level run that fits the budget begins its CONTACT phase from rest. -/
theorem State.levelRuns {planted : Bool} (found : s.entryOf .jacks = some e) (loaded : e ∈ s.load) (action : e.action = .level)
    (isPlanted : planted = true ↔ ∀ j ∈ s.configuredJacks, (s.jack j).contact = true)
    (rest : ∀ j ∈ s.configuredJacks, ∃ n, s.roleChan (.jack j) = some n ∧ (s.chan n).drive = .off ∧ s.startsAtOnce n .outward)
    (pump : s.roleChan .pump = some q) (off : (s.chan q).drive = .off) (restPump : s.startsAtOnce q .outward) :
    ∃ w, s.jackAdmit .level true = (w, []) ∧ LevelBegun s w true planted q := by
  obtain ⟨v, frame, jacks, received⟩ := State.levelReceived (s := s) true
  rw [if_pos rfl] at received
  obtain ⟨r, same, level, lowered, begun⟩ := v.contactBegin_eq
  have layout : v.layout = s.layout := by rw [frame]
  have configured : v.configuredJacks = s.configuredJacks := State.configuredJacks_congr layout
  have lowering : v.lowering = s.configuredJacks.filter fun j => !(s.jack j).contact := by
    unfold State.lowering
    rw [configured]
    refine List.filter_congr fun j mem => ?_
    rw [jacks, if_pos mem]
    simp [Jack.waiting]
  have record (j : JackId) : r.jack j = if j ∈ s.configuredJacks then
      (if !(s.jack j).contact then { s.jack j with atStroke := false, phase := .active, dir := .outward }
        else { s.jack j with atStroke := false, phase := .done }) else s.jack j := by
    rw [lowered, configured, jacks]
    by_cases mem : j ∈ s.configuredJacks
    · rw [if_pos mem, if_pos mem, if_pos mem, Jack.lowered_waiting]
    · rw [if_neg mem, if_neg mem, if_neg mem]
  have whole : r = { s with
      jacks := r.jacks, jackSet := { s.jackSet with levelMark := false, runTime := 0 }
      level := { s.level.admitted with phase := .contact } } := by
    rw [same, level, frame]
    rfl
  have layout' : r.layout = s.layout := by rw [whole]
  have roleChan (x : Role) : r.roleChan x = s.roleChan x := State.roleChan_layout layout' x
  have chan (i : Chan) : r.chan i = s.chan i := by rw [whole]; rfl
  have pace (i : Chan) : r.paceRec i = s.paceRec i := by rw [whole]; rfl
  have now : r.now = s.now := by rw [whole]
  have found' : r.entryOf .jacks = some e := by rw [whole]; exact found
  have among : r.jacksOf e.action = s.configuredJacks := by
    rw [action]
    exact State.configuredJacks_congr layout'
  by_cases none : v.lowering = []
  · have planted' : planted = true := isPlanted.mpr fun j mem => by
      rw [lowering, List.filter_eq_nil_iff] at none
      simpa using none j mem
    have offs (i : State) (same' : ∀ x, i.chan x = s.chan x) (layoutI : i.layout = s.layout) (foundI : i.entryOf .jacks = some e) :
        i.pumpFollow = i := by
      refine State.pumpFollow_rest foundI ((State.roleChan_layout layoutI _).trans pump) (fun j mem n valve => ?_)
        (by rw [same']; exact off)
      rw [action, State.jacksOf_congr layoutI] at mem
      rw [State.roleChan_layout layoutI] at valve
      obtain ⟨n', valve', off', -⟩ := rest j mem
      obtain rfl := Option.some.inj (valve.symm.trans valve')
      rw [same']
      exact off'
    have idle : r.pumpFollow = r := offs r chan layout' found'
    have settles : r.settleBegin = { r with level := { r.level with phase := .settle, phaseTime := 0 } } :=
      offs _ chan layout' found'
    have result : v.contactBegin = { r with level := { r.level with phase := .settle, phaseTime := 0 } } := by
      rw [begun, if_pos none, none]
      change r.pumpFollow.settleBegin = _
      rw [idle, settles]
    rw [result] at received
    have seen (j : JackId) (mem : j ∈ s.configuredJacks) : (s.jack j).contact = true := isPlanted.mp planted' j mem
    refine ⟨_, received, ?_, ?_, ?_, fun j => ?_, fun _ j mem bare => ?_, fun _ bare => ?_, fun x _ => ?_⟩
    · rw [whole]
    · rw [whole]
    · rw [whole, planted']
      rfl
    · exact record j
    · rw [seen j mem] at bare
      exact absurd bare (by simp)
    · rw [planted'] at bare
      exact absurd bare (by simp)
    · exact ⟨chan x, pace x⟩
  · have bare : planted = false := Bool.eq_false_iff.mpr fun yes => none (by
      rw [lowering, List.filter_eq_nil_iff]
      intro j mem
      rw [isPlanted.mp yes j mem]
      simp)
    rw [begun, if_neg none] at received
    have once {i : Chan} (atOnce : s.startsAtOnce i .outward) : r.startsAtOnce i .outward :=
      State.startsAtOnce_congr (chan i) layout' now atOnce
    have member (j : JackId) (mem : j ∈ v.lowering) : j ∈ s.configuredJacks ∧ (s.jack j).contact = false := by
      rw [lowering] at mem
      simpa using mem
    have starts := State.valvesBegun (s := r) (e := e) (l := v.lowering) (d := .outward) (q := q) found'
      (by rw [whole]; exact loaded) (State.configuredJacks_nodup.filter _) none
      (fun j mem => by rw [among]; exact (member j mem).1)
      (fun j mem => by
        obtain ⟨n, valve, -, atOnce⟩ := rest j (member j mem).1
        exact ⟨n, (roleChan _).trans valve, once atOnce⟩)
      ((roleChan _).trans pump) (once restPump)
    generalize (r.startValves v.lowering fun _ => .outward).pumpFollow = w at received starts
    have driven (j : JackId) (mem : j ∈ s.configuredJacks) (air : (s.jack j).contact = false) : j ∈ v.lowering := by
      rw [lowering]
      simpa using ⟨mem, air⟩
    refine ⟨w, received, ?_, ?_, ?_, fun j => ?_, fun _ j mem air n valve => ?_, fun _ _ => ?_, fun x away => ?_⟩
    · rw [starts.frame, whole]
    · rw [starts.mark, whole]
    · have kept : w.level = r.level := by rw [starts.frame]
      rw [kept, whole, bare]
      rfl
    · have kept : w.jack j = r.jack j := by rw [starts.frame]; rfl
      rw [kept]
      exact record j
    · exact (starts.valves j (driven j mem air) n ((roleChan _).trans valve)).congr (chan n) layout' now
    · exact starts.pump.congr (chan q) layout' now
    · obtain ⟨apart, foreign⟩ := away (by rw [bare]; rfl)
      obtain ⟨chan', pace'⟩ := starts.others x apart fun j mem => by
        rw [roleChan]
        exact foreign j (member j mem).1 (member j mem).2
      exact ⟨chan'.trans (chan x), pace'.trans (pace x)⟩

end

end Sys2Proof.Machine
end

section
/-! PROOFS. Motions that start from rest, all together (R8, R44, R50, R51, R68, R72, R83, R84, R97, R112). -/

namespace Sys2Proof.Machine

section
variable {s t u w v : State} {n i q : Chan} {d : Dir} {e x : Entry} {j : JackId} {p : Port} {fits planted : Bool}

/-- The channels that a level run starts from rest. -/
def State.levelMoved (s : State) (q : Chan) (fits planted : Bool) : List Chan :=
  if fits && !planted then
    q :: (s.configuredJacks.filter fun j => !(s.jack j).contact).filterMap fun j => s.roleChan (.jack j)
  else []

/-- A level run from rest, in the load list or WAITING in the pause list. -/
theorem autoLevel (awake : s.inReset = none) (room : s.hasRoom p) (idle : s.motions = []) (write : s.write = none)
    (parked : s.road = .parked) (free : s.claim .jacks = none) (some_jack : s.configuredJacks ≠ [])
    (pump : s.roleChan .pump = some q) (off : (s.chan q).drive = .off) (fresh : (s.chan q).lastStop = none)
    (seated : ∀ x ∈ s.groupChans .jacks, (s.chan x).census = .seated)
    (rest : ∀ j ∈ s.configuredJacks, ∃ n, s.roleChan (.jack j) = some n ∧ (s.chan n).drive = .off ∧ (s.chan n).lastStop = none)
    (sound : s.groupFaulted .jacks = false) (flatX : s.tilt.pitch.natAbs ≤ s.layout.level.steepLimit)
    (flatY : s.tilt.roll.natAbs ≤ s.layout.level.steepLimit) (isFits : fits = decide (s.motionUnits .jacks .level ≤ s.budget))
    (isPlanted : planted = true ↔ ∀ j ∈ s.configuredJacks, (s.jack j).contact = true)
    (entry : e = { group := .jacks, owner := .port p, mode := .auto, action := .level, units := s.motionUnits .jacks .level
                   order := s.nextOrder, state := if fits then .running else .waiting
                   pausedSince := if fits then none else some s.now }) :
    ∃ t u, exec (.auto p 5 3) s = .next t ∧ t = u.answered p .auto (.accepted false (!fits) false) ∧
      Placed s u (s.newClaim p .auto .level) e (s.levelMoved q fits planted) ∧
      u.level = { s.level.admitted with phase := if fits && planted then .settle else .contact } ∧
      u.jackSet = { s.jackSet with levelMark := false, runTime := 0 } ∧
      (∀ j ∈ s.configuredJacks, u.jack j =
          (if fits && !(s.jack j).contact then { s.jack j with atStroke := false, phase := .active, dir := .outward }
          else { s.jack j with atStroke := false, phase := .done }) ∧
        ∀ n, s.roleChan (.jack j) = some n → fits = true → (s.jack j).contact = false →
          DriveStarted s u n .outward none ∧ u.enOut n = true ∧ (u.chan n).ramped = 255) ∧
      (fits = true → planted = false → DriveStarted s u q .outward none ∧ u.enOut q = true) ∧
      ∀ j, j ∉ s.configuredJacks → u.jack j = s.jack j := by
  have isEntry : s.entryNow p .auto .jacks .level = e := by
    rw [entry, isFits]
    by_cases small : s.motionUnits .jacks .level ≤ s.budget <;> simp [State.entryNow, small]
  have group : e.group = .jacks := by rw [entry]
  have action : e.action = .level := by rw [entry]
  have inGroup (x : Chan) (r : Role) (role : s.roleChan r = some x) (own : r.group = some .jacks) : (s.chan x).census = .seated :=
    seated x (by simp [State.groupChans, allChans, State.role_of_roleChan role, own])
  obtain ⟨w, received, begun⟩ : ∃ w, (s.admitted (s.newClaim p .auto .level) e).jackAdmit .level fits = (w, []) ∧
      LevelBegun (s.admitted (s.newClaim p .auto .level) e) w fits planted q := by
    cases fits with
    | false => exact State.levelWaits
    | true =>
      have load : (s.admitted (s.newClaim p .auto .level) e).load = [e] := by simp [State.admitted, entry]
      refine State.levelRuns (e := e) (by simp [State.entryOf, load, group]) (by rw [load]; exact List.mem_singleton_self e) action
        isPlanted (fun j mem => ?_) pump off (State.startsAtOnce_rest (inGroup q _ pump rfl) off fresh)
      obtain ⟨n, valve, still, none⟩ := rest j mem
      exact ⟨n, valve, still, State.startsAtOnce_rest (inGroup n _ valve rfl) still none⟩
  have placed : (s.admitted (s.newClaim p .auto .level) (s.entryNow p .auto .jacks .level)).controllerAdmit .jacks .level
      (decide (s.motionUnits .jacks .level ≤ s.budget)) = (w, []) := by
    rw [isEntry, ← isFits]
    exact received
  have configured : s.actionConfigured .jacks .level = true :=
    decide_eq_true (show 0 < s.jackCount from List.length_pos_iff.mpr some_jack)
  have run := exec_admitted (c := .auto p 5 3) (m := .auto) awake room idle rfl free (State.firstChecks_none write parked configured)
    (State.verdict_none idle seated (.inl sound) rfl (State.permitCause_extend rfl) (fun _ => ⟨flatX, flatY⟩) nofun) placed
  rw [← isFits] at run
  have frame : w = { s.admitted (s.newClaim p .auto .level) e with
      channels := w.channels, pace := w.pace, jacks := w.jacks, jackSet := w.jackSet, level := w.level } := begun.frame
  obtain ⟨stands, after⟩ := jacksPlaced (moved := s.levelMoved q fits planted) frame group parked
    (by rw [action]; exact State.permitCause_extend rfl) (fun x away => begun.others x fun drives => by
      rw [State.levelMoved, if_pos drives] at away
      refine ⟨fun same => away (by rw [same]; exact List.mem_cons_self), fun j mem air valve => away (List.mem_cons_of_mem _ ?_)⟩
      exact List.mem_filterMap.mpr ⟨j, List.mem_filter.mpr ⟨mem, by rw [show (s.jack j).contact = false from air]; rfl⟩, valve⟩) rfl
  obtain ⟨chanSame, paceSame, -, jackSame, setSame, levelSame, -⟩ := State.butAlarm_parts after
  refine ⟨_, _, run, rfl, stands, levelSame.trans begun.level, setSame.trans begun.set, fun j mem => ⟨?_, fun n valve runs air => ?_⟩,
    fun runs bare => ?_, fun j away => ?_⟩
  · exact (jackSame j).trans ((begun.jacks j).trans (if_pos mem))
  · have started : DriveStarted s _ n .outward none :=
      ((begun.valves runs j mem air n valve).after (chanSame n) (paceSame n)).congr rfl rfl rfl
    exact ⟨started, started.driven, started.full valve⟩
  · have started : DriveStarted s _ q .outward none :=
      ((begun.pump runs bare).after (chanSame q) (paceSame q)).congr rfl rfl rfl
    exact ⟨started, started.driven⟩
  · exact (jackSame j).trans ((begun.jacks j).trans (if_neg away))

/-- The counts of a room whose lead stands at the rack limit or above. -/
theorem State.racked_iff {k : RoomId} {na nb : Chan} (a : TwoReady s k na nb) : s.racked (.room k) = true ↔
    ∃ x y, (s.rooms[k]).motorA.count = some x ∧ (s.rooms[k]).motorB.count = some y ∧
      (s.layout.rooms[k]).rackLimit ≤ max x y - min x y := by
  have counts : s.bothCounts (.room k) = match (s.rooms[k]).motorA.count, (s.rooms[k]).motorB.count with
      | some a, some b => some (a, b)
      | _, _ => none := if_pos a.two
  rw [State.racked, counts]
  cases (s.rooms[k]).motorA.count with
  | none => simp
  | some x =>
    cases (s.rooms[k]).motorB.count with
    | none => simp
    | some y =>
      refine decide_eq_true_iff.trans ⟨fun apart => ⟨x, y, rfl, rfl, apart⟩, ?_⟩
      rintro ⟨x', y', isX, isY, apart⟩
      obtain rfl := Option.some.inj isX
      obtain rfl := Option.some.inj isY
      exact apart

/-- A held motion of a two-motor room from rest. -/
theorem heldMotion_two {k : RoomId} {na nb : Chan} {b : Claim} (a : TwoReady s k na nb) (awake : s.inReset = none)
    (room : s.hasRoom p) (idle : s.motions = []) (write : s.write = none) (parked : s.road = .parked)
    (free : s.claim (.room k) = none) (chans : ∀ x, x ∈ s.groupChans (.room k) ↔ x = na ∨ x = nb)
    (out : d = .outward → (s.rooms[k]).fault = none ∧
      ∀ m, ∃ c, (s.motor (.room k) m).count = some c ∧ c < s.travelLimit (.room k))
    (away : d = .stowing → ∀ m, s.motorHome (.room k) m = false) (permitted : s.permitCause (.room k) (.toward d) = none)
    (fits : 6 ≤ s.budget) (claim : b = s.newClaim p .hold (.toward d))
    (entry : e = { group := .room k, owner := .port p, mode := .hold, action := .toward d, units := 6
                   order := s.nextOrder, state := .running, pausedSince := none }) :
    ∃ u, exec (.move p (byteOf (k.val + 1)) (byteOf d.code)) s = .next (u.answered p .move (.accepted false false false)) ∧
      (s.racked (.room k) = true → ∃ w, OneStarted s b e k d na nb w ∧
        u = drain workBound (w, [.endMotion (.room k) rackedEnding, .handover s.view])) ∧
      (s.racked (.room k) = false →
        u = drain workBound ((s.bothStarted b e k d na nb).retrim (.room k), [.handover s.view])) := by
  have group : e.group = .room k := by rw [entry]
  have action : e.action = .toward d := by rw [entry]
  have runs : e.state = .running := by rw [entry]
  have made {w : State} {l : List Task} :=
    heldRoom_exec (w := w) (l := l) a awake room idle write parked free chans out away permitted fits claim entry
  cases racked : s.racked (.room k) with
  | true =>
    exact ⟨_, made (a.racks (b := b) group action runs racked), fun _ => ⟨_, a.oneStarted, rfl⟩, nofun⟩
  | false =>
    refine ⟨_, made (a.starts (b := b) group action runs racked (fun outward m c count => ?_) away), nofun, fun _ => rfl⟩
    obtain ⟨c', count', short⟩ := (out outward).2 m
    obtain rfl := Option.some.inj (count.symm.trans count')
    exact short

end

/-- Settles O22: each motion is admitted by its group's controller, whose drive starts are all made at once. -/
theorem moveOutDrivesTheMotor : Obligations.MoveOutDrivesTheMotor := by
  unfold Obligations.MoveOutDrivesTheMotor
  intro s p awake room idle write parked
  refine ⟨fun id d n units sum free chan one group seated out away permitted fits off fresh => ?_,
    fun k d na nb b free chanA chanB chans rest out away permitted fits claim => ?_,
    fun a c q command free pump off fresh seated some_jack rest sound permitted fits => ?_,
    fun q fits planted free some_jack pump off fresh seated rest sound flatX flatY isFits isPlanted => ?_⟩
  · obtain ⟨t, u, run, answer, placed, started, enabled, lamp, record⟩ :=
      heldMotion_one awake room idle write parked sum free chan one group seated out away permitted fits off fresh rfl
    exact ⟨t, u, run, answer, placed, started, enabled, lamp, record.trans (by cases d <;> rfl)⟩
  · have ready : TwoReady s k na nb := ⟨chanA, chanB, rest⟩
    obtain ⟨u, run, ends, stands⟩ := heldMotion_two ready awake room idle write parked free chans out away permitted fits claim rfl
    refine ⟨_, u, run, rfl, fun x y countA countB apart => ?_, fun near => ?_⟩
    · obtain ⟨w, one, drained⟩ := ends ((State.racked_iff ready).mpr ⟨x, y, countA, countB, apart⟩)
      refine one.racked ready rfl rfl (by simp) (by rw [claim]) (fun m => ?_) drained
      cases m
      · exact ⟨x, countA⟩
      · exact ⟨y, countB⟩
    · have apart : s.racked (.room k) = false := Bool.eq_false_iff.mpr fun racked => by
        obtain ⟨x, y, countA, countB, limit⟩ := (State.racked_iff ready).mp racked
        exact absurd (near x y countA countB) (Nat.not_lt.mpr limit)
      obtain ⟨placed, startedA, startedB, enabledA, enabledB, record⟩ :=
        ready.stands rfl rfl rfl parked permitted (stands apart)
      exact ⟨placed, startedA, startedB, enabledA, enabledB, record.trans (by cases d <;> rfl)⟩
  · have readies (j : JackId) (mem : j ∈ s.jacksOf a) : JackReady s a j := by
      obtain ⟨-, contact, home, stroke⟩ := rest j mem
      exact ⟨contact, home, stroke⟩
    obtain ⟨t, u, run, answer, placed, jacks, started, enabled, set, level, others⟩ :=
      heldMotion_jacks awake room idle write parked command free pump off fresh seated some_jack (fun j mem => (rest j mem).1)
        readies sound permitted fits rfl
    refine ⟨t, u, run, answer, placed, fun j mem => ⟨(jacks j mem).1.trans ?_, (jacks j mem).2⟩, started, enabled, set, level, others⟩
    cases a.dir <;> rfl
  · obtain ⟨t, u, run, answer, placed, level, set, jacks, started, others⟩ :=
      autoLevel awake room idle write parked free some_jack pump off fresh seated rest sound flatX flatY isFits isPlanted rfl
    exact ⟨t, u, run, answer, placed, level, set, jacks, started, others⟩

end Sys2Proof.Machine
end

section
/-! PROOFS. What a controller's work for a motion does to the drives of the channels, to the rooms and the awning as they read,
and to the jacks that are on their way (R9, R14, R44, R72). -/

namespace Sys2Proof.Machine

section
variable {s t u w : State} {g h : Group} {id i : Slider} {m : Motor} {n q : Chan} {d : Dir} {j k : JackId}

/-- A channel is driven or waits out a reversal dwell (R14). -/
def Channel.busy (c : Channel) : Bool := c.driven || c.drive == .dwelling

theorem Channel.busy_iff {c : Channel} : c.busy = true ↔ c.driven = true ∨ c.drive = .dwelling := by
  simp [Channel.busy]

@[simp] theorem Channel.busy_stopped (c : Channel) (now : Time) : (c.stopped now).busy = false := by
  unfold Channel.stopped
  split <;> rename_i drive
  · rfl
  · rfl
  · unfold Channel.cancelled
    split
    · unfold Channel.busy Channel.driven
      dsimp only
      split <;> rfl
    · rfl
  · simp [Channel.busy, Channel.driven, drive]
  · simp [Channel.busy, Channel.driven, drive]

/-! ### Steering -/

/-- From one state to the other, with the layout, the load list and the census as they were: a channel is driven or dwells as it
was, or may be driven and is, in the direction named; a jack on its way goes on as it went, or in that direction; rooms and the
awning read as they did; and no level run has begun. -/
structure Steers (d : Dir) (s t : State) : Prop where
  layout : t.layout = s.layout
  load : t.load = s.load
  census : ∀ n, (t.chan n).census = (s.chan n).census
  busy : ∀ n, (t.chan n).busy = true →
    ((s.chan n).busy = true ∧ (t.chan n).dir = (s.chan n).dir) ∨
      (s.mayDrive n = true ∧ (s.role n ≠ .pump → (t.chan n).dir = d))
  ways : ∀ j, (t.jack j).phase = .active →
    ((s.jack j).phase = .active ∧ (t.jack j).dir = (s.jack j).dir) ∨ (t.jack j).dir = d
  state : ∀ id, (t.slider id).state = (s.slider id).state
  level : t.levelActive = true → s.levelActive = true

theorem State.role_layout (layout : t.layout = s.layout) (n : Chan) : t.role n = s.role n := by
  simp only [State.role, layout]

namespace Steers

theorem refl (d : Dir) (s : State) : Steers d s s :=
  ⟨rfl, rfl, fun _ => rfl, fun _ busy => .inl ⟨busy, rfl⟩, fun _ way => .inl ⟨way, rfl⟩, fun _ => rfl, id⟩

theorem trans (a : Steers d s t) (b : Steers d t u) : Steers d s u where
  layout := b.layout.trans a.layout
  load := b.load.trans a.load
  census n := (b.census n).trans (a.census n)
  busy n busy := by
    obtain ⟨before, same⟩ | ⟨may, aimed⟩ := b.busy n busy
    · obtain ⟨first, dir⟩ | ⟨may, aimed⟩ := a.busy n before
      · exact .inl ⟨first, same.trans dir⟩
      · exact .inr ⟨may, fun role => same.trans (aimed role)⟩
    · rw [State.mayDrive_congr a.layout a.load (a.census n)] at may
      rw [State.role_layout a.layout] at aimed
      exact .inr ⟨may, aimed⟩
  ways j way := by
    obtain ⟨before, same⟩ | aimed := b.ways j way
    · obtain ⟨first, dir⟩ | aimed := a.ways j before
      · exact .inl ⟨first, same.trans dir⟩
      · exact .inr (same.trans aimed)
    · exact .inr aimed
  state id := (b.state id).trans (a.state id)
  level on := a.level (b.level on)

theorem forEach {α : Type} {l : List α} {f : α → State → State} (step : ∀ a t, Steers d t (f a t)) (s : State) :
    Steers d s (forEach l f s) := by
  induction l generalizing s with
  | nil => exact .refl d s
  | cons a rest ih => exact (step a s).trans (ih (f a s))

/-- With the drives, the jacks and the readings of rooms and awning as they were nothing has been steered. -/
theorem of_same (layout : t.layout = s.layout) (load : t.load = s.load)
    (chans : ∀ n, (t.chan n).census = (s.chan n).census ∧ (t.chan n).drive = (s.chan n).drive ∧ (t.chan n).dir = (s.chan n).dir)
    (ways : ∀ j, (t.jack j).phase = .active → (s.jack j).phase = .active ∧ (t.jack j).dir = (s.jack j).dir)
    (state : ∀ id, (t.slider id).state = (s.slider id).state) (level : t.levelActive = true → s.levelActive = true) :
    Steers d s t where
  layout := layout
  load := load
  census n := (chans n).1
  busy n busy := by
    obtain ⟨-, drive, dir⟩ := chans n
    unfold Channel.busy Channel.driven at busy ⊢
    rw [drive] at busy
    exact .inl ⟨busy, dir⟩
  ways j way := .inl (ways j way)
  state := state
  level := level

/-! ### Channels -/

theorem setChan {r : Channel} (census : r.census = (s.chan n).census)
    (busy : r.busy = true → ((s.chan n).busy = true ∧ r.dir = (s.chan n).dir) ∨
      (s.mayDrive n = true ∧ (s.role n ≠ .pump → r.dir = d))) : Steers d s (s.setChan n r) where
  layout := rfl
  load := rfl
  census x := by
    rw [State.chan_setChan]
    split
    · rename_i same
      rw [← same, census]
    · rfl
  busy x on := by
    rw [State.chan_setChan] at on ⊢
    split at on
    · rename_i same
      subst same
      rw [if_pos rfl]
      exact busy on
    · rename_i other
      rw [if_neg other]
      exact .inl ⟨on, rfl⟩
  ways j way := .inl ⟨way, rfl⟩
  state id := by cases id <;> rfl
  level := id

theorem stopChan : Steers d s (s.stopChan n) := by
  rw [State.stopChan_eq]
  refine .setChan (Acts.census_of_reading ?_) fun on => ?_
  · unfold Channel.stopped
    split <;> simp
  · rw [Channel.busy_stopped] at on
    cases on

theorem setMotor {r : MotorRec} : Steers d s (s.setMotor id m r) :=
  .of_same (by simp) (by simp) (fun n => by rw [State.chan_setMotor]; exact ⟨rfl, rfl, rfl⟩)
    (fun j way => by rw [State.jack_setMotor] at way ⊢; exact ⟨way, rfl⟩)
    (fun i => by
      rw [State.slider_setMotor]
      split
      · rename_i same
        subst same
        cases m <;> rfl
      · rfl)
    (fun on => by simpa [State.levelActive] using on)

theorem setSlider {r : SliderRec} (state : r.state = (s.slider id).state) : Steers d s (s.setSlider id r) :=
  .of_same (by simp) (by simp) (fun n => by rw [State.chan_setSlider]; exact ⟨rfl, rfl, rfl⟩)
    (fun j way => by rw [State.jack_setSlider] at way ⊢; exact ⟨way, rfl⟩)
    (fun i => by
      rw [State.slider_setSlider]
      split
      · rename_i same
        subst same
        exact state
      · rfl)
    (fun on => by simpa [State.levelActive] using on)

theorem onJack {f : Jack → Jack} (way : (f (s.jack j)).phase = .active →
    ((s.jack j).phase = .active ∧ (f (s.jack j)).dir = (s.jack j).dir) ∨ (f (s.jack j)).dir = d) : Steers d s (s.onJack j f) where
  layout := rfl
  load := rfl
  census n := rfl
  busy n on := .inl ⟨on, rfl⟩
  ways k on := by
    rw [State.jack_onJack] at on ⊢
    split at on
    · rename_i same
      subst same
      rw [if_pos rfl]
      exact way on
    · rename_i other
      rw [if_neg other]
      exact .inl ⟨on, rfl⟩
  state id := by cases id <;> rfl
  level := id

/-- The jack set record and a level run's record may change, so long as no run begins. -/
theorem runs {x : JackSet} {l : LevelRun} (level : l.status = .active → s.level.status = .active) :
    Steers d s { s with jackSet := x, level := l } where
  layout := rfl
  load := rfl
  census n := rfl
  busy n on := .inl ⟨on, rfl⟩
  ways j on := .inl ⟨on, rfl⟩
  state id := by cases id <;> rfl
  level on := by
    unfold State.levelActive at on ⊢
    exact beq_iff_eq.mpr (level (beq_iff_eq.mp on))

theorem retrim : Steers d s (s.retrim id) := by
  have trims := State.retrim_retrimmed (s := s) (id := id)
  have chan (n : Chan) := trims.chan n
  have jacks : (s.retrim id).jacks = s.jacks := by rw [trims.frame]
  have level : (s.retrim id).level = s.level := by rw [trims.frame]
  refine .of_same (by rw [trims.frame]) (by rw [trims.frame]) (fun n => by rw [chan n]; exact ⟨rfl, rfl, rfl⟩) (fun j way => ?_)
    (fun i => by rw [trims.slider]) fun on => ?_
  · unfold State.jack at way ⊢
    rw [jacks] at way ⊢
    exact ⟨way, rfl⟩
  · unfold State.levelActive at on ⊢
    rwa [level] at on

theorem driveStart {e : Dir} (may : s.mayDrive n = true) (aimed : s.role n ≠ .pump → e = d) : Steers d s (s.driveStart n e) where
  layout := by
    unfold State.driveStart State.mirrorTally
    dsimp only
    split <;> split <;> simp
  load := by
    unfold State.driveStart State.mirrorTally
    dsimp only
    split <;> split <;> simp
  census i := by
    rw [State.chan_driveStart]
    split
    · rename_i same
      rw [← same]
      rfl
    · rfl
  busy i on := by
    rw [State.chan_driveStart] at on ⊢
    split at on
    · rename_i same
      subst same
      rw [if_pos rfl]
      exact .inr ⟨may, aimed⟩
    · rename_i other
      rw [if_neg other]
      exact .inl ⟨on, rfl⟩
  ways j way := by
    have same : (s.driveStart n e).jacks = s.jacks := by
      unfold State.driveStart State.mirrorTally
      dsimp only
      split <;> split <;> simp
    unfold State.jack at way ⊢
    rw [same] at way ⊢
    exact .inl ⟨way, rfl⟩
  state i := by
    have tally (v : State) (slider : ∀ i, v.slider i = s.slider i) (x : Slider) (y : Motor) (r : MotorRec) :
        ((v.setMotor x y r).slider i).state = (s.slider i).state := by
      rw [(setMotor (d := d) (s := v) (id := x) (m := y) (r := r)).state i, slider]
    unfold State.driveStart State.mirrorTally
    dsimp only
    split <;> split <;> first | exact tally _ (fun i => by cases i <;> rfl) _ _ _ | (cases i <;> rfl)
  level on := by
    have same : (s.driveStart n e).level = s.level := by
      unfold State.driveStart State.mirrorTally
      dsimp only
      split <;> split <;> simp
    unfold State.levelActive at on ⊢
    rwa [same] at on

theorem startChan {e : Dir} (aimed : s.role n ≠ .pump → e = d) : Steers d s (s.startChan n e).1 := by
  unfold State.startChan
  split
  · rename_i may
    have held (v : State) (a : Steers d s v) : Steers d v (v.startHeld n e).1 := by
      have may : v.mayDrive n = true := (State.mayDrive_congr a.layout a.load (a.census n)).trans may
      have aimed : v.role n ≠ .pump → e = d := by
        rw [State.role_layout a.layout]
        exact aimed
      unfold State.startHeld
      split
      · exact .setChan rfl fun _ => .inr ⟨may, aimed⟩
      · exact .driveStart may aimed
    split
    · exact held s (.refl d s)
    · exact held s (.refl d s)
    · split
      · exact .refl d s
      · exact stopChan.trans (held _ stopChan)
    · split
      · exact .refl d s
      · exact stopChan.trans (held _ stopChan)
    · split
      · exact .refl d s
      · exact .driveStart may aimed
  · exact .refl d s

/-! ### Rooms and the awning -/

theorem stopMotor : Steers d s (s.stopMotor id m) := by
  unfold State.stopMotor
  split
  · exact .stopChan
  · exact .refl d s

theorem zeroMotor : Steers d s (s.zeroMotor id m) := by
  unfold State.zeroMotor
  split
  · exact .setMotor
  · exact .refl d s

theorem seatDone : Steers d s (s.seatDone id m).1 := stopMotor.trans (setMotor.trans .retrim)

theorem beginSeat : Steers d s (s.beginSeat id m).1 := by
  unfold State.beginSeat
  dsimp only
  split
  · exact setMotor.trans seatDone
  · exact setMotor.trans .retrim

theorem rackCheck {v : Work} (b : Steers d s v.1) : Steers d s (s.rackCheck id v).1 := by
  unfold State.rackCheck
  split
  · exact .refl d s
  · exact b

theorem motorStarted : Steers d s (s.motorStarted id m).1 := by
  unfold State.motorStarted
  split
  · exact .refl d s
  · refine .rackCheck ?_
    split
    · split <;> exact .refl d s
    · split
      · exact zeroMotor.trans (rackCheck beginSeat)
      · exact .refl d s

theorem startMotor : Steers d s (s.startMotor id m d).1 := by
  unfold State.startMotor
  split
  · dsimp only
    split
    · exact (startChan fun _ => rfl).trans motorStarted
    · exact startChan fun _ => rfl
  · exact .refl d s

theorem startMotors : Steers d s (s.startMotors id d).1 := by
  have each (l : List Motor) (w : Work) : Steers d w.1 (l.foldl (fun (w : Work) m =>
      if w.2.isEmpty && (w.1.motor id m).phase == .travel then w.1.startMotor id m d else w) w).1 := by
    induction l generalizing w with
    | nil => exact .refl d w.1
    | cons m rest ih =>
      refine Steers.trans ?_ (ih _)
      dsimp only
      split
      · exact .startMotor
      · exact .refl d _
  exact (each (s.motors id) (s, [])).trans .retrim

theorem setPhases {f : Motor → MotorPhase} : Steers d s (s.setPhases id f) := forEach (fun _ _ => setMotor) s

theorem zeroFinished {e : Dir} : Steers d s (s.zeroFinished id e) := by
  cases e
  · exact .refl d s
  · exact forEach (fun _ _ => zeroMotor) s

theorem slideResume (dir : ∀ e ∈ s.slideDir id, e = d) : Steers d s (s.slideResume id).1 := by
  unfold State.slideResume
  cases found : s.slideDir id with
  | none => exact .refl d s
  | some e =>
    obtain rfl := dir e found
    exact .startMotors

theorem slideShed : Steers d s (s.slideShed id) := by
  refine forEach (fun m t => ?_) s
  split
  · exact .setMotor
  · exact .refl d t

end Steers

end

end Sys2Proof.Machine
end

section
/-! PROOFS. What the jack controller's work does to the drives of its channels and to the jacks that are on their way (R68, R72,
R74, R84, R87). -/

namespace Sys2Proof.Machine

section
variable {s t u w : State} {n q : Chan} {d : Dir} {j k : JackId} {l : List JackId} {a : Action}

/-- Every jack of a list that is on its way goes in a direction. -/
def State.headed (s : State) (l : List JackId) (d : Dir) : Prop :=
  ∀ j ∈ l, (s.jack j).phase = .active → (s.jack j).dir = d

theorem State.headed.steers (a : s.headed l d) (b : Steers d s t) : t.headed l d := fun j mem way => by
  obtain ⟨before, same⟩ | aimed := b.ways j way
  · exact same.trans (a j mem before)
  · exact aimed

/-- Steps that each leave their own jack at rest or going in a direction leave all of a list headed there. -/
theorem State.headed.forEach {f : JackId → State → State} (steers : ∀ j t, Steers d t (f j t))
    (aimed : ∀ (j : JackId) (t : State), ((f j t).jack j).phase = .active → ((f j t).jack j).dir = d) (l : List JackId) (s : State) :
    (forEach l f s).headed l d := by
  induction l generalizing s with
  | nil => exact fun j mem => absurd mem (by simp)
  | cons i rest ih =>
    intro j mem
    obtain rfl | mem := List.mem_cons.mp mem
    · exact State.headed.steers (s := f j s) (l := [j])
        (fun k one => by rw [List.mem_singleton.mp one]; exact aimed j s) (.forEach steers (f j s)) j List.mem_cons_self
    · exact ih (f i s) j mem

namespace Steers

/-! ### Valves and pump -/

theorem stopValve : Steers d s (s.stopValve j) := by
  unfold State.stopValve
  split
  · exact .stopChan
  · exact .refl d s

theorem startValve : Steers d s (s.startValve j d) := by
  unfold State.startValve
  split
  · exact .startChan fun _ => rfl
  · exact .refl d s

theorem pumpFollow : Steers d s s.pumpFollow := by
  unfold State.pumpFollow
  split
  · rename_i pump
    split
    · split
      · exact .refl d s
      · exact .startChan fun other => absurd (State.role_of_roleChan pump) other
    · exact .stopChan
  · exact .refl d s

theorem onJack_same {f : Jack → Jack} (phase : (f (s.jack j)).phase = (s.jack j).phase) (dir : (f (s.jack j)).dir = (s.jack j).dir) :
    Steers d s (s.onJack j f) :=
  .onJack fun way => .inl ⟨phase ▸ way, dir⟩

theorem onJack_rests {f : Jack → Jack} (phase : (f (s.jack j)).phase ≠ .active) : Steers d s (s.onJack j f) :=
  .onJack fun way => absurd way phase

theorem onJack_aimed {f : Jack → Jack} (dir : (f (s.jack j)).dir = d) : Steers d s (s.onJack j f) :=
  .onJack fun _ => .inr dir

theorem jackDone : Steers d s (s.jackDone j) := stopValve.trans (.onJack_rests (by simp))

theorem jackAtStroke : Steers d s (s.jackAtStroke j) := by
  unfold State.jackAtStroke
  dsimp only
  split
  · exact jackDone.trans ((onJack_same rfl rfl).trans (runs (x := _) id))
  · exact jackDone.trans (onJack_same rfl rfl)

theorem startActive (headed : s.headed l d) : Steers d s (s.startActive l) := by
  unfold State.startActive
  induction l generalizing s with
  | nil => exact .refl d s
  | cons j rest ih =>
    have first : Steers d s (if (s.jack j).phase = .active then s.startValve j (s.jack j).dir else s) := by
      split
      · rename_i way
        rw [headed j List.mem_cons_self way]
        exact .startValve
      · exact .refl d s
    exact first.trans (ih ((show s.headed rest d from fun j mem => headed j (List.mem_cons_of_mem _ mem)).steers first))

/-! ### Phases of a level run -/

theorem settleBegin : Steers d s s.settleBegin :=
  (runs (x := s.jackSet) (l := { s.level with phase := .settle, phaseTime := 0 }) id).trans
    (pumpFollow (s := { s with level := { s.level with phase := .settle, phaseTime := 0 } }))

theorem liftComplete : Steers d s s.liftComplete :=
  (runs (x := s.jackSet) (l := { s.level with pass := s.level.pass + 1 }) id).trans
    (settleBegin (s := { s with level := { s.level with pass := s.level.pass + 1 } }))

theorem onJack_sent {f : Jack → Jack} (sent : ∀ r, (f r).phase = .active → (f r).dir = d) :
    Steers d s (s.onJack j f) ∧ (((s.onJack j f).jack j).phase = .active → ((s.onJack j f).jack j).dir = d) := by
  refine ⟨.onJack fun way => .inr (sent _ way), ?_⟩
  rw [State.jack_onJack, if_pos rfl]
  exact sent _

/-- The jacks of a list are set on their way or at rest, and the valves of those on their way started. -/
theorem sentOff {f : JackId → State → State} (steers : ∀ j t, Steers d t (f j t))
    (sent : ∀ (j : JackId) (t : State), ((f j t).jack j).phase = .active → ((f j t).jack j).dir = d) :
    Steers d s ((Machine.forEach l f s).startActive l).pumpFollow :=
  (forEach steers s).trans ((startActive (.forEach steers sent l s)).trans .pumpFollow)

theorem contactBegin : Steers .outward s s.contactBegin := by
  have step (r : Jack) : (if (r.contact || r.atStroke) = true then { r with phase := .done }
      else { r with phase := .active, dir := .outward } : Jack).phase = .active →
      (if (r.contact || r.atStroke) = true then { r with phase := .done }
        else { r with phase := .active, dir := .outward } : Jack).dir = .outward := by
    split
    · exact nofun
    · exact fun _ => rfl
  have begun := (runs (d := .outward) (x := s.jackSet) (l := { s.level with phase := .contact, phaseTime := 0 }) id).trans
    (sentOff (l := s.configuredJacks) (fun j t => (onJack_sent (s := t) (j := j) step).1)
      fun j t => (onJack_sent (d := .outward) (s := t) (j := j) step).2)
  unfold State.contactBegin
  dsimp only
  split
  · exact begun
  · exact begun.trans .settleBegin

theorem liftBegin : Steers .outward s s.liftBegin :=
  (runs (x := s.jackSet) (l := { s.level with phase := .lift, phaseTime := 0, progress := Vector.replicate 6 0 }) id).trans
    (sentOff (l := s.selectedJacks)
      (fun j t => (onJack_sent (s := t) (j := j) (f := fun r => { r with phase := .active, dir := .outward }) fun _ _ => rfl).1)
      fun j t => (onJack_sent (d := .outward) (s := t) (j := j) (f := fun r => { r with phase := .active, dir := .outward })
        fun _ _ => rfl).2)

theorem jackCheck : Steers d s s.jackCheck.1 := by
  unfold State.jackCheck
  split
  · exact .refl d s
  · split
    · exact .refl d s
    · split
      · split
        · split
          · exact .settleBegin
          · exact .liftComplete
          · exact .refl d s
        · exact .refl d s
      · exact .refl d s

theorem jackSettled : Steers d s s.jackSettled.1 := pumpFollow.trans .jackCheck

/-! ### Motions -/

theorem jackActivate : Steers d s (s.jackActivate j d) := by
  cases d
  · exact .onJack_aimed rfl
  · exact .onJack_aimed rfl

theorem doneAtOnce : Steers d s (s.doneAtOnce a j) := by
  unfold State.doneAtOnce
  dsimp only
  split
  · split
    · exact .onJack_rests (by simp)
    · exact .refl d s
  · split
    · exact .onJack_rests (by simp)
    · exact .refl d s
  · split
    · exact .onJack_rests (by simp)
    · exact .refl d s
  · split
    · exact .onJack_rests (by simp)
    · exact .refl d s
  · exact .refl d s

theorem activated : Steers d s ((s.jackActivate j d).doneAtOnce a j) := jackActivate.trans .doneAtOnce

theorem dir_activated : (((s.jackActivate j d).doneAtOnce a j).jack j).phase = .active →
    (((s.jackActivate j d).doneAtOnce a j).jack j).dir = d := by
  have sent : ((s.jackActivate j d).jack j).dir = d := by
    unfold State.jackActivate
    rw [State.jack_onJack, if_pos rfl]
    cases d <;> rfl
  generalize s.jackActivate j d = v at sent
  intro way
  obtain ⟨-, same⟩ | aimed := (doneAtOnce (d := d) (s := v) (a := a) (j := j)).ways j way
  · exact same.trans sent
  · exact aimed

/-- A jack motion other than a level run is received. -/
theorem jackAdmit {run : Bool} (other : a ≠ .level) (dir : a.dir = d) : Steers d s (s.jackAdmit a run).1 := by
  subst dir
  have first : Steers a.dir s { s with jackSet := { s.jackSet with runTime := 0 } } := runs (l := s.level) id
  unfold State.jackAdmit
  dsimp only
  split
  · exact absurd rfl other
  · have moves := forEach (d := a.dir) (fun j t => activated (s := t) (j := j) (a := a))
      { s with jackSet := { s.jackSet with runTime := 0 } }
      (l := ({ s with jackSet := { s.jackSet with runTime := 0 } } : State).jacksOf a)
    split
    · split
      · exact first.trans (sentOff (fun j t => activated (s := t) (j := j)) fun j t => dir_activated)
      · exact first.trans moves
    · exact first.trans (moves.trans .jackCheck)

theorem jackChange {run : Bool} : Steers d s (s.jackChange j k d run).1 := by
  unfold State.jackChange
  dsimp only
  have idle : Steers d s ((s.stopValve j).onJack j fun r => { r with phase := .idle }) :=
    stopValve.trans (.onJack_rests (by simp))
  generalize (s.stopValve j).onJack j (fun r => { r with phase := .idle }) = v at idle
  have timed : Steers d v { v with jackSet := { v.jackSet with runTime := 0 } } := runs (l := v.level) id
  have sent := activated (d := d) (s := { v with jackSet := { v.jackSet with runTime := 0 } }) (j := k) (a := .jack k d)
  split
  · refine idle.trans (timed.trans (sent.trans (Steers.trans (startActive fun i one => ?_) .jackSettled)))
    rw [List.mem_singleton.mp one]
    exact dir_activated
  · exact idle.trans (timed.trans (sent.trans .jackSettled))

theorem jackResume {first : Bool} (dir : ∀ e ∈ s.jackMotion, e.action.dir = d ∧ s.headed (s.jacksOf e.action) d) :
    Steers d s (s.jackResume first).1 := by
  unfold State.jackResume
  split
  · exact .refl d s
  · rename_i e found
    obtain ⟨dir, headed⟩ := dir e found
    split
    · rename_i level
      rw [level] at dir headed
      obtain rfl : d = .outward := dir.symm
      split
      · exact .contactBegin
      · split
        · exact runs (x := s.jackSet) (l := { s.level with phaseTime := 0 }) id
        · rw [level]
          exact (startActive headed).trans .jackSettled
    · exact (startActive headed).trans .jackSettled

/-! ### Events at a jack -/

theorem contactGained : Steers d s (s.contactGained j).1 := by
  unfold State.contactGained
  dsimp only
  split
  · exact (onJack_same rfl rfl).trans (jackDone.trans .jackSettled)
  · dsimp only
    exact onJack_same rfl rfl

theorem raise (c : Notice) : Steers d s (s.raise c) :=
  .of_same rfl rfl (fun _ => ⟨rfl, rfl, rfl⟩) (fun _ way => ⟨way, rfl⟩) (fun id => by cases id <;> rfl) id

theorem liftOff : Steers d s (s.liftOff j) := by
  unfold State.liftOff
  dsimp only
  refine (onJack_same (j := j) (f := fun r => { r with liftOff := true }) rfl rfl).trans ?_
  exact (runs (x := _) (l := (s.onJack j fun r => { r with liftOff := true }).level) id).trans (.raise .level)

/-- A jack that seeks the ground is driven down to it (R74, R84). -/
theorem contactLost (dir : s.seeksContact = true → d = .outward) : Steers d s (s.contactLost j).1 := by
  unfold State.contactLost
  dsimp only
  have off : Steers d s (s.onJack j fun r => { r with contact := false, lossRun := 0 }) := onJack_same rfl rfl
  split
  · have lifted := off.trans (liftOff (j := j))
    split
    · rename_i again
      obtain rfl : d = .outward := dir (by
        have seeks := again.2.2
        unfold State.seeksContact State.jackMotion State.entryOf at seeks ⊢
        exact seeks)
      have sent := lifted.trans (onJack_aimed (j := j) (f := fun r => { r with phase := .active, dir := .outward }) rfl)
      split
      · exact sent.trans (startValve.trans .pumpFollow)
      · exact sent.trans .pumpFollow
    · exact lifted
  · exact off

theorem pressureSample {v : Nat} (dir : s.seeksContact = true → d = .outward) : Steers d s (s.pressureSample j v).1 := by
  unfold State.pressureSample
  dsimp only
  have read : Steers d s (s.onJack j fun r => { r with pressure := v }) := onJack_same rfl rfl
  split
  · split
    · split
      · exact read.trans (contactLost dir)
      · refine read.trans ?_
        dsimp only
        exact onJack_same rfl rfl
    · refine read.trans ?_
      dsimp only
      exact onJack_same rfl rfl
  · split
    · exact read.trans .contactGained
    · exact read

theorem jackStep {e : Dir} {driven : Bool} : Steers d s (s.jackStep j e driven).1 := by
  obtain ⟨p, fed⟩ : ∃ p : Vector Nat 6, ∀ i : JackId, p[i] = if s.feedsProgress j e = true ∧ i = j then
      min 65535 (s.level.progress[i] + 1) else s.level.progress[i] := ⟨Vector.ofFn _, ofFn_getElem _⟩
  obtain ⟨stroke, target, on⟩ := State.jackStep_eq (driven := driven) fed
  have counted : Steers d s (s.jackCounted j e p) :=
    (onJack_same (s := s) (j := j) (f := fun _ => s.steppedJack j e) rfl rfl).trans (runs (x := s.jackSet) id)
  by_cases ends : s.stepsToStroke j e driven
  · rw [stroke ends]
    exact counted.trans (jackAtStroke.trans .jackSettled)
  by_cases meets : s.stepsToTarget j e p
  · rw [target ends meets]
    exact counted.trans (jackDone.trans .jackSettled)
  · rw [on ends meets]
    exact counted

theorem jackStall : Steers d s (s.jackStall j).1 := by
  unfold State.jackStall
  split
  · split
    · exact jackAtStroke.trans .jackSettled
    · exact .refl d s
  · exact .refl d s

theorem jackHomeClosed : Steers d s (s.jackHomeClosed j).1 := by
  unfold State.jackHomeClosed
  dsimp only
  have home : Steers d s (s.onJack j fun r => { r with count := some 0, atStroke := false, liftOff := false }) :=
    onJack_same rfl rfl
  split
  · exact home.trans (jackDone.trans .jackSettled)
  · exact home

theorem settleDecide : Steers .outward s s.settleDecide.1 := by
  unfold State.settleDecide
  dsimp only
  have level {l : LevelRun} (same : l.status = s.level.status) : Steers .outward s { s with level := l } :=
    runs (x := s.jackSet) fun on => same ▸ on
  split
  · split
    · exact level rfl
    · exact (level (l := { s.level with
        pitch := s.tilt.pitch, roll := s.tilt.roll, returns := s.level.returns + 1 }) rfl).trans .contactBegin
  · split
    · exact level rfl
    · split
      · exact level rfl
      · split
        · exact level rfl
        · split
          · exact level rfl
          · refine Steers.trans (t := ({ s with level := { s.level with pitch := s.tilt.pitch, roll := s.tilt.roll } } :
              State).solveLifts) (level rfl) .liftBegin

end Steers

end

end Sys2Proof.Machine
end

section
/-! PROOFS. What a group's controller changes of the device while it works for a motion of its group, and how far apart the
motors of a driven room may come by it (R50). -/

namespace Sys2Proof.Machine

section
variable {s t u w : State} {g h : Group} {id i : Slider} {m y : Motor} {n q : Chan} {d : Dir} {j k : JackId} {v : Work}

/-! ### The rack limit -/

/-- While a motor of the slider is driven, its counts stand less than the rack limit apart (R50). -/
def State.rackFine (s : State) (id : Slider) : Prop := s.anyMotorDriven id = true → s.racked id = false

theorem State.anyMotorDriven_iff : s.anyMotorDriven id = true ↔
    ∃ m ∈ s.motors id, ∃ n, s.motorChan id m = some n ∧ (s.chan n).driven = true := by
  unfold State.anyMotorDriven State.motorDriven
  rw [List.any_eq_true]
  refine exists_congr fun m => and_congr_right fun _ => ?_
  cases s.motorChan id m <;> simp

theorem State.rackFine.of (fine : s.rackFine id) (layout : t.layout = s.layout)
    (counts : ∀ m, (t.motor id m).count = (s.motor id m).count)
    (driven : ∀ m n, s.motorChan id m = some n → (t.chan n).driven = true → (s.chan n).driven = true) : t.rackFine id := by
  intro any
  obtain ⟨m, mem, n, own, on⟩ := State.anyMotorDriven_iff.mp any
  rw [State.motors_layout layout] at mem
  rw [State.motorChan_layout layout] at own
  rw [State.racked_congr layout counts]
  exact fine (State.anyMotorDriven_iff.mpr ⟨m, mem, n, own, driven m n own on⟩)

/-- With no motor of a slider driven there is nothing to check. -/
theorem State.rackFine.at_rest (rest : ∀ m n, s.motorChan id m = some n → (s.chan n).driven = false) : s.rackFine id := by
  intro any
  obtain ⟨m, -, n, own, on⟩ := State.anyMotorDriven_iff.mp any
  rw [rest m n own] at on
  cases on

/-- From one state to the other the counts of a slider stand, and no channel is driven that was not. -/
structure Eases (id : Slider) (s t : State) : Prop where
  layout : t.layout = s.layout
  counts : ∀ m, (t.motor id m).count = (s.motor id m).count
  driven : ∀ n, (t.chan n).driven = true → (s.chan n).driven = true

namespace Eases

theorem refl (id : Slider) (s : State) : Eases id s s := ⟨rfl, fun _ => rfl, fun _ on => on⟩

theorem trans (a : Eases id s t) (b : Eases id t u) : Eases id s u :=
  ⟨b.layout.trans a.layout, fun m => (b.counts m).trans (a.counts m), fun n on => a.driven n (b.driven n on)⟩

theorem fine (a : Eases id s t) (fine : s.rackFine id) : t.rackFine id := fine.of a.layout a.counts fun _ n _ => a.driven n

theorem racked (a : Eases id s t) : t.racked id = s.racked id := State.racked_congr a.layout a.counts

theorem setMotor {r : MotorRec} (count : r.count = (s.motor id m).count) : Eases id s (s.setMotor id m r) where
  layout := by simp
  counts y := by
    rw [State.motor_setMotor]
    split
    · rename_i same
      rw [← same.2, count]
    · rfl
  driven n on := by rwa [State.chan_setMotor] at on

theorem stopChan : Eases id s (s.stopChan n) where
  layout := (Steers.stopChan (d := .outward)).layout
  counts m := by rw [State.stopChan_eq]; cases id <;> rfl
  driven i on := by
    rw [State.stopChan_eq, State.chan_setChan] at on
    split at on
    · simp at on
    · exact on

theorem stopMotor : Eases id s (s.stopMotor i m) := by
  unfold State.stopMotor
  split
  · exact .stopChan
  · exact .refl id s

theorem retrim : Eases id s (s.retrim i) := by
  have trims := State.retrim_retrimmed (s := s) (id := i)
  exact ⟨by rw [trims.frame], fun m => by unfold State.motor; rw [trims.slider], fun n on => by rwa [trims.driven] at on⟩

theorem seatDone : Eases id s (s.seatDone id m).1 := by
  have stopped : Eases id s (s.stopMotor id m) := stopMotor
  unfold State.seatDone
  dsimp only
  generalize s.stopMotor id m = x at stopped ⊢
  have set : Eases id x (x.setMotor id m { x.motor id m with phase := .finished, seatDeadline := none }) := setMotor rfl
  exact stopped.trans (set.trans retrim)

theorem beginSeat : Eases id s (s.beginSeat id m).1 := by
  unfold State.beginSeat
  dsimp only
  generalize s.now + paceTicks (s.seatTicks id m) = due
  have set : Eases id s (s.setMotor id m { s.motor id m with phase := .seat, seatDeadline := some due }) := setMotor rfl
  split
  · exact set.trans seatDone
  · exact set.trans retrim

/-- A start request that makes no drive start. -/
theorem startChan (none : (s.startChan n d).2 = false) : Eases id s (s.startChan n d).1 := by
  have held (v : State) (none : (v.startHeld n d).2 = false) : Eases id v (v.startHeld n d).1 := by
    unfold State.startHeld at none ⊢
    split at none
    · rename_i holds
      rw [if_pos holds]
      refine ⟨rfl, fun m => by cases id <;> rfl, fun i on => ?_⟩
      rw [State.chan_setChan] at on
      split at on
      · cases on
      · exact on
    · cases none
  unfold State.startChan at none ⊢
  split
  · rename_i may
    rw [if_pos may] at none
    split <;> rename_i drive <;> rw [drive] at none <;> dsimp only at none
    · exact held s none
    · exact held s none
    · split
      · exact .refl id s
      · rename_i turned
        rw [if_neg turned] at none
        exact stopChan.trans (held _ none)
    · split
      · exact .refl id s
      · rename_i turned
        rw [if_neg turned] at none
        exact stopChan.trans (held _ none)
    · split
      · exact .refl id s
      · rename_i turned
        rw [if_neg turned] at none
        cases none
  · exact .refl id s

end Eases

/-- The work leaves the counts of a driven slider less than the rack limit apart, or leaves an ending to do. -/
def Checked (id : Slider) (v : Work) : Prop := v.1.rackFine id ∨ v.2 ≠ []

theorem slideFault_ne_nil {f : FaultCode} : slideFault id f ≠ [] := by simp [slideFault]

theorem Checked.rackCheck (free : s.racked id = false → Checked id v) : Checked id (s.rackCheck id v) := by
  unfold State.rackCheck
  split
  · exact .inr slideFault_ne_nil
  · rename_i apart
    exact free (by simpa using apart)

theorem Checked.of_eases (apart : s.racked id = false) (a : Eases id s v.1) : Checked id v :=
  .inl fun _ => a.racked.trans apart

theorem State.motorStarted_checked (moves : s.slideDir id ≠ none) : Checked id (s.motorStarted id m) := by
  unfold State.motorStarted
  cases dir : s.slideDir id with
  | none => exact absurd dir moves
  | some d =>
    refine .rackCheck fun apart => ?_
    cases d with
    | outward =>
      dsimp only
      split <;> exact .of_eases apart (.refl id s)
    | stowing =>
      dsimp only
      split
      · exact .rackCheck fun apart => .of_eases apart .beginSeat
      · exact .of_eases apart (.refl id s)

theorem State.slideDir_congr (load : t.load = s.load) (paused : t.paused = s.paused) (id : Slider) : t.slideDir id = s.slideDir id := by
  simp only [State.slideDir, State.entryOf, load, paused]

theorem State.slideDir_outer (outer : t.outer = s.outer) (id : Slider) : t.slideDir id = s.slideDir id :=
  State.slideDir_congr (by have e := congrArg State.load outer; exact e) (by have e := congrArg State.paused outer; exact e) id

theorem State.startMotor_checked (moves : s.slideDir id ≠ none) (fine : s.rackFine id) : Checked id (s.startMotor id m d) := by
  unfold State.startMotor
  split
  · rename_i n own
    dsimp only
    split
    · refine State.motorStarted_checked ?_
      rwa [State.slideDir_outer (State.startChan_controls (State.group_motorChan own)).outer]
    · rename_i none
      exact .inl ((Eases.startChan (by simpa using none)).fine fine)
  · exact .inl fine

theorem State.startMotors_checked (moves : s.slideDir id ≠ none) (fine : s.rackFine id) : Checked id (s.startMotors id d) := by
  have each (l : List Motor) (w : Work) (moves : w.1.slideDir id ≠ none) (before : Checked id w) :
      Checked id (l.foldl (fun (w : Work) m =>
        if w.2.isEmpty && (w.1.motor id m).phase == .travel then w.1.startMotor id m d else w) w) := by
    induction l generalizing w with
    | nil => exact before
    | cons m rest ih =>
      rw [List.foldl_cons]
      split
      · rename_i starts
        obtain fine | ends := before
        · refine ih _ ?_ (State.startMotor_checked moves fine)
          rwa [State.slideDir_outer State.startMotor_controls.outer]
        · simp [List.isEmpty_iff, ends] at starts
      · exact ih w moves before
  obtain fine | ends := each (s.motors id) (s, []) moves (.inl fine)
  · exact .inl (Eases.retrim.fine fine)
  · exact .inr ends

theorem State.slideResume_checked (fine : s.rackFine id) : Checked id (s.slideResume id) := by
  unfold State.slideResume
  split
  · rename_i dir
    exact State.startMotors_checked (by rw [dir]; simp) fine
  · exact .inl fine

end

end Sys2Proof.Machine
end

section
/-! PROOFS. That the drives stay with the motions they belong to while a group's controller works (R9, R14, R72, R83). -/

namespace Sys2Proof.Machine

section
variable {s t u w : State} {g h : Group} {id i : Slider} {m y : Motor} {n q : Chan} {d : Dir} {j k : JackId} {e x : Entry}

/-! ### The channels of a motion -/

theorem State.motionChans_layout (layout : t.layout = s.layout) (e : Entry) : t.motionChans e = s.motionChans e := by
  simp [State.motionChans, State.groupChans, State.role, layout]

theorem State.motionChans_motion (e : Entry) : s.motionChans e.motion = s.motionChans e := rfl

/-- A channel of a motion belongs to the group of the motion. -/
theorem State.group_of_motionChans (fits : Safety.actionFits e.group e.action = true) (mem : n ∈ s.motionChans e) :
    (s.role n).group = some e.group := by
  unfold State.motionChans at mem
  split at mem
  · rename_i j d action
    rw [action] at fits
    have group : e.group = .jacks := by simpa [Safety.actionFits] using fits
    rw [group]
    have roles := (List.mem_filter.mp mem).2
    simp only [Bool.or_eq_true, beq_iff_eq] at roles
    obtain role | role := roles <;> rw [role] <;> rfl
  · unfold State.groupChans at mem
    simpa using (List.mem_filter.mp mem).2

theorem State.mayDrive_iff : s.mayDrive n = true ↔ (s.chan n).census = .seated ∧ ∃ e ∈ s.load, n ∈ s.motionChans e := by
  unfold State.mayDrive
  simp [List.any_eq_true]

theorem State.mem_motions_load (mem : e ∈ s.load) : e.motion ∈ s.motions :=
  mem_motions.mpr ⟨e, List.mem_append_left _ mem, rfl⟩

theorem State.motions_congr (load : t.load = s.load) (paused : t.paused = s.paused) : t.motions = s.motions := by
  simp only [State.motions, load, paused]

theorem State.jacksOf_layout (layout : t.layout = s.layout) (a : Action) : t.jacksOf a = s.jacksOf a := by
  simp only [State.jacksOf, State.configuredJacks_layout layout]

/-! ### Drives and motions -/

/-- The channels as far as the motions tell: no two have one role, no two motions are of one group, each makes an action of its
group, and a channel is driven or dwells only while it is SEATED, for a motion of the load list that it belongs to, in that
motion's direction (R9, R14, R180). -/
structure Seats (s : State) : Prop where
  roles : ∀ i n : Chan, i ≠ n → s.role i = s.role n → s.role i = .none
  once : (s.motions.map Entry.group).Nodup
  fits : ∀ e ∈ s.motions, Safety.actionFits e.group e.action = true
  drives : ∀ n, (s.chan n).busy = true →
    (s.chan n).census = .seated ∧
      ∃ e ∈ s.load, n ∈ s.motionChans e ∧ (s.role n ≠ .pump → (s.chan n).dir = e.action.dir)

/-- The jacks on their way go the way of their motion, and a level run has its motion (R72, R83). -/
structure Ways (s : State) : Prop where
  jacks : ∀ e ∈ s.motions, e.group = .jacks → s.headed (s.jacksOf e.action) e.action.dir
  level : s.levelActive = true → ∃ e ∈ s.motions, e.action = .level

/-- From one state to the other a group's controller has worked for a motion in a direction: of the channels, the axes and the
jacks only the group's own may have changed, and the lists, the claims and the plan stand. -/
structure Moves (g : Group) (d : Dir) (s t : State) : Prop extends Steers d s t where
  paused : t.paused = s.paused
  claims : t.claims = s.claims
  plan : t.plan = s.plan
  chans : ∀ n, (s.role n).group ≠ some g → (t.chan n).busy = true → (s.chan n).busy = true ∧ (t.chan n).dir = (s.chan n).dir
  jacks : g ≠ .jacks → ∀ j, (t.jack j).phase = .active → (s.jack j).phase = .active ∧ (t.jack j).dir = (s.jack j).dir
  racks : ∀ id, id.group ≠ g → s.rackFine id → t.rackFine id

namespace Moves

theorem refl (g : Group) (d : Dir) (s : State) : Moves g d s s where
  toSteers := .refl d s
  paused := rfl
  claims := rfl
  plan := rfl
  chans _ _ busy := ⟨busy, rfl⟩
  jacks _ _ way := ⟨way, rfl⟩
  racks _ _ fine := fine

theorem trans (a : Moves g d s t) (b : Moves g d t u) : Moves g d s u where
  toSteers := a.toSteers.trans b.toSteers
  paused := b.paused.trans a.paused
  claims := b.claims.trans a.claims
  plan := b.plan.trans a.plan
  chans n other busy := by
    obtain ⟨before, same⟩ := b.chans n (by rwa [State.role_layout a.layout]) busy
    obtain ⟨first, dir⟩ := a.chans n other before
    exact ⟨first, same.trans dir⟩
  jacks other j way := by
    obtain ⟨before, same⟩ := b.jacks other j way
    obtain ⟨first, dir⟩ := a.jacks other j before
    exact ⟨first, same.trans dir⟩
  racks id other fine := b.racks id other (a.racks id other fine)

theorem motions (a : Moves g d s t) : t.motions = s.motions := State.motions_congr a.load a.paused

/-- The work of a controller on its own group. -/
theorem of_controls (a : Controls g s t) (b : Steers d s t) : Moves g d s t where
  toSteers := b
  paused := by have e := congrArg State.paused a.outer; exact e
  claims := by have e := congrArg State.claims a.outer; exact e
  plan := by have e := congrArg State.plan a.outer; exact e
  chans n other busy := by rw [a.chans n other] at busy ⊢; exact ⟨busy, rfl⟩
  jacks other j way := by
    have same : t.jacks = s.jacks := (a.axes .jacks fun same => other same.symm).1
    unfold State.jack at way ⊢
    rw [same] at way ⊢
    exact ⟨way, rfl⟩
  racks id other fine := by
    have axis := a.axes id.group other
    have slider : t.slider id = s.slider id := by cases id <;> exact axis
    refine fine.of b.layout (fun m => by unfold State.motor; rw [slider]) fun m n own on => ?_
    rwa [a.chans n (by rw [State.group_motorChan own]; simpa using other)] at on

end Moves

/-- From one state to the other nothing is driven that was not, no jack has been set on its way, no count has changed, and the
rooms and the awning read as they did. -/
def Calm (s t : State) : Prop := ∀ g d, Moves g d s t

namespace Calm

theorem refl (s : State) : Calm s s := fun g d => .refl g d s

theorem trans (a : Calm s t) (b : Calm t u) : Calm s u := fun g d => (a g d).trans (b g d)

theorem fine (a : Calm s t) (fine : s.rackFine id) : t.rackFine id := by
  cases id with
  | room k => exact (a .jacks .outward).racks (.room k) (by simp [Slider.group]) fine
  | awning => exact (a .jacks .outward).racks .awning (by simp [Slider.group]) fine

theorem of_parts (layout : t.layout = s.layout) (load : t.load = s.load) (paused : t.paused = s.paused)
    (claims : t.claims = s.claims) (plan : t.plan = s.plan)
    (chans : ∀ n, (t.chan n).census = (s.chan n).census ∧
      ((t.chan n).busy = true → (s.chan n).busy = true ∧ (t.chan n).dir = (s.chan n).dir) ∧
      ((t.chan n).driven = true → (s.chan n).driven = true))
    (ways : ∀ j, (t.jack j).phase = .active → (s.jack j).phase = .active ∧ (t.jack j).dir = (s.jack j).dir)
    (sliders : ∀ id, (t.slider id).state = (s.slider id).state ∧ ∀ m, (t.motor id m).count = (s.motor id m).count)
    (level : t.levelActive = true → s.levelActive = true) : Calm s t := fun _ _ =>
  { layout, load, paused, claims, plan, level
    census := fun n => (chans n).1
    busy := fun n busy => .inl ((chans n).2.1 busy)
    ways := fun j way => .inl (ways j way)
    state := fun id => (sliders id).1
    chans := fun n _ => (chans n).2.1
    jacks := fun _ => ways
    racks := fun id _ fine => fine.of layout (sliders id).2 fun _ n _ => (chans n).2.2 }

/-- Only what the drives, the axes, the lists, the claims and the plan do not show has changed. -/
theorem of_same (layout : t.layout = s.layout) (load : t.load = s.load) (paused : t.paused = s.paused)
    (claims : t.claims = s.claims) (plan : t.plan = s.plan) (channels : t.channels = s.channels) (rooms : t.rooms = s.rooms)
    (awning : t.awning = s.awning) (jacks : t.jacks = s.jacks) (level : t.level = s.level) : Calm s t := by
  refine .of_parts layout load paused claims plan (fun n => ?_) (fun j way => ?_) (fun id => ?_) fun on => ?_
  · unfold State.chan
    rw [channels]
    exact ⟨rfl, fun busy => ⟨busy, rfl⟩, id⟩
  · unfold State.jack at way ⊢
    rw [jacks] at way ⊢
    exact ⟨way, rfl⟩
  · have slider : t.slider id = s.slider id := by cases id <;> simp [State.slider, rooms, awning]
    unfold State.motor
    rw [slider]
    exact ⟨rfl, fun _ => rfl⟩
  · unfold State.levelActive at on ⊢
    rwa [level] at on

end Calm

theorem Seats.moves (a : Seats s) (b : Moves g d s t) (dir : ∀ e ∈ s.motions, e.group = g → e.action.dir = d) : Seats t where
  roles i n other same := by
    rw [State.role_layout b.layout, State.role_layout b.layout] at same
    rw [State.role_layout b.layout]
    exact a.roles i n other same
  once := by rw [b.motions]; exact a.once
  fits := by rw [b.motions]; exact a.fits
  drives n busy := by
    rw [b.census, b.load, State.role_layout b.layout]
    have kept (before : (s.chan n).busy = true ∧ (t.chan n).dir = (s.chan n).dir) : (s.chan n).census = .seated ∧
        ∃ e ∈ s.load, n ∈ t.motionChans e ∧ (s.role n ≠ .pump → (t.chan n).dir = e.action.dir) := by
      obtain ⟨seated, e, mem, own, aimed⟩ := a.drives n before.1
      exact ⟨seated, e, mem, by rwa [State.motionChans_layout b.layout], fun role => before.2.trans (aimed role)⟩
    by_cases other : (s.role n).group = some g
    · obtain before | ⟨may, aimed⟩ := b.busy n busy
      · exact kept before
      · obtain ⟨seated, e, mem, own⟩ := State.mayDrive_iff.mp may
        have listed := State.mem_motions_load mem
        have group : e.group = g := by
          have fits : Safety.actionFits e.group e.action = true := a.fits e.motion listed
          have same := State.group_of_motionChans fits own
          exact Option.some.inj (same.symm.trans other)
        exact ⟨seated, e, mem, by rwa [State.motionChans_layout b.layout],
          fun role => (aimed role).trans (dir e.motion listed group).symm⟩
    · exact kept (b.chans n other busy)

theorem Ways.moves (a : Ways s) (b : Moves g d s t) (dir : ∀ e ∈ s.motions, e.group = g → e.action.dir = d) : Ways t where
  jacks e mem group := by
    rw [b.motions] at mem
    rw [State.jacksOf_layout b.layout]
    have headed := a.jacks e mem group
    by_cases own : g = .jacks
    · rw [dir e mem (group.trans own.symm)] at headed ⊢
      exact headed.steers b.toSteers
    · intro j among way
      obtain ⟨before, same⟩ := b.jacks own j way
      exact same.trans (headed j among before)
  level on := by rw [b.motions]; exact a.level (b.level on)

end

end Sys2Proof.Machine
end

section
/-! PROOFS. That each drive still belongs to its motion when a motion ends, when it is shed or taken up again, and when a new one
is placed (R9, R135, R137, R140). -/

namespace Sys2Proof.Machine

section
variable {s t u w : State} {g h : Group} {id i : Slider} {m y : Motor} {n q : Chan} {d : Dir} {j k : JackId} {e x : Entry}
  {z : Ending} {a : Action} {o : Owner} {mo : Mode}

/-! ### What the motions say of the drives -/

theorem State.roleChan_unique (roles : ∀ i n : Chan, i ≠ n → s.role i = s.role n → s.role i = .none) {r : Role}
    (own : s.role n = r) (given : r ≠ .none) : s.roleChan r = some n := by
  obtain ⟨i, found⟩ := State.roleChan_some own
  have role := State.role_of_roleChan found
  by_cases same : i = n
  · rw [found, same]
  · exact absurd (role.symm.trans (roles i n same (role.trans own.symm))) given

/-- A channel of a room or the awning is the channel of one of its motors. -/
theorem State.motor_of_group (roles : ∀ i n : Chan, i ≠ n → s.role i = s.role n → s.role i = .none)
    (own : (s.role n).group = some id.group) : n ∈ s.slideChans id := by
  rw [State.mem_slideChans]
  have found (r : Role) (role : s.role n = r) (given : r ≠ .none) := State.roleChan_unique roles role given
  cases role : s.role n with
  | room k m =>
    have chan := found _ role (by simp)
    rw [role] at own
    cases id with
    | room q =>
      obtain rfl : k = q := by simpa [Role.group, Slider.group] using own
      refine ⟨m, ?_, chan⟩
      unfold State.motors
      cases m with
      | a => split <;> simp
      | b =>
        have two : (s.motorChan (.room k) .b).isSome = true := by
          change (s.roleChan (.room k .b)).isSome = true
          rw [chan]
          rfl
        simp [two]
    | awning => simp [Role.group, Slider.group] at own
  | awning =>
    have chan := found _ role (by simp)
    rw [role] at own
    cases id with
    | room q => simp [Role.group, Slider.group] at own
    | awning => exact ⟨.a, by unfold State.motors; split <;> simp, chan⟩
  | jack j => rw [role] at own; cases id <;> simp [Role.group, Slider.group] at own
  | pump => rw [role] at own; cases id <;> simp [Role.group, Slider.group] at own
  | none => rw [role] at own; cases id <;> simp [Role.group, Slider.group] at own

namespace Seats

theorem congr (a : Seats s) (layout : t.layout = s.layout) (load : t.load = s.load) (paused : t.paused = s.paused)
    (channels : t.channels = s.channels) : Seats t where
  roles i n other same := by
    rw [State.role_layout layout, State.role_layout layout] at same
    rw [State.role_layout layout]
    exact a.roles i n other same
  once := by rw [State.motions_congr load paused]; exact a.once
  fits := by rw [State.motions_congr load paused]; exact a.fits
  drives n busy := by
    have chan : t.chan n = s.chan n := by unfold State.chan; rw [channels]
    rw [chan] at busy ⊢
    rw [load, State.role_layout layout]
    obtain ⟨seated, e, mem, own, aimed⟩ := a.drives n busy
    exact ⟨seated, e, mem, by rwa [State.motionChans_layout layout], aimed⟩

/-- Two motions of one group are one. -/
theorem unique (a : Seats s) (first : e ∈ s.motions) (second : x ∈ s.motions) (same : e.group = x.group) : e = x :=
  List.inj_on_of_nodup_map a.once first second same

theorem entryOf (a : Seats s) (mem : e ∈ s.load ++ s.paused) : ∃ x, s.entryOf e.group = some x ∧ x.motion = e.motion := by
  have moving : ¬ s.still e.group := fun still => still e.motion (mem_motions.mpr ⟨e, mem, rfl⟩) rfl
  obtain ⟨x, found⟩ := State.not_still_iff.mp moving
  obtain ⟨listed, group⟩ := State.entryOf_motion found
  exact ⟨x, found, a.unique listed (mem_motions.mpr ⟨e, mem, rfl⟩) group⟩

/-- A channel of a group without a motion is at rest. -/
theorem rest (a : Seats s) (own : (s.role n).group = some g) (still : s.still g) : (s.chan n).busy = false := by
  by_contra busy
  obtain ⟨-, e, mem, among, -⟩ := a.drives n (by simpa using busy)
  have listed := State.mem_motions_load mem
  have fits : Safety.actionFits e.group e.action = true := a.fits e.motion listed
  exact still e.motion listed (Option.some.inj ((State.group_of_motionChans fits among).symm.trans own))

/-- The lists may change so long as the motions stay one of a group and each channel that is still driven keeps its motion. -/
theorem relist (a : Seats s) (layout : t.layout = s.layout) (once : (t.motions.map Entry.group).Nodup)
    (fits : ∀ e ∈ t.motions, Safety.actionFits e.group e.action = true)
    (chans : ∀ n, (t.chan n).busy = true → t.chan n = s.chan n ∧
      ∀ e ∈ s.load, n ∈ s.motionChans e → ∃ x ∈ t.load, x.motion = e.motion) : Seats t where
  roles i n other same := by
    rw [State.role_layout layout, State.role_layout layout] at same
    rw [State.role_layout layout]
    exact a.roles i n other same
  once := once
  fits := fits
  drives n busy := by
    obtain ⟨chan, kept⟩ := chans n busy
    rw [chan] at busy ⊢
    rw [State.role_layout layout]
    obtain ⟨seated, e, mem, own, aimed⟩ := a.drives n busy
    obtain ⟨x, listed, same⟩ := kept e mem own
    refine ⟨seated, x, listed, ?_, ?_⟩
    · rw [State.motionChans_layout layout, ← State.motionChans_motion, same]
      exact own
    · have action : x.action = e.action := show x.motion.action = e.motion.action by rw [same]
      rw [action]
      exact aimed

end Seats

/-! ### Endings -/

theorem State.motions_motionEnd : (s.motionEnd g z).1.motions = s.motions.filter fun e => e.group != g := by
  obtain ⟨load, paused⟩ := s.lists_motionEnd (g := g) (e := z)
  rw [State.motions, load, paused, ← List.filter_append, State.motions, List.filter_map]
  rfl

/-- The channels of a group whose motion ends come to rest. -/
theorem Seats.controllerEnd (a : Seats s) (found : s.entryOf g = some x) (own : (s.role n).group = some g) :
    ((s.controllerEnd g x.action z).chan n).busy = false := by
  have stops (l : List Chan) (c : Channel) (same : c = if n ∈ l then (s.chan n).stopped s.now else s.chan n)
      (among : (s.chan n).busy = true → n ∈ l) : c.busy = false := by
    rw [same]
    split
    · exact Channel.busy_stopped ..
    · rename_i away
      by_contra busy
      exact away (among (by simpa using busy))
  unfold State.controllerEnd
  split
  · rename_i id slider
    obtain rfl : id.group = g := by cases g <;> simp_all [sliderOf] <;> (subst slider; rfl)
    exact stops _ _ State.chan_slideEnd fun _ => State.motor_of_group a.roles own
  · rename_i none
    obtain rfl : g = .jacks := by cases g <;> simp_all [sliderOf]
    refine stops _ _ (State.chan_jackEnd x.action) fun busy => ?_
    obtain ⟨-, e, mem, among, -⟩ := a.drives n busy
    have fits : Safety.actionFits e.group e.action = true := a.fits e.motion (State.mem_motions_load mem)
    have group : e.group = .jacks := Option.some.inj ((State.group_of_motionChans fits among).symm.trans own)
    obtain ⟨y, same, motion⟩ := a.entryOf (List.mem_append_left _ mem)
    rw [group, found] at same
    obtain rfl := Option.some.inj same
    have action : x.action = e.action := show x.motion.action = e.motion.action by rw [motion]
    unfold State.jackChans
    rw [List.mem_append, List.mem_filterMap]
    cases role : s.role n with
    | pump => exact .inr (by rw [State.roleChan_unique a.roles role (by simp)]; simp)
    | jack j =>
      refine .inl ⟨j, ?_, State.roleChan_unique a.roles role (by simp)⟩
      have configured : j ∈ s.configuredJacks := by
        refine List.mem_filter.mpr ⟨mem_allJacks j, ?_⟩
        unfold State.jackConfigured
        rw [State.roleChan_unique a.roles role (by simp)]
        rfl
      rw [action]
      unfold State.jacksOf
      split
      · rename_i i d single
        unfold State.motionChans at among
        rw [single] at among
        have roles := (List.mem_filter.mp among).2
        simp only [role, Bool.or_eq_true, beq_iff_eq, Role.jack.injEq] at roles
        obtain same | absurd := roles
        · simp [same]
        · cases absurd
      · exact configured
    | room k m => rw [role] at own; simp [Role.group] at own
    | awning => rw [role] at own; simp [Role.group] at own
    | none => rw [role] at own; simp [Role.group] at own

theorem State.channels_motionEnd (found : s.entryOf g = some x) (n : Chan) :
    (s.motionEnd g z).1.chan n = (s.controllerEnd g x.action z).chan n := by
  rw [State.motionEnd_frame found]
  rfl

theorem Seats.motionEnd (a : Seats s) : Seats (s.motionEnd g z).1 := by
  by_cases still : s.still g
  · rwa [State.motionEnd_still still]
  obtain ⟨x, found⟩ := State.not_still_iff.mp still
  have controls : Controls g s (s.controllerEnd g x.action z) := State.controllerEnd_controls
  refine a.relist ?_ ?_ ?_ fun n busy => ?_
  · rw [State.motionEnd_frame found]
    exact controls.layout
  · rw [State.motions_motionEnd]
    exact a.once.sublist (List.filter_sublist.map _)
  · rw [State.motions_motionEnd]
    exact fun e mem => a.fits e (List.mem_filter.mp mem).1
  · rw [State.channels_motionEnd found] at busy ⊢
    have other : (s.role n).group ≠ some g := fun own => by
      rw [a.controllerEnd found own] at busy
      cases busy
    refine ⟨controls.chans n other, fun e mem among => ⟨e, ?_, rfl⟩⟩
    rw [(s.lists_motionEnd (g := g) (e := z)).1]
    refine List.mem_filter.mpr ⟨mem, ?_⟩
    have fits : Safety.actionFits e.group e.action = true := a.fits e.motion (State.mem_motions_load mem)
    rw [State.group_of_motionChans fits among] at other
    simpa using fun same => other (congrArg some same)

theorem Ways.motionEnd (a : Ways s) (seats : Seats s) : Ways (s.motionEnd g z).1 := by
  by_cases still : s.still g
  · rwa [State.motionEnd_still still]
  obtain ⟨x, found⟩ := State.not_still_iff.mp still
  have controls : Controls g s (s.controllerEnd g x.action z) := State.controllerEnd_controls
  have frame := State.motionEnd_frame (e := z) found
  have layout : (s.motionEnd g z).1.layout = s.layout := by rw [frame]; exact controls.layout
  have jacks : (s.motionEnd g z).1.jacks = (s.controllerEnd g x.action z).jacks := by rw [frame]
  have level : (s.motionEnd g z).1.level = (s.controllerEnd g x.action z).level := by rw [frame]
  obtain ⟨listed, group⟩ := State.entryOf_motion found
  refine ⟨fun e mem own => ?_, fun on => ?_⟩
  · rw [State.motions_motionEnd] at mem
    obtain ⟨mem, other⟩ := List.mem_filter.mp mem
    rw [State.jacksOf_layout layout]
    have same : (s.motionEnd g z).1.jacks = s.jacks := by
      rw [jacks]
      exact (controls.axes .jacks (by rw [← own]; simpa using other)).1
    intro j among way
    unfold State.jack at way ⊢
    rw [same] at way ⊢
    exact a.jacks e mem own j among way
  · rw [State.motions_motionEnd]
    have before : s.levelActive = true ∧ ¬ (g = .jacks ∧ x.action = .level) := by
      unfold State.levelActive at on ⊢
      rw [level] at on
      by_cases own : g = .jacks
      · subst own
        obtain ⟨⟨table, y, ended⟩, -⟩ := jackEnd_spec x.action z s
        have record : (s.controllerEnd .jacks x.action z).level = if x.action = .level then
            { s.level with status := .ended, outcome := some z.outcome } else s.level := by
          change (s.jackEnd x.action z).level = _
          rw [ended]
        rw [record] at on
        split at on
        · cases on
        · rename_i other
          exact ⟨on, fun both => other both.2⟩
      · rw [(controls.axes .jacks fun same => own same.symm).2.2] at on
        exact ⟨on, fun both => own both.1⟩
    obtain ⟨e, mem, action⟩ := a.level before.1
    have fits := seats.fits e mem
    rw [action] at fits
    have jackMotion : e.group = .jacks := by simpa [Safety.actionFits] using fits
    refine ⟨e, List.mem_filter.mpr ⟨mem, ?_⟩, action⟩
    have other : e.group ≠ g := fun same => by
      have motion := seats.unique mem listed (same.trans group.symm)
      have level : x.action = .level := (congrArg Entry.action motion).symm.trans action
      exact before.2 ⟨same.symm.trans jackMotion, level⟩
    simpa using other

end

end Sys2Proof.Machine
end

section
/-! PROOFS. That each drive still belongs to its motion when the pause list is scanned, a motion is placed, or one is shed (R135 to
R140). -/

namespace Sys2Proof.Machine

section
variable {s t u w : State} {g h : Group} {id i : Slider} {m : Motor} {n q : Chan} {d : Dir} {j k : JackId} {e x y : Entry}
  {z : Ending} {a : Action} {o : Owner} {mo : Mode} {l : List Entry}

theorem Ways.congr (a : Ways s) (layout : t.layout = s.layout) (motions : ∀ e, e ∈ t.motions ↔ e ∈ s.motions)
    (jacks : t.jacks = s.jacks) (level : t.level = s.level) : Ways t where
  jacks e mem group := by
    rw [State.jacksOf_layout layout]
    intro j among way
    unfold State.jack at way ⊢
    rw [jacks] at way ⊢
    exact a.jacks e ((motions e).mp mem) group j among way
  level on := by
    unfold State.levelActive at on
    rw [level] at on
    obtain ⟨e, mem, action⟩ := a.level on
    exact ⟨e, (motions e).mpr mem, action⟩

theorem perm_groups (perm : t.motions.Perm s.motions) (once : (s.motions.map Entry.group).Nodup) :
    (t.motions.map Entry.group).Nodup :=
  (perm.map Entry.group).nodup_iff.mpr once

theorem Seats.paused_nodup (a : Seats s) : s.paused.Nodup := by
  have once := a.once
  unfold State.motions at once
  rw [List.map_map, List.map_append] at once
  exact (List.nodup_append.mp once).2.1.of_map

theorem Seats.load_nodup (a : Seats s) : s.load.Nodup := by
  have once := a.once
  unfold State.motions at once
  rw [List.map_map, List.map_append] at once
  exact (List.nodup_append.mp once).1.of_map

/-! ### Scans -/

/-- A list without repetition is its member and the rest. -/
theorem perm_cons_filter (nodup : l.Nodup) (mem : e ∈ l) : l.Perm (e :: l.filter fun x => x != e) := by
  rw [← nodup.erase_eq_filter]
  exact List.perm_cons_erase mem

theorem motions_offerUnits_perm (nodup : s.paused.Nodup) (mem : e ∈ s.paused) : (offerUnits s e).motions.Perm s.motions := by
  unfold offerUnits
  split
  · have lists : (({ s with paused := s.paused.filter fun x => x != e } : State).enterLoad e).motions =
        s.load.map Entry.motion ++ e.motion :: (s.paused.filter fun x => x != e).map Entry.motion := by
      simp [State.motions, State.enterLoad, State.setLoad, Entry.motion]
    rw [lists, State.motions, List.map_append]
    refine List.Perm.append_left _ ?_
    exact ((perm_cons_filter nodup mem).map Entry.motion).symm
  · exact .refl _

theorem load_offerUnits (mem : x ∈ s.load) : x ∈ (offerUnits s e).load := by
  unfold offerUnits
  split
  · simp [State.enterLoad, State.setLoad, mem]
  · exact mem

theorem paused_offerUnits (mem : x ∈ s.paused) (other : x ≠ e) : x ∈ (offerUnits s e).paused := by
  unfold offerUnits
  split
  · simp [State.enterLoad, State.setLoad, mem, other]
  · exact mem

theorem Seats.offerUnits (a : Seats s) (mem : e ∈ s.paused) : Seats (offerUnits s e) := by
  have perm := motions_offerUnits_perm a.paused_nodup mem
  refine a.relist ?_ (perm_groups perm a.once) (fun x listed => a.fits x (perm.mem_iff.mp listed)) fun n _ =>
    ⟨?_, fun x loaded _ => ⟨x, load_offerUnits loaded, rfl⟩⟩ <;> rw [offerUnits_frame]
  rfl

theorem Seats.offers (a : Seats s) (once : l.Nodup) (among : ∀ e ∈ l, e ∈ s.paused) : Seats (l.foldl Machine.offerUnits s) := by
  induction l generalizing s with
  | nil => exact a
  | cons e rest ih =>
    obtain ⟨fresh, once⟩ := List.nodup_cons.mp once
    refine ih (a.offerUnits (among e List.mem_cons_self)) once fun x mem => ?_
    exact paused_offerUnits (among x (List.mem_cons_of_mem _ mem)) fun same => fresh (same ▸ mem)

theorem nodup_scanOrder (nodup : l.Nodup) : (scanOrder l).Nodup := by
  unfold scanOrder
  refine List.nodup_append.mpr ⟨nodup.filter _, nodup.filter _, fun a first b second same => ?_⟩
  subst same
  have wind := (List.mem_filter.mp first).2
  have other := (List.mem_filter.mp second).2
  simp_all

theorem Seats.scan (a : Seats s) : Seats s.scan.1 :=
  a.offers (nodup_scanOrder a.paused_nodup) fun _ => mem_scanOrder

/-! ### Placing -/

theorem insertByOrder_perm : (insertByOrder e l).Perm (e :: l) := by
  induction l with
  | nil => exact .refl _
  | cons x rest ih =>
    unfold insertByOrder
    split
    · exact .refl _
    · exact (ih.cons x).trans (.swap e x rest)

/-- The entry that placing a motion adds, but for the list that holds it. -/
def State.newMotion (s : State) (g : Group) (o : Owner) (mo : Mode) (a : Action) : Entry :=
  { newEntry g o mo a s.nextOrder with units := s.motionUnits g a }

theorem motions_placeEntry_perm : (s.placeEntry g o mo a).1.motions.Perm (s.newMotion g o mo a :: s.motions) := by
  unfold State.placeEntry
  dsimp only
  split
  · have lists : (({ s with nextOrder := s.nextOrder + 1 } : State).enterLoad (s.newMotion g o mo a)).motions =
        s.load.map Entry.motion ++ s.newMotion g o mo a :: s.paused.map Entry.motion := by
      simp [State.motions, State.enterLoad, State.setLoad, Entry.motion, State.newMotion, newEntry]
    refine (List.Perm.of_eq lists).trans ?_
    rw [State.motions, List.map_append]
    exact List.perm_middle
  · have lists : (({ s with nextOrder := s.nextOrder + 1 } : State).enterPause (s.newMotion g o mo a) .waiting).motions =
        s.load.map Entry.motion ++ (insertByOrder
          { s.newMotion g o mo a with state := .waiting, pausedSince := some s.now } s.paused).map Entry.motion := by
      simp [State.motions, State.enterPause]
    refine (List.Perm.of_eq lists).trans ?_
    rw [State.motions, List.map_append]
    refine (List.Perm.append_left _ (insertByOrder_perm.map Entry.motion)).trans ?_
    exact List.perm_middle

theorem load_placeEntry (mem : x ∈ s.load) : x ∈ (s.placeEntry g o mo a).1.load := by
  unfold State.placeEntry
  dsimp only
  split
  · simp [State.enterLoad, State.setLoad, mem]
  · exact mem

theorem Seats.placeEntry (b : Seats s) (still : s.still g) (fits : Safety.actionFits g a = true) :
    Seats (s.placeEntry g o mo a).1 := by
  have perm := motions_placeEntry_perm (s := s) (g := g) (o := o) (mo := mo) (a := a)
  have new : (s.newMotion g o mo a :: s.motions).map Entry.group = g :: s.motions.map Entry.group := rfl
  refine b.relist ?_ ?_ (fun x listed => ?_) fun n _ => ⟨?_, fun x loaded _ => ⟨x, load_placeEntry loaded, rfl⟩⟩
  · rw [State.placeEntry_frame]
  · rw [(perm.map Entry.group).nodup_iff, new]
    refine List.nodup_cons.mpr ⟨fun mem => ?_, b.once⟩
    obtain ⟨x, listed, group⟩ := List.mem_map.mp mem
    exact still x listed group
  · obtain rfl | old := List.mem_cons.mp (perm.mem_iff.mp listed)
    · exact fits
    · exact b.fits x old
  · rw [State.placeEntry_frame]
    rfl

/-! ### Shedding -/

theorem State.chan_slideShed : (s.slideShed id).chan n = s.chan n := by
  have each (l : List Motor) (s : State) : (forEach l (fun m t =>
      if (t.motor id m).phase = .seat then t.setMotor id m { t.motor id m with phase := .travel, seatDeadline := none }
      else t) s).chan n = s.chan n := by
    induction l generalizing s with
    | nil => rfl
    | cons m rest ih =>
      refine (ih _).trans ?_
      dsimp only
      split
      · exact State.chan_setMotor ..
      · rfl
  exact each _ s

/-- An entry's channels are stopped and its controller keeps its motion. -/
def State.halt (s : State) (e : Entry) : State :=
  (forEach (s.motionChans e) (fun n t => t.stopChan n) s).controllerShed e.group

theorem State.chan_halt : (s.halt e).chan n = if n ∈ s.motionChans e then (s.chan n).stopped s.now else s.chan n := by
  rw [← (stops_spec (s.motionChans e) s).2 n]
  unfold State.halt State.controllerShed
  split
  · exact State.chan_slideShed
  · rfl

theorem Steers.halt : Steers d s (s.halt e) := by
  have stops : Steers d s (Machine.forEach (s.motionChans e) (fun n t => t.stopChan n) s) := .forEach (fun _ _ => .stopChan) s
  refine stops.trans ?_
  unfold State.halt State.controllerShed
  split
  · exact .slideShed
  · exact .refl _ _

theorem Eases.halt : Eases id s (s.halt e) := by
  have stops (l : List Chan) (s : State) : Eases id s (forEach l (fun n t => t.stopChan n) s) := by
    induction l generalizing s with
    | nil => exact .refl id s
    | cons n rest ih => exact Eases.stopChan.trans (ih (s.stopChan n))
  have shed (i : Slider) (l : List Motor) (s : State) : Eases id s (forEach l (fun m t =>
      if (t.motor i m).phase = .seat then t.setMotor i m { t.motor i m with phase := .travel, seatDeadline := none }
      else t) s) := by
    induction l generalizing s with
    | nil => exact .refl id s
    | cons m rest ih =>
      refine Eases.trans ?_ (ih _)
      dsimp only
      split
      · refine ⟨by simp, fun y => ?_, fun n on => by rwa [State.chan_setMotor] at on⟩
        rw [State.motor_setMotor]
        split
        · rename_i same
          rw [← same.1, ← same.2]
        · rfl
      · exact .refl id s
  unfold State.halt State.controllerShed
  split
  · exact (stops _ s).trans (shed _ _ _)
  · exact stops _ s

theorem State.halt_desk : (s.halt e).load = s.load ∧ (s.halt e).paused = s.paused :=
  s.lists_stopped e

theorem State.shed_eq : s.shed e = ((s.halt e).setLoad ((s.halt e).load.filter fun x => x != e)).enterPause e .paused := rfl

theorem motions_shed_perm (nodup : s.load.Nodup) (mem : e ∈ s.load) : (s.shed e).motions.Perm s.motions := by
  have lists : (s.shed e).motions = (s.load.filter fun x => x != e).map Entry.motion ++
      (insertByOrder { e with state := .paused, pausedSince := some (s.halt e).now } s.paused).map Entry.motion := by
    obtain ⟨load, paused⟩ := s.halt_desk (e := e)
    rw [State.shed_eq, State.motions]
    simp [State.enterPause, State.setLoad, load, paused]
  rw [lists, State.motions, List.map_append]
  refine (List.Perm.append_left _ (insertByOrder_perm.map Entry.motion)).trans (List.perm_middle.trans ?_)
  exact List.Perm.append_right _ ((perm_cons_filter nodup mem).map Entry.motion).symm

theorem Seats.shed (a : Seats s) (mem : e ∈ s.load) : Seats (s.shed e) := by
  have perm := motions_shed_perm a.load_nodup mem
  have chan (n : Chan) : (s.shed e).chan n = if n ∈ s.motionChans e then (s.chan n).stopped s.now else s.chan n :=
    State.chan_halt
  refine a.relist (Steers.halt (d := .outward)).layout (perm_groups perm a.once)
    (fun x listed => a.fits x (perm.mem_iff.mp listed)) fun n busy => ?_
  rw [chan] at busy ⊢
  split at busy
  · simp at busy
  · rename_i away
    refine ⟨if_neg away, fun x loaded among => ⟨x, ?_, rfl⟩⟩
    rw [State.load_shed]
    refine List.mem_filter.mpr ⟨loaded, ?_⟩
    have other : x ≠ e := fun same => away (same ▸ among)
    simpa using other

theorem Ways.shed (a : Ways s) (seats : Seats s) (mem : e ∈ s.load) : Ways (s.shed e) := by
  have perm := motions_shed_perm seats.load_nodup mem
  have halted : Steers .outward s (s.halt e) := .halt
  have same : (s.halt e).jacks = s.jacks ∧ (s.halt e).level = s.level := by
    obtain ⟨frame, -⟩ := stops_spec (s.motionChans e) s
    unfold State.halt
    generalize forEach (s.motionChans e) (fun n t => t.stopChan n) s = v at frame ⊢
    unfold State.controllerShed
    split
    · rename_i id slider
      have controls : Controls id.group v (v.slideShed id) := State.slideShed_controls
      obtain ⟨jacks, -, level⟩ := controls.axes .jacks (by cases id <;> simp [Slider.group])
      rw [jacks, level, frame]
      exact ⟨rfl, rfl⟩
    · rw [frame]
      exact ⟨rfl, rfl⟩
  exact a.congr halted.layout (fun _ => perm.mem_iff) same.1 same.2

end

end Sys2Proof.Machine
end

section
/-! PROOFS. What holds of the drives and the axes while the work of an event is still to be done: a motion that does not read so, or
whose counts stand too far apart, is about to end (R44, R50, R97). -/

namespace Sys2Proof.Machine

section
variable {s t u w : State} {g h : Group} {id i : Slider} {m : Motor} {n q : Chan} {d : Dir} {j k : JackId} {e x y : Entry}
  {z : Ending} {a : Action} {o : Owner} {mo : Mode} {l r : List Task} {R : Prop}

/-! ### Work that ends a group's motion -/

/-- Work still to be done ends the group's motion. -/
def Leaving (l : List Task) (g : Group) : Prop := ∃ z, .endMotion g z ∈ l

theorem Leaving.append_left (a : Leaving l g) : Leaving (r ++ l) g :=
  a.imp fun _ mem => List.mem_append_right r mem

theorem Leaving.append_right (a : Leaving l g) : Leaving (l ++ r) g :=
  a.imp fun _ mem => List.mem_append_left r mem

/-- What a controller leaves to do ends its own motion. -/
theorem EndsOnly.leaving (own : EndsOnly g l) (some : l ≠ []) : Leaving l g := by
  obtain ⟨u, mem⟩ := List.exists_mem_of_ne_nil l some
  obtain ⟨z, same, -⟩ := own u mem
  exact ⟨z, same ▸ mem⟩

/-- The head of the work is no ending, so that the rest still ends what was about to end. -/
theorem Leaving.of_cons {v : Task} (other : ∀ g z, v ≠ .endMotion g z) (a : Leaving (v :: l) g) : Leaving l g := by
  obtain ⟨z, mem⟩ := a
  obtain same | mem := List.mem_cons.mp mem
  · exact absurd same.symm (other g z)
  · exact ⟨z, mem⟩

/-- After its head ending the work still ends the motion of every other group. -/
theorem Leaving.other (a : Leaving (.endMotion h z :: l) g) (other : g ≠ h) : Leaving l g := by
  obtain ⟨y, mem⟩ := a
  obtain same | mem := List.mem_cons.mp mem
  · exact absurd (Task.endMotion.inj same).1 other
  · exact ⟨y, mem⟩

/-! ### The device within an event -/

/-- What the drives, the axes and the motions agree on within an event, with the work still to be done; the law of the rack
limit where `R` says that it held before. -/
structure Device (R : Prop) (s : State) (l : List Task) : Prop where
  seats : Seats s
  ways : Ways s
  shown : ∀ e ∈ s.motions, ∀ id, sliderOf e.group = some id →
    Leaving l e.group ∨ (s.slider id).state = movingState e.action.dir
  racks : R → ∀ id : Slider, Leaving l id.group ∨ s.rackFine id

theorem Seats.direction (b : Seats s) (g : Group) : ∃ d, ∀ e ∈ s.motions, e.group = g → e.action.dir = d := by
  by_cases moving : ∃ e ∈ s.motions, e.group = g
  · obtain ⟨e, mem, group⟩ := moving
    exact ⟨e.action.dir, fun x listed own => by rw [b.unique listed mem (own.trans group.symm)]⟩
  · exact ⟨.outward, fun e mem group => absurd ⟨e, mem, group⟩ moving⟩

/-- A slider whose group has no motion is at rest, so that its counts may stand as they do. -/
theorem Seats.fine (b : Seats s) (still : s.still id.group) : s.rackFine id := by
  refine State.rackFine.at_rest fun m n own => ?_
  by_contra on
  have busy := b.rest (State.group_motorChan own) still
  rw [Channel.busy, Bool.or_eq_false_iff] at busy
  exact on busy.1

namespace Device

theorem leave (b : Device R s l) (leaves : ∀ g, Leaving l g → Leaving r g) : Device R s r where
  seats := b.seats
  ways := b.ways
  shown e mem id own := (b.shown e mem id own).imp_left (leaves _)
  racks limit id := (b.racks limit id).imp_left (leaves _)

theorem append (b : Device R s l) : Device R s (r ++ l) := b.leave fun _ => Leaving.append_left

/-- A group's controller works on its motion, in the motion's direction. -/
theorem moves (b : Device R s l) (moves : Moves g d s t) (dir : ∀ e ∈ s.motions, e.group = g → e.action.dir = d)
    (own : R → ∀ id : Slider, id.group = g → s.rackFine id → Leaving l g ∨ t.rackFine id) : Device R t l where
  seats := b.seats.moves moves dir
  ways := b.ways.moves moves dir
  shown e mem id slider := by
    rw [moves.motions] at mem
    rw [moves.state]
    exact b.shown e mem id slider
  racks limit id := by
    obtain leaves | fine := b.racks limit id
    · exact .inl leaves
    · by_cases same : id.group = g
      · exact same ▸ own limit id same fine
      · exact .inr (moves.racks id same fine)

theorem calm (b : Device R s l) (calm : Calm s t) : Device R t l := by
  obtain ⟨d, dir⟩ := b.seats.direction .awning
  exact b.moves (calm .awning d) dir fun _ _ _ fine => .inr (calm.fine fine)

/-- The jack controller works on its motion: it moves no motor of a room or the awning. -/
theorem jacks (b : Device R s l) (moves : Moves .jacks d s t) (dir : ∀ e ∈ s.motions, e.group = .jacks → e.action.dir = d) :
    Device R t l :=
  b.moves moves dir fun _ id same => absurd same (by cases id <;> simp [Slider.group])

/-- A motion ends. -/
theorem motionEnd (b : Device R s (.endMotion g z :: l)) : Device R (s.motionEnd g z).1 l where
  seats := b.seats.motionEnd
  ways := b.ways.motionEnd b.seats
  shown e mem id own := by
    rw [State.motions_motionEnd] at mem
    obtain ⟨mem, other⟩ := List.mem_filter.mp mem
    have other : e.group ≠ g := by simpa using other
    refine (b.shown e mem id own).imp (fun leaves => leaves.other other) fun state => ?_
    by_cases still : s.still g
    · rwa [State.motionEnd_still still]
    obtain ⟨x, found⟩ := State.not_still_iff.mp still
    have controls : Controls g s (s.controllerEnd g x.action z) := State.controllerEnd_controls
    have group : id.group = e.group := by
      cases group : e.group <;> rw [group] at own <;> simp [sliderOf] at own <;> subst own <;> rfl
    have axis := controls.axes id.group (group ▸ other)
    have same : (s.motionEnd g z).1.slider id = s.slider id := by
      rw [State.motionEnd_frame found]
      cases id <;> exact axis
    rw [same]
    exact state
  racks limit id := by
    by_cases same : id.group = g
    · exact .inr (b.seats.motionEnd.fine fun e mem => by
        rw [State.motions_motionEnd] at mem
        rw [same]
        simpa using (List.mem_filter.mp mem).2)
    · refine (b.racks limit id).imp (fun leaves => leaves.other same) fun fine => ?_
      by_cases still : s.still g
      · rwa [State.motionEnd_still still]
      obtain ⟨x, found⟩ := State.not_still_iff.mp still
      have controls : Controls g s (s.controllerEnd g x.action z) := State.controllerEnd_controls
      refine fine.of ?_ (fun _ => State.motor_motionEnd_count) fun m n own on => ?_
      · rw [State.motionEnd_frame found]
        exact controls.layout
      · rw [State.channels_motionEnd found,
          controls.chans n (by rw [State.group_motorChan own]; simpa using same)] at on
        exact on

end Device

/-! ### The lists -/

theorem State.motions_scan_perm (nodup : s.paused.Nodup) : s.scan.1.motions.Perm s.motions := by
  have offers (l : List Entry) (s : State) (nodup : s.paused.Nodup) (once : l.Nodup) (among : ∀ e ∈ l, e ∈ s.paused) :
      (l.foldl offerUnits s).motions.Perm s.motions := by
    induction l generalizing s with
    | nil => exact .refl _
    | cons e rest ih =>
      obtain ⟨fresh, once⟩ := List.nodup_cons.mp once
      refine (ih (offerUnits s e) ?_ once fun x mem => ?_).trans (motions_offerUnits_perm nodup (among e List.mem_cons_self))
      · unfold offerUnits
        split
        · exact nodup.filter _
        · exact nodup
      · exact paused_offerUnits (among x (List.mem_cons_of_mem _ mem)) fun same => fresh (same ▸ mem)
  exact offers _ s nodup (nodup_scanOrder nodup) fun _ => mem_scanOrder

/-- The lists change, and of the device nothing else. -/
theorem Device.relisted (b : Device R s l) (seats : Seats t) (layout : t.layout = s.layout)
    (motions : ∀ e, e ∈ t.motions ↔ e ∈ s.motions) (channels : t.channels = s.channels) (rooms : t.rooms = s.rooms)
    (awning : t.awning = s.awning) (jacks : t.jacks = s.jacks) (level : t.level = s.level) : Device R t l := by
  have slider (id : Slider) : t.slider id = s.slider id := by cases id <;> simp [State.slider, rooms, awning]
  refine ⟨seats, b.ways.congr layout motions jacks level, fun e mem id own => ?_, fun limit id => ?_⟩
  · rw [slider]
    exact b.shown e ((motions e).mp mem) id own
  · refine (b.racks limit id).imp_right fun fine => fine.of layout (fun m => ?_) fun m n _ on => ?_
    · unfold State.motor
      rw [slider]
    · unfold State.chan at on ⊢
      rwa [channels] at on

theorem Device.scan (b : Device R s l) : Device R s.scan.1 l := by
  have perm := State.motions_scan_perm b.seats.paused_nodup
  refine b.relisted b.seats.scan ?_ (fun _ => perm.mem_iff) ?_ ?_ ?_ ?_ ?_ <;> rw [State.scan_frame]

theorem Device.shed (b : Device R s l) (mem : e ∈ s.load) : Device R (s.shed e) l := by
  have perm := motions_shed_perm b.seats.load_nodup mem
  have halted : Steers .outward s (s.halt e) := .halt
  refine ⟨b.seats.shed mem, b.ways.shed b.seats mem, fun x listed id own => ?_, fun limit id => ?_⟩
  · have state : ((s.shed e).slider id).state = (s.slider id).state := by
      rw [← halted.state id]
      cases id <;> rfl
    rw [state]
    exact b.shown x (perm.mem_iff.mp listed) id own
  · refine (b.racks limit id).imp_right fun fine => ?_
    have kept : (s.halt e).rackFine id := (Eases.halt (s := s) (e := e)).fine fine
    exact kept.of rfl (fun _ => by cases id <;> rfl) fun _ _ _ on => on

end

end Sys2Proof.Machine
end

section
/-! PROOFS. That the drives stay with their motions when a motion is placed and received, and when one is taken up again (R44, R72,
R83, R97, R136, R141). -/

namespace Sys2Proof.Machine

section
variable {s t u w : State} {g h : Group} {id i : Slider} {m : Motor} {n q : Chan} {d : Dir} {j k : JackId} {e x y : Entry}
  {z : Ending} {a : Action} {o : Owner} {mo : Mode} {l r : List Task} {R : Prop} {run : Bool}
  {p : State}

/-! ### What a controller makes of a motion that it receives -/

/-- Receiving a motion changes the slider's record alone, before its motors are started. -/
theorem State.slideAdmit_cases (s : State) (id : Slider) (d : Dir) (run : Bool) : ∃ r : SliderRec,
    s.slideAdmit id d run = (s.setSlider id r, [.endMotion id.group { outcome := .homeReached }]) ∨
      (r.state = movingState d ∧
        s.slideAdmit id d run = if run then (s.setSlider id r).startMotors id d else (s.setSlider id r, [])) := by
  have zero (l : List Motor) (r : SliderRec) :
      ∃ q, forEach l (fun m t => t.zeroMotor id m) (s.setSlider id r) = s.setSlider id q := by
    induction l generalizing r with
    | nil => exact ⟨r, rfl⟩
    | cons m rest ih =>
      obtain ⟨v, same⟩ : ∃ v, (s.setSlider id r).zeroMotor id m = s.setSlider id v := by
        unfold State.zeroMotor
        split
        · exact ⟨_, State.setSlider_setSlider ..⟩
        · exact ⟨r, rfl⟩
      obtain ⟨q, ends⟩ := ih v
      exact ⟨q, by rw [forEach, List.foldl_cons, same]; exact ends⟩
  obtain ⟨r, received⟩ : ∃ r, (((s.setSlider id { s.slider id with runTime := 0 }).setPhases id
      (s.firstPhase id d)).zeroFinished id d) = s.setSlider id r := by
    rw [State.setPhases_eq, State.setSlider_setSlider]
    cases d with
    | outward => exact ⟨_, rfl⟩
    | stowing => exact zero _ _
  unfold State.slideAdmit
  dsimp only
  rw [received]
  split
  · exact ⟨r, .inl rfl⟩
  · refine ⟨{ (s.setSlider id r).slider id with state := movingState d }, .inr ⟨rfl, ?_⟩⟩
    rw [State.setSlider_setSlider]

/-- Receiving a jack motion sets its jacks on their way in its direction; a level run begins its record besides. -/
theorem State.jackAdmit_moves (s : State) (a : Action) (run : Bool) : ∃ v : State,
    v = { s with level := v.level, jackSet := v.jackSet } ∧ (a ≠ .level → v.level = s.level) ∧
      Moves .jacks a.dir v (s.jackAdmit a run).1 ∧ (s.jackAdmit a run).1.headed (s.jacksOf a) a.dir := by
  by_cases level : a = .level
  · subst level
    let v : State := { s with level := s.level.admitted, jackSet := { s.jackSet with runTime := 0, levelMark := false } }
    let w := forEach v.configuredJacks (fun j t => t.onJack j fun r => { r with phase := .done, atStroke := false }) v
    have result : (s.jackAdmit .level run).1 = if run then w.contactBegin else w := rfl
    have done : Moves .jacks .outward v w := .of_controls
      (.forEach (fun j t => .onJack rfl fun _ same => same) v)
      (.forEach (fun j t => .onJack_rests (by simp)) v)
    have rest : w.headed (s.jacksOf .level) .outward := fun j mem way => by
      have phase : (w.jack j).phase = .done := by
        rw [(forEach_onJack (fun _ r => { r with phase := .done, atStroke := false }) v.configuredJacks
          (allJacks_nodup.filter _) v).2 j]
        exact congrArg Jack.phase (if_pos (show j ∈ v.configuredJacks from mem))
      rw [phase] at way
      cases way
    refine ⟨v, rfl, fun other => absurd rfl other, ?_, ?_⟩ <;> rw [result] <;> cases run
    · exact done
    · exact done.trans (.of_controls State.contactBegin_controls .contactBegin)
    · exact rest
    · exact rest.steers .contactBegin
  · refine ⟨s, rfl, fun _ => rfl, .of_controls State.jackAdmit_controls (.jackAdmit level rfl), ?_⟩
    unfold State.jackAdmit
    dsimp only
    split
    · exact absurd rfl level
    · have headed := State.headed.forEach (d := a.dir) (fun j t => Steers.activated (s := t) (j := j) (a := a))
        (fun j t => Steers.dir_activated (s := t) (j := j) (a := a)) (s.jacksOf a)
        { s with jackSet := { s.jackSet with runTime := 0 } }
      split
      · split
        · exact (headed.steers (.startActive headed)).steers .pumpFollow
        · exact headed
      · exact headed.steers .jackCheck

/-! ### A motion is placed -/

theorem Ways.placeEntry (b : Ways s) (other : g ≠ .jacks) : Ways (s.placeEntry g o mo a).1 := by
  have perm := motions_placeEntry_perm (s := s) (g := g) (o := o) (mo := mo) (a := a)
  have layout : (s.placeEntry g o mo a).1.layout = s.layout := by rw [State.placeEntry_frame]
  have jack (j : JackId) : (s.placeEntry g o mo a).1.jack j = s.jack j := by rw [State.placeEntry_frame]; rfl
  refine ⟨fun e mem group j among => ?_, fun on => ?_⟩
  · rw [State.jacksOf_layout layout] at among
    rw [jack]
    obtain same | old := List.mem_cons.mp (perm.mem_iff.mp mem)
    · exact absurd (same ▸ group : (s.newMotion g o mo a).group = .jacks) other
    · exact b.jacks e old group j among
  · rw [State.placeEntry_frame] at on
    obtain ⟨e, mem, level⟩ := b.level on
    exact ⟨e, perm.mem_iff.mpr (List.mem_cons_of_mem _ mem), level⟩

namespace Device

/-- A motion has been placed and its controller has not received it yet: as if it were about to end. -/
theorem placed (b : Device R s l) (still : s.still g) (fits : Safety.actionFits g a = true) (other : g ≠ .jacks) :
    Device R (s.placeEntry g o mo a).1 (.endMotion g z :: l) := by
  have perm := motions_placeEntry_perm (s := s) (g := g) (o := o) (mo := mo) (a := a)
  have slider (id : Slider) : (s.placeEntry g o mo a).1.slider id = s.slider id := by
    rw [State.placeEntry_frame]
    cases id <;> rfl
  refine ⟨b.seats.placeEntry still fits, b.ways.placeEntry other, fun e mem id own => ?_, fun limit id => ?_⟩
  · obtain same | old := List.mem_cons.mp (perm.mem_iff.mp mem)
    · exact .inl ⟨z, same ▸ List.mem_cons_self⟩
    · rw [slider]
      exact (b.shown e old id own).imp_left fun leaves => leaves.append_left (r := [_])
  · refine (b.racks limit id).imp (fun leaves => leaves.append_left (r := [_])) fun fine =>
      fine.of ?_ (fun m => ?_) fun m n _ on => ?_
    · rw [State.placeEntry_frame]
    · unfold State.motor
      rw [slider]
    · rw [State.placeEntry_frame] at on
      exact on

/-- The motion that was to end may stay after all: it reads as it moves, and its counts stand near enough. -/
theorem settle (b : Device R s (.endMotion g z :: l))
    (shown : ∀ e ∈ s.motions, e.group = g → ∀ id, sliderOf g = some id →
      Leaving l g ∨ (s.slider id).state = movingState e.action.dir)
    (racks : R → ∀ id : Slider, id.group = g → Leaving l g ∨ s.rackFine id) : Device R s l where
  seats := b.seats
  ways := b.ways
  shown e mem id own := by
    by_cases same : e.group = g
    · exact same ▸ shown e mem same id (same ▸ own)
    · exact (b.shown e mem id own).imp_left fun leaves => leaves.other same
  racks limit id := by
    by_cases same : id.group = g
    · exact same ▸ racks limit id same
    · exact (b.racks limit id).imp_left fun leaves => leaves.other same

/-- The record of a slider whose motion is about to end changes. -/
theorem setSlider {q : SliderRec} (b : Device R s (.endMotion id.group z :: l)) :
    Device R (s.setSlider id q) (.endMotion id.group z :: l) := by
  have lists : (s.setSlider id q).load = s.load ∧ (s.setSlider id q).paused = s.paused ∧
      (s.setSlider id q).channels = s.channels ∧ (s.setSlider id q).layout = s.layout := by cases id <;> exact ⟨rfl, rfl, rfl, rfl⟩
  obtain ⟨load, paused, channels, layout⟩ := lists
  have motions := State.motions_congr load paused
  have other (i : Slider) (away : i.group ≠ id.group) : (s.setSlider id q).slider i = s.slider i := by
    rw [State.slider_setSlider, if_neg fun same => away (by rw [same])]
  refine ⟨b.seats.congr layout load paused channels, b.ways.congr layout (fun _ => by rw [motions]) ?_ ?_,
    fun e mem i own => ?_, fun limit i => ?_⟩
  · cases id <;> rfl
  · cases id <;> rfl
  · by_cases same : e.group = id.group
    · exact .inl ⟨z, same ▸ List.mem_cons_self⟩
    · have group : i.group = e.group := by
        cases group : e.group <;> rw [group] at own <;> simp [sliderOf] at own <;> subst own <;> rfl
      rw [other i (group ▸ same)]
      exact b.shown e (motions ▸ mem) i own
  · by_cases same : i.group = id.group
    · exact .inl ⟨z, same ▸ List.mem_cons_self⟩
    · refine (b.racks limit i).imp_right fun fine => fine.of layout (fun m => ?_) fun m n _ on => ?_
      · unfold State.motor
        rw [other i same]
      · unfold State.chan at on ⊢
        rwa [channels] at on

end Device

/-! ### A motion of a room or the awning is received -/

theorem Slider.eq_of_group (same : id.group = i.group) : id = i := by
  have both := congrArg sliderOf same
  rw [sliderOf_group, sliderOf_group] at both
  exact Option.some.inj both

theorem State.newMotion_listed : s.newMotion g o mo a ∈ (s.placeEntry g o mo a).1.motions :=
  motions_placeEntry_perm.mem_iff.mpr List.mem_cons_self

/-- A group has a motion where its lists show one. -/
theorem State.slideDir_of_motion (mem : e ∈ s.motions) (group : e.group = id.group) : s.slideDir id ≠ none := by
  obtain ⟨x, found⟩ := State.not_still_iff.mp fun still : s.still id.group => still e mem group
  unfold State.slideDir
  rw [found]
  simp

/-- The controller receives the motion that has just been placed: it reads as it moves, and its motors are not driven with their
counts too far apart, or it is about to end. -/
theorem Device.slideAdmit (b : Device R s l) (still : s.still id.group) (fits : Safety.actionFits id.group a = true)
    (placed : p = (s.placeEntry id.group o mo a).1) :
    Device R (p.slideAdmit id a.dir run).1 ((p.slideAdmit id a.dir run).2 ++ l) := by
  have base (z : Ending) : Device R p (.endMotion id.group z :: l) :=
    placed ▸ b.placed still fits (by cases id <;> simp [Slider.group])
  obtain ⟨r, ended | ⟨state, started⟩⟩ := p.slideAdmit_cases id a.dir run
  · rw [ended]
    exact (base _).setSlider
  have y : Ending := { outcome := .released }
  have received : Device R (p.setSlider id r) (.endMotion id.group y :: l) := (base y).setSlider
  have same : (p.setSlider id r).layout = s.layout ∧ (p.setSlider id r).channels = s.channels ∧
      (p.setSlider id r).motions = p.motions := by
    rw [placed, State.placeEntry_frame]
    cases id <;> exact ⟨rfl, rfl, rfl⟩
  have reads : ((p.setSlider id r).slider id).state = movingState a.dir := by
    rw [State.slider_setSlider, if_pos rfl]
    exact state
  have rests : (p.setSlider id r).rackFine id := by
    refine State.rackFine.at_rest fun m n own => ?_
    have own : s.motorChan id m = some n := by rwa [State.motorChan_layout same.1] at own
    have rest := b.seats.rest (State.group_motorChan own) still
    rw [Channel.busy, Bool.or_eq_false_iff] at rest
    unfold State.chan
    rw [same.2.1]
    exact rest.1
  have dir : ∀ e ∈ (p.setSlider id r).motions, e.group = id.group → e.action.dir = a.dir := fun e mem group => by
    have new : s.newMotion id.group o mo a ∈ (p.setSlider id r).motions := by
      rw [same.2.2, placed]
      exact State.newMotion_listed
    rw [received.seats.unique mem new group]
    rfl
  generalize p.setSlider id r = v at *
  rw [started]
  cases run with
  | false =>
    refine received.settle (fun e mem group i own => .inr ?_) fun _ i own => .inr ?_
    · obtain rfl : id = i := by rw [sliderOf_group] at own; exact Option.some.inj own
      rw [dir e mem group]
      exact reads
    · obtain rfl := Slider.eq_of_group own
      exact rests
  | true =>
    have moves : Moves id.group a.dir v (v.startMotors id a.dir).1 := .of_controls State.startMotors_controls .startMotors
    have moved := received.moves moves dir fun _ _ _ _ => .inl ⟨y, List.mem_cons_self⟩
    have more := moved.leave (r := .endMotion id.group y :: ((v.startMotors id a.dir).2 ++ l)) fun g leaves => by
      obtain ⟨z, mem⟩ := leaves
      exact ⟨z, by simp at mem ⊢; tauto⟩
    refine more.settle (fun e mem group i own => .inr ?_) fun _ i own => ?_
    · obtain rfl : id = i := by rw [sliderOf_group] at own; exact Option.some.inj own
      rw [moves.motions] at mem
      rw [moves.state, dir e mem group]
      exact reads
    · obtain rfl := Slider.eq_of_group own
      have moving : v.slideDir i ≠ none := by
        have new : s.newMotion i.group o mo a ∈ v.motions := by
          rw [same.2.2, placed]
          exact State.newMotion_listed
        exact State.slideDir_of_motion new rfl
      obtain fine | some := State.startMotors_checked (d := a.dir) moving rests
      · exact .inr fine
      · exact .inl ((State.startMotors_own.leaving some).append_right)

/-! ### A jack motion is received -/

theorem Device.jackAdmit (b : Device R s l) (still : s.still .jacks) (placed : p = (s.placeEntry .jacks o mo a).1) :
    Device R (p.jackAdmit a run).1 ((p.jackAdmit a run).2 ++ l) := by
  obtain ⟨v, frame, level, moves, headed⟩ := p.jackAdmit_moves a run
  have fits : Safety.actionFits .jacks a = true := by cases a <;> rfl
  have perm := motions_placeEntry_perm (s := s) (g := .jacks) (o := o) (mo := mo) (a := a)
  rw [← placed] at perm
  have seats : Seats v := by
    have base : Seats p := placed ▸ b.seats.placeEntry still fits
    rw [frame]
    exact base.congr rfl rfl rfl rfl
  have motions : v.motions = p.motions := by rw [frame]; rfl
  have new : s.newMotion .jacks o mo a ∈ v.motions := motions ▸ perm.mem_iff.mpr List.mem_cons_self
  have only (e : Entry) (mem : e ∈ v.motions) (group : e.group = .jacks) : e = s.newMotion .jacks o mo a :=
    seats.unique mem new group
  have before : p = { s with load := p.load, paused := p.paused, motionPeriod := p.motionPeriod, motionPulse := p.motionPulse
                             nextOrder := p.nextOrder } := by
    rw [placed]
    exact State.placeEntry_frame
  have slider (id : Slider) : v.slider id = s.slider id := by
    rw [frame, before]
    cases id <;> rfl
  have layout : v.layout = s.layout := by rw [frame, before]
  have after : Device R (p.jackAdmit a run).1 l := by
    refine ⟨seats.moves moves fun e mem group => by rw [only e mem group]; rfl, ⟨fun e mem group => ?_, fun on => ?_⟩,
      fun e mem id own => ?_, fun limit id => ?_⟩
    · rw [moves.motions] at mem
      rw [only e mem group, State.jacksOf_layout (moves.layout.trans (by rw [frame]))]
      exact headed
    · rw [moves.motions]
      by_cases run : a = .level
      · exact ⟨_, new, run⟩
      · have active := moves.level on
        unfold State.levelActive at active
        rw [level run, before] at active
        obtain ⟨e, mem, same⟩ := b.ways.level active
        exact ⟨e, motions ▸ perm.mem_iff.mpr (List.mem_cons_of_mem _ mem), same⟩
    · rw [moves.motions, motions] at mem
      rw [moves.state, slider]
      obtain same | old := List.mem_cons.mp (perm.mem_iff.mp mem)
      · rw [same] at own
        simp [State.newMotion, newEntry, sliderOf] at own
      · exact b.shown e old id own
    · refine (b.racks limit id).imp_right fun fine => moves.racks id (by cases id <;> simp [Slider.group]) ?_
      refine fine.of layout (fun m => ?_) fun m n _ on => ?_
      · unfold State.motor
        rw [slider]
      · rw [frame, before] at on
        exact on
  exact after.append

/-! ### A motion is admitted -/

theorem Device.placeAndStart (b : Device R s l) (still : s.still g) (fits : Safety.actionFits g a = true) :
    Device R (s.placeAndStart g o mo a).1 ((s.placeAndStart g o mo a).2 ++ l) := by
  unfold State.placeAndStart State.controllerAdmit
  dsimp only
  cases g with
  | room k => exact b.slideAdmit (id := .room k) still fits rfl
  | jacks => exact b.jackAdmit still rfl
  | awning => exact b.slideAdmit (id := .awning) still fits rfl

theorem Device.admitMotion (b : Device R s l) (still : s.still g) (fits : Safety.actionFits g a = true) :
    Device R (s.admitMotion g o mo a).1 ((s.admitMotion g o mo a).2 ++ l) :=
  (b.placeAndStart still fits).leave fun _ leaves => by
    obtain ⟨z, mem⟩ := leaves
    refine ⟨z, ?_⟩
    simp only [State.admitMotion, List.mem_append] at mem ⊢
    tauto

/-! ### A motion is taken up again -/

theorem State.slideDir_eq (b : Seats s) (mem : e ∈ s.motions) (group : e.group = id.group) :
    s.slideDir id = some e.action.dir := by
  obtain ⟨x, found⟩ := State.not_still_iff.mp fun still : s.still id.group => still e mem group
  obtain ⟨listed, own⟩ := State.entryOf_motion found
  have same := b.unique listed mem (own.trans group.symm)
  unfold State.slideDir
  rw [found]
  show some x.motion.action.dir = some e.action.dir
  rw [same]

theorem Device.slideResume (b : Device R s l) : Device R (s.slideResume id).1 ((s.slideResume id).2 ++ l) := by
  obtain ⟨d, dir⟩ := b.seats.direction id.group
  have way : ∀ e ∈ s.slideDir id, e = d := fun c found => by
    obtain ⟨x, entry, same⟩ := Option.map_eq_some_iff.mp found
    obtain ⟨listed, own⟩ := State.entryOf_motion entry
    exact same ▸ dir x.motion listed own
  have moves : Moves id.group d s (s.slideResume id).1 := .of_controls State.slideResume_controls (.slideResume way)
  refine (b.append (r := (s.slideResume id).2)).moves moves dir fun _ i own fine => ?_
  obtain rfl := Slider.eq_of_group own
  obtain after | some := State.slideResume_checked fine
  · exact .inr after
  · exact .inl ((State.slideResume_own.leaving some).append_right)

theorem Device.jackResume {first : Bool} (b : Device R s l) :
    Device R (s.jackResume first).1 ((s.jackResume first).2 ++ l) := by
  obtain ⟨d, dir⟩ := b.seats.direction .jacks
  have way : ∀ e ∈ s.jackMotion, e.action.dir = d ∧ s.headed (s.jacksOf e.action) d := fun x found => by
    obtain ⟨listed, own⟩ := State.entryOf_motion found
    have same : x.action.dir = d := dir x.motion listed own
    exact ⟨same, same ▸ b.ways.jacks x.motion listed own⟩
  exact (b.append (r := (s.jackResume first).2)).jacks (.of_controls State.jackResume_controls (.jackResume way)) dir

theorem Device.resumeEntry {order : Nat} {first : Bool} (b : Device R s l) :
    Device R (s.resumeEntry g order first).1 ((s.resumeEntry g order first).2 ++ l) := by
  unfold State.resumeEntry
  split
  · have handed {v : Work} (after : Device R v.1 (v.2 ++ l)) : Device R v.1 ((.handover s.view :: v.2) ++ l) :=
      after.append (r := [_])
    unfold State.handing
    dsimp only
    split
    · exact handed b.slideResume
    · exact handed b.jackResume
  · exact b

end

end Sys2Proof.Machine
end

section
/-! PROOFS. What holds of the lists, the claim table and the running plan while the work of an event is still to be done: every
motion has its claim, and every motion of the sequencer its slot in the present step (R110, R147, R150 to R154). -/

namespace Sys2Proof.Machine

section
variable {s t u w : State} {g h : Group} {e x y : Entry} {b c : Claim} {z : Ending} {a : Action} {o : Owner} {mo : Mode}
  {l r old new : List Task} {v : Task} {st : PlanStatus} {f : Option PlanFailure}

/-! ### The sequencer's work -/

/-- The groups of a step that the work still places. -/
def Task.places : Task → PlanStep
  | .place rest => rest
  | _ => []

/-- The group whose ending the work still hands to the sequencer. -/
def Task.takes : Task → List Group
  | .planTakes g .. => [g]
  | _ => []

/-- Work that neither belongs to the sequencer nor frees the claim of a motion that it ends. -/
def Task.mild : Task → Prop
  | .beginStep | .endPlan | .planTakes .. => False
  | .place rest => rest = []
  | .endMotion _ z => z.claim ≠ .free
  | _ => True

theorem EndsOnly.mild (own : EndsOnly g l) : ∀ u ∈ l, u.mild := fun u mem => by
  obtain ⟨z, rfl, rule⟩ := own u mem
  simp [Task.mild, rule]

theorem Task.mild.places (a : v.mild) : v.places = [] := by cases v <;> simp_all [Task.mild, Task.places]

theorem Task.mild.takes (a : v.mild) : v.takes = [] := by cases v <;> simp_all [Task.mild, Task.takes]

theorem places_mild (mild : ∀ u ∈ l, u.mild) : l.flatMap Task.places = [] :=
  List.flatMap_eq_nil_iff.mpr fun u mem => (mild u mem).places

theorem takes_mild (mild : ∀ u ∈ l, u.mild) : l.flatMap Task.takes = [] :=
  List.flatMap_eq_nil_iff.mpr fun u mem => (mild u mem).takes

/-- The running plan holds the claim of every group that its steps name. -/
def State.planHeld (s : State) : Prop :=
  ∃ n, s.plan.name = some n ∧ 1 ≤ s.plan.stepIndex ∧ s.plan.stepIndex ≤ s.plan.stepCount ∧
    s.plan.stepCount = (s.layout.planSteps n).length ∧
    ∀ g ∈ planGroups (s.layout.planSteps n), ∃ c, s.claim g = some c ∧ c.owner = .sequencer ∧ c.mode = .auto

/-- A step of the running plan is about to begin: no motion of the plan is left. -/
def Begins (s : State) (l : List Task) : Prop :=
  ∃ rest, l = .beginStep :: rest ∧ .beginStep ∉ rest ∧ rest.flatMap Task.places = [] ∧ rest.flatMap Task.takes = [] ∧
    ∀ e ∈ s.motions, e.owner ≠ .sequencer

/-- The present step of the running plan has a slot for each group placed, the others are still to be placed, and each motion
of the sequencer is that of an ACTIVE slot, as is each ending that the sequencer is still to take. -/
structure Places (s : State) (l : List Task) : Prop where
  begun : .beginStep ∉ l
  step : ∃ done, s.presentStep = done ++ l.flatMap Task.places ∧ s.plan.slots.map Slot.group = done.map Prod.fst
  active : ∀ e ∈ s.motions, e.owner = .sequencer → ⟨e.group, none⟩ ∈ s.plan.slots
  once : (l.flatMap Task.takes).Nodup
  taken : ∀ g ∈ l.flatMap Task.takes, ⟨g, none⟩ ∈ s.plan.slots ∧ s.still g

/-- Every motion has the claim of its group, with its owner, mode and action (R110). -/
def State.motionsClaimed (s : State) : Prop :=
  ∀ e ∈ s.motions, ∃ c, s.claim e.group = some c ∧ c.owner = e.owner ∧ c.mode = e.mode ∧ c.action = e.action

/-- The lists, the claim table and the plan within an event, with the work still to be done. -/
structure Books (s : State) (l : List Task) : Prop where
  plans : Safety.PlansFit s.layout
  claimed : s.motionsClaimed
  kept : ∀ g z, .endMotion g z ∈ l → z.claim ≠ .free
  owed : s.planRunning = false → ∀ e ∈ s.motions, e.owner = .sequencer → .endPlan ∈ l
  ended : .endPlan ∈ l → s.planRunning = false
  held : s.planRunning = true → s.planHeld
  stage : s.planRunning = true → Begins s l ∨ Places s l

/-- Nothing that the books tell of has changed, but for motions that have ended. -/
structure SameBooks (s t : State) : Prop where
  layout : t.layout = s.layout
  motions : ∀ e ∈ t.motions, e ∈ s.motions
  claims : t.claims = s.claims
  plan : t.plan = s.plan

theorem Desk.same (d : Desk s t) : SameBooks s t := ⟨d.layout, fun e => (d.motions e).mp, d.claims, d.plan⟩

theorem SameBooks.refl (s : State) : SameBooks s s := ⟨rfl, fun _ mem => mem, rfl, rfl⟩

theorem SameBooks.running (d : SameBooks s t) : t.planRunning = s.planRunning := by
  unfold State.planRunning
  rw [d.plan]

theorem SameBooks.planHeld (d : SameBooks s t) (held : s.planHeld) : t.planHeld := by
  unfold State.planHeld State.claim
  rw [d.plan, d.layout, d.claims]
  exact held

theorem SameBooks.places (d : SameBooks s t) (b : Places s l) : Places t l where
  begun := b.begun
  step := by rw [State.presentStep_congr d.plan d.layout, d.plan]; exact b.step
  active e mem own := by rw [d.plan]; exact b.active e (d.motions e mem) own
  once := b.once
  taken g mem := by
    rw [d.plan]
    exact ⟨(b.taken g mem).1, fun e listed => (b.taken g mem).2 e (d.motions e listed)⟩

/-- Mild work comes in place of mild work at the head. -/
theorem Places.swap (b : Places s (old ++ l)) (before : ∀ u ∈ old, u.mild) (after : ∀ u ∈ new, u.mild) :
    Places s (new ++ l) := by
  have places : (new ++ l).flatMap Task.places = (old ++ l).flatMap Task.places := by
    rw [List.flatMap_append, List.flatMap_append, places_mild before, places_mild after]
  have takes : (new ++ l).flatMap Task.takes = (old ++ l).flatMap Task.takes := by
    rw [List.flatMap_append, List.flatMap_append, takes_mild before, takes_mild after]
  refine ⟨fun mem => ?_, by rw [places]; exact b.step, b.active, by rw [takes]; exact b.once, by rw [takes]; exact b.taken⟩
  obtain mem | mem := List.mem_append.mp mem
  · exact (after _ mem).elim
  · exact b.begun (List.mem_append_right _ mem)

/-- Mild work is done and leaves mild work, while the books stand. -/
theorem Books.swap (b : Books s (old ++ l)) (d : SameBooks s t) (before : ∀ u ∈ old, u.mild) (after : ∀ u ∈ new, u.mild)
    (head : ∀ r, old ++ l ≠ .beginStep :: r) : Books t (new ++ l) where
  plans := by rw [d.layout]; exact b.plans
  claimed e mem := by
    unfold State.claim
    rw [d.claims]
    exact b.claimed e (d.motions e mem)
  kept g z mem := by
    obtain mem | mem := List.mem_append.mp mem
    · exact after _ mem
    · exact b.kept g z (List.mem_append_right _ mem)
  owed idle e mem own := by
    obtain mem | mem := List.mem_append.mp (b.owed (d.running ▸ idle) e (d.motions e mem) own)
    · exact (before _ mem).elim
    · exact List.mem_append_right _ mem
  ended mem := by
    rw [d.running]
    obtain mem | mem := List.mem_append.mp mem
    · exact (after _ mem).elim
    · exact b.ended (List.mem_append_right _ mem)
  held runs := d.planHeld (b.held (d.running ▸ runs))
  stage runs := by
    obtain ⟨rest, same, -⟩ | places := b.stage (d.running ▸ runs)
    · exact absurd same (head rest)
    · exact .inr (d.places (places.swap before after))

/-- The head of the work is mild, and what it leaves is. -/
theorem Books.mild (b : Books s (v :: l)) (d : SameBooks s t) (before : v.mild) (after : ∀ u ∈ new, u.mild) :
    Books t (new ++ l) := by
  refine Books.swap (old := [v]) b d (by simpa using before) after fun r same => ?_
  rw [(List.cons.inj same).1] at before
  exact before

/-- An event on books at rest leaves mild work. -/
theorem Books.opened (b : Books s []) (d : SameBooks s t) (after : ∀ u ∈ new, u.mild) : Books t new := by
  have opened := Books.swap (old := []) (l := []) b d (by simp) after (by simp)
  rwa [List.append_nil] at opened

/-! ### A motion ends -/

theorem mild_ends (own : x.owner ≠ .sequencer) (found : s.entryOf g = some x) : ∀ u ∈ (s.motionEnd g z).2, u.mild := by
  rw [State.motionEnd_work found, if_neg own]
  intro u mem
  simp only [List.mem_cons, List.mem_append] at mem
  obtain rfl | mem | mem := mem
  · trivial
  · split at mem
    · rw [List.mem_singleton.mp mem]
      trivial
    · simp at mem
  · simp at mem

/-- The claim of a group that the plan holds stays through an ending that does not free it. -/
theorem ClaimEffect.apply_held {f : ClaimEffect} (keeps : f ≠ .free) (own : c.owner = .sequencer) (mode : c.mode = .auto) :
    f.apply (some c) = some c := by
  cases f with
  | byRule => simp [ClaimEffect.apply, endedByRule, mode, own]
  | free => exact absurd rfl keeps
  | keep => rfl

theorem Books.motionEnd (b : Books s (.endMotion g z :: l)) : Books (s.motionEnd g z).1 ((s.motionEnd g z).2 ++ l) := by
  have keeps := b.kept g z List.mem_cons_self
  by_cases still : s.still g
  · rw [State.motionEnd_still still]
    exact b.mild (.refl s) keeps (by simp)
  obtain ⟨x, found⟩ := State.not_still_iff.mp still
  obtain ⟨listed, group⟩ := State.entryOf_motion found
  have claim (h : Group) := State.claim_motionEnd (h := h) (z := z) found
  have layout : (s.motionEnd g z).1.layout = s.layout :=
    (State.motionEnd_does (F := fun _ => True) fun _ => trivial).follows.layout
  have plan := State.plan_motionEnd (s := s) (g := g) (z := z)
  have runs : (s.motionEnd g z).1.planRunning = s.planRunning := by unfold State.planRunning; rw [plan]
  have work := State.motionEnd_work (e := z) found
  have ends (y : Group) (q : Ending) (mem : Task.endMotion y q ∈ (s.motionEnd g z).2) : False := by
    rw [work] at mem
    simp only [List.mem_cons, List.mem_append] at mem
    obtain mem | mem | mem := mem
    · cases mem
    · split at mem <;> simp at mem
    · split at mem <;> simp at mem
  have others : Task.endPlan ∉ (s.motionEnd g z).2 ∧ Task.beginStep ∉ (s.motionEnd g z).2 ∧
      (s.motionEnd g z).2.flatMap Task.places = [] ∧
      (s.motionEnd g z).2.flatMap Task.takes = if x.owner = .sequencer then [g] else [] := by
    rw [work]
    split <;> split <;> simp [Task.places, Task.takes]
  obtain ⟨noEnd, noBegin, places, takes⟩ := others
  refine ⟨layout ▸ b.plans, fun e mem => ?_, fun y q mem => ?_, fun idle e mem own => ?_, fun mem => ?_, fun on => ?_,
    fun on => .inr ?_⟩
  · obtain ⟨mem, other⟩ := mem_motions_motionEnd.mp mem
    rw [claim, if_neg fun same => other same.symm]
    exact b.claimed e mem
  · obtain mem | mem := List.mem_append.mp mem
    · exact (ends y q mem).elim
    · exact b.kept y q (List.mem_cons_of_mem _ mem)
  · obtain same | mem := List.mem_cons.mp (b.owed (runs ▸ idle) e (mem_motions_motionEnd.mp mem).1 own)
    · cases same
    · exact List.mem_append_right _ mem
  · rw [runs]
    obtain mem | mem := List.mem_append.mp mem
    · exact absurd mem noEnd
    · exact b.ended (List.mem_cons_of_mem _ mem)
  · obtain ⟨n, name, low, high, count, claims⟩ := b.held (runs ▸ on)
    refine ⟨n, by rw [plan]; exact name, by rw [plan]; exact low, by rw [plan]; exact high,
      by rw [plan, layout]; exact count, fun h mem => ?_⟩
    rw [layout] at mem
    obtain ⟨c, held, own, mode⟩ := claims h mem
    refine ⟨c, ?_, own, mode⟩
    rw [claim]
    split
    · rename_i same
      rw [same, held]
      exact ClaimEffect.apply_held keeps own mode
    · exact held
  · obtain ⟨rest, same, -⟩ | stage := b.stage (runs ▸ on)
    · cases same
    have before : (Task.endMotion g z :: l).flatMap Task.places = l.flatMap Task.places ∧
        (Task.endMotion g z :: l).flatMap Task.takes = l.flatMap Task.takes := ⟨rfl, rfl⟩
    refine ⟨fun mem => ?_, ?_, fun e mem own => ?_, ?_, fun h mem => ?_⟩
    · obtain mem | mem := List.mem_append.mp mem
      · exact noBegin mem
      · exact stage.begun (List.mem_cons_of_mem _ mem)
    · rw [State.presentStep_congr plan layout, plan, List.flatMap_append, places]
      exact stage.step
    · rw [plan]
      exact stage.active e (mem_motions_motionEnd.mp mem).1 own
    · rw [List.flatMap_append, takes]
      split
      · refine List.nodup_cons.mpr ⟨fun mem => ?_, stage.once⟩
        exact (stage.taken g mem).2 _ listed group
      · exact stage.once
    · rw [plan]
      rw [List.flatMap_append, takes] at mem
      have gone : (s.motionEnd g z).1.still g := fun e mem => (mem_motions_motionEnd.mp mem).2
      obtain own | mem := List.mem_append.mp mem
      · split at own
        · rename_i sequencer
          obtain rfl := List.mem_singleton.mp own
          have slot : (⟨x.group, none⟩ : Slot) ∈ s.plan.slots := stage.active x.motion listed sequencer
          exact ⟨group ▸ slot, gone⟩
        · simp at own
      · exact ⟨(stage.taken h mem).1, fun e listed => (stage.taken h mem).2 e (mem_motions_motionEnd.mp listed).1⟩

/-! ### The plan ends or passes on -/

/-- The plan ends. -/
theorem Books.planEnd (plans : Safety.PlansFit s.layout) (claimed : s.motionsClaimed)
    (kept : ∀ g z, .endMotion g z ∈ l → z.claim ≠ .free) (done : st ≠ .running) :
    Books (s.planEnd st f).1 ((s.planEnd st f).2 ++ l) where
  plans := plans
  claimed := claimed
  kept g z mem := by
    obtain same | mem := List.mem_cons.mp mem
    · cases same
    · exact kept g z mem
  owed _ _ _ _ := List.mem_cons_self
  ended _ := by
    change (st == PlanStatus.running) = false
    simpa using done
  held on := by
    change (st == PlanStatus.running) = true at on
    simp [done] at on
  stage on := by
    change (st == PlanStatus.running) = true at on
    simp [done] at on

/-- The sequencer looks whether the step is complete. -/
theorem Books.stepAdvance (b : Books s l) (stage : s.planRunning = true → Places s l) :
    Books s.stepAdvance.1 (s.stepAdvance.2 ++ l) := by
  unfold State.stepAdvance
  split
  · rename_i both
    obtain ⟨on, complete⟩ := Bool.and_eq_true_iff.mp both
    split
    · rename_i more
      have stage := stage on
      obtain ⟨done, step, slots⟩ := stage.step
      unfold State.stepComplete at complete
      obtain ⟨count, outcomes⟩ := Bool.and_eq_true_iff.mp complete
      have idle (g : Group) (mem : (⟨g, none⟩ : Slot) ∈ s.plan.slots) : False := by
        have given := List.all_eq_true.mp outcomes _ mem
        simp at given
      have empty : l.flatMap Task.places = [] := by
        have lengths := congrArg List.length slots
        rw [List.length_map, List.length_map] at lengths
        rw [decide_eq_true_eq, step, List.length_append] at count
        exact List.length_eq_zero_iff.mp (by omega)
      refine ⟨b.plans, b.claimed, fun g z mem => ?_, fun off => absurd (off.symm.trans on) (by simp), fun mem => ?_, fun _ => ?_,
        fun _ => .inl ⟨l, rfl, stage.begun, empty, ?_, fun e mem own => idle _ (stage.active e mem own)⟩⟩
      · obtain same | mem := List.mem_cons.mp mem
        · cases same
        · exact b.kept g z mem
      · obtain same | mem := List.mem_cons.mp mem
        · cases same
        · exact b.ended mem
      · obtain ⟨n, name, low, high, steps, claims⟩ := b.held on
        exact ⟨n, name, Nat.le_succ_of_le low, more, steps, claims⟩
      · exact List.eq_nil_iff_forall_not_mem.mpr fun g mem => idle g (stage.taken g mem).1
    · exact .planEnd b.plans b.claimed b.kept (by simp)
  · exact b

/-- A piece of the sequencer's work that finds no plan running is done with. -/
theorem Books.drop (b : Books s (v :: l)) (other : v ≠ .endPlan) (idle : s.planRunning = false) : Books s l where
  plans := b.plans
  claimed := b.claimed
  kept g z mem := b.kept g z (List.mem_cons_of_mem _ mem)
  owed _ e mem own := (List.mem_cons.mp (b.owed idle e mem own)).resolve_left fun same => other same.symm
  ended _ := idle
  held on := absurd (idle.symm.trans on) (by simp)
  stage on := absurd (idle.symm.trans on) (by simp)

/-! ### The sequencer takes an ending -/

/-- The head of the work is done with, and the plan's stage is what is left of it. -/
theorem Books.rest (b : Books s (v :: l)) (other : v ≠ .endPlan) (stage : s.planRunning = true → Places s l) : Books s l where
  plans := b.plans
  claimed := b.claimed
  kept g z mem := b.kept g z (List.mem_cons_of_mem _ mem)
  owed idle e mem own := (List.mem_cons.mp (b.owed idle e mem own)).resolve_left fun same => other same.symm
  ended mem := b.ended (List.mem_cons_of_mem _ mem)
  held := b.held
  stage on := .inr (stage on)

theorem Books.planTakes {q : Ending} {k : Option FaultCode} (b : Books s (.planTakes g a q k :: l)) :
    Books (s.planTakes g a q k).1 ((s.planTakes g a q k).2 ++ l) := by
  have stage (on : s.planRunning = true) : Places s (.planTakes g a q k :: l) := by
    obtain ⟨rest, same, -⟩ | stage := b.stage on
    · cases same
    · exact stage
  have left (on : s.planRunning = true) : Places s l :=
    { begun := fun mem => (stage on).begun (List.mem_cons_of_mem _ mem)
      step := (stage on).step
      active := (stage on).active
      once := (List.nodup_cons.mp (stage on).once).2
      taken := fun h mem => (stage on).taken h (List.mem_cons_of_mem _ mem) }
  have rest : Books s l := b.rest (by simp) left
  unfold State.planTakes
  split
  · exact rest
  split
  · rename_i live success
    have on : s.planRunning = true := by
      by_contra off
      exact live (.inl (by simpa using off))
    obtain ⟨fresh, -⟩ := List.nodup_cons.mp (stage on).once
    have still : s.still g := ((stage on).taken g List.mem_cons_self).2
    have slot (h : Group) (other : h ≠ g) (mem : (⟨h, none⟩ : Slot) ∈ s.plan.slots) :
        (⟨h, none⟩ : Slot) ∈ s.plan.slots.map fun x => if x.group = g then { x with outcome := some q.outcome } else x :=
      List.mem_map.mpr ⟨⟨h, none⟩, mem, by simp [other]⟩
    refine Books.stepAdvance ⟨rest.plans, rest.claimed, rest.kept, rest.owed, rest.ended, rest.held, fun on => .inr ?_⟩
      fun on => ?_
    all_goals
      refine ⟨(left on).begun, ?_, fun e mem own => ?_, (left on).once, fun h mem => ⟨?_, ((left on).taken h mem).2⟩⟩
      · obtain ⟨done, step, slots⟩ := (left on).step
        refine ⟨done, step, slots ▸ ?_⟩
        rw [List.map_map]
        refine List.map_congr_left fun x _ => ?_
        simp only [Function.comp]
        split <;> rfl
      · exact slot _ (still e mem) ((left on).active e mem own)
      · exact slot h (fun same => fresh (same ▸ mem)) ((left on).taken h mem).1
  · refine .planEnd rest.plans rest.claimed rest.kept ?_
    split <;> simp

/-! ### A step begins -/

theorem Books.stepBegin (b : Books s (.beginStep :: l)) : Books s.stepBegin.1 (s.stepBegin.2 ++ l) := by
  unfold State.stepBegin
  split
  · rename_i on
    obtain ⟨rest, same, fresh, places, takes, none⟩ | stage := b.stage on
    swap
    · exact absurd List.mem_cons_self stage.begun
    obtain rfl := (List.cons.inj same).2
    dsimp only
    split
    · exact .planEnd b.plans b.claimed (fun g z mem => b.kept g z (List.mem_cons_of_mem _ mem)) (by simp)
    · refine ⟨b.plans, b.claimed, fun g z mem => ?_, fun off => absurd (off.symm.trans on) (by simp), fun mem => ?_,
        fun _ => b.held on, fun _ => .inr ⟨by simpa using fresh, ⟨[], ?_, rfl⟩, fun e mem own => absurd own (none e mem), ?_,
        fun g mem => ?_⟩⟩
      · exact b.kept g z (by simpa using mem)
      · exact b.ended (by simpa using mem)
      · simp [List.flatMap_cons, Task.places, places]
      · simp [List.flatMap_cons, Task.takes, takes]
      · simp [List.flatMap_cons, Task.takes, takes] at mem
  · rename_i off
    exact b.drop (by simp) (by simpa using off)

/-! ### The groups of a step are placed -/

theorem State.claim_aimClaim (held : s.claim g = some c) (own : c.owner = .sequencer) :
    (s.aimClaim g a).claim h = if h = g then some { c with action := a } else s.claim h := by
  unfold State.aimClaim
  rw [held]
  dsimp only
  rw [if_pos own, State.claim_setClaim]
  by_cases same : g = h
  · rw [if_pos same, if_pos same.symm]
  · rw [if_neg same, if_neg fun back => same back.symm]

/-- A group of the present step is one that the plan names, with an action that it can make. -/
theorem State.presentStep_fits (plans : Safety.PlansFit s.layout) {n : PlanName} (name : s.plan.name = some n)
    (mem : (g, a) ∈ s.presentStep) : g ∈ planGroups (s.layout.planSteps n) ∧ Safety.actionFits g a = true ∧
      (s.presentStep.map Prod.fst).Nodup := by
  have step : s.presentStep ∈ s.layout.planSteps n := by
    unfold State.presentStep at mem ⊢
    rw [name] at mem ⊢
    dsimp only at mem ⊢
    cases found : (s.layout.planSteps n)[s.plan.stepIndex - 1]? with
    | none => rw [found] at mem; simp at mem
    | some step => exact List.mem_of_getElem? found
  obtain ⟨once, fits⟩ := (plans n).2 _ step
  refine ⟨?_, fits _ mem, once⟩
  unfold planGroups
  rw [List.mem_filter]
  refine ⟨mem_allGroups g, List.any_eq_true.mpr ⟨_, step, List.any_eq_true.mpr ⟨_, mem, by simp⟩⟩⟩

/-- The next group of the step has no motion, and no ending of it is still to be taken. -/
theorem Places.next {r : PlanStep} (b : Books s (.place ((g, a) :: r) :: l)) (on : s.planRunning = true)
    (stage : Places s (.place ((g, a) :: r) :: l)) :
    s.still g ∧ g ∉ l.flatMap Task.takes ∧ Safety.actionFits g a = true ∧
      ∃ c, s.claim g = some c ∧ c.owner = .sequencer ∧ c.mode = .auto := by
  obtain ⟨done, step, slots⟩ := stage.step
  obtain ⟨n, name, -, -, -, claims⟩ := b.held on
  have mem : (g, a) ∈ s.presentStep := by
    rw [step]
    simp [Task.places]
  obtain ⟨named, fits, once⟩ := State.presentStep_fits b.plans name mem
  obtain ⟨c, claim, own, mode⟩ := claims g named
  have fresh : (⟨g, none⟩ : Slot) ∉ s.plan.slots := fun slot => by
    have placed : g ∈ done.map Prod.fst := slots ▸ List.mem_map.mpr ⟨_, slot, rfl⟩
    rw [step, List.map_append] at once
    exact (List.nodup_append.mp once).2.2 g placed g (by simp [Task.places]) rfl
  refine ⟨fun e listed group => fresh ?_, fun taken => fresh (stage.taken g taken).1, fits, c, claim, own, mode⟩
  obtain ⟨x, held, owner, -⟩ := b.claimed e listed
  rw [group, claim] at held
  obtain rfl := Option.some.inj held
  exact group ▸ stage.active e listed (owner.symm.trans own)

theorem State.presentStep_openSlot : ((s.aimClaim g a).openSlot g).presentStep = s.presentStep := by
  have plan : (s.aimClaim g a).plan = s.plan := State.plan_aimClaim
  have layout : (s.aimClaim g a).layout = s.layout := by rw [State.aimClaim_frame]
  unfold State.presentStep State.openSlot
  dsimp only
  rw [plan, layout]

theorem Books.placeNext {rest : PlanStep} (b : Books s (.place rest :: l)) :
    Books (s.placeNext rest).1 ((s.placeNext rest).2 ++ l) := by
  cases rest with
  | nil =>
    have stage (on : s.planRunning = true) : Places s l := by
      obtain ⟨rest, same, -⟩ | stage := b.stage on
      · cases same
      · exact Places.swap (old := [.place []]) (new := []) stage (by simp [Task.mild]) (by simp)
    exact Books.stepAdvance (b.rest (by simp) stage) stage
  | cons first rest =>
    obtain ⟨g, a⟩ := first
    rw [State.placeNext]
    split
    · rename_i on
      obtain ⟨rest', same, -⟩ | stage := b.stage on
      · cases same
      split
      · exact .planEnd b.plans b.claimed (fun g z mem => b.kept g z (List.mem_cons_of_mem _ mem)) (by simp)
      obtain ⟨still, untaken, -, c, held, own, mode⟩ := Places.next b on stage
      dsimp only
      let v := (s.aimClaim g a).openSlot g
      have before : v.layout = s.layout ∧ v.motions = s.motions ∧
          v.plan = { s.plan with slots := s.plan.slots ++ [⟨g, none⟩] } := by
        have aimed := s.aimClaim_frame (h := g) (a := a)
        change ((s.aimClaim g a).openSlot g).layout = _ ∧ ((s.aimClaim g a).openSlot g).motions = _ ∧
          ((s.aimClaim g a).openSlot g).plan = _
        generalize s.aimClaim g a = y at aimed
        rw [aimed]
        exact ⟨rfl, rfl, rfl⟩
      obtain ⟨layout', motions', plan'⟩ := before
      have claim (h : Group) : v.claim h = if h = g then some { c with action := a } else s.claim h :=
        State.claim_aimClaim held own
      have step : v.presentStep = s.presentStep := State.presentStep_openSlot
      change Books (v.admitMotion g .sequencer .auto a).1 ((v.admitMotion g .sequencer .auto a).2 ++ [.place rest] ++ l)
      have motions (e : Entry) := State.mem_motions_admitMotion (s := v) (h := g) (o := .sequencer) (m := .auto) (a := a) (y := e)
      have claims := State.claims_admitMotion (s := v) (h := g) (o := .sequencer) (m := .auto) (a := a)
      have plan := State.plan_admitMotion (s := v) (g := g) (o := .sequencer) (m := .auto) (a := a)
      have layout : (v.admitMotion g .sequencer .auto a).1.layout = v.layout :=
        ((State.controllerAdmit_controls (s := (v.placeEntry g .sequencer .auto a).1)).layout).trans (by
          rw [State.placeEntry_frame])
      have mild : ∀ u ∈ (v.admitMotion g .sequencer .auto a).2, u.mild := fun u mem => by
        obtain mem | mem := List.mem_append.mp mem
        · exact EndsOnly.mild State.controllerAdmit_own u mem
        · rw [List.mem_singleton.mp mem]
          trivial
      generalize v.admitMotion g .sequencer .auto a = w at *
      have running : w.1.planRunning = s.planRunning := by
        unfold State.planRunning
        rw [plan, plan']
      have listed (e : Entry) (mem : e ∈ w.1.motions) : e ∈ s.motions ∧ e.group ≠ g ∨
          (e.group = g ∧ e.owner = .sequencer ∧ e.mode = .auto ∧ e.action = a) := by
        obtain old | rfl := (motions e).mp mem
        · rw [motions'] at old
          exact .inl ⟨old, still e old⟩
        · exact .inr ⟨rfl, rfl, rfl, rfl⟩
      have claimed (h : Group) : w.1.claim h = if h = g then some { c with action := a } else s.claim h := by
        rw [← claim]
        unfold State.claim
        rw [claims]
      refine ⟨by rw [layout, layout']; exact b.plans, fun e mem => ?_, fun h z mem => ?_,
        fun off => absurd (off.symm.trans (running.trans on)) (by simp), fun mem => ?_, fun _ => ?_, fun _ => .inr
          ⟨fun mem => ?_, ?_, fun e mem owner => ?_, ?_, fun h mem => ?_⟩⟩
      · rw [claimed]
        obtain ⟨old, other⟩ | ⟨group, owner, auto, action⟩ := listed e mem
        · rw [if_neg other]
          exact b.claimed e old
        · rw [if_pos group]
          exact ⟨_, rfl, own.trans owner.symm, mode.trans auto.symm, action.symm⟩
      · simp only [List.append_assoc, List.mem_append] at mem
        obtain mem | mem | mem := mem
        · exact mild _ mem
        · simp at mem
        · exact b.kept h z (List.mem_cons_of_mem _ mem)
      · simp only [List.append_assoc, List.mem_append] at mem
        rw [running]
        obtain mem | mem | mem := mem
        · exact (mild _ mem).elim
        · simp at mem
        · exact b.ended (List.mem_cons_of_mem _ mem)
      · obtain ⟨n, name, low, high, count, named⟩ := b.held on
        unfold State.planHeld
        rw [plan, plan', layout, layout']
        refine ⟨n, name, low, high, count, fun h mem => ?_⟩
        rw [claimed]
        split
        · exact ⟨_, rfl, own, mode⟩
        · exact named h mem
      · simp only [List.append_assoc, List.mem_append] at mem
        obtain mem | mem | mem := mem
        · exact (mild _ mem).elim
        · simp at mem
        · exact stage.begun (List.mem_cons_of_mem _ mem)
      · obtain ⟨done, present, slots⟩ := stage.step
        refine ⟨done ++ [(g, a)], ?_, ?_⟩
        · rw [State.presentStep_congr plan layout, step, present, List.append_assoc w.2, List.flatMap_append,
            places_mild mild]
          simp [Task.places]
        · rw [plan, plan']
          simp [slots]
      · rw [plan, plan']
        obtain ⟨old, -⟩ | ⟨group, -⟩ := listed e mem
        · exact List.mem_append_left _ (stage.active e old owner)
        · rw [group]
          exact List.mem_append_right _ (by simp)
      · rw [List.append_assoc, List.flatMap_append, takes_mild mild]
        exact stage.once
      · rw [List.append_assoc, List.flatMap_append, takes_mild mild] at mem
        have mem : h ∈ l.flatMap Task.takes := mem
        obtain ⟨slot, quiet⟩ := stage.taken h mem
        rw [plan, plan']
        refine ⟨List.mem_append_left _ slot, fun e listed' => ?_⟩
        obtain ⟨old, -⟩ | ⟨group, -⟩ := listed e listed'
        · exact quiet e old
        · rw [group]
          exact fun same => untaken (same ▸ mem)
    · rename_i off
      exact b.drop (by simp) (by simpa using off)

/-! ### The ended plan gives its claims back -/

theorem Books.planEndNext (b : Books s (.endPlan :: l)) : Books s.planEndNext.1 (s.planEndNext.2 ++ l) := by
  have idle := b.ended List.mem_cons_self
  unfold State.planEndNext
  split
  · rename_i x found
    refine ⟨b.plans, b.claimed, fun g z mem => ?_, fun _ _ _ _ => by simp, fun _ => idle,
      fun on => absurd (idle.symm.trans on) (by simp), fun on => absurd (idle.symm.trans on) (by simp)⟩
    simp only [List.cons_append, List.nil_append, List.mem_cons, Task.endMotion.injEq, reduceCtorEq, false_or] at mem
    obtain ⟨-, rfl⟩ | mem := mem
    · simp
    · exact b.kept g z (List.mem_cons_of_mem _ mem)
  · rename_i none
    have others (e : Entry) (mem : e ∈ s.motions) : e.owner ≠ .sequencer := by
      obtain ⟨x, listed, rfl⟩ := mem_motions.mp mem
      have missed := List.find?_eq_none.mp none x (by simpa [or_comm] using listed)
      have missed : ¬ x.owner = .sequencer := by simpa using missed
      exact missed
    have plan : s.freePlanClaims.plan = s.plan ∧ s.freePlanClaims.layout = s.layout ∧ s.freePlanClaims.motions = s.motions := by
      obtain ⟨table, frame⟩ := (freePlanClaims_spec s).1
      rw [frame]
      exact ⟨rfl, rfl, rfl⟩
    obtain ⟨plan, layout, motions⟩ := plan
    have off : s.freePlanClaims.planRunning = false := by
      unfold State.planRunning at idle ⊢
      rwa [plan]
    generalize frees : s.freePlanClaims = w at *
    refine ⟨layout ▸ b.plans, fun e mem => ?_, fun g z mem => b.kept g z (List.mem_cons_of_mem _ mem), fun _ e mem own => ?_,
      fun _ => off, fun on => absurd (off.symm.trans on) (by simp), fun on => absurd (off.symm.trans on) (by simp)⟩
    · rw [motions] at mem
      obtain ⟨c, held, owner, rest⟩ := b.claimed e mem
      refine ⟨c, ?_, owner, rest⟩
      rw [← frees, State.claim_freePlanClaims, held, Option.filter_some, if_pos]
      simpa [owner] using others e mem
    · exact absurd own (others e (motions ▸ mem))

end

end Sys2Proof.Machine
end

section
/-! PROOFS. What every piece of an event's work keeps: the device, the books, and the permits of the motions, each of which stands or
is still to be tested (R125, R128). -/

namespace Sys2Proof.Machine

section
variable {s t u w : State} {g h : Group} {e x y : Entry} {z : Ending} {a : Action} {o : Owner} {mo : Mode}
  {l r new : List Task} {v : Task} {R : Prop}

/-! ### Permits -/

/-- A motion's permit stands now, or it stood in a state whose view is still to be handed over. -/
def Stands (s : State) (l : List Task) (e : Entry) : Prop :=
  s.permitCause e.group e.action = none ∨
    ∃ t : State, t.layout = s.layout ∧ .handover t.view ∈ l ∧ t.permitCause e.group e.action = none

/-- Every motion's permit stands, or a re-evaluation is still to be made. -/
def Permitted (s : State) (l : List Task) : Prop := .permits ∈ l ∨ ∀ e ∈ s.motions, Stands s l e

/-- Work that neither re-evaluates the permits nor hands states over. -/
def Task.blind : Task → Prop
  | .permits | .handover _ => False
  | _ => True

/-- A piece of work is done: the motions are those of before, or such as were permitted, and the states it changed are handed
over. -/
theorem Permitted.next (b : Permitted s (v :: l)) (layout : t.layout = s.layout) (blind : v.blind)
    (listed : ∀ e ∈ t.motions, e ∈ s.motions ∨ s.permitCause e.group e.action = none)
    (view : t.view = s.view ∨ .handover s.view ∈ new) : Permitted t (new ++ l) := by
  have stands (e : Entry) (permit : s.permitCause e.group e.action = none) : Stands t (new ++ l) e := by
    obtain same | handed := view
    · exact .inl ((State.permitCause_congr layout same).trans permit)
    · exact .inr ⟨s, layout.symm, List.mem_append_left _ handed, permit⟩
  obtain tests | all := b
  · obtain same | mem := List.mem_cons.mp tests
    · exact (same ▸ blind : Task.permits.blind).elim
    · exact .inl (List.mem_append_right _ mem)
  · refine .inr fun e mem => ?_
    obtain old | permit := listed e mem
    · obtain permit | ⟨u, same, handed, permit⟩ := all e old
      · exact stands e permit
      · obtain eq | mem := List.mem_cons.mp handed
        · exact (eq ▸ blind : (Task.handover _).blind).elim
        · exact .inr ⟨u, same.trans layout.symm, List.mem_append_right _ mem, permit⟩
    · exact stands e permit

/-- An event's own work: the states it changes are handed over before the rest. -/
theorem Permitted.handed (b : Permitted s l) (layout : t.layout = s.layout)
    (listed : ∀ e ∈ t.motions, e ∈ s.motions ∨ s.permitCause e.group e.action = none)
    (view : t.view = s.view ∨ .handover s.view ∈ new) : Permitted t (new ++ l) :=
  Permitted.next (v := .scan) (b.imp (List.mem_cons_of_mem _) fun all e mem =>
    (all e mem).imp_right fun ⟨u, same, handed, permit⟩ => ⟨u, same, List.mem_cons_of_mem _ handed, permit⟩)
    layout trivial listed view

theorem Permitted.handOver {old : View} (b : Permitted s (.handover old :: l)) :
    Permitted (s.handOver old).1 ((s.handOver old).2 ++ l) := by
  unfold State.handOver
  split
  · rename_i same
    obtain tests | all := b
    · exact .inl ((List.mem_cons.mp tests).resolve_left (by simp))
    · refine .inr fun e mem => ?_
      obtain permit | ⟨u, layout, handed, permit⟩ := all e mem
      · exact .inl permit
      · obtain eq | mem := List.mem_cons.mp handed
        · exact .inl ((State.permitCause_congr layout.symm (same.trans (Task.handover.inj eq).symm)).trans permit)
        · exact .inr ⟨u, layout, mem, permit⟩
  · exact .inl (by simp)

theorem Permitted.checkPermits : Permitted s.checkPermits.1 (s.checkPermits.2 ++ l) := by
  unfold State.checkPermits
  split
  · exact .inl (by simp)
  · rename_i none
    exact .inr fun e mem => .inl (State.fallenPermit_none_iff.mp none e mem)

theorem Permitted.motionEnd (b : Permitted s (.endMotion g z :: l)) :
    Permitted (s.motionEnd g z).1 ((s.motionEnd g z).2 ++ l) := by
  by_cases still : s.still g
  · rw [State.motionEnd_still still]
    exact b.next rfl trivial (fun _ => .inl) (.inl rfl)
  obtain ⟨x, found⟩ := State.not_still_iff.mp still
  refine b.next (State.motionEnd_does (F := fun _ => True) fun _ => trivial).follows.layout trivial
    (fun e mem => .inl (mem_motions_motionEnd.mp mem).1) (.inr ?_)
  rw [State.motionEnd_work found]
  exact List.mem_cons_self

/-- The states that the permits read are the same. -/
theorem Permitted.same (b : Permitted s (v :: l)) (blind : v.blind) (layout : t.layout = s.layout)
    (listed : ∀ e ∈ t.motions, e ∈ s.motions) (view : t.view = s.view) : Permitted t (new ++ l) :=
  b.next layout blind (fun e mem => .inl (listed e mem)) (.inl view)

/-! ### The sequencer's work moves nothing -/

/-- Of a state only the plan, the claims and the notices have changed. -/
structure Records (s t : State) : Prop where
  frame : t = { s with plan := t.plan, claims := t.claims, ports := t.ports }

theorem Records.planEnd {st : PlanStatus} {f : Option PlanFailure} : Records s (s.planEnd st f).1 := ⟨rfl⟩

theorem Records.stepAdvance : Records s s.stepAdvance.1 := by
  unfold State.stepAdvance
  split
  · split
    · exact ⟨rfl⟩
    · exact .planEnd
  · exact ⟨rfl⟩

theorem Records.stepBegin : Records s s.stepBegin.1 := by
  unfold State.stepBegin
  split
  · dsimp only
    split <;> exact ⟨rfl⟩
  · exact ⟨rfl⟩

theorem Records.planTakes {q : Ending} {k : Option FaultCode} : Records s (s.planTakes g a q k).1 := by
  unfold State.planTakes
  split
  · exact ⟨rfl⟩
  · split
    · dsimp only
      generalize s.plan.slots.map _ = slots
      obtain ⟨frame⟩ := Records.stepAdvance (s := { s with plan :=
        { s.plan with slots := slots, limited := s.plan.limited || decide (q.outcome = .limited) } })
      exact ⟨frame⟩
    · exact .planEnd

theorem Records.planEndNext : Records s s.planEndNext.1 := by
  unfold State.planEndNext
  split
  · exact ⟨rfl⟩
  · obtain ⟨table, frame⟩ := (freePlanClaims_spec s).1
    rw [frame]
    exact ⟨rfl⟩

theorem Records.aimed : Records s ((s.aimClaim g a).openSlot g) := by
  have aimed := s.aimClaim_frame (h := g) (a := a)
  generalize s.aimClaim g a = y at aimed
  rw [aimed]
  exact ⟨rfl⟩

theorem Records.layout (d : Records s t) : t.layout = s.layout := by rw [d.frame]

theorem Records.view (d : Records s t) : t.view = s.view := by
  rw [d.frame]
  rfl

theorem Records.motions (d : Records s t) : t.motions = s.motions := by
  rw [d.frame]
  rfl

theorem Records.permitCause (d : Records s t) : t.permitCause g a = s.permitCause g a :=
  State.permitCause_congr d.layout d.view

theorem Device.records (b : Device R s l) (d : Records s t) : Device R t l := by
  have seats : Seats t := by
    rw [d.frame]
    exact b.seats.congr rfl rfl rfl rfl
  refine b.relisted seats d.layout (fun _ => by rw [d.motions]) ?_ ?_ ?_ ?_ ?_ <;> rw [d.frame]

/-! ### What every piece of work keeps -/

/-- What holds within an event, with the work still to be done. -/
structure Sound (R : Prop) (s : State) (l : List Task) : Prop where
  device : Device R s l
  books : Books s l
  permits : Permitted s l

theorem Calm.evalAlarm : Calm s s.evalAlarm := by
  rw [s.butAlarm_evalAlarm.1]
  exact .of_same rfl rfl rfl rfl rfl rfl rfl rfl rfl rfl

theorem Device.drop (b : Device R s (v :: l)) (other : ∀ g z, v ≠ .endMotion g z) : Device R s l :=
  b.leave fun _ leaves => leaves.of_cons other

theorem Sound.planWork {p : Work} (b : Sound R s (v :: l)) (other : ∀ g z, v ≠ .endMotion g z) (blind : v.blind)
    (d : Records s p.1) (books : Books p.1 (p.2 ++ l)) : Sound R p.1 (p.2 ++ l) where
  device := ((b.device.drop other).records d).append
  books := books
  permits := b.permits.same blind d.layout (fun _ mem => d.motions ▸ mem) d.view

theorem Sound.placeNext {rest : PlanStep} (b : Sound R s (.place rest :: l)) :
    Sound R (s.placeNext rest).1 ((s.placeNext rest).2 ++ l) := by
  have books := b.books.placeNext
  cases rest with
  | nil => exact b.planWork (by simp) trivial .stepAdvance books
  | cons first rest =>
    obtain ⟨g, a⟩ := first
    rw [State.placeNext] at books ⊢
    split at books
    · rename_i on
      have stage : Places s (.place ((g, a) :: rest) :: l) := by
        obtain ⟨rest', same, -⟩ | stage := b.books.stage on
        · cases same
        · exact stage
      obtain ⟨still, -, fits, -⟩ := Places.next b.books on stage
      rw [if_pos on]
      split at books
      · rename_i c fallen
        exact b.planWork (by simp) trivial .planEnd books
      · rename_i permit
        have d : Records s ((s.aimClaim g a).openSlot g) := .aimed
        dsimp only at books ⊢
        have still' : ((s.aimClaim g a).openSlot g).still g := fun e mem => still e (d.motions ▸ mem)
        refine ⟨?_, books, ?_⟩
        · have device := ((b.device.drop (by simp)).records d).admitMotion (o := .sequencer) (mo := .auto) still' fits
          rw [List.append_assoc]
          refine device.leave fun _ leaves => ?_
          obtain ⟨z, mem⟩ := leaves
          refine ⟨z, ?_⟩
          simp only [List.mem_append] at mem ⊢
          tauto
        · refine b.permits.next ?_ trivial (fun e mem => ?_) (.inr ?_)
          · refine Eq.trans ?_ d.layout
            exact (State.controllerAdmit_controls.layout).trans (by rw [State.placeEntry_frame])
          · obtain old | rfl := State.mem_motions_admitMotion.mp mem
            · exact .inl (d.motions ▸ old)
            · exact .inr permit
          · simp only [State.admitMotion, List.mem_append]
            rw [d.view]
            exact .inl (.inr (by simp))
    · rename_i off
      rw [if_neg off]
      exact b.planWork (by simp) trivial ⟨rfl⟩ books

/-- One piece of work of an event. -/
theorem Sound.runTask (b : Sound R s (v :: l)) : Sound R (s.runTask v).1 ((s.runTask v).2 ++ l) := by
  obtain ⟨device, books, permits⟩ := b
  cases v with
  | endMotion g z => exact ⟨device.motionEnd.append, books.motionEnd, permits.motionEnd⟩
  | handover old =>
    have rest := device.drop (by simp)
    refine ⟨?_, ?_, permits.handOver⟩ <;> unfold State.runTask State.handOver <;> dsimp only <;> split
    · exact rest
    · exact (rest.calm .evalAlarm).append
    · exact books.mild (new := []) (.refl s) trivial (by simp)
    · exact books.mild Desk.evalAlarm.same trivial (by simp [Task.mild])
  | permits =>
    have rest := device.drop (by simp)
    refine ⟨?_, ?_, Permitted.checkPermits⟩ <;> unfold State.runTask State.checkPermits <;> dsimp only <;> split
    · exact rest.append
    · exact rest
    · exact books.mild (.refl s) trivial (by simp [Task.mild])
    · exact books.mild (new := []) (.refl s) trivial (by simp)
  | scan =>
    refine ⟨(device.drop (by simp)).scan.append, books.mild Desk.scan.same trivial fun u mem => ?_, ?_⟩
    · obtain ⟨e, -, rfl⟩ := List.mem_map.mp mem
      trivial
    · refine permits.same trivial ?_ (fun e => mem_motions_scan.mp) ?_
      · change s.scan.1.layout = _
        rw [State.scan_frame]
      · change s.scan.1.view = _
        rw [State.scan_frame]
        rfl
  | resume g order first =>
    obtain ⟨desk, work⟩ := State.resumeEntry_desk (s := s) (g := g) (order := order) (first := first)
    refine ⟨(device.drop (by simp)).resumeEntry, books.mild desk.same trivial fun u mem => ?_,
      permits.next desk.layout trivial (fun e mem => .inl ((desk.motions e).mp mem)) ?_⟩
    · change u ∈ (s.resumeEntry g order first).2 at mem
      obtain none | ⟨r, some, own⟩ := work
      · simp [none] at mem
      · rw [some] at mem
        obtain rfl | mem := List.mem_cons.mp mem
        · trivial
        · exact own.mild u mem
    · change (s.resumeEntry g order first).1.view = _ ∨ _ ∈ (s.resumeEntry g order first).2
      obtain none | ⟨r, some, -⟩ := work
      · refine .inl ?_
        unfold State.resumeEntry at none ⊢
        split at none
        · cases none
        · rename_i out
          rw [if_neg out]
      · exact .inr (by rw [some]; exact List.mem_cons_self)
  | planTakes g a q k => exact Sound.planWork ⟨device, books, permits⟩ (by simp) trivial .planTakes books.planTakes
  | beginStep => exact Sound.planWork ⟨device, books, permits⟩ (by simp) trivial .stepBegin books.stepBegin
  | place rest => exact Sound.placeNext ⟨device, books, permits⟩
  | endPlan => exact Sound.planWork ⟨device, books, permits⟩ (by simp) trivial .planEndNext books.planEndNext

end

end Sys2Proof.Machine
end

section
/-! PROOFS. That the work of an event comes to its end within the bound (log 19): each piece costs less than it was put down for. -/

namespace Sys2Proof.Machine

section
variable {s t u w : State} {g h : Group} {e x y : Entry} {z : Ending} {a : Action} {o : Owner} {mo : Mode} {id : Slider}
  {m : Motor} {d : Dir} {l r new : List Task} {v : Task} {R : Prop} {p : Work}

/-! ### A controller leaves one ending at most -/

theorem State.seatDone_brief : (s.seatDone id m).2.length ≤ 1 := by
  rw [(s.seatDone_spec id m).2.1]
  split <;> simp

theorem State.beginSeat_brief : (s.beginSeat id m).2.length ≤ 1 := by
  unfold State.beginSeat
  dsimp only
  split
  · exact State.seatDone_brief
  · simp

theorem State.rackCheck_brief (brief : p.2.length ≤ 1) : (s.rackCheck id p).2.length ≤ 1 := by
  unfold State.rackCheck
  split
  · simp [slideFault]
  · exact brief

theorem State.motorStarted_brief : (s.motorStarted id m).2.length ≤ 1 := by
  unfold State.motorStarted
  split
  · simp
  · refine State.rackCheck_brief ?_
    split
    · split
      · dsimp only
        split <;> simp [slideFault]
      · simp
    · split
      · exact State.rackCheck_brief State.beginSeat_brief
      · simp

theorem State.startMotor_brief : (s.startMotor id m d).2.length ≤ 1 := by
  unfold State.startMotor
  split
  · dsimp only
    split
    · exact State.motorStarted_brief
    · simp
  · simp

theorem State.startMotors_brief : (s.startMotors id d).2.length ≤ 1 := by
  have fold (l : List Motor) (w : Work) (brief : w.2.length ≤ 1) : (l.foldl (fun (w : Work) m =>
      if w.2.isEmpty && (w.1.motor id m).phase == .travel then w.1.startMotor id m d else w) w).2.length ≤ 1 := by
    induction l generalizing w with
    | nil => exact brief
    | cons m rest ih =>
      refine ih _ ?_
      beta_reduce
      split
      · exact State.startMotor_brief
      · exact brief
  exact fold _ (s, []) (by simp)

theorem State.slideAdmit_brief {run : Bool} : (s.slideAdmit id d run).2.length ≤ 1 := by
  obtain ⟨r, ended | ⟨-, started⟩⟩ := s.slideAdmit_cases id d run
  · simp [ended]
  · rw [started]
    split
    · exact State.startMotors_brief
    · simp

theorem State.slideResume_brief : (s.slideResume id).2.length ≤ 1 := by
  unfold State.slideResume
  split
  · exact State.startMotors_brief
  · simp

theorem State.jackCheck_brief : s.jackCheck.2.length ≤ 1 := by
  unfold State.jackCheck
  split
  · simp
  · split
    · simp
    · split
      · split
        · split <;> simp
        · simp
      · simp [jackEnding]

theorem State.jackAdmit_brief {run : Bool} : (s.jackAdmit a run).2.length ≤ 1 := by
  unfold State.jackAdmit
  dsimp only
  split
  · simp
  · split
    · simp
    · exact State.jackCheck_brief

theorem State.jackResume_brief {first : Bool} : (s.jackResume first).2.length ≤ 1 := by
  unfold State.jackResume
  split
  · simp
  · split
    · split
      · simp
      · split
        · simp
        · exact State.jackCheck_brief
    · exact State.jackCheck_brief

theorem State.controllerAdmit_brief {run : Bool} : (s.controllerAdmit g a run).2.length ≤ 1 := by
  cases g with
  | room k => exact State.slideAdmit_brief
  | jacks => exact State.jackAdmit_brief
  | awning => exact State.slideAdmit_brief

/-! ### What is still to be spent -/

/-- What a piece of work is put down for. -/
def Task.weight : Task → Nat
  | .endMotion .. => 1
  | .handover _ => 2
  | .permits => 1
  | .scan => 25
  | .resume .. => 4
  | .planTakes .. => 2
  | .beginStep => 207
  | .place rest => 34 * rest.length + 2
  | .endPlan => 1

def weights (l : List Task) : Nat := (l.map Task.weight).sum

theorem weights_append : weights (l ++ r) = weights l + weights r := by simp [weights]

theorem weights_cons : weights (v :: l) = v.weight + weights l := by simp [weights]

theorem Task.weight_pos (v : Task) : 0 < v.weight := by cases v <;> simp [Task.weight]

theorem EndsOnly.weights_le (own : EndsOnly g l) (brief : l.length ≤ 1) : weights l ≤ 1 := by
  cases l with
  | nil => simp [weights]
  | cons v rest =>
    obtain rfl : rest = [] := List.length_eq_zero_iff.mp (by simpa using brief)
    obtain ⟨z, rfl, -⟩ := own v List.mem_cons_self
    simp [weights, Task.weight]

theorem Controls.motions_eq (c : Controls g s t) : t.motions = s.motions := by
  have load := congrArg State.load c.outer
  have paused := congrArg State.paused c.outer
  exact State.motions_congr load paused

/-- What the motions and the steps of the plan to come are put down for. -/
def State.toil (s : State) : Nat :=
  30 * s.motions.length + if s.planRunning then 207 * (s.plan.stepCount - s.plan.stepIndex) else 0

theorem State.toil_congr (motions : t.motions.length = s.motions.length) (plan : t.plan = s.plan) : t.toil = s.toil := by
  unfold State.toil State.planRunning
  rw [motions, plan]

theorem Seats.motions_length (b : Seats s) : s.motions.length ≤ 6 := by
  have sub : (s.motions.map Entry.group) ⊆ allGroups := fun g _ => mem_allGroups g
  have length := (b.once.subperm sub).length_le
  rw [List.length_map] at length
  exact length

theorem State.scanMoves_length (l : List Entry) (s : State) : (s.scanMoves l).length ≤ l.length := by
  induction l generalizing s with
  | nil => simp [State.scanMoves]
  | cons e rest ih =>
    unfold State.scanMoves
    split
    · simpa using ih _
    · exact Nat.le_succ_of_le (ih _)

theorem State.presentStep_length (plans : Safety.PlansFit s.layout) (held : s.planHeld) : s.presentStep.length ≤ 6 := by
  obtain ⟨n, name, -⟩ := held
  match step : s.presentStep with
  | [] => simp
  | (g, a) :: rest =>
    have once := (State.presentStep_fits plans name (g := g) (a := a) (by rw [step]; simp)).2.2
    have sub : (s.presentStep.map Prod.fst) ⊆ allGroups := fun g _ => mem_allGroups g
    have length := (once.subperm sub).length_le
    rw [List.length_map, step] at length
    exact length

/-! ### Every piece of work spends -/

/-- A piece of work leaves less than it was put down for, or it leaves at its head the ending of a motion. -/
def Spends (s : State) (v : Task) (w : Work) : Prop :=
  w.1.toil + weights w.2 < s.toil + v.weight ∨
    ∃ g z rest, w.2 = .endMotion g z :: rest ∧ ¬ w.1.still g ∧ w.1.toil + weights w.2 ≤ s.toil + v.weight + 1

theorem Spends.planEnd {st : PlanStatus} {f : Option PlanFailure} (done : st ≠ .running) (heavy : 2 ≤ v.weight) :
    Spends s v (s.planEnd st f) := by
  refine .inl ?_
  have off : (s.planEnd st f).1.planRunning = false := by
    change (st == PlanStatus.running) = false
    simpa using done
  have motions : (s.planEnd st f).1.motions = s.motions := rfl
  have work : weights (s.planEnd st f).2 = 1 := rfl
  unfold State.toil
  rw [off, motions, work]
  simp only [Bool.false_eq_true, if_false]
  omega

theorem Spends.stepAdvance (heavy : v.weight = 2) : Spends s v s.stepAdvance := by
  unfold State.stepAdvance
  split
  · rename_i both
    have on := (Bool.and_eq_true_iff.mp both).1
    split
    · rename_i more
      refine .inl ?_
      dsimp only
      have motions : ({ s with plan := { s.plan with stepIndex := s.plan.stepIndex + 1 } } : State).motions = s.motions := rfl
      have runs : ({ s with plan := { s.plan with stepIndex := s.plan.stepIndex + 1 } } : State).planRunning = true := on
      unfold State.toil
      rw [motions, runs, on, heavy]
      simp only [if_true, weights, List.map_cons, List.map_nil, List.sum_cons, List.sum_nil, Task.weight]
      omega
    · exact .planEnd (by simp) (by omega)
  · exact .inl (by simp [weights, heavy])

theorem Spends.motionEnd (found : s.entryOf g = some x) :
    (s.motionEnd g z).1.toil + weights (s.motionEnd g z).2 + 1 ≤ s.toil := by
  obtain ⟨listed, group⟩ := State.entryOf_motion found
  have fewer : (s.motionEnd g z).1.motions.length + 1 ≤ s.motions.length := by
    rw [State.motions_motionEnd]
    have own : x.motion.group = g := group
    have gone : ¬ (x.motion.group != g) = true := by simpa using own
    exact List.length_filter_lt_length_iff_exists.mpr ⟨x.motion, listed, gone⟩
  have plan := State.plan_motionEnd (s := s) (g := g) (z := z)
  have work : weights (s.motionEnd g z).2 ≤ 29 := by
    rw [State.motionEnd_work found, weights_cons, weights_append]
    split <;> split <;> simp [weights, Task.weight]
  unfold State.toil State.planRunning
  rw [plan]
  omega

theorem Spends.placeNext {rest : PlanStep} : Spends s (.place rest) (s.placeNext rest) := by
  cases rest with
  | nil => exact .stepAdvance rfl
  | cons first rest =>
    obtain ⟨g, a⟩ := first
    rw [State.placeNext]
    split
    · split
      · exact .planEnd (by simp) (by simp [Task.weight])
      · refine .inl ?_
        dsimp only
        have d : Records s ((s.aimClaim g a).openSlot g) := .aimed
        have index : ((s.aimClaim g a).openSlot g).plan.status = s.plan.status ∧
            ((s.aimClaim g a).openSlot g).plan.stepCount = s.plan.stepCount ∧
            ((s.aimClaim g a).openSlot g).plan.stepIndex = s.plan.stepIndex := by
          unfold State.openSlot
          rw [State.plan_aimClaim]
          exact ⟨rfl, rfl, rfl⟩
        obtain ⟨status, count, index⟩ := index
        have motions := d.motions
        generalize (s.aimClaim g a).openSlot g = q at *
        have plan := State.plan_admitMotion (s := q) (g := g) (o := .sequencer) (m := .auto) (a := a)
        have more : (q.admitMotion g .sequencer .auto a).1.motions.length = s.motions.length + 1 := by
          have same : (q.admitMotion g .sequencer .auto a).1.motions = (q.placeEntry g .sequencer .auto a).1.motions := by
            exact Controls.motions_eq (State.controllerAdmit_controls (s := (q.placeEntry g .sequencer .auto a).1) (g := g)
              (a := a) (run := (q.placeEntry g .sequencer .auto a).2))
          rw [same, motions_placeEntry_perm.length_eq, List.length_cons, motions]
        have work : weights (q.admitMotion g .sequencer .auto a).2 ≤ 3 := by
          change weights (_ ++ [.handover q.view]) ≤ 3
          have own := State.controllerAdmit_own (s := (q.placeEntry g .sequencer .auto a).1) (g := g) (a := a)
            (run := (q.placeEntry g .sequencer .auto a).2)
          have brief := State.controllerAdmit_brief (s := (q.placeEntry g .sequencer .auto a).1) (g := g) (a := a)
            (run := (q.placeEntry g .sequencer .auto a).2)
          have small := own.weights_le brief
          rw [weights_append]
          simp only [weights, List.map_cons, List.map_nil, List.sum_cons, List.sum_nil, Task.weight] at small ⊢
          exact Nat.add_le_add_right small 2
        rw [weights_append]
        have toil : (q.admitMotion g .sequencer .auto a).1.toil = s.toil + 30 := by
          unfold State.toil State.planRunning
          rw [plan, more, status, count, index]
          omega
        rw [toil]
        simp only [weights, List.map_cons, List.map_nil, List.sum_cons, List.sum_nil, Task.weight, List.length_cons] at work ⊢
        omega
    · exact .inl (by simp [weights, Task.weight])

theorem Spends.runTask (b : Sound R s (v :: l)) (other : ∀ g z, v ≠ .endMotion g z) : Spends s v (s.runTask v) := by
  have idle (heavy : 1 ≤ v.weight) : Spends s v (s, []) := .inl (by simp only [weights, List.map_nil, List.sum_nil]; omega)
  cases v with
  | endMotion g z => exact absurd rfl (other g z)
  | handover old =>
    unfold State.runTask State.handOver
    dsimp only
    split
    · exact idle (by simp [Task.weight])
    · refine .inl ?_
      have toil : s.evalAlarm.toil = s.toil :=
        State.toil_congr (by rw [State.motions_congr] <;> rw [s.butAlarm_evalAlarm.1]) (by rw [s.butAlarm_evalAlarm.1])
      rw [toil]
      simp [weights, Task.weight]
  | permits =>
    unfold State.runTask State.checkPermits
    dsimp only
    split
    · rename_i g c fallen
      refine .inr ⟨g, _, _, rfl, fun still => ?_, by simp [weights, Task.weight]⟩
      obtain ⟨e, mem, cause⟩ := List.exists_of_findSome?_eq_some fallen
      obtain ⟨c', -, same⟩ := Option.map_eq_some_iff.mp cause
      exact still e.motion (mem_motions.mpr ⟨e, mem, rfl⟩) (congrArg Prod.fst same)
    · exact idle (by simp [Task.weight])
  | scan =>
    refine .inl ?_
    change s.scan.1.toil + weights s.scan.2 < s.toil + 25
    have toil : s.scan.1.toil = s.toil :=
      State.toil_congr (State.motions_scan_perm b.device.seats.paused_nodup).length_eq State.plan_scan
    have few : s.scan.2.length ≤ 6 := by
      have listed : s.paused.length ≤ s.motions.length := by simp [State.motions]
      have moves := State.scanMoves_length (scanOrder s.paused) s
      have order : (scanOrder s.paused).length ≤ s.paused.length :=
        (List.Nodup.subperm (nodup_scanOrder b.device.seats.paused_nodup) fun _ => mem_scanOrder).length_le
      have six := b.device.seats.motions_length
      have same : s.scan.2.length = (s.scanMoves (scanOrder s.paused)).length := List.length_map ..
      omega
    have work : weights s.scan.2 = 4 * s.scan.2.length := by
      have each (l : List Entry) : weights (l.map fun e => .resume e.group e.order (decide (e.state = .waiting))) =
          4 * (l.map fun e => Task.resume e.group e.order (decide (e.state = .waiting))).length := by
        induction l with
        | nil => rfl
        | cons e rest ih =>
          rw [List.map_cons, weights_cons, ih, List.length_cons]
          simp only [Task.weight]
          omega
      exact each _
    rw [toil, work]
    omega
  | resume g order first =>
    refine .inl ?_
    change (s.resumeEntry g order first).1.toil + weights (s.resumeEntry g order first).2 < s.toil + 4
    have taken (p : Work) (part : Controls g s p.1) (own : EndsOnly g p.2) (brief : p.2.length ≤ 1) :
        p.1.toil + weights (.handover s.view :: p.2) < s.toil + 4 := by
      have toil : p.1.toil = s.toil := State.toil_congr (by rw [part.motions_eq]) part.plan
      have small := own.weights_le brief
      rw [toil, weights_cons]
      simp only [Task.weight]
      omega
    unfold State.resumeEntry
    split
    · cases g with
      | room k => exact taken _ (State.slideResume_controls (id := .room k)) (State.slideResume_own (id := .room k)) State.slideResume_brief
      | jacks => exact taken (s.jackResume first) State.jackResume_controls State.jackResume_own State.jackResume_brief
      | awning => exact taken _ (State.slideResume_controls (id := .awning)) (State.slideResume_own (id := .awning)) State.slideResume_brief
    · simp [weights]
  | planTakes g a q k =>
    unfold State.runTask State.planTakes
    dsimp only
    split
    · exact idle (by simp [Task.weight])
    · split
      · exact Spends.stepAdvance (v := .planTakes g a q k) rfl
      · exact .planEnd (by split <;> simp) (by simp [Task.weight])
  | beginStep =>
    unfold State.runTask State.stepBegin
    dsimp only
    split
    · rename_i on
      split
      · exact Spends.planEnd (v := .beginStep) (by simp) (by simp [Task.weight])
      · refine .inl ?_
        have short := State.presentStep_length b.books.plans (b.books.held on)
        have toil : ({ s with plan := { s.plan with slots := [] } }.raise .plan).toil = s.toil := rfl
        have step : ({ s with plan := { s.plan with slots := [] } }.raise .plan).presentStep = s.presentStep := rfl
        rw [toil, step]
        simp only [weights, List.map_cons, List.map_nil, List.sum_cons, List.sum_nil, Task.weight]
        omega
    · exact idle (by simp [Task.weight])
  | place rest => exact .placeNext
  | endPlan =>
    unfold State.runTask State.planEndNext
    dsimp only
    split
    · rename_i x found
      refine .inr ⟨x.group, _, _, rfl, fun still => ?_, by simp [weights, Task.weight]⟩
      exact still x.motion (mem_motions.mpr ⟨x, by simpa [or_comm] using List.mem_of_find?_eq_some found, rfl⟩) rfl
    · obtain ⟨table, frame⟩ := (freePlanClaims_spec s).1
      refine .inl ?_
      have toil : s.freePlanClaims.toil = s.toil := by
        rw [frame]
        rfl
      rw [toil]
      simp [weights, Task.weight]

/-! ### An event's work comes to its end -/

/-- Twice what is still to be spent, less for a motion that ends next. -/
def State.cost (s : State) (l : List Task) : Nat :=
  2 * (s.toil + weights l) - match l with
    | .endMotion g _ :: _ => if (s.entryOf g).isSome then 3 else 0
    | _ => 0

theorem State.cost_le : s.cost l ≤ 2 * (s.toil + weights l) := Nat.sub_le ..

theorem State.cost_runTask (b : Sound R s (v :: r)) : (s.runTask v).1.cost ((s.runTask v).2 ++ l) < s.cost (v :: l) := by
  have le := State.cost_le (s := (s.runTask v).1) (l := (s.runTask v).2 ++ l)
  rw [weights_append] at le
  by_cases ending : ∃ g z, v = .endMotion g z
  · obtain ⟨g, z, rfl⟩ := ending
    have before : s.cost (.endMotion g z :: l) = 2 * (s.toil + (1 + weights l)) - if (s.entryOf g).isSome then 3 else 0 := by
      unfold State.cost
      rw [weights_cons]
      rfl
    change (s.motionEnd g z).1.cost ((s.motionEnd g z).2 ++ l) ≤ 2 * ((s.motionEnd g z).1.toil +
      (weights (s.motionEnd g z).2 + weights l)) at le
    change (s.motionEnd g z).1.cost ((s.motionEnd g z).2 ++ l) < _
    rw [before]
    cases found : s.entryOf g with
    | none =>
      rw [State.motionEnd_still (State.still_iff_entryOf.mpr found)] at le ⊢
      simp only [Option.isSome_none, Bool.false_eq_true, if_false, weights, List.map_nil, List.sum_nil] at le ⊢
      omega
    | some x =>
      have spent := Spends.motionEnd (z := z) found
      simp only [Option.isSome_some, if_true]
      omega
  · have other (g z) : v ≠ .endMotion g z := fun same => ending ⟨g, z, same⟩
    have before : s.cost (v :: l) = 2 * (s.toil + (v.weight + weights l)) := by
      unfold State.cost
      rw [weights_cons]
      cases v with
      | endMotion g z => exact absurd rfl (other g z)
      | _ => rfl
    rw [before]
    obtain spent | ⟨g, z, rest, work, moving, spent⟩ := Spends.runTask b other
    · omega
    · obtain ⟨x, found⟩ := State.not_still_iff.mp moving
      have after : (s.runTask v).1.cost ((s.runTask v).2 ++ l) =
          2 * ((s.runTask v).1.toil + (weights (s.runTask v).2 + weights l)) - 3 := by
        rw [← weights_append]
        unfold State.cost
        rw [work]
        simp [found]
      have heavy := v.weight_pos
      rw [after]
      omega

theorem State.cost_pos (v : Task) (l : List Task) : 0 < s.cost (v :: l) := by
  have heavy := v.weight_pos
  unfold State.cost
  rw [weights_cons]
  split
  · rename_i g z rest same
    split
    · rename_i moving
      obtain ⟨x, found⟩ := Option.isSome_iff_exists.mp moving
      have some : 0 < s.motions.length := List.length_pos_of_mem (State.entryOf_motion found).1
      unfold State.toil
      omega
    · omega
  · omega

/-- The work of an event, and no more, is run to its end. -/
theorem Sound.drain {k : Nat} (b : Sound R s (l ++ r)) (enough : s.cost l ≤ k) : Sound R (drain k (s, l)) r := by
  induction k generalizing s l with
  | zero =>
    cases l with
    | nil => exact b
    | cons v l => exact absurd enough (Nat.not_le.mpr (State.cost_pos v l))
  | succ k ih =>
    cases l with
    | nil => exact b
    | cons v l =>
      have next : Sound R (s.runTask v).1 (((s.runTask v).2 ++ l) ++ r) := by
        rw [List.append_assoc]
        exact b.runTask
      exact ih next (Nat.lt_succ_iff.mp ((State.cost_runTask b).trans_le enough))

theorem Sound.toil_le (b : Sound R s l) : s.toil ≤ 1836 := by
  have few := b.device.seats.motions_length
  unfold State.toil
  split
  · rename_i on
    obtain ⟨n, -, -, -, count, -⟩ := b.books.held on
    have eight := (b.books.plans n).1
    omega
  · omega

/-- The bound of an event's work is enough. -/
theorem Sound.drained (b : Sound R s (l ++ r)) (light : weights l ≤ 3000) : Sound R (Machine.drain workBound (s, l)) r :=
  b.drain (by
    have cost := State.cost_le (s := s) (l := l)
    have toil := b.toil_le
    unfold workBound
    omega)

end

end Sys2Proof.Machine
end

section
/-! PROOFS. A regular state is one in which what an event keeps holds with no work left to do, and it meets the laws of the device
(section 8.3, R9, R50, R83, R105, R110, R127, R135). -/

namespace Sys2Proof.Machine

open Safety

section
variable {s t u w : State} {g h : Group} {e x y : Entry} {z : Ending} {a : Action} {id : Slider} {n : Chan} {m : Motor}
  {d : Dir} {j : JackId} {l r new : List Task} {v : Task} {R : Prop}

/-! ### The lists -/

theorem listLaw_iff : listLaw s = true ↔ (s.motions.map Entry.group).Nodup := by
  have count (l : List Entry) (g : Group) :
      (l.filter fun e => e.group == g).length = ((l.map Entry.motion).map Entry.group).count g := by
    rw [List.map_map, List.count_eq_length_filter, List.filter_map, List.length_map]
    rfl
  have short (b c : Bool) : (b ≤ c) ↔ (b = true → c = true) := by cases b <;> cases c <;> decide
  unfold listLaw
  rw [List.nodup_iff_count_le_one, List.all_eq_true]
  constructor
  · intro all g
    have one := all g (mem_allGroups g)
    rw [decide_eq_true_eq, count] at one
    exact one
  · intro all g _
    rw [decide_eq_true_eq, count]
    exact all g

theorem racked_false_iff (k : RoomId) : s.racked (.room k) = false ↔
    ∀ a b, s.twoMotors (.room k) = true → (s.rooms[k]).motorA.count = some a → (s.rooms[k]).motorB.count = some b →
      max a b - min a b < (s.layout.rooms[k]).rackLimit := by
  unfold State.racked State.bothCounts
  change (match (if s.twoMotors (.room k) = true then
    match (s.rooms[k]).motorA.count, (s.rooms[k]).motorB.count with
      | some a, some b => some (a, b)
      | _, _ => none
    else none : Option (Nat × Nat)) with
    | some (a, b) => decide ((s.layout.rooms[k]).rackLimit ≤ max a b - min a b)
    | none => false) = false ↔ _
  cases s.twoMotors (.room k) <;> cases (s.rooms[k]).motorA.count <;> cases (s.rooms[k]).motorB.count <;> simp

theorem racked_awning : s.racked .awning = false := rfl

theorem rackLaw_iff : rackLaw s = true ↔ ∀ id, s.rackFine id := by
  unfold rackLaw
  rw [List.all_eq_true]
  constructor
  · intro all id on
    cases id with
    | awning => exact racked_awning
    | room k =>
      rw [racked_false_iff]
      intro a b two first second
      have law := all k (mem_allRooms k)
      rw [first, second] at law
      simpa [two, on] using law
  · intro fine k _
    cases first : (s.rooms[k]).motorA.count with
    | none => rfl
    | some a =>
      cases second : (s.rooms[k]).motorB.count with
      | none => rfl
      | some b =>
        by_cases both : s.twoMotors (.room k) = true ∧ s.anyMotorDriven (.room k) = true
        · have near := (racked_false_iff k).mp (fine (.room k) both.2) a b both.1 first second
          rw [Bool.or_eq_true]
          exact .inr (decide_eq_true near)
        · have off : (s.twoMotors (.room k) && s.anyMotorDriven (.room k)) = false := by
            simpa [Bool.and_eq_true_iff] using both
          simp [off]

/-! ### A regular state -/

theorem Regular.seats (b : Regular s) : Seats s where
  roles := b.roles
  once := listLaw_iff.mp b.lists
  fits e mem := by
    obtain ⟨x, listed, rfl⟩ := mem_motions.mp mem
    exact (b.actions x listed).1
  drives n busy := b.drives n (Channel.busy_iff.mp busy)

theorem Regular.sound (b : Regular s) : Sound (rackLaw s = true) s [] where
  device :=
    { seats := Regular.seats b
      ways :=
        { jacks := fun e mem group j among way => by
            obtain ⟨x, listed, rfl⟩ := mem_motions.mp mem
            exact b.jacks x listed group j among way
          level := fun on => by
            obtain ⟨e, mem, action⟩ := b.level on
            exact ⟨e.motion, mem_motions.mpr ⟨e, mem, rfl⟩, action⟩ }
      shown := fun e mem id own => by
        obtain ⟨x, listed, rfl⟩ := mem_motions.mp mem
        exact .inr (b.shown x listed id own)
      racks := fun law id => .inr (rackLaw_iff.mp law id) }
  books :=
    { plans := b.plans
      claimed := fun e mem => by
        obtain ⟨x, listed, rfl⟩ := mem_motions.mp mem
        have law := List.all_eq_true.mp b.claims x listed
        split at law
        · rename_i c held
          obtain ⟨owner, mode⟩ := Bool.and_eq_true_iff.mp law
          exact ⟨c, held, beq_iff_eq.mp owner, beq_iff_eq.mp mode, (b.actions x listed).2 c held⟩
        · cases law
      kept := fun _ _ mem => absurd mem (by simp)
      owed := fun idle e mem own => by
        obtain ⟨x, listed, rfl⟩ := mem_motions.mp mem
        have on := (b.sequenced x listed own).1
        exact absurd (idle.symm.trans on) (by simp)
      ended := fun mem => absurd mem (by simp)
      held := fun on => by
        obtain ⟨n, name, low, high, count, -, claims⟩ := b.planned on
        exact ⟨n, name, low, high, count, claims⟩
      stage := fun on => .inr
        { begun := by simp
          step := by
            obtain ⟨n, name, low, high, count, slots, claims⟩ := b.planned on
            exact ⟨s.presentStep, by simp, slots⟩
          active := fun e mem own => by
            obtain ⟨x, listed, rfl⟩ := mem_motions.mp mem
            exact (b.sequenced x listed own).2
          once := by simp
          taken := by simp } }
  permits := .inr fun e mem => .inl (State.fallenPermit_none_iff.mp b.permits e mem)

/-! ### A state with no work left -/

theorem Sound.permitted (b : Sound R s []) (mem : e ∈ s.motions) : s.permitCause e.group e.action = none := by
  obtain tests | all := b.permits
  · simp at tests
  · obtain permit | ⟨u, -, handed, -⟩ := all e mem
    · exact permit
    · simp at handed

theorem Sound.shows (b : Sound R s []) (mem : e ∈ s.motions) (own : sliderOf e.group = some id) :
    (s.slider id).state = movingState e.action.dir := by
  obtain ⟨z, leaves⟩ | shown := b.device.shown e mem id own
  · simp at leaves
  · exact shown

theorem Sound.claimLaw (b : Sound R s []) : Safety.claimLaw s = true := by
  refine List.all_eq_true.mpr fun e mem => ?_
  obtain ⟨c, held, owner, mode, -⟩ := b.books.claimed e.motion (mem_motions.mpr ⟨e, mem, rfl⟩)
  have held : s.claim e.group = some c := held
  have owner : c.owner = e.owner := owner
  have mode : c.mode = e.mode := mode
  rw [held]
  simp [owner, mode]

theorem Sound.regular (b : Sound R s []) (awake : s.inReset = none) (writes : writeLaw s = true) : Regular s := by
  have motion (e : Entry) (mem : e ∈ s.load ++ s.paused) : e.motion ∈ s.motions := mem_motions.mpr ⟨e, mem, rfl⟩
  have stage (on : s.planRunning = true) : Places s [] := by
    obtain ⟨rest, same, -⟩ | stage := b.books.stage on
    · cases same
    · exact stage
  have on (e : Entry) (mem : e ∈ s.load ++ s.paused) (own : e.owner = .sequencer) : s.planRunning = true := by
    by_contra off
    have owed := b.books.owed (by simpa using off) e.motion (motion e mem) own
    simp at owed
  exact
  { awake
    writes
    roles := b.device.seats.roles
    actions := fun e mem => by
      refine ⟨b.device.seats.fits e.motion (motion e mem), fun c held => ?_⟩
      obtain ⟨x, found, -, -, action⟩ := b.books.claimed e.motion (motion e mem)
      exact Option.some.inj (found.symm.trans held) ▸ action
    plans := b.books.plans
    planned := fun on => by
      obtain ⟨n, name, low, high, count, claims⟩ := b.books.held on
      obtain ⟨done, step, slots⟩ := (stage on).step
      refine ⟨n, name, low, high, count, ?_, claims⟩
      rw [slots, step]
      simp
    sequenced := fun e mem own => ⟨on e mem own, (stage (on e mem own)).active e.motion (motion e mem) own⟩
    lists := listLaw_iff.mpr b.device.seats.once
    claims := b.claimLaw
    permits := State.fallenPermit_none_iff.mpr fun e mem => b.permitted mem
    drives := fun n busy => b.device.seats.drives n (Channel.busy_iff.mpr busy)
    jacks := fun e mem group j among way => b.device.ways.jacks e.motion (motion e mem) group j among way
    shown := fun e mem id own => by
      have shows := b.shows (motion e mem) own
      exact shows
    level := fun active => by
      obtain ⟨e, mem, action⟩ := b.device.ways.level active
      obtain ⟨x, listed, rfl⟩ := mem_motions.mp mem
      exact ⟨x, listed, action⟩ }

/-! ### The laws -/

/-- A channel is driven only for a motion of its group, in the motion's direction. -/
theorem Seats.driven (b : Seats s) (on : (s.chan n).driven = true) (own : (s.role n).group = some g) :
    ∃ e ∈ s.motions, e.group = g ∧ (s.role n ≠ .pump → (s.chan n).dir = e.action.dir) := by
  obtain ⟨-, e, mem, among, dir⟩ := b.drives n (Channel.busy_iff.mpr (.inl on))
  have listed := State.mem_motions_load mem
  have fits : actionFits e.group e.action = true := b.fits e.motion listed
  exact ⟨e.motion, listed, Option.some.inj ((State.group_of_motionChans fits among).symm.trans own), dir⟩

theorem Sound.enableLaw (b : Sound R s []) : Safety.enableLaw s = true := by
  refine List.all_eq_true.mpr fun n _ => ?_
  rw [Bool.or_eq_true, Bool.not_eq_true', or_iff_not_imp_left]
  intro on
  obtain ⟨seated, e, mem, among, -⟩ := b.device.seats.drives n (Channel.busy_iff.mpr (.inl (by simpa [State.enOut] using on)))
  exact State.mayDrive_iff.mpr ⟨seated, e, mem, among⟩

theorem Sound.rackLaw (b : Sound R s []) (held : R) : Safety.rackLaw s = true :=
  rackLaw_iff.mpr fun id => (b.device.racks held id).resolve_left fun ⟨_, mem⟩ => absurd mem (by simp)

theorem Sound.listLaw (b : Sound R s []) : Safety.listLaw s = true := listLaw_iff.mpr b.device.seats.once

/-- A valve is driven only in the direction of the one jack motion. -/
theorem Sound.valve (b : Sound R s []) (valve : s.roleChan (.jack j) = some n) (on : (s.chan n).driven = true) :
    ∃ e ∈ s.motions, e.group = .jacks ∧ (s.chan n).dir = e.action.dir := by
  have role := State.role_of_roleChan valve
  obtain ⟨e, mem, group, dir⟩ := b.device.seats.driven (g := .jacks) on (by rw [role]; rfl)
  exact ⟨e, mem, group, dir (by simp [role])⟩

theorem Sound.levelLaw (b : Sound R s []) : Safety.levelLaw s = true := by
  unfold Safety.levelLaw
  rw [Bool.or_eq_true, Bool.not_eq_true', or_iff_not_imp_left]
  intro on
  refine List.all_eq_true.mpr fun j _ => ?_
  split
  · rename_i n valve
    rw [Bool.or_eq_true, Bool.not_eq_true', or_iff_not_imp_left]
    intro driven
    obtain ⟨e, mem, group, dir⟩ := b.valve valve (by simpa using driven)
    obtain ⟨x, listed, level⟩ := b.device.ways.level (by simpa using on)
    have fits := b.device.seats.fits x listed
    rw [level] at fits
    have same := b.device.seats.unique mem listed (group.trans (by simpa [actionFits] using fits : x.group = .jacks).symm)
    rw [dir, same, level]
    rfl
  · rfl

theorem Sound.retractLaw (b : Sound R s []) : Safety.retractLaw s = true := by
  unfold Safety.retractLaw
  rw [Bool.or_eq_true, Bool.not_eq_true', or_iff_not_imp_left]
  intro out
  refine List.all_eq_true.mpr fun j _ => ?_
  split
  · rename_i n valve
    rw [Bool.or_eq_true, Bool.not_eq_true', or_iff_not_imp_left]
    intro driven
    obtain ⟨e, mem, group, dir⟩ := b.valve valve (by simpa using driven)
    have permit := b.permitted mem
    rw [group] at permit
    rw [dir, beq_iff_eq]
    by_contra stows
    have retracts : e.action.retracts = true := by
      cases action : e.action with
      | toward d => cases d <;> simp_all [Action.dir, Action.retracts]
      | level => simp_all [Action.dir]
      | jack i d => cases d <;> simp_all [Action.dir, Action.retracts]
    have both : s.roomsOut = true ∨ s.awningNotStowed = true := by
      rw [Bool.not_eq_false, Bool.or_eq_true] at out
      exact out
    unfold State.permitCause at permit
    dsimp only at permit
    obtain rooms | awning := both
    · rw [if_pos ⟨retracts, rooms⟩] at permit
      cases permit
    · split at permit
      · cases permit
      · rw [if_pos ⟨retracts, awning⟩] at permit
        cases permit
  · rfl

theorem Sound.windLaw (b : Sound R s []) : Safety.windLaw s = true := by
  unfold Safety.windLaw
  rw [Bool.or_eq_true, Bool.not_eq_true', or_iff_not_imp_left]
  intro windy
  split
  · rename_i n motor
    rw [Bool.or_eq_true, Bool.not_eq_true', or_iff_not_imp_left]
    intro driven
    have role := State.role_of_roleChan motor
    obtain ⟨e, mem, group, dir⟩ := b.device.seats.driven (n := n) (g := .awning) (by simpa using driven) (by rw [role]; rfl)
    have permit := b.permitted mem
    rw [group] at permit
    unfold State.permitCause at permit
    dsimp only at permit
    rw [dir (by simp [role]), beq_iff_eq]
    cases way : e.action.dir with
    | stowing => rfl
    | outward =>
      rw [if_pos ⟨way, by simpa using windy⟩] at permit
      cases permit
  · rfl

theorem Sound.supportLaw (b : Sound R s []) : Safety.supportLaw s = true := by
  unfold Safety.supportLaw
  rw [Bool.or_eq_true, or_iff_not_imp_left]
  intro unsupported
  refine List.all_eq_true.mpr fun k _ => ?_
  rw [Bool.or_eq_true, Bool.not_eq_true', or_iff_not_imp_left]
  intro needs
  refine List.all_eq_true.mpr fun n own => ?_
  rw [Bool.or_eq_true, Bool.not_eq_true', or_iff_not_imp_left]
  intro driven
  have own : (s.role n).group = some (.room k) := by simpa using (List.mem_filter.mp own).2
  obtain ⟨e, mem, group, dir⟩ := b.device.seats.driven (n := n) (by simpa using driven) own
  have permit := b.permitted mem
  rw [group] at permit
  unfold State.permitCause at permit
  dsimp only at permit
  rw [dir (fun pump => by rw [pump] at own; simp [Role.group] at own), beq_iff_eq]
  cases way : e.action.dir with
  | stowing => rfl
  | outward =>
    rw [if_pos ⟨way, by simpa using needs, by simpa using unsupported⟩] at permit
    cases permit

/-! ### A device at rest -/

/-- Nothing is in motion, driven, or about to be; no plan runs and no level run exists. -/
structure Resting (s : State) : Prop where
  load : s.load = []
  paused : s.paused = []
  chans : ∀ n, (s.chan n).busy = false
  level : s.levelActive = false
  plan : s.planRunning = false

theorem Resting.motions (b : Resting s) : s.motions = [] := by simp [State.motions, b.load, b.paused]

/-- A device at rest is as an event may leave it, where the layout gives its channels roles of their own and keeps the bounds of
the plans. -/
theorem Resting.sound (b : Resting s) (roles : ∀ i n : Chan, i ≠ n → s.role i = s.role n → s.role i = .none)
    (plans : PlansFit s.layout) : Sound R s [] := by
  have none : ∀ e ∈ s.motions, False := by simp [b.motions]
  have idle (on : s.planRunning = true) : False := absurd (b.plan.symm.trans on) (by simp)
  exact
  { device :=
      { seats := ⟨roles, by simp [b.motions], fun e mem => (none e mem).elim, fun n busy => absurd ((b.chans n).symm.trans busy) (by simp)⟩
        ways := ⟨fun e mem => (none e mem).elim, fun on => absurd (b.level.symm.trans on) (by simp)⟩
        shown := fun e mem => (none e mem).elim
        racks := fun _ id => .inr (.at_rest fun m n _ => by
          have rest := b.chans n
          rw [Channel.busy, Bool.or_eq_false_iff] at rest
          exact rest.1) }
    books :=
      { plans
        claimed := fun e mem => (none e mem).elim
        kept := fun _ _ mem => absurd mem (by simp)
        owed := fun _ e mem => (none e mem).elim
        ended := fun mem => absurd mem (by simp)
        held := fun on => (idle on).elim
        stage := fun on => (idle on).elim }
    permits := .inr fun e mem => (none e mem).elim }

/-- The laws of the device, but for the counts and the write. -/
structure Lawful (R : Prop) (s : State) : Prop where
  enable : enableLaw s = true
  rack : R → rackLaw s = true
  level : levelLaw s = true
  wind : windLaw s = true
  retract : retractLaw s = true
  support : supportLaw s = true
  lists : listLaw s = true
  claims : claimLaw s = true

theorem Sound.lawful (b : Sound R s []) : Lawful R s :=
  ⟨b.enableLaw, b.rackLaw, b.levelLaw, b.windLaw, b.retractLaw, b.supportLaw, b.listLaw, b.claimLaw⟩

/-- With nothing driven and no motion there is no law to break. -/
theorem Resting.lawful (b : Resting s) : Lawful R s := by
  have off (n : Chan) : (s.chan n).driven = false := by
    have rest := b.chans n
    rw [Channel.busy, Bool.or_eq_false_iff] at rest
    exact rest.1
  refine ⟨?_, fun _ => rackLaw_iff.mpr fun id => .at_rest fun m n _ => off n, ?_, ?_, ?_, ?_, ?_, ?_⟩
  · simp [enableLaw, State.enOut, off]
  · simp [levelLaw, b.level]
  · unfold windLaw
    split <;> simp [off]
  · unfold retractLaw
    simp only [Bool.or_eq_true, List.all_eq_true]
    refine .inr fun j _ => ?_
    split <;> simp [off]
  · simp [supportLaw, off]
  · simp [listLaw, b.load, b.paused]
  · simp [claimLaw, b.load, b.paused]

end

end Sys2Proof.Machine
end

section
/-! PROOFS. What leaves the motions alone keeps what an event keeps: the clock, the ports, the notices, the alarm, the tilt and the
buffers (R21, R28, R82, R125, R163, R178). -/

namespace Sys2Proof.Machine

section
variable {s t u w : State} {g h : Group} {e x y : Entry} {z : Ending} {a : Action} {id : Slider} {n : Chan} {m : Motor}
  {d : Dir} {j : JackId} {l r new : List Task} {v : Task} {R : Prop} {p : Port} {c : Notice}

/-- The view reads the layout, the axes' states, the jacks, the level mark, the wind state and the home switches. -/
theorem State.view_congr (layout : t.layout = s.layout) (rooms : t.rooms = s.rooms) (awning : t.awning = s.awning)
    (jacks : t.jacks = s.jacks) (mark : t.jackSet = s.jackSet) (wind : t.wind = s.wind)
    (home : ∀ n, t.homeClosed n = s.homeClosed n) : t.view = s.view := by
  have role (r : Role) : t.roleChan r = s.roleChan r := by simp only [State.roleChan, State.role, layout]
  have all : t.configuredJacks = s.configuredJacks := State.configuredJacks_layout layout
  have record (j : JackId) : t.jack j = s.jack j := by simp only [State.jack, jacks]
  have state (j : JackId) : t.jackState j = s.jackState j := by
    unfold State.jackState State.jackHome
    simp only [record, role, home]
  have set : t.jackSetState = s.jackSetState := by
    unfold State.jackSetState State.jackCount State.jacksFaulted State.planted
    simp only [all, record, state, mark]
  have spread : t.sliderState .awning = s.sliderState .awning := by
    have configured : t.configured .awning = s.configured .awning := by simp only [State.configured, role]
    unfold State.sliderState State.sliderRead
    simp only [configured, awning]
  unfold State.view
  rw [rooms, set, spread, wind]

/-- From one state to the other no drive, jack, axis, list, claim or plan has changed, nor what the permits read. -/
structure Quietly (s t : State) : Prop where
  calm : Calm s t
  view : t.view = s.view

namespace Quietly

theorem refl (s : State) : Quietly s s := ⟨.refl s, rfl⟩

theorem trans (a : Quietly s t) (b : Quietly t u) : Quietly s u := ⟨a.calm.trans b.calm, b.view.trans a.view⟩

theorem forEach {α : Type} {l : List α} {f : α → State → State} (step : ∀ a t, Quietly t (f a t)) (s : State) :
    Quietly s (Machine.forEach l f s) := by
  induction l generalizing s with
  | nil => exact .refl s
  | cons a rest ih => exact (step a s).trans (ih (f a s))

theorem layout (q : Quietly s t) : t.layout = s.layout := (q.calm .awning .outward).layout

theorem motions (q : Quietly s t) : t.motions = s.motions := (q.calm .awning .outward).motions

theorem same (q : Quietly s t) : SameBooks s t :=
  ⟨q.layout, fun _ mem => q.motions ▸ mem, (q.calm .awning .outward).claims, (q.calm .awning .outward).plan⟩

/-- Only fields have changed that neither the motions nor the permits read. -/
theorem beside (frame : t = { s with
    pending := t.pending, now := t.now, tickedAt := t.tickedAt, resetLow := t.resetLow, pins := t.pins
    straps := t.straps, staging := t.staging, stored := t.stored, write := t.write, lineStart := t.lineStart, park := t.park
    ign := t.ign, wndLine := t.wndLine, censusStart := t.censusStart, pace := t.pace, tilt := t.tilt, alarm := t.alarm
    faultCount := t.faultCount, faultPattern := t.faultPattern, motionPeriod := t.motionPeriod
    motionPulse := t.motionPulse, supply := t.supply, nextOrder := t.nextOrder, ports := t.ports }) : Quietly s t := by
  rw [frame]
  exact ⟨.of_same rfl rfl rfl rfl rfl rfl rfl rfl rfl rfl, rfl⟩

theorem raise : Quietly s (s.raise c) := .beside rfl

theorem setPort {r : PortRec} : Quietly s (s.setPort p r) := .beside rfl

theorem evalAlarm : Quietly s s.evalAlarm := ⟨.evalAlarm, State.view_butAlarm s.butAlarm_evalAlarm⟩

theorem buzzKick : Quietly s s.buzzKick := by
  unfold State.buzzKick
  split
  · exact .beside rfl
  · exact .refl s

theorem later (b : Later s t) : Quietly s t := by
  refine ⟨.of_parts b.layout b.load b.paused b.claims b.plan (fun n => ?_) (fun j way => ?_) (fun id => ?_) fun on => ?_, b.view⟩
  · rw [b.chan]
    exact ⟨rfl, fun busy => ⟨busy, rfl⟩, fun on => on⟩
  · rw [b.jack] at way ⊢
    exact ⟨way, rfl⟩
  · refine ⟨?_, fun m => by rw [b.motor]⟩
    rw [b.slider]
  · unfold State.levelActive at on ⊢
    rwa [b.level] at on

theorem advanceTo (moment : Time) : Quietly s (s.advanceTo moment) := .later (.advanceTo s moment)

/-! ### The ports -/

theorem discardFrame : Quietly s (s.discardFrame p) := setPort.trans raise

theorem queueReply {f : List Byte} : Quietly s (s.queueReply p f) := setPort

theorem setFrame {f : Option PartialFrame} : Quietly s (s.setFrame p f) := setPort

theorem frameExpired : Quietly s (s.frameExpired p) := by
  unfold State.frameExpired
  split
  · exact .refl s
  · split
    · exact (advanceTo _).trans (setFrame.trans discardFrame)
    · exact .refl s

theorem replySent : Quietly s (s.replySent p) := by
  unfold State.replySent
  split
  · exact .refl s
  · split
    · exact (advanceTo _).trans setPort
    · exact .refl s

/-! ### BUZZ, tilt and PARK -/

theorem patternEnd : Quietly s s.patternEnd := by
  unfold State.patternEnd
  split
  · split
    · exact (advanceTo _).trans (Quietly.trans (.beside rfl) .buzzKick)
    · exact .refl s
  · exact .refl s

theorem periodBegins : Quietly s s.periodBegins := by
  unfold State.periodBegins
  split
  · split
    · exact (advanceTo _).trans (.beside rfl)
    · exact .refl s
  · exact .refl s

theorem tiltSample {x y : Nat} : Quietly s (s.tiltSample x y) := .beside rfl

theorem accept_park {level : Bool} : Quietly s (s.accept .park level) := .beside rfl

theorem accept_ign {level : Bool} : Quietly s (s.accept .ign level) := .beside rfl

theorem parkHigh : Quietly s s.parkHigh := accept_park.trans evalAlarm

/-! ### Channels -/

/-- A channel's record changes, and neither its drive nor its census state. -/
theorem setChan {r : Channel} (census : r.census = (s.chan n).census)
    (busy : r.busy = true → (s.chan n).busy = true ∧ r.dir = (s.chan n).dir) (driven : r.driven = true → (s.chan n).driven = true) :
    Quietly s (s.setChan n r) := by
  refine ⟨.of_parts rfl rfl rfl rfl rfl (fun i => ?_) (fun j way => ⟨way, rfl⟩) (fun id => ⟨by cases id <;> rfl, fun m => by
    cases id <;> rfl⟩) (fun on => on), rfl⟩
  rw [State.chan_setChan]
  split
  · rename_i same
    subst same
    exact ⟨census, busy, driven⟩
  · exact ⟨rfl, fun on => ⟨on, rfl⟩, fun on => on⟩

theorem stoppingEnd : Quietly s (s.stoppingEnd n) := by
  unfold State.stoppingEnd
  split
  · split
    · refine (advanceTo _).trans (setChan rfl ?_ ?_) <;> intro on <;> cases on
    · exact .refl s
  · exact .refl s

theorem retrim : Quietly s (s.retrim id) := by
  have a : Retrimmed s (s.retrim id) := State.retrim_retrimmed
  have frame := a.frame
  have chan := a.chan
  have view := a.view
  generalize s.retrim id = t at *
  refine ⟨.of_parts ?_ ?_ ?_ ?_ ?_ (fun n => ?_) (fun j way => ?_) (fun i => ?_) fun on => ?_, view⟩
  · rw [frame]
  · rw [frame]
  · rw [frame]
  · rw [frame]
  · rw [frame]
  · rw [chan]
    exact ⟨rfl, fun busy => ⟨busy, rfl⟩, fun on => on⟩
  · rw [frame] at way ⊢
    exact ⟨way, rfl⟩
  · rw [frame]
    cases i <;> exact ⟨rfl, fun _ => rfl⟩
  · rw [frame] at on
    exact on

theorem rampStep : Quietly s (s.rampStep n) := by
  unfold State.rampStep
  split
  · rename_i moment due
    split
    · refine (advanceTo moment).trans ?_
      have driven : ((s.advanceTo moment).chan n).driven = true := by
        rw [State.driven_advanceTo]
        unfold Channel.rampDue at due
        split at due
        · rename_i ramping
          simp [Channel.driven, ramping]
        · cases due
      dsimp only
      generalize s.advanceTo moment = t at driven ⊢
      refine Quietly.trans (t := t.setChan n ((t.chan n).ramp (t.kindParams n))) (setChan rfl ?_ fun _ => driven) ?_
      · intro _
        rw [Channel.busy, driven, Bool.true_or]
        exact ⟨rfl, rfl⟩
      · unfold State.retrimOf
        split
        · exact retrim
        · exact .refl _
    · exact .refl s
  · exact .refl s

theorem recensus {reads : Vector Levels 16} : Quietly s (s.recensus reads) := by
  refine forEach (fun n t => ?_) s
  unfold State.passRead
  dsimp only
  split
  · exact setChan rfl (fun on => ⟨on, rfl⟩) fun on => on
  · exact .refl t

/-! ### The idle step -/

/-- A line's record changes, and the level of no home switch. -/
theorem setLine {k : Line} {r : DiscreteLine} (level : ∀ n, k = .hom n → r.accepted = (s.line k).accepted) :
    Quietly s (s.setLine r k) := by
  have frame := s.setLine_frame (x := r) (l := k)
  have line (i : Chan) : ((s.setLine r k).line (.hom i)).accepted = (s.line (.hom i)).accepted := by
    rw [State.line_setLine]
    split
    · rename_i same
      rw [level i same.symm, same]
    · rfl
  generalize s.setLine r k = t at frame line
  refine ⟨.of_same ?_ ?_ ?_ ?_ ?_ ?_ ?_ ?_ ?_ ?_, State.view_congr ?_ ?_ ?_ ?_ ?_ ?_ fun i => ?_⟩
  on_goal 17 => exact congrArg (fun a => a == some true) (line i)
  all_goals rw [frame]

theorem sampleLine {k : Line} : Quietly s (s.sampleLine k) := by
  rw [State.sampleLine_eq]
  refine setLine fun n home => ?_
  subst home
  unfold DiscreteLine.sampled
  split
  · rw [if_neg (by simp [quietLevel])]
    rfl
  · rfl

theorem samplePulses : Quietly s s.samplePulses := by
  have frame : s.samplePulses = { s with lines := s.samplePulses.lines, wndLine := s.samplePulses.wndLine } := rfl
  have home (n : Chan) : s.samplePulses.homeClosed n = s.homeClosed n :=
    congrArg (fun k : DiscreteLine => k.accepted == some true) (State.line_samplePulses (s := s) (l := .hom n))
  generalize s.samplePulses = t at frame home
  refine ⟨.of_same ?_ ?_ ?_ ?_ ?_ ?_ ?_ ?_ ?_ ?_, State.view_congr ?_ ?_ ?_ ?_ ?_ ?_ home⟩
  all_goals rw [frame]

theorem sampledNow : Quietly s s.sampledNow := by
  have sampled (t : State) : Quietly t t.sampleDiscrete := forEach (fun _ _ => sampleLine) t
  have ticked : Quietly (s.elapse 1).samplePulses.sampleDiscrete s.sampledNow := .beside rfl
  exact (later (.elapse s 1)).trans (samplePulses.trans ((sampled _).trans ticked))

theorem tickRunning : Quietly s s.tickRunning := by
  rw [State.tickRunning_eq]
  exact sampledNow.trans (.beside rfl)

end Quietly

/-- What leaves the motions alone keeps what an event keeps. -/
theorem Sound.quiet (b : Sound R s l) (q : Quietly s t) : Sound R t l where
  device := b.device.calm q.calm
  books :=
    { plans := by rw [q.layout]; exact b.books.plans
      claimed := fun e mem => by
        unfold State.claim
        rw [q.same.claims]
        exact b.books.claimed e (q.same.motions e mem)
      kept := b.books.kept
      owed := fun idle e mem => b.books.owed (q.same.running ▸ idle) e (q.same.motions e mem)
      ended := fun mem => q.same.running.trans (b.books.ended mem)
      held := fun on => q.same.planHeld (b.books.held (q.same.running ▸ on))
      stage := fun on => (b.books.stage (q.same.running ▸ on)).imp
        (fun ⟨rest, same, fresh, places, takes, idle⟩ => ⟨rest, same, fresh, places, takes, fun e mem =>
          idle e (q.same.motions e mem)⟩) q.same.places }
  permits := b.permits.handed (new := []) q.layout (fun e mem => .inl (q.same.motions e mem)) (.inl q.view)

end

end Sys2Proof.Machine
end

section
/-! PROOFS. That an event at a room or the awning keeps what an event keeps: steps, stalls, seats and home switches (R41 to R50,
R95 to R99), and the watches of a channel (R7, R17, R34). -/

namespace Sys2Proof.Machine

section
variable {s t u w : State} {g h : Group} {e x y : Entry} {z : Ending} {a : Action} {id : Slider} {n : Chan} {m : Motor}
  {d : Dir} {j : JackId} {l r new : List Task} {v : Task} {R : Prop} {p q : Work} {f : FaultCode}

/-! ### Events -/

theorem SameBooks.trans (a : SameBooks s t) (b : SameBooks t u) : SameBooks s u :=
  ⟨b.layout.trans a.layout, fun e mem => a.motions e (b.motions e mem), b.claims.trans a.claims, b.plan.trans a.plan⟩

theorem Moves.same (b : Moves g d s t) : SameBooks s t := ⟨b.layout, fun _ mem => b.motions ▸ mem, b.claims, b.plan⟩

/-- An event's own work leaves the device whole but for what is about to end, and nothing of the sequencer's. -/
structure Works (R : Prop) (l : List Task) (s : State) (w : Work) : Prop where
  device : Device R w.1 (w.2 ++ l)
  same : SameBooks s w.1
  mild : ∀ u ∈ w.2, u.mild
  light : weights w.2 ≤ 2000

theorem Works.after (q : Quietly s t) (b : Works R l t p) : Works R l s p := ⟨b.device, q.same.trans b.same, b.mild, b.light⟩

theorem Works.quiet (b : Device R s l) (q : Quietly s t) : Works R l s (t, []) :=
  ⟨b.calm q.calm, q.same, by simp, by simp [weights]⟩

/-- A controller's work leaves one ending of its own motion at most. -/
theorem Works.own (device : Device R p.1 (p.2 ++ l)) (same : SameBooks s p.1) (own : EndsOnly g p.2) (brief : p.2.length ≤ 1) :
    Works R l s p :=
  ⟨device, same, own.mild, (own.weights_le brief).trans (by omega)⟩

theorem Sound.event {f : State → Work} (b : Sound R s []) (works : Works R [] s (f s)) : Sound R (s.event f) [] := by
  have device := works.device
  have opened : Sound R (f s).1 ((.handover s.view :: (f s).2) ++ []) := by
    rw [List.append_nil] at device ⊢
    refine ⟨device.append (r := [_]), b.books.opened works.same fun u mem => ?_, ?_⟩
    · obtain rfl | mem := List.mem_cons.mp mem
      · trivial
      · exact works.mild u mem
    · have handed := b.permits.handed (new := .handover s.view :: (f s).2) works.same.layout
        (fun e mem => .inl (works.same.motions e mem)) (.inr List.mem_cons_self)
      rwa [List.append_nil] at handed
  refine opened.drained ?_
  have light := works.light
  rw [weights_cons]
  simp only [Task.weight]
  omega

/-! ### A channel stops -/

theorem Quietly.stopChan : Quietly s (s.stopChan n) := by
  rw [State.stopChan_eq]
  have census : ((s.chan n).stopped s.now).census = (s.chan n).census := by
    unfold Channel.stopped
    split
    · rfl
    · rfl
    · unfold Channel.cancelled
      split <;> rfl
    · rfl
    · rfl
  exact .setChan census (fun on => by simp at on) fun on => by simp at on

theorem State.channelFaultTasks_own : ∃ g, EndsOnly g (s.channelFaultTasks n f) ∧ (s.channelFaultTasks n f).length ≤ 1 := by
  have jack (r : Role) : EndsOnly .jacks (s.jackChannelFault r f) ∧ (s.jackChannelFault r f).length ≤ 1 := by
    unfold State.jackChannelFault
    split
    · exact ⟨.nil, by simp⟩
    · split
      · exact ⟨.one, by simp [jackEnding]⟩
      · exact ⟨.one, by simp [jackEnding]⟩
  unfold State.channelFaultTasks
  split
  · exact ⟨.jacks, .nil, by simp⟩
  · exact ⟨_, slideFault_own, by simp [slideChannelFault, slideFault]⟩
  · exact ⟨_, slideFault_own, by simp [slideChannelFault, slideFault]⟩
  · exact ⟨_, jack _⟩
  · exact ⟨_, jack _⟩

theorem Works.channelFault (b : Device R s l) : Works R l s (s.channelFault n f) := by
  obtain ⟨g, own, brief⟩ := State.channelFaultTasks_own (s := s) (n := n) (f := f)
  have device := (b.calm (Quietly.stopChan (n := n)).calm).append (r := s.channelFaultTasks n f)
  exact .own (p := s.channelFault n f) device Quietly.stopChan.same own brief

/-- The watches set a channel's tallies and run counts. -/
theorem Works.watchCurrent {value : Nat} (b : Device R s l) : Works R l s (s.watchCurrent n value) := by
  have set {r : Channel} (census : r.census = (s.chan n).census) (drive : r.drive = (s.chan n).drive)
      (dir : r.dir = (s.chan n).dir) : Quietly s (s.setChan n r) :=
    .setChan census (fun on => ⟨by simpa [Channel.busy, Channel.driven, drive] using on, dir⟩) fun on => by
      simpa [Channel.driven, drive] using on
  unfold State.watchCurrent
  split
  · split
    · dsimp only
      have counted : Quietly s (s.setChan n { s.chan n with overRun := min 3 ((s.chan n).overRun + 1) }) := set rfl rfl rfl
      split
      · exact .after counted (.channelFault (b.calm counted.calm))
      · exact .quiet b counted
    · exact .quiet b (set rfl rfl rfl)
  · exact .quiet b (.refl s)

/-! ### Pace records -/

theorem Quietly.setPace {k : PaceRecord} : Quietly s (s.setPace n k) := .beside rfl

theorem Quietly.setMotor {k : MotorRec} (count : k.count = (s.motor id m).count) : Quietly s (s.setMotor id m k) := by
  have record (i : Slider) (y : Motor) : ((s.setMotor id m k).motor i y).count = (s.motor i y).count := by
    rw [State.motor_setMotor]
    split
    · rename_i same
      rw [← same.1, ← same.2, count]
    · rfl
  refine ⟨.of_parts (by simp) ?_ ?_ ?_ ?_ (fun i => ?_) (fun i way => ?_) (fun i => ⟨?_, record i⟩) fun on => ?_,
    State.view_setMotor _⟩
  · cases id <;> rfl
  · cases id <;> rfl
  · cases id <;> rfl
  · cases id <;> rfl
  · rw [State.chan_setMotor]
    exact ⟨rfl, fun on => ⟨on, rfl⟩, fun on => on⟩
  · cases id <;> exact ⟨way, rfl⟩
  · exact (Steers.setMotor (d := .outward)).state i
  · cases id <;> exact on

theorem Quietly.mirrorTally : Quietly s (s.mirrorTally n) := by
  unfold State.mirrorTally
  split
  · exact .setMotor rfl
  · exact .setMotor rfl
  · exact .refl s

/-! ### A slider's controller at work -/

/-- A slider's controller works on its motion, in whichever direction. -/
theorem Device.slider (b : Device R s l) (moves : ∀ d, Moves id.group d s t)
    (own : R → s.rackFine id → Leaving l id.group ∨ t.rackFine id) : Device R t l := by
  obtain ⟨d, dir⟩ := b.seats.direction id.group
  refine b.moves (moves d) dir fun limit i same fine => ?_
  obtain rfl := Slider.eq_of_group same
  exact own limit fine

theorem Moves.setMotor {k : MotorRec} : Moves id.group d s (s.setMotor id m k) where
  toSteers := .setMotor
  paused := by cases id <;> rfl
  claims := by cases id <;> rfl
  plan := by cases id <;> rfl
  chans n _ busy := by
    rw [State.chan_setMotor] at busy ⊢
    exact ⟨busy, rfl⟩
  jacks _ j way := by cases id <;> exact ⟨way, rfl⟩
  racks i other fine := by
    refine fine.of (by simp) (fun y => ?_) fun y n _ on => by rwa [State.chan_setMotor] at on
    rw [State.motor_setMotor, if_neg fun same => other (congrArg Slider.group same.1.symm)]

theorem Moves.retrim : Moves id.group d s (s.retrim id) := .of_controls State.retrim_controls .retrim

theorem Works.slider (b : Device R s l) (moves : ∀ d, Moves id.group d s p.1) (own : EndsOnly id.group p.2)
    (brief : p.2.length ≤ 1) (fine : s.rackFine id → p.2 = [] → p.1.rackFine id) : Works R l s p := by
  refine .own (g := id.group) ?_ (moves .outward).same own brief
  have more := b.append (r := p.2)
  refine more.slider moves fun _ before => ?_
  by_cases none : p.2 = []
  · exact .inr (fine before none)
  · exact .inl (own.leaving none).append_right

theorem Works.seatDone (b : Device R s l) : Works R l s (s.seatDone id m) :=
  .slider b (fun _ => .of_controls State.seatDone_controls .seatDone) State.seatDone_own State.seatDone_brief
    fun fine _ => Eases.seatDone.fine fine

theorem Works.slideStall (b : Device R s l) : Works R l s (s.slideStall id m) := by
  have ending {k : List Task} (own : EndsOnly id.group k) (brief : k.length ≤ 1) : Works R l s (s, k) :=
    .slider b (fun _ => .refl _ _ _) own brief fun fine _ => fine
  unfold State.slideStall
  split
  · split
    · exact ending .one (by simp)
    · exact ending slideFault_own (by simp [slideFault])
  · split
    · exact .seatDone b
    · exact ending slideFault_own (by simp [slideFault])
    · exact ending .nil (by simp)
  · exact ending .nil (by simp)

/-- The rack check after a change of the counts: the motion ends, or the counts stand near enough. -/
theorem rackFine_checked (none : (s.rackCheck id p).2 = []) (a : Eases id s p.1) : (s.rackCheck id p).1.rackFine id := by
  unfold State.rackCheck at none ⊢
  split at none
  · exact absurd none slideFault_ne_nil
  · rename_i apart
    rw [if_neg apart]
    intro _
    rw [a.racked]
    simpa using apart

theorem Works.slideStep {driven : Bool} (b : Device R s l) : Works R l s (s.slideStep id m d driven) := by
  unfold State.slideStep
  dsimp only
  split
  · exact .quiet b (.refl s)
  · exact .quiet b (.refl s)
  · exact .quiet b (.refl s)
  · rename_i c _ _
    generalize counted : s.setMotor id m _ = w
    have set (o : Dir) : Moves id.group o s w := counted ▸ .setMotor
    split
    · exact .slider b set slideFault_own (by simp [slideFault]) fun _ none => absurd none slideFault_ne_nil
    · split
      · have moves (o : Dir) : Moves id.group o s (w.rackCheck id (w.retrim id, [])).1 := by
          unfold State.rackCheck
          split
          · exact set o
          · exact (set o).trans .retrim
        exact .slider b moves (State.rackCheck_own .nil) (State.rackCheck_brief (by simp)) fun _ none =>
          rackFine_checked none .retrim
      · rename_i off
        exact .slider b set .nil (by simp) fun _ _ on => absurd on off

/-! ### Home switches -/

/-- A slider without a motion takes a new record. -/
theorem Device.still_slider {k : SliderRec} (b : Device R s l) (still : s.still id.group) : Device R (s.setSlider id k) l := by
  have y : Ending := { outcome := .released }
  have lists : (s.setSlider id k).motions = s.motions ∧ (s.setSlider id k).channels = s.channels ∧
      (s.setSlider id k).layout = s.layout := by cases id <;> exact ⟨rfl, rfl, rfl⟩
  have ended : Device R (s.setSlider id k) (.endMotion id.group y :: l) := (b.append (r := [.endMotion id.group y])).setSlider
  refine ended.settle (fun e mem group => absurd group (still e (lists.1 ▸ mem))) fun _ i own => .inr ?_
  obtain rfl := Slider.eq_of_group own
  exact ended.seats.fine fun e mem => still e (lists.1 ▸ mem)

theorem SameBooks.setSlider {k : SliderRec} : SameBooks s (s.setSlider id k) := by
  cases id <;> exact ⟨rfl, fun _ mem => mem, rfl, rfl⟩

theorem State.slideDir_none (none : s.slideDir id = none) : s.still id.group :=
  State.still_iff_entryOf.mpr (by simpa [State.slideDir] using none)

theorem Works.slideHomeOpened (b : Device R s l) : Works R l s (s.slideHomeOpened id, []) := by
  unfold State.slideHomeOpened
  split
  · rename_i rests
    exact ⟨b.still_slider (State.slideDir_none (by simpa using rests.1)), .setSlider, by simp, by simp [weights]⟩
  · exact .quiet b (.refl s)

theorem Works.slideHomeClosed (b : Device R s l) : Works R l s (s.slideHomeClosed id m) := by
  have own := State.slideHomeClosed_own (s := s) (id := id) (m := m)
  unfold State.slideHomeClosed at own ⊢
  dsimp only at own ⊢
  generalize counted : s.setMotor id m _ = w at own ⊢
  have set (o : Dir) : Moves id.group o s w := counted ▸ .setMotor
  split
  · rename_i none
    have still : w.still id.group := State.slideDir_none none
    have zeroed : Device R w l := b.slider set fun _ _ => .inr ((b.seats.moves (set .outward) fun e mem group =>
      absurd group (still e ((set .outward).motions ▸ mem))).fine still)
    exact ⟨zeroed.still_slider still, (set .outward).same.trans .setSlider, by simp, by simp [weights]⟩
  · rename_i c moving
    rw [moving] at own
    dsimp only at own
    generalize part : (if c = .stowing ∧ (w.motor id m).phase = .travel ∧ w.motorDriven id m = true then w.beginSeat id m
      else (w.retrim id, [])) = k at own ⊢
    have after : (∀ o, Moves id.group o w k.1) ∧ Eases id w k.1 ∧ EndsOnly id.group k.2 ∧ k.2.length ≤ 1 := by
      rw [← part]
      split
      · exact ⟨fun _ => .of_controls State.beginSeat_controls .beginSeat, .beginSeat, State.beginSeat_own,
          State.beginSeat_brief⟩
      · exact ⟨fun _ => .retrim, .retrim, .nil, by simp⟩
    obtain ⟨moves, eases, ends, brief⟩ := after
    split
    · have checked (o : Dir) : Moves id.group o s (w.rackCheck id k).1 := by
        unfold State.rackCheck
        split
        · exact set o
        · exact (set o).trans (moves o)
      exact .slider b checked (State.rackCheck_own ends) (State.rackCheck_brief brief) fun _ none =>
        rackFine_checked none eases
    · rename_i off
      exact .slider b (fun o => (set o).trans (moves o)) ends brief fun _ _ => eases.fine fun on => absurd on off

/-! ### A drive start that ends a dwell -/

/-- A room's or the awning's motor starts after its dwell. -/
theorem Works.motorStartedLate (b : Device R s l)
    (moves : ∀ d, (∀ e ∈ s.motions, e.group = id.group → e.action.dir = d) → Moves id.group d s t)
    (moving : ¬ s.still id.group) : Works R l s ((t.motorStarted id m).1.retrim id, (t.motorStarted id m).2) := by
  obtain ⟨d, dir⟩ := b.seats.direction id.group
  have first := moves d dir
  have started : Moves id.group d t (t.motorStarted id m).1 := .of_controls State.motorStarted_controls .motorStarted
  have whole := first.trans (started.trans .retrim)
  have moving' : t.slideDir id ≠ none := fun none => moving fun e mem =>
    State.slideDir_none none e (first.motions ▸ mem)
  refine .own (g := id.group) ?_ whole.same State.motorStarted_own State.motorStarted_brief
  have more := b.append (r := (t.motorStarted id m).2)
  refine more.moves whole dir fun _ i same _ => ?_
  obtain rfl := Slider.eq_of_group same
  obtain fine | some := State.motorStarted_checked (m := m) moving'
  · exact .inr (Eases.retrim.fine fine)
  · exact .inl (State.motorStarted_own.leaving some).append_right

theorem Works.startedLate (b : Device R s l) (may : s.mayDrive n = true) (dwelt : (s.chan n).busy = true) :
    Works R l s ((s.driveStart n (s.chan n).dir).startedLate n) := by
  obtain ⟨-, e, mem, among, aimed⟩ := b.seats.drives n dwelt
  have listed := State.mem_motions_load mem
  have fits : Safety.actionFits e.group e.action = true := b.seats.fits e.motion listed
  have group := State.group_of_motionChans fits among
  have starts (d : Dir) (dir : ∀ x ∈ s.motions, x.group = e.group → x.action.dir = d) :
      Moves e.group d s (s.driveStart n (s.chan n).dir) :=
    .of_controls (State.driveStart_controls group (State.mayDrive_seated may))
      (.driveStart may fun role => (aimed role).trans (dir e.motion listed rfl))
  have moving : ¬ s.still e.group := fun still => still e.motion listed rfl
  have layout : (s.driveStart n (s.chan n).dir).layout = s.layout := (Steers.driveStart (d := (s.chan n).dir) may fun _ => rfl).layout
  unfold State.startedLate
  rw [State.role_layout layout]
  cases role : s.role n with
  | room k m =>
    have own : (s.role n).group = some (Slider.room k).group := by rw [role]; rfl
    obtain same : e.group = (Slider.room k).group := Option.some.inj (group.symm.trans own)
    rw [same] at starts moving
    exact .motorStartedLate b starts moving
  | awning =>
    have own : (s.role n).group = some Slider.awning.group := by rw [role]; rfl
    obtain same : e.group = Slider.awning.group := Option.some.inj (group.symm.trans own)
    rw [same] at starts moving
    exact .motorStartedLate b starts moving
  | jack j =>
    have own : (s.role n).group = some .jacks := by rw [role]; rfl
    obtain same : e.group = .jacks := Option.some.inj (group.symm.trans own)
    rw [same] at starts
    obtain ⟨d, dir⟩ := b.seats.direction .jacks
    have whole := (starts d dir).trans (.of_controls State.pumpFollow_controls .pumpFollow)
    exact ⟨b.jacks whole dir, whole.same, by simp, by simp [weights]⟩
  | pump =>
    have own : (s.role n).group = some .jacks := by rw [role]; rfl
    obtain same : e.group = .jacks := Option.some.inj (group.symm.trans own)
    rw [same] at starts
    obtain ⟨d, dir⟩ := b.seats.direction .jacks
    exact ⟨b.jacks (starts d dir) dir, (starts d dir).same, by simp, by simp [weights]⟩
  | none => rw [role] at group; cases group

end

end Sys2Proof.Machine
end

section
/-! PROOFS. That an event at the jacks keeps what an event keeps: pressure, contact, steps, stalls, home switches and the course of a
level run (R64 to R78, R84 to R87). -/

namespace Sys2Proof.Machine

section
variable {s t u w : State} {g h : Group} {e x y : Entry} {z : Ending} {a : Action} {n : Chan} {d : Dir} {j : JackId}
  {l r new : List Task} {v : Task} {R : Prop} {p q : Work} {f : FaultCode}

/-- From one state to the other only what belongs to the jacks has changed. -/
structure JackPart (s t : State) : Prop where
  layout : t.layout = s.layout
  paused : t.paused = s.paused
  claims : t.claims = s.claims
  plan : t.plan = s.plan
  chans : ∀ n, (s.role n).group ≠ some .jacks → t.chan n = s.chan n
  rooms : t.rooms = s.rooms
  awning : t.awning = s.awning

namespace JackPart

theorem refl (s : State) : JackPart s s := ⟨rfl, rfl, rfl, rfl, fun _ _ => rfl, rfl, rfl⟩

theorem trans (a : JackPart s t) (b : JackPart t u) : JackPart s u where
  layout := b.layout.trans a.layout
  paused := b.paused.trans a.paused
  claims := b.claims.trans a.claims
  plan := b.plan.trans a.plan
  chans n other := (b.chans n (by rwa [State.role_layout a.layout])).trans (a.chans n other)
  rooms := b.rooms.trans a.rooms
  awning := b.awning.trans a.awning

theorem of_controls (c : Controls .jacks s t) : JackPart s t where
  layout := c.layout
  paused := by have same := congrArg State.paused c.outer; exact same
  claims := by have same := congrArg State.claims c.outer; exact same
  plan := c.plan
  chans := c.chans
  rooms := by
    refine Vector.ext fun i less => ?_
    have same := c.axes (.room ⟨i, less⟩) (by simp)
    exact same
  awning := by have same := c.axes .awning (by simp); exact same

theorem onJack {f : Jack → Jack} : JackPart s (s.onJack j f) := ⟨rfl, rfl, rfl, rfl, fun _ _ => rfl, rfl, rfl⟩

theorem liftOff : JackPart s (s.liftOff j) := ⟨rfl, rfl, rfl, rfl, fun _ _ => rfl, rfl, rfl⟩

end JackPart

theorem Moves.of_jackPart (a : JackPart s t) (b : Steers d s t) : Moves .jacks d s t where
  toSteers := b
  paused := a.paused
  claims := a.claims
  plan := a.plan
  chans n other busy := by
    rw [a.chans n other] at busy ⊢
    exact ⟨busy, rfl⟩
  jacks other := absurd rfl other
  racks id other fine := by
    have slider : t.slider id = s.slider id := by cases id <;> simp [State.slider, a.rooms, a.awning]
    refine fine.of a.layout (fun m => by unfold State.motor; rw [slider]) fun m n own on => ?_
    rwa [a.chans n (by rw [State.group_motorChan own]; simpa using other)] at on

/-! ### Events -/

/-- An event's work at the jacks: it ends their motion at most. -/
structure JackEvent (s : State) (p : Work) : Prop where
  part : JackPart s p.1
  own : EndsOnly .jacks p.2
  brief : p.2.length ≤ 1

theorem JackEvent.after (a : JackPart s t) (b : JackEvent t p) : JackEvent s p := ⟨a.trans b.part, b.own, b.brief⟩

theorem JackEvent.idle (a : JackPart s t) : JackEvent s (t, []) := ⟨a, .nil, by simp⟩

theorem JackEvent.ending : JackEvent s (s, jackEnding z) ↔ z.claim = .byRule := by
  refine ⟨fun b => ?_, fun rule => ⟨.refl s, .one rule, by simp [jackEnding]⟩⟩
  obtain ⟨k, same, rule⟩ := b.own (.endMotion .jacks z) (by simp [jackEnding])
  rw [(Task.endMotion.inj same).2]
  exact rule

theorem JackEvent.jackSettled : JackEvent s s.jackSettled :=
  ⟨.of_controls State.jackSettled_controls, State.jackCheck_own, State.jackCheck_brief⟩

theorem JackEvent.contactGained : JackEvent s (s.contactGained j) := by
  unfold State.contactGained
  dsimp only
  split
  · exact .after .onJack (.after (.of_controls State.jackDone_controls) .jackSettled)
  · exact .idle .onJack

theorem JackEvent.contactLost : JackEvent s (s.contactLost j) := by
  unfold State.contactLost
  dsimp only
  split
  · have lifted : JackPart s ((s.onJack j fun r => { r with contact := false, lossRun := 0 }).liftOff j) :=
      JackPart.onJack.trans .liftOff
    split
    · have sent := lifted.trans (JackPart.onJack (j := j) (f := fun r => { r with phase := .active, dir := .outward }))
      refine .idle (sent.trans ?_)
      split
      · exact (JackPart.of_controls State.startValve_controls).trans (.of_controls State.pumpFollow_controls)
      · exact .of_controls State.pumpFollow_controls
    · exact .idle lifted
  · exact .idle .onJack

theorem JackEvent.pressureSample {value : Nat} : JackEvent s (s.pressureSample j value) := by
  unfold State.pressureSample
  dsimp only
  split
  · split
    · split
      · exact .after .onJack .contactLost
      · exact .idle (JackPart.onJack.trans .onJack)
    · exact .idle (JackPart.onJack.trans .onJack)
  · split
    · exact .after .onJack .contactGained
    · exact .idle .onJack

theorem JackEvent.jackStep {o : Dir} {driven : Bool} : JackEvent s (s.jackStep j o driven) := by
  obtain ⟨k, fed⟩ : ∃ k : Vector Nat 6, ∀ i : JackId, k[i] = if s.feedsProgress j o = true ∧ i = j then
      min 65535 (s.level.progress[i] + 1) else s.level.progress[i] := ⟨Vector.ofFn _, ofFn_getElem _⟩
  obtain ⟨stroke, target, on⟩ := State.jackStep_eq (driven := driven) fed
  have counted : JackPart s (s.jackCounted j o k) := ⟨rfl, rfl, rfl, rfl, fun _ _ => rfl, rfl, rfl⟩
  by_cases ends : s.stepsToStroke j o driven
  · rw [stroke ends]
    exact .after counted (.after (.of_controls State.jackAtStroke_controls) .jackSettled)
  by_cases meets : s.stepsToTarget j o k
  · rw [target ends meets]
    exact .after counted (.after (.of_controls State.jackDone_controls) .jackSettled)
  · rw [on ends meets]
    exact .idle counted

theorem JackEvent.jackStall : JackEvent s (s.jackStall j) := by
  unfold State.jackStall
  split
  · split
    · exact .after (.of_controls State.jackAtStroke_controls) .jackSettled
    · exact JackEvent.ending.mpr rfl
  · exact .idle (.refl s)

theorem JackEvent.jackHomeClosed : JackEvent s (s.jackHomeClosed j) := by
  unfold State.jackHomeClosed
  dsimp only
  split
  · exact .after .onJack (.after (.of_controls State.jackDone_controls) .jackSettled)
  · exact .idle .onJack

theorem JackEvent.activeFault : JackEvent s (s.activeFault f) := JackEvent.ending.mpr rfl

theorem JackEvent.settleDecide : JackEvent s s.settleDecide := by
  have work : EndsOnly .jacks s.settleDecide.2 ∧ s.settleDecide.2.length ≤ 1 := by
    unfold State.settleDecide
    dsimp only
    have one (o : MotionOutcome) : EndsOnly .jacks (jackEnding { outcome := o }) ∧
        (jackEnding { outcome := o }).length ≤ 1 := ⟨.one, by simp [jackEnding]⟩
    split
    · split
      · exact one _
      · exact ⟨.nil, by simp⟩
    · split
      · exact one _
      · split
        · exact one _
        · split
          · exact one _
          · split
            · exact one _
            · exact ⟨.nil, by simp⟩
  exact ⟨.of_controls State.settleDecide_controls, work.1, work.2⟩

/-! ### What they keep -/

theorem Works.jacks (b : Device R s l) (event : JackEvent s p)
    (steers : ∀ d, (∀ e ∈ s.motions, e.group = .jacks → e.action.dir = d) → Steers d s p.1) : Works R l s p := by
  obtain ⟨d, dir⟩ := b.seats.direction .jacks
  have moves : Moves .jacks d s p.1 := .of_jackPart event.part (steers d dir)
  have more := b.append (r := p.2)
  exact .own (more.jacks moves dir) moves.same event.own event.brief

/-- A motion that seeks contact goes out. -/
theorem State.seeks_outward (dir : ∀ e ∈ s.motions, e.group = .jacks → e.action.dir = d) (seeks : s.seeksContact = true) :
    d = .outward := by
  unfold State.seeksContact State.jackMotion at seeks
  split at seeks
  · rename_i x found
    obtain ⟨listed, group⟩ := State.entryOf_motion found
    have same : x.action.dir = d := dir x.motion listed group
    rw [← same]
    split at seeks
    · rename_i action
      rw [action]
      rfl
    · rename_i action
      rw [action]
      rfl
    · cases seeks
  · cases seeks

theorem Works.contactLost (b : Device R s l) : Works R l s (s.contactLost j) :=
  .jacks b .contactLost fun _ dir => .contactLost (State.seeks_outward dir)

theorem Works.pressureSample {value : Nat} (b : Device R s l) : Works R l s (s.pressureSample j value) :=
  .jacks b .pressureSample fun _ dir => .pressureSample (State.seeks_outward dir)

theorem Works.jackStep {o : Dir} {driven : Bool} (b : Device R s l) : Works R l s (s.jackStep j o driven) :=
  .jacks b .jackStep fun _ _ => .jackStep

theorem Works.jackStall (b : Device R s l) : Works R l s (s.jackStall j) := .jacks b .jackStall fun _ _ => .jackStall

theorem Works.jackHomeClosed (b : Device R s l) : Works R l s (s.jackHomeClosed j) :=
  .jacks b .jackHomeClosed fun _ _ => .jackHomeClosed

theorem Works.activeFault (b : Device R s l) : Works R l s (s.activeFault f) :=
  .jacks b .activeFault fun d _ => .refl d s

/-- A level run decides its course: it moves the jacks outward alone. -/
theorem Works.settleDecide (b : Device R s l) (active : s.levelActive = true) : Works R l s s.settleDecide := by
  refine .jacks b .settleDecide fun d dir => ?_
  obtain ⟨e, mem, level⟩ := b.ways.level active
  have fits := b.seats.fits e mem
  rw [level] at fits
  have same := dir e mem (by simpa [Safety.actionFits] using fits)
  rw [level] at same
  exact same ▸ .settleDecide

/-! ### Pulses, stalls and samples of a channel -/

theorem Works.handStep {o : Dir} {driven : Bool} (b : Device R s l) : Works R l s (s.handStep n o driven) := by
  unfold State.handStep
  split
  · exact .slideStep b
  · exact .slideStep b
  · exact .jackStep b
  · exact .quiet b (.refl s)
  · exact .quiet b (.refl s)

theorem Works.handStall (b : Device R s l) : Works R l s (s.handStall n) := by
  unfold State.handStall
  split
  · exact .slideStall b
  · exact .slideStall b
  · exact .jackStall b
  · exact .quiet b (.refl s)
  · exact .quiet b (.refl s)

theorem Works.drivenPulse (b : Device R s l) : Works R l s (s.drivenPulse n) := by
  unfold State.drivenPulse
  dsimp only
  split
  · have noted : Quietly s ((s.setPace n (s.paceRec n).reject).mirrorTally n) := Quietly.setPace.trans .mirrorTally
    split
    · exact .after noted (.channelFault (b.calm noted.calm))
    · exact .quiet b noted
  · have noted : Quietly s (s.setPace n (s.paceRec n).accept) := .setPace
    exact .after noted (.handStep (b.calm noted.calm))

theorem Works.pulse (b : Device R s l) : Works R l s (s.pulse n) := by
  unfold State.pulse
  dsimp only
  split
  · exact .drivenPulse b
  · split
    · split
      · exact .handStep b
      · exact .quiet b (.refl s)
    · exact .quiet b (.refl s)

theorem Works.homeEvent {closed : Bool} (b : Device R s l) : Works R l s (s.homeEvent n closed) := by
  unfold State.homeEvent
  split
  · exact .slideHomeClosed b
  · exact .slideHomeOpened b
  · exact .slideHomeClosed b
  · exact .slideHomeOpened b
  · exact .jackHomeClosed b
  · exact .quiet b (.refl s)
  · exact .quiet b (.refl s)
  · exact .quiet b (.refl s)

/-! ### The census -/

/-- The channels' records change, and none is busy that is not SEATED and was not busy before. -/
theorem Device.rechan (b : Device R s l) (layout : t.layout = s.layout) (load : t.load = s.load) (paused : t.paused = s.paused)
    (rooms : t.rooms = s.rooms) (awning : t.awning = s.awning) (jacks : t.jacks = s.jacks) (level : t.level = s.level)
    (chans : ∀ i, (t.chan i).busy = true →
      (t.chan i).census = .seated ∧ (s.chan i).busy = true ∧ (t.chan i).dir = (s.chan i).dir)
    (driven : ∀ i, (t.chan i).driven = true → (s.chan i).driven = true) : Device R t l := by
  have motions := State.motions_congr load paused
  have slider (id : Slider) : t.slider id = s.slider id := by cases id <;> simp [State.slider, rooms, awning]
  have seats : Seats t :=
    { roles := fun i k other same => by
        rw [State.role_layout layout, State.role_layout layout] at same
        rw [State.role_layout layout]
        exact b.seats.roles i k other same
      once := by rw [motions]; exact b.seats.once
      fits := by rw [motions]; exact b.seats.fits
      drives := fun i busy => by
        obtain ⟨seated, before, dir⟩ := chans i busy
        obtain ⟨-, e, mem, among, aimed⟩ := b.seats.drives i before
        refine ⟨seated, e, load ▸ mem, by rwa [State.motionChans_layout layout], fun role => ?_⟩
        rw [State.role_layout layout] at role
        exact dir.trans (aimed role) }
  refine ⟨seats, b.ways.congr layout (fun _ => by rw [motions]) jacks level, fun e mem id own => ?_, fun limit id => ?_⟩
  · rw [slider]
    exact b.shown e (motions ▸ mem) id own
  · exact (b.racks limit id).imp_right fun fine => fine.of layout (fun m => by unfold State.motor; rw [slider]) fun _ i _ =>
      driven i

/-- A read that agrees is taken: a channel of a motion that leaves SEATED is stopped, and the motion ends (R7). -/
theorem Works.confirmRead {read : Levels} (b : Device R s l) : Works R l s (s.confirmRead n read) := by
  have chan (i : Chan) : ((s.setChan n ((s.chan n).confirmed (s.role n) read)).chan i) =
      if n = i then (s.chan n).confirmed (s.role n) read else s.chan i := State.chan_setChan ..
  have same : SameBooks s (s.setChan n ((s.chan n).confirmed (s.role n) read)) := ⟨rfl, fun _ mem => mem, rfl, rfl⟩
  unfold State.confirmRead
  dsimp only
  generalize after : (if ((s.chan n).confirmed (s.role n) read).census ≠ (s.chan n).census then
    (s.setChan n ((s.chan n).confirmed (s.role n) read)).raise .census
    else s.setChan n ((s.chan n).confirmed (s.role n) read)) = t
  have noted : Quietly (s.setChan n ((s.chan n).confirmed (s.role n) read)) t := by
    rw [← after]
    split
    · exact .raise
    · exact .refl _
  split
  · rename_i lost
    obtain ⟨g, own, brief⟩ := State.channelFaultTasks_own (s := t) (n := n)
      (f := lossFault ((s.chan n).confirmed (s.role n) read).census)
    have stopped : t.stopChan n = { s with channels := (t.stopChan n).channels, ports := t.ports } := by
      rw [State.stopChan_eq, ← after]
      split <;> rfl
    have record (i : Chan) : (t.stopChan n).chan i = if n = i then (t.chan n).stopped t.now else s.chan i := by
      rw [State.stopChan_eq, State.chan_setChan]
      split
      · rfl
      · rename_i other
        have kept : t.chan i = (s.setChan n ((s.chan n).confirmed (s.role n) read)).chan i := by
          rw [← after]
          split <;> rfl
        rw [kept, chan, if_neg other]
    have device : Device R (t.stopChan n) l := by
      generalize t.stopChan n = k at stopped record
      refine b.rechan ?_ ?_ ?_ ?_ ?_ ?_ ?_ (fun i busy => ?_) fun i on => ?_
      on_goal 8 =>
        rw [record] at busy ⊢
        split at busy
        · simp at busy
        · rename_i other
          rw [if_neg other]
          obtain ⟨seated, -⟩ := b.seats.drives i busy
          exact ⟨seated, busy, rfl⟩
      on_goal 8 =>
        rw [record] at on
        split at on
        · simp at on
        · exact on
      all_goals rw [stopped]
    have ends := device.append (r := t.channelFaultTasks n (lossFault ((s.chan n).confirmed (s.role n) read).census))
    exact .own (p := t.channelFault n _) ends (same.trans (noted.same.trans Quietly.stopChan.same)) own brief
  · rename_i kept
    have device : Device R (s.setChan n ((s.chan n).confirmed (s.role n) read)) l := by
      refine b.rechan rfl rfl rfl rfl rfl rfl rfl (fun i busy => ?_) fun i on => ?_
      · rw [chan] at busy ⊢
        split at busy
        · rename_i own
          subst own
          have busy : (s.chan n).busy = true := busy
          obtain ⟨seated, e, mem, among, -⟩ := b.seats.drives n busy
          rw [if_pos rfl]
          refine ⟨?_, busy, rfl⟩
          by_contra unseated
          refine kept ⟨seated, unseated, ?_⟩
          unfold State.motionOfChan
          rw [List.find?_isSome]
          exact ⟨e, List.mem_append_left _ mem, by simpa using among⟩
        · rename_i other
          rw [if_neg other]
          exact ⟨(b.seats.drives i busy).1, busy, rfl⟩
      · rw [chan] at on
        split at on
        · rename_i own
          subst own
          exact on
        · exact on
    exact ⟨device.calm noted.calm, same.trans noted.same, by simp, by simp [weights]⟩

theorem Works.compareRead {read : Levels} (b : Device R s l) : Works R l s (s.compareRead n read) := by
  unfold State.compareRead
  split
  · exact .confirmRead b
  · exact .quiet b (.setChan rfl (fun on => ⟨on, rfl⟩) fun on => on)

end

end Sys2Proof.Machine
end

section
/-! PROOFS. That the timed events, the samples, the reads and the home switches keep what an event keeps. -/

namespace Sys2Proof.Machine

section
variable {s t u w : State} {g h : Group} {e x y : Entry} {z : Ending} {a : Action} {id : Slider} {n : Chan} {m : Motor}
  {d : Dir} {j : JackId} {l r new tasks : List Task} {v : Task} {R : Prop} {p q : Work} {f : FaultCode}

namespace Sound

/-- Mild work is begun in a state with none. -/
theorem begin (b : Sound R s []) (mild : ∀ u ∈ tasks, u.mild) : Sound R s tasks where
  device := by
    have more := b.device.append (r := tasks)
    rwa [List.append_nil] at more
  books := b.books.opened (.refl s) mild
  permits := by
    have more := b.permits.handed (t := s) (new := tasks) rfl (fun _ => .inl) (.inl rfl)
    rwa [List.append_nil] at more

theorem drainMild (b : Sound R s []) (mild : ∀ u ∈ tasks, u.mild) (light : weights tasks ≤ 2000) :
    Sound R (Machine.drain workBound (s, tasks)) [] :=
  Sound.drained (l := tasks) (r := []) (by rw [List.append_nil]; exact b.begin mild) (by omega)

theorem ending (b : Sound R s []) (own : EndsOnly g tasks) (brief : tasks.length ≤ 1) :
    Sound R (Machine.drain workBound (s, tasks)) [] :=
  b.drainMild own.mild ((own.weights_le brief).trans (by omega))

/-- A timed event takes place at its moment, or not at all. -/
theorem timed {moment : Time} {k : State → State} (b : Sound R s [])
    (event : Sound R (s.advanceTo moment) [] → Sound R (k (s.advanceTo moment)) []) :
    Sound R (if s.comes moment then k (s.advanceTo moment) else s) [] := by
  split
  · exact event (b.quiet (.advanceTo moment))
  · exact b

theorem takeRead {read : Levels} (b : Sound R s []) : Sound R (s.takeRead n read) [] := by
  unfold State.takeRead
  split
  · have there := b.quiet (.advanceTo (s.readDue n))
    exact there.event (.compareRead there.device)
  · exact b

theorem censusRead {read : Levels} (b : Sound R s []) : Sound R (s.censusRead n read) [] := by
  unfold State.censusRead
  split
  · exact b.takeRead
  · exact b

theorem confirmingRead {read : Levels} (b : Sound R s []) : Sound R (s.confirmingRead n read) [] := by
  unfold State.confirmingRead
  split
  · exact b.takeRead
  · exact b

theorem dwellEnd (b : Sound R s []) : Sound R (s.dwellEnd n) [] := by
  unfold State.dwellEnd
  split
  · rename_i moment due
    split
    · have there := b.quiet (.advanceTo moment)
      dsimp only
      split
      · rename_i may
        refine there.event (.startedLate there.device may ?_)
        unfold State.dwellDue at due
        split at due
        · rename_i dwells
          rw [(Later.advanceTo s moment).chan]
          simp [Channel.busy, dwells]
        · cases due
      · exact there
    · exact b
  · exact b

theorem seatReached (b : Sound R s []) : Sound R (s.seatReached id m) [] := by
  unfold State.seatReached
  split
  · exact b.timed (k := fun t => t.event fun u => u.seatDone id m) fun there => there.event (.seatDone there.device)
  · exact b

theorem analogSample {raw : Sample} (b : Sound R s []) : Sound R (s.analogSample n raw) [] := by
  unfold State.analogSample
  split
  · refine b.event ?_
    have noted {value : Nat} : Quietly s (s.setChan n { s.chan n with scaled := value }) :=
      .setChan rfl (fun on => ⟨on, rfl⟩) fun on => on
    dsimp only
    split
    · exact .after noted (.pressureSample (b.device.calm noted.calm))
    · exact .after noted (.watchCurrent (b.device.calm noted.calm))
  · exact b

theorem overcurrent (b : Sound R s []) : Sound R (s.overcurrent n) [] := by
  unfold State.overcurrent
  split
  · have noted : Quietly s (s.setChan n { s.chan n with overRun := 3 }) := .setChan rfl (fun on => ⟨on, rfl⟩) fun on => on
    exact b.event (.after noted (.channelFault (b.device.calm noted.calm)))
  · exact b

theorem lossReached (b : Sound R s []) : Sound R (s.lossReached j) [] := by
  unfold State.lossReached
  split
  · exact b.event (.contactLost b.device)
  · exact b

theorem noiseReached (b : Sound R s []) : Sound R (s.noiseReached n) [] := by
  unfold State.noiseReached
  split
  · have noted : Quietly s ((s.setPace n { s.paceRec n with tally := 64 }).mirrorTally n) := Quietly.setPace.trans .mirrorTally
    exact b.event (.after noted (.channelFault (b.device.calm noted.calm)))
  · exact b

theorem stallReached (b : Sound R s []) : Sound R (s.stallReached n) [] := by
  unfold State.stallReached
  split
  · have there := b.quiet (.later (.advanceCounter s n (s.stallLimit n)))
    have noted : Quietly (s.advanceCounter n (s.stallLimit n)) _ :=
      .setPace (n := n) (k := { (s.advanceCounter n (s.stallLimit n)).paceRec n with stallRaised := true })
    exact there.event (.after noted (.handStall (there.device.calm noted.calm)))
  · exact b

theorem slideTimeout (b : Sound R s []) : Sound R (s.slideTimeout id) [] := by
  unfold State.slideTimeout
  split
  · exact (b.quiet (.later (.advanceRun s _ _))).ending slideFault_own (by simp [slideFault])
  · exact b

theorem jackRunOut (b : Sound R s []) : Sound R s.jackRunOut [] := by
  unfold State.jackRunOut
  split
  · exact (b.quiet (.later (.advanceRun s _ _))).ending (g := .jacks) .one (by simp [jackEnding])
  · exact b

theorem atPhaseLimit {phase : LevelPhase} {taken : Bool} {k : State → Work} (b : Sound R s [])
    (works : ∀ t, Device R t [] → t.levelActive = true → Works R [] t (k t)) : Sound R (s.atPhaseLimit phase taken k) [] := by
  unfold State.atPhaseLimit
  split
  · rename_i due
    have later := Later.advanceRun s s.level.phaseTime s.phaseLimit
    have there := b.quiet (.later later)
    refine there.event (works _ there.device ?_)
    simp only [Bool.and_eq_true] at due
    unfold State.levelActive
    rw [later.level]
    exact due.1.1
  · exact b

theorem contactPhaseOut (b : Sound R s []) : Sound R s.contactPhaseOut [] := b.atPhaseLimit fun _ device _ => .activeFault device

theorem passOut (b : Sound R s []) : Sound R s.passOut [] := b.atPhaseLimit fun _ device _ => .activeFault device

theorem settleDone (b : Sound R s []) : Sound R s.settleDone [] := b.atPhaseLimit fun _ device => .settleDecide device

theorem pauseReached (b : Sound R s []) : Sound R (s.pauseReached g) [] := by
  unfold State.pauseReached
  split
  · exact b.timed (k := fun t => Machine.drain workBound (t, [.endMotion g { outcome := .supplyLow }])) fun there =>
      there.ending .one (by simp)
  · exact b

theorem plsPulse (b : Sound R s []) : Sound R (if s.hasPulses n then s.event fun u => u.pulse n else s) [] := by
  split
  · exact b.event (.pulse b.device)
  · exact b

theorem tiltTaken {x y : Nat} (b : Sound R s []) : Sound R (if 0 < s.jackCount then s.tiltSample x y else s) [] := by
  split
  · exact b.quiet .tiltSample
  · exact b

end Sound

end

end Sys2Proof.Machine
end

section
/-! PROOFS. That the pulses, the home switches and the first accepted levels keep what an event keeps (R23, R25, R42, R65). -/

namespace Sys2Proof.Machine

section
variable {s t u w : State} {g h : Group} {e x y : Entry} {z : Ending} {a : Action} {id : Slider} {n : Chan} {m : Motor}
  {d : Dir} {j : JackId} {l r new tasks : List Task} {v : Task} {R : Prop} {p q : Work} {k : Line} {level closed : Bool}

/-! ### Home switches -/

/-- A line's accepted level is no part of what moves. -/
theorem Calm.accept : Calm s (s.accept k level) := by
  unfold State.accept
  have frame := s.setLine_frame (x := { s.line k with accepted := some level }) (l := k)
  generalize s.setLine _ k = t at frame
  refine .of_same ?_ ?_ ?_ ?_ ?_ ?_ ?_ ?_ ?_ ?_
  all_goals rw [frame]

theorem Calm.same (b : Calm s t) : SameBooks s t := (b .awning .outward).same

theorem Works.calmly (calm : Calm s t) (b : Works R l t p) : Works R l s p := ⟨b.device, calm.same.trans b.same, b.mild, b.light⟩

theorem Sound.homeChanged (b : Sound R s []) : Sound R (s.homeChanged n closed) [] := by
  unfold State.homeChanged
  split
  · exact b.event (.calmly .accept (.homeEvent (b.device.calm .accept)))
  · exact b

theorem Sound.homeOf {r : Role} (b : Sound R s []) : Sound R (s.homeOf r closed) [] := by
  unfold State.homeOf
  split
  · exact b.homeChanged
  · exact b

/-! ### First accepted levels -/

theorem State.slideHomeClosed_brief : (s.slideHomeClosed id m).2.length ≤ 1 := by
  unfold State.slideHomeClosed
  dsimp only
  split
  · simp
  · split
    · refine State.rackCheck_brief ?_
      split
      · exact State.beginSeat_brief
      · simp
    · split
      · exact State.beginSeat_brief
      · simp

theorem State.homeEvent_brief : (s.homeEvent n closed).2.length ≤ 1 := by
  unfold State.homeEvent
  split
  · exact State.slideHomeClosed_brief
  · simp
  · exact State.slideHomeClosed_brief
  · simp
  · exact JackEvent.jackHomeClosed.brief
  all_goals simp

/-- The channels whose home switch has an accepted level. -/
def State.homesRead (s : State) : Finset Chan := Finset.univ.filter fun n => (s.line (.hom n)).accepted ≠ none

theorem State.homesRead_mono (w : Work) (x : Line × Bool) : w.1.homesRead ⊆ (State.firstLevel w x).1.homesRead := by
  intro n mem
  simp only [State.homesRead, Finset.mem_filter, Finset.mem_univ, true_and] at mem ⊢
  rw [State.line_firstLevel]
  split
  · simp
  · exact mem

/-- First levels taken so far: each ending that they leave is of a home switch's first level. -/
structure Taken (R : Prop) (s : State) (w : Work) : Prop extends Works R [] s w where
  ends : weights w.2 ≤ w.1.homesRead.card

theorem Taken.accept (b : Taken R s p) (grows : p.1.homesRead.card ≤ (p.1.accept k level).homesRead.card) :
    Taken R s (p.1.accept k level, p.2) :=
  ⟨⟨b.device.calm .accept, b.same.trans Calm.accept.same, b.mild, b.light⟩, b.ends.trans grows⟩

/-- The first level of a home switch is handed over. -/
theorem Taken.home (b : Taken R s p)
    (more : p.1.homesRead.card < ((p.1.accept (.hom n) level).homeEvent n level).1.homesRead.card) :
    Taken R s (((p.1.accept (.hom n) level).homeEvent n level).1,
      p.2 ++ ((p.1.accept (.hom n) level).homeEvent n level).2) := by
  have works : Works R (p.2 ++ []) p.1 ((p.1.accept (.hom n) level).homeEvent n level) :=
    .calmly .accept (.homeEvent (b.device.calm .accept))
  have one : weights ((p.1.accept (.hom n) level).homeEvent n level).2 ≤ 1 := by
    obtain ⟨_, _, -, own, -⟩ := State.homeEvent_part (s := p.1.accept (.hom n) level) (n := n) (closed := level)
    exact own.weights_le State.homeEvent_brief
  have read := Finset.card_le_univ ((p.1.accept (.hom n) level).homeEvent n level).1.homesRead
  have ends := b.ends
  simp only [Fintype.card_fin] at read
  refine ⟨⟨works.device.leave fun g => ?_, b.same.trans works.same, fun u mem => ?_, ?_⟩, ?_⟩
  · rintro ⟨z, mem⟩
    exact ⟨z, by simpa [or_comm] using mem⟩
  · obtain mem | mem := List.mem_append.mp mem
    · exact b.mild u mem
    · exact works.mild u mem
  · rw [weights_append]
    omega
  · rw [weights_append]
    dsimp only
    omega

theorem Taken.firstLevel {x : Line × Bool} (b : Taken R s p) : Taken R s (State.firstLevel p x) := by
  have among := State.homesRead_mono p x
  have line := State.line_firstLevel (w := p) (x := x) (l := x.1)
  rw [State.firstLevel_eq] at among line ⊢
  split
  · rename_i first
    rw [if_pos first] at among line
    rw [Bool.and_eq_true, Option.isNone_iff_eq_none] at first
    rw [if_pos ⟨rfl, first⟩] at line
    obtain ⟨k, level⟩ := x
    cases k with
    | hom c =>
      refine b.home (Finset.card_lt_card (among.ssubset_of_ne fun same => ?_))
      have unread : c ∉ p.1.homesRead := by simpa [State.homesRead] using first.2
      refine unread (same ▸ ?_)
      simp [State.homesRead, line]
    | _ => exact b.accept (Finset.card_le_card among)
  · exact b

theorem Taken.firstLevels (levels : List (Line × Bool)) (b : Taken R s p) : Taken R s (levels.foldl State.firstLevel p) := by
  induction levels generalizing p with
  | nil => exact b
  | cons x rest ih => exact ih b.firstLevel

theorem Sound.initialLevels {levels : List (Line × Bool)} (b : Sound R s []) : Sound R (s.initialLevels levels) [] := by
  unfold State.initialLevels
  dsimp only
  refine b.event ?_
  have start : Taken R s (s, []) := ⟨.quiet b.device (.refl s), by simp [weights]⟩
  have taken := start.firstLevels ((levels.filter fun x => isHomeLine x.1) ++ levels.filter fun x => !isHomeLine x.1)
  generalize List.foldl State.firstLevel (s, []) _ = w at taken ⊢
  split
  · exact ⟨taken.device.calm Quietly.evalAlarm.calm, taken.same.trans Quietly.evalAlarm.same, taken.mild, taken.light⟩
  · exact taken.toWorks

end

end Sys2Proof.Machine
end

section
/-! PROOFS. That the requests on a claim keep what an event keeps: acceptance, renewal, replacement, release and the hold deadline
(R112 to R118). -/

namespace Sys2Proof.Machine

section
variable {s t u w : State} {g h : Group} {e x y : Entry} {c k : Claim} {z : Ending} {a : Action} {o : Owner} {mo : Mode}
  {l r new tail : List Task} {v : Task} {R : Prop} {p : Port} {answer : Answer}

/-! ### The claim of one group -/

/-- A group whose claim is not the sequencer's is in no running plan. -/
theorem Books.unplanned (b : Books s l) (foreign : ∀ c, s.claim g = some c → ¬ (c.owner = .sequencer ∧ c.mode = .auto)) :
    s.unplanned g := fun n on name mem => by
  obtain ⟨k, named, -, -, -, held⟩ := b.held on
  obtain rfl := Option.some.inj (name.symm.trans named)
  obtain ⟨c, claim, own, mode⟩ := held g mem
  exact foreign c claim ⟨own, mode⟩

theorem Books.unplanned_of_owner (b : Books s l) (claim : s.claim g = some c) (owner : c.owner ≠ .sequencer) : s.unplanned g :=
  b.unplanned fun k same planned => by
    obtain rfl := Option.some.inj (claim.symm.trans same)
    exact owner planned.1

/-- The claim of a group changes that no running plan holds. -/
theorem Books.reclaim (b : Books s []) (apart : s.unplanned g) (layout : t.layout = s.layout) (plan : t.plan = s.plan)
    (claims : ∀ h, h ≠ g → t.claim h = s.claim h) (claimed : t.motionsClaimed)
    (listed : ∀ e ∈ t.motions, e.owner = .sequencer → e ∈ s.motions) (mild : ∀ u ∈ new, u.mild) : Books t new := by
  have runs : t.planRunning = s.planRunning := by unfold State.planRunning; rw [plan]
  refine ⟨layout ▸ b.plans, claimed, fun h z mem => mild _ mem, fun idle e mem own => ?_, fun mem => (mild _ mem).elim,
    fun on => ?_, fun on => .inr ?_⟩
  · exact absurd (b.owed (runs ▸ idle) e (listed e mem own) own) List.not_mem_nil
  · obtain ⟨n, name, low, high, count, held⟩ := b.held (runs ▸ on)
    refine ⟨n, by rw [plan]; exact name, by rw [plan]; exact low, by rw [plan]; exact high, by rw [plan, layout]; exact count,
      fun h mem => ?_⟩
    obtain ⟨c, claim, own, mode⟩ := held h (layout ▸ mem)
    refine ⟨c, ?_, own, mode⟩
    rw [claims h fun same => apart n (runs ▸ on) name (same ▸ layout ▸ mem)]
    exact claim
  · obtain ⟨_, begun, -⟩ | stage := b.stage (runs ▸ on)
    · cases begun
    refine ⟨fun mem => (mild _ mem).elim, ?_, fun e mem own => ?_, ?_, fun h mem => ?_⟩
    · rw [State.presentStep_congr plan layout, plan, places_mild mild]
      exact stage.step
    · rw [plan]
      exact stage.active e (listed e mem own) own
    · rw [takes_mild mild]
      exact List.nodup_nil
    · rw [takes_mild mild] at mem
      cases mem

/-- A motion of the sequencer has a claim that the running plan holds. -/
theorem Books.sequenced (b : Books s []) (mem : e ∈ s.motions) (own : e.owner = .sequencer) : ¬ s.unplanned e.group := by
  by_cases on : s.planRunning = true
  · obtain ⟨n, name, -⟩ := b.held on
    obtain ⟨_, begun, -⟩ | stage := b.stage on
    · cases begun
    obtain ⟨done, step, slots⟩ := stage.step
    have slot := List.mem_map_of_mem (f := Slot.group) (stage.active e mem own)
    rw [slots] at slot
    obtain ⟨⟨g, a⟩, among, same⟩ := List.mem_map.mp slot
    have group : g = e.group := same
    subst group
    have present : (e.group, a) ∈ s.presentStep := by
      rw [step]
      exact List.mem_append_left _ among
    exact fun apart => apart n on name (State.presentStep_fits b.plans name present).1
  · exact absurd (b.owed (by simpa using on) e mem own) List.not_mem_nil

theorem Records.setClaim {c : Option Claim} : Records s (s.setClaim g c) := ⟨rfl⟩

/-- A claim without a motion changes. -/
theorem Sound.setClaim {c : Option Claim} (b : Sound R s []) (still : s.still g) (apart : s.unplanned g) :
    Sound R (s.setClaim g c) [] where
  device := b.device.records .setClaim
  books := by
    refine b.books.reclaim apart rfl rfl (fun h other => ?_) (fun e mem => ?_) (fun e mem _ => mem) (by simp)
    · rw [State.claim_setClaim, if_neg other.symm]
    · rw [State.claim_setClaim, if_neg fun same => still e mem same.symm]
      exact b.books.claimed e mem
  permits := b.permits.handed (new := []) rfl (fun _ mem => .inl mem) (.inl Records.setClaim.view)

/-! ### A motion is placed -/

/-- A motion is placed for a claim of its own, in place of one that has ended. -/
theorem Books.placed (b : Books s []) (apart : s.unplanned g) (layout : u.layout = s.layout) (plan : u.plan = s.plan)
    (claims : ∀ h, h ≠ g → u.claim h = s.claim h) (claim : u.claim g = some c) (owner : c.owner = o) (mode : c.mode = mo)
    (action : c.action = a) (other : o ≠ .sequencer) (motions : ∀ e ∈ u.motions, e ∈ s.motions ∧ e.group ≠ g)
    (mild : ∀ v ∈ new, v.mild) : Books (u.placeAndStart g o mo a).1 new := by
  have listed {e : Entry} := (State.mem_motions_admitMotion (s := u) (h := g) (o := o) (m := mo) (a := a) (y := e)).mp
  have kept : (u.placeAndStart g o mo a).1.claims = u.claims := State.claims_admitMotion
  have claimOf (h : Group) : (u.placeAndStart g o mo a).1.claim h = u.claim h := by unfold State.claim; rw [kept]
  refine b.reclaim apart ?_ ((State.plan_admitMotion (s := u)).trans plan) (fun h off => ?_) (fun e mem => ?_)
    (fun e mem own => ?_) mild
  · refine (State.controllerAdmit_controls.layout).trans (Eq.trans ?_ layout)
    rw [State.placeEntry_frame]
  · rw [claimOf, claims h off]
  · rw [claimOf]
    obtain old | rfl := listed mem
    · obtain ⟨before, off⟩ := motions e old
      rw [claims _ off]
      exact b.claimed e before
    · exact ⟨c, claim, owner, mode, action⟩
  · obtain old | rfl := listed mem
    · exact (motions e old).1
    · exact absurd own other

/-- A controller's work on a motion placed, and what is left to hand over. -/
theorem placed_mild (mild : ∀ v ∈ tail, v.mild) : ∀ v ∈ (u.placeAndStart g o mo a).2 ++ tail, v.mild := fun v mem => by
  obtain mem | mem := List.mem_append.mp mem
  · exact State.controllerAdmit_own.mild v mem
  · exact mild v mem

theorem weights_placed : weights (u.placeAndStart g o mo a).2 ≤ 1 := State.controllerAdmit_own.weights_le State.controllerAdmit_brief

/-- A motion that passed its checks is placed for its claim, in place of one that has ended. -/
theorem Sound.placed (b : Sound R s r) (pending : ∀ v ∈ r, v.mild) (apart : s.unplanned g) (device : Device R u r) (layout : u.layout = s.layout)
    (plan : u.plan = s.plan) (claims : ∀ h, h ≠ g → u.claim h = s.claim h) (claim : u.claim g = some c)
    (owner : c.owner = o) (mode : c.mode = mo) (action : c.action = a) (other : o ≠ .sequencer)
    (motions : ∀ e ∈ u.motions, e ∈ s.motions ∧ e.group ≠ g) (fits : Safety.actionFits g a = true)
    (permit : s.permitCause g a = none) (hands : .handover s.view ∈ tail) (mild : ∀ v ∈ tail, v.mild)
    (light : weights tail ≤ 2000) :
    Sound R (Machine.drain workBound ((u.placeAndStart g o mo a).1, (u.placeAndStart g o mo a).2 ++ tail)) r := by
  have work := placed_mild (u := u) (g := g) (o := o) (mo := mo) (a := a) mild
  refine Sound.drained (r := r) ⟨?_, ?_, ?_⟩ ?_
  · have placed := device.placeAndStart (g := g) (o := o) (mo := mo) (a := a) (fun e mem => (motions e mem).2) fits
    refine placed.leave fun g leaves => ?_
    obtain ⟨z, mem⟩ := leaves
    refine ⟨z, ?_⟩
    simp only [List.mem_append] at mem ⊢
    tauto
  · have books : Books s [] := by
      have begun : Books s (r ++ []) := by rw [List.append_nil]; exact b.books
      exact begun.swap (new := []) (.refl s) pending (by simp) fun k same => by
        rw [List.append_nil] at same
        exact pending _ (same ▸ List.mem_cons_self)
    refine books.placed apart layout plan claims claim owner mode action other motions fun v mem => ?_
    exact (List.mem_append.mp mem).elim (work v) (pending v)
  · refine b.permits.handed ?_ (fun e mem => ?_) (.inr (List.mem_append_right _ hands))
    · refine (State.controllerAdmit_controls.layout).trans (Eq.trans ?_ layout)
      rw [State.placeEntry_frame]
    · obtain old | rfl := State.mem_motions_admitMotion.mp mem
      · exact .inl (motions e old).1
      · exact .inr permit
  · have := weights_placed (u := u) (g := g) (o := o) (mo := mo) (a := a)
    rw [weights_append]
    omega

/-! ### Acceptance, replacement and renewal -/

theorem State.motionRefusal_permit (passes : s.motionRefusal mo g a = none) : s.permitCause g a = none := by
  unfold State.motionRefusal at passes
  split at passes
  · cases passes
  · split at passes
    · cases passes
    · split at passes
      · cases passes
      · split at passes
        · cases passes
        · assumption

theorem State.fullRefusal_permit (passes : s.fullRefusal mo g a = none) : s.permitCause g a = none := by
  unfold State.fullRefusal at passes
  split at passes
  · cases passes
  · rename_i passed
    exact State.motionRefusal_permit passed

theorem Sound.acceptMotion (b : Sound R s []) (free : s.claim g = none) (fits : Safety.actionFits g a = true)
    (permit : s.permitCause g a = none) : Sound R (s.acceptMotion p mo g a).1 [] := by
  have records : Records s (s.setClaim g (some (s.newClaim p mo a))) := .setClaim
  have still : s.still g := fun e mem same => by
    obtain ⟨c, claim, -⟩ := b.books.claimed e mem
    rw [same, free] at claim
    cases claim
  refine b.placed (r := []) (tail := [.handover (s.setClaim g (some (s.newClaim p mo a))).view]) (c := s.newClaim p mo a) (by simp)
    (b.books.unplanned fun c claim => by rw [free] at claim; cases claim) (b.device.records records) rfl rfl (fun h other => ?_)
    (State.claim_setClaim_same ..) rfl rfl rfl (by simp) (fun e mem => ⟨mem, still e mem⟩) fits permit ?_ (by simp [Task.mild])
    (by simp [weights, Task.weight])
  · rw [State.claim_setClaim, if_neg other.symm]
  · rw [records.view]
    exact List.mem_singleton_self _

/-! ### A motion's ending, and what its claim becomes -/

theorem State.layout_motionEnd : (s.motionEnd g z).1.layout = s.layout :=
  (State.motionEnd_does (F := fun _ => True) fun _ => trivial).follows.layout

theorem State.claim_motionEnd_other (other : h ≠ g) : (s.motionEnd g z).1.claim h = s.claim h := by
  by_cases still : s.still g
  · rw [State.motionEnd_still still]
  · obtain ⟨x, found⟩ := State.not_still_iff.mp still
    rw [State.claim_motionEnd found, if_neg other.symm]

theorem Device.ended (b : Device R s l) : Device R (s.motionEnd g z).1 l := (b.append (r := [.endMotion g z])).motionEnd

theorem Sound.replaceMotion (b : Sound R s []) (claim : s.claim g = some c) (held : c.heldBy p = true)
    (fits : Safety.actionFits g a = true) (permit : s.permitCause g a = none) : Sound R (s.replaceMotion p g a).1 [] := by
  have owner : c.owner = .port p := (Claim.heldBy_iff.mp held).2
  unfold State.replaceMotion
  dsimp only
  refine b.placed (r := []) (tail := [.handover s.view, .scan]) (by simp) (b.books.unplanned_of_owner claim (by simp [owner])) (b.device.ended.records .setClaim)
    State.layout_motionEnd State.plan_motionEnd (fun h other => ?_) (State.claim_setClaim_same ..) rfl rfl rfl (by simp)
    (fun e mem => mem_motions_motionEnd.mp mem) fits permit (by simp) (by simp [Task.mild]) (by simp [weights, Task.weight])
  rw [State.claim_setClaim, if_neg other.symm, State.claim_motionEnd_other other]

/-- A motion of a claim that no plan holds ends, whatever becomes of the claim. -/
theorem Sound.freed (b : Sound R s []) (apart : s.unplanned g) :
    Sound R (Machine.drain workBound (s, [.endMotion g z])) [] := by
  obtain ⟨k, bound⟩ : ∃ k, workBound = k + 1 := ⟨9999, rfl⟩
  rw [bound, drain_cons, List.append_nil]
  by_cases still : s.still g
  · rw [State.runTask, State.motionEnd_still still, drain_nil]
    exact b
  obtain ⟨x, found⟩ := State.not_still_iff.mp still
  obtain ⟨mem, group⟩ := State.entryOf_motion found
  have own : x.owner ≠ .sequencer := fun own => b.books.sequenced mem own (by
    have same : x.motion.group = g := group
    rwa [same])
  have mild := mild_ends (z := z) own found
  have next : Sound R (s.motionEnd g z).1 ((s.motionEnd g z).2 ++ []) := by
    refine ⟨b.device.ended.append, ?_, ?_⟩
    · rw [List.append_nil]
      refine b.books.reclaim apart State.layout_motionEnd State.plan_motionEnd
        (fun h other => State.claim_motionEnd_other other) (fun e mem => ?_) (fun e mem _ => ?_) mild
      · obtain ⟨before, other⟩ := mem_motions_motionEnd.mp mem
        rw [State.claim_motionEnd_other other]
        exact b.books.claimed e before
      · exact (mem_motions_motionEnd.mp mem).1
    · have ending := b.permits.handed (t := s) (new := [.endMotion g z]) rfl (fun _ => .inl) (.inl rfl)
      exact Permitted.motionEnd ending
  have light : weights (s.motionEnd g z).2 ≤ 27 := by
    rw [State.motionEnd_work found, if_neg own]
    split <;> simp [weights, Task.weight]
  refine next.drain ?_
  have cost := State.cost_le (s := (s.motionEnd g z).1) (l := (s.motionEnd g z).2)
  have toil := next.toil_le
  have enough : k = 9999 := Nat.succ.inj bound.symm
  omega

theorem Sound.endAndFree {o : MotionOutcome} (b : Sound R s []) (apart : s.unplanned g) : Sound R (s.endAndFree g o) [] := by
  unfold State.endAndFree
  split
  · exact b.freed apart
  · rename_i none
    exact b.setClaim (State.still_iff_entryOf.mpr (by simpa using none)) apart

theorem Sound.releaseGroup (b : Sound R s []) : Sound R (s.releaseGroup p g).1 [] := by
  unfold State.releaseGroup
  split
  · exact b
  · rename_i c claim
    split
    · rename_i owner
      exact b.endAndFree (b.books.unplanned_of_owner claim (by simp [owner]))
    · exact b

theorem Sound.holdReached (b : Sound R s []) : Sound R (s.holdReached g) [] := by
  unfold State.holdReached
  split
  · rename_i due
    refine b.timed (k := fun t => t.holdLapse g) fun there =>
      there.endAndFree (there.books.unplanned fun c claim => ?_)
    rw [(Later.advanceTo s _).claim] at claim
    unfold State.holdDue at due
    rw [claim] at due
    dsimp only at due
    split at due
    · rename_i hold
      rw [hold]
      simp
    · cases due
  · exact b

/-- The claim of a motion gets another deadline. -/
theorem Sound.renewClaim (b : Sound R s []) (claim : s.claim g = some c) (held : c.heldBy p = true) :
    Sound R (s.renewClaim g c).1 [] := by
  have owner : c.owner = .port p := (Claim.heldBy_iff.mp held).2
  refine ⟨b.device.records .setClaim, b.books.reclaim (b.books.unplanned_of_owner claim (by simp [owner])) rfl rfl (fun h other => ?_) (fun e mem => ?_)
    (fun e mem _ => mem) (by simp), b.permits.handed (new := []) rfl (fun _ mem => .inl mem) (.inl Records.setClaim.view)⟩
  · exact (State.claim_setClaim ..).trans (if_neg other.symm)
  · obtain ⟨k, same, stands⟩ := b.books.claimed e mem
    by_cases group : g = e.group
    · rw [← group, claim] at same
      obtain rfl := Option.some.inj same
      exact ⟨_, (State.claim_setClaim ..).trans (if_pos group), stands⟩
    · exact ⟨k, ((State.claim_setClaim ..).trans (if_neg group)).trans same, stands⟩

end

end Sys2Proof.Machine
end

section
/-! PROOFS. That a jack change keeps what an event keeps (R73, R116). -/

namespace Sys2Proof.Machine

section
variable {s t u w : State} {g h : Group} {e x y : Entry} {c k : Claim} {z : Ending} {a : Action} {d : Dir} {old new j : JackId}
  {l r tail : List Task} {v : Task} {R : Prop} {p : Port} {n : Chan} {run : Bool}

/-! ### The lists with the action of a group's motion replaced -/

/-- An entry of a list with a group's action replaced (R116). -/
def Entry.redirected (e : Entry) (g : Group) (a : Action) : Entry := if e.group = g then { e with action := a } else e

theorem withAction_eq (m : List Entry) : withAction g a m = m.map fun e => e.redirected g a := rfl

theorem Entry.redirected_group : (e.redirected g a).group = e.group := by
  unfold Entry.redirected
  split <;> rfl

theorem Entry.redirected_other (other : e.group ≠ g) : e.redirected g a = e := if_neg other

theorem Entry.redirected_own (own : e.group = g) : e.redirected g a = { e with action := a } := if_pos own

theorem Entry.redirected_motion : (e.redirected g a).motion = e.motion.redirected g a := by
  unfold Entry.redirected
  by_cases own : e.group = g
  · rw [if_pos own, if_pos (show e.motion.group = g from own)]
    rfl
  · rw [if_neg own, if_neg (show e.motion.group ≠ g from own)]

/-- The state in which the motion of a group makes another action. -/
def State.redirect (s : State) (g : Group) (a : Action) : State :=
  { s with load := withAction g a s.load, paused := withAction g a s.paused }

theorem State.motions_redirect : (s.redirect g a).motions = s.motions.map fun e => e.redirected g a := by
  simp only [State.motions, State.redirect, withAction_eq, ← List.map_append, List.map_map]
  refine List.map_congr_left fun e _ => ?_
  exact Entry.redirected_motion

theorem State.mem_motions_redirect :
    x ∈ (s.redirect g a).motions ↔ ∃ e ∈ s.motions, e.redirected g a = x := by
  rw [State.motions_redirect, List.mem_map]

/-! ### The valve that is left -/

theorem State.stopValve_stopValve : (s.stopValve j).stopValve j = s.stopValve j := by
  unfold State.stopValve
  cases valve : s.roleChan (.jack j) with
  | none => simp [valve]
  | some n =>
    have same : (s.stopChan n).roleChan (.jack j) = some n := by rw [State.stopChan_eq]; exact valve
    dsimp only
    rw [same]
    dsimp only
    have stopped : (s.stopChan n).chan n = (s.chan n).stopped s.now := by
      rw [State.stopChan_eq, State.chan_setChan, if_pos rfl]
    rw [State.stopChan_eq (s := s.stopChan n), stopped, State.stopChan_eq]
    simp [State.setChan]

theorem State.jackChange_stopValve : (s.stopValve old).jackChange old new d run = s.jackChange old new d run := by
  unfold State.jackChange
  rw [State.stopValve_stopValve]

/-- The jack that takes the motion over goes the motion's way. -/
theorem State.headed_jackChange : (s.jackChange old new d run).1.headed [new] d := by
  unfold State.jackChange
  dsimp only
  generalize (s.stopValve old).onJack old (fun r => { r with phase := .idle }) = q
  generalize q' : ({ q with jackSet := { q.jackSet with runTime := 0 } } : State) = q
  have headed : ((q.jackActivate new d).doneAtOnce (.jack new d) new).headed [new] d := fun i one => by
    rw [List.mem_singleton.mp one]
    exact Steers.dir_activated
  split
  · exact (headed.steers (.startActive headed)).steers .jackSettled
  · exact headed.steers .jackSettled

/-! ### The drives of the motion redirected -/

/-- The claim of the jacks is for one jack, and so is their motion. -/
theorem Books.aimed (b : Books s l) (claim : s.claim g = some c) (mem : e ∈ s.motions) (own : e.group = g) :
    c.owner = e.owner ∧ c.mode = e.mode ∧ c.action = e.action := by
  obtain ⟨k, same, stands⟩ := b.claimed e mem
  rw [own, claim] at same
  obtain rfl := Option.some.inj same
  exact stands

/-- With the valve of the jack left stopped, and the motion's action another jack's, the drives are the motions'. -/
theorem Seats.redirect {o : Dir} (b : Seats s) (aimed : ∀ e ∈ s.motions, e.group = .jacks → e.action = .jack old o) :
    Seats ((s.redirect .jacks (.jack new d)).stopValve old) := by
  obtain ⟨frame, record⟩ := State.stopValve_spec (s := s.redirect .jacks (.jack new d)) (j := old)
  generalize (s.redirect .jacks (.jack new d)).stopValve old = t at frame record
  have layout : t.layout = s.layout := by rw [frame]; rfl
  have motions : t.motions = s.motions.map fun e => e.redirected .jacks (.jack new d) := by
    rw [frame]
    exact State.motions_redirect
  have roleChan (r : Role) : (s.redirect .jacks (.jack new d)).roleChan r = s.roleChan r := rfl
  refine ⟨fun i n other same => ?_, ?_, fun e mem => ?_, fun n busy => ?_⟩
  · rw [State.role_layout layout] at same ⊢
    rw [State.role_layout layout] at same
    exact b.roles i n other same
  · have groups : (t.motions.map Entry.group) = s.motions.map Entry.group := by
      rw [motions, List.map_map]
      exact List.map_congr_left fun e _ => Entry.redirected_group
    rw [groups]
    exact b.once
  · rw [motions] at mem
    obtain ⟨x, listed, rfl⟩ := List.mem_map.mp mem
    by_cases own : x.group = .jacks
    · rw [Entry.redirected_own own]
      show Safety.actionFits x.group _ = true
      rw [own]
      rfl
    · rw [Entry.redirected_other own]
      exact b.fits x listed
  · rw [record, roleChan] at busy ⊢
    split at busy
    · simp at busy
    · rename_i stays
      rw [if_neg stays]
      obtain ⟨seated, e, mem, among, dir⟩ := b.drives n busy
      rw [State.role_layout layout]
      have listed := State.mem_motions_load mem
      have load : e.redirected .jacks (.jack new d) ∈ t.load := by
        rw [frame]
        exact List.mem_map_of_mem mem
      refine ⟨seated, _, load, ?_⟩
      rw [State.motionChans_layout layout]
      by_cases own : e.group = .jacks
      · have action : e.action = .jack old o := aimed e.motion listed own
        rw [Entry.redirected_own own]
        unfold State.motionChans at among ⊢
        rw [action] at among
        simp only [List.mem_filter, Bool.or_eq_true, beq_iff_eq] at among ⊢
        obtain ⟨all, valve | pump⟩ := among
        · exact absurd (State.roleChan_unique b.roles valve (by simp)) stays
        · exact ⟨⟨all, .inr pump⟩, fun other => absurd pump other⟩
      · rw [Entry.redirected_other own]
        exact ⟨among, dir⟩

theorem Device.jackChange {o : Dir} (b : Device R s []) (aimed : ∀ e ∈ s.motions, e.group = .jacks → e.action = .jack old o) :
    Device R ((s.redirect .jacks (.jack new d)).jackChange old new d run).1 [] := by
  have seats : Seats ((s.redirect .jacks (.jack new d)).stopValve old) := b.seats.redirect aimed
  have moves : Moves .jacks d ((s.redirect .jacks (.jack new d)).stopValve old)
      ((s.redirect .jacks (.jack new d)).jackChange old new d run).1 := by
    rw [← State.jackChange_stopValve]
    exact .of_controls State.jackChange_controls .jackChange
  have headed := State.headed_jackChange (s := s.redirect .jacks (.jack new d)) (old := old) (new := new) (d := d) (run := run)
  generalize ((s.redirect .jacks (.jack new d)).jackChange old new d run).1 = w at moves headed
  obtain ⟨frame, record⟩ := State.stopValve_spec (s := s.redirect .jacks (.jack new d)) (j := old)
  generalize (s.redirect .jacks (.jack new d)).stopValve old = t at seats moves frame record
  have layout : t.layout = s.layout := by rw [frame]; rfl
  have motions : t.motions = s.motions.map fun e => e.redirected .jacks (.jack new d) := by
    rw [frame]
    exact State.motions_redirect
  have listed {e : Entry} (mem : e ∈ w.motions) : ∃ x ∈ s.motions, x.redirected .jacks (.jack new d) = e := by
    rw [moves.motions, motions] at mem
    exact List.mem_map.mp mem
  have own {e : Entry} (mem : e ∈ w.motions) (group : e.group = .jacks) : e.action = .jack new d := by
    obtain ⟨x, -, rfl⟩ := listed mem
    rw [Entry.redirected_group] at group
    rw [Entry.redirected_own group]
  refine ⟨seats.moves moves fun e mem group => ?_, ⟨fun e mem group => ?_, fun on => ?_⟩, fun e mem id slider => .inr ?_,
    fun limit id => .inr ?_⟩
  · rw [own (moves.motions ▸ mem) group]
    rfl
  · rw [own mem group]
    exact headed
  · have active := moves.level on
    rw [frame] at active
    obtain ⟨x, mem, level⟩ := b.ways.level active
    have fits := b.seats.fits x mem
    rw [level] at fits
    rw [aimed x mem (by simpa [Safety.actionFits] using fits)] at level
    cases level
  · obtain ⟨x, before, rfl⟩ := listed mem
    rw [Entry.redirected_group] at slider
    have other : x.group ≠ .jacks := fun group => by rw [group] at slider; cases slider
    rw [Entry.redirected_other other, moves.state, frame]
    obtain ⟨_, left⟩ | state := b.shown x before id slider
    · cases left
    · cases id <;> exact state
  · obtain ⟨_, left⟩ | fine := b.racks limit id
    · cases left
    refine moves.racks id (by cases id <;> simp [Slider.group]) (fine.of layout (fun m => ?_) fun m n own on => ?_)
    · rw [frame]
      cases id <;> rfl
    · rw [record] at on
      split at on
      · simp at on
      · exact on

/-- The claim and the entry of the jack motion name another jack. -/
def State.aimJack (s : State) (c : Claim) (new : JackId) (d : Dir) : State :=
  (s.setClaim .jacks (some { c with action := .jack new d, deadline := some s.newDeadline })).redirect .jacks (.jack new d)

theorem State.changeJack_eq : (s.changeJack c old new d).1 = Machine.drain workBound
    (((s.aimJack c new d).jackChange old new d ((s.aimJack c new d).running .jacks)).1,
      .handover s.view :: ((s.aimJack c new d).jackChange old new d ((s.aimJack c new d).running .jacks)).2) := by
  simp only [State.aimJack, State.redirect, State.changeJack]

theorem State.jackChange_tasks : EndsOnly .jacks (s.jackChange old new d run).2 ∧ (s.jackChange old new d run).2.length ≤ 1 := by
  unfold State.jackChange
  exact ⟨JackEvent.jackSettled.own, JackEvent.jackSettled.brief⟩

theorem Sound.changeJack {o : Dir} (b : Sound R s []) (claim : s.claim .jacks = some c) (held : c.heldBy p = true)
    (action : c.action = .jack old o) (permit : s.permitCause .jacks (.jack new d) = none) :
    Sound R (s.changeJack c old new d).1 [] := by
  have owner : c.owner = .port p := (Claim.heldBy_iff.mp held).2
  have aimed (e : Entry) (mem : e ∈ s.motions) (own : e.group = .jacks) : e.action = .jack old o :=
    (b.books.aimed claim mem own).2.2.symm.trans action
  rw [State.changeJack_eq]
  generalize runs : (s.aimJack c new d).running .jacks = run
  have controls : Controls .jacks (s.aimJack c new d) ((s.aimJack c new d).jackChange old new d run).1 :=
    State.jackChange_controls
  have desk : Desk (s.aimJack c new d) ((s.aimJack c new d).jackChange old new d run).1 := .of_controls controls
  obtain ⟨own, brief⟩ := State.jackChange_tasks (s := s.aimJack c new d) (old := old) (new := new) (d := d) (run := run)
  have device : Device R ((s.aimJack c new d).jackChange old new d run).1 [] :=
    (b.device.records (t := s.setClaim .jacks _) .setClaim).jackChange aimed
  have listed {e : Entry} (mem : e ∈ ((s.aimJack c new d).jackChange old new d run).1.motions) :
      ∃ x ∈ s.motions, x.redirected .jacks (.jack new d) = e :=
    State.mem_motions_redirect.mp ((desk.motions e).mp mem)
  have claimOf (h : Group) : ((s.aimJack c new d).jackChange old new d run).1.claim h =
      if .jacks = h then some { c with action := .jack new d, deadline := some s.newDeadline } else s.claim h := by
    unfold State.claim
    rw [desk.claims]
    exact State.claim_setClaim ..
  have layout : ((s.aimJack c new d).jackChange old new d run).1.layout = s.layout := desk.layout
  have plan : ((s.aimJack c new d).jackChange old new d run).1.plan = s.plan := desk.plan
  generalize (s.aimJack c new d).jackChange old new d run = w at own brief device listed claimOf layout plan
  have mild (v : Task) (mem : v ∈ .handover s.view :: w.2) : v.mild := by
    obtain rfl | mem := List.mem_cons.mp mem
    · trivial
    · exact own.mild v mem
  refine Sound.drained (r := []) ⟨?_, ?_, ?_⟩ ?_
  · have more := device.append (r := .handover s.view :: w.2)
    exact more
  · rw [List.append_nil]
    refine b.books.reclaim (b.books.unplanned_of_owner claim (by simp [owner])) layout plan (fun h other => ?_) (fun e mem => ?_)
      (fun e mem sequenced => ?_) mild
    · rw [claimOf, if_neg other.symm]
    · obtain ⟨x, before, rfl⟩ := listed mem
      rw [claimOf, Entry.redirected_group]
      by_cases group : x.group = .jacks
      · obtain ⟨sameOwner, sameMode, -⟩ := b.books.aimed claim before group
        rw [if_pos group.symm, Entry.redirected_own group]
        exact ⟨_, rfl, sameOwner, sameMode, rfl⟩
      · rw [if_neg fun same => group same.symm, Entry.redirected_other group]
        exact b.books.claimed x before
    · obtain ⟨x, before, rfl⟩ := listed mem
      by_cases group : x.group = .jacks
      · rw [Entry.redirected_own group] at sequenced
        have same := (b.books.aimed claim before group).1
        rw [owner] at same
        exact absurd (same.trans sequenced) (by simp)
      · rwa [Entry.redirected_other group]
  · refine b.permits.handed layout (fun e mem => ?_) (.inr List.mem_cons_self)
    obtain ⟨x, before, rfl⟩ := listed mem
    by_cases group : x.group = .jacks
    · rw [Entry.redirected_own group]
      show _ ∨ s.permitCause x.group _ = none
      rw [group]
      exact .inr permit
    · rw [Entry.redirected_other group]
      exact .inl before
  · have := own.weights_le brief
    rw [weights_cons]
    simp only [Task.weight]
    omega

end

end Sys2Proof.Machine
end

section
/-! PROOFS. That every request, and STOP and the change to ROAD with them, keeps what an event keeps (R111 to R124, R149, R162). -/

namespace Sys2Proof.Machine

section
variable {s t u w : State} {g h : Group} {e x y : Entry} {c k : Claim} {z : Ending} {a : Action} {d : Dir} {j : JackId}
  {l r tail : List Task} {v : Task} {R : Prop} {p : Port} {id : Slider} {mo : Mode} {o : MotionOutcome}

/-! ### Motion requests -/

theorem Sound.changeMotion (b : Sound R s []) (claim : s.claim g = some c) (held : c.heldBy p = true)
    (fits : Safety.actionFits g a = true) : Sound R (s.changeMotion p g c a).1 [] := by
  have replaced : Sound R (match s.fullRefusal .hold g a with
      | some r => (s, r)
      | none => s.replaceMotion p g a).1 [] := by
    split
    · exact b
    · rename_i passes
      exact b.replaceMotion claim held fits (State.fullRefusal_permit passes)
  unfold State.changeMotion
  split
  · rename_i old o new d action
    obtain rfl : g = .jacks := by simpa [Safety.actionFits] using fits
    split
    · split
      · exact b
      · rename_i passes
        exact b.changeJack claim held action (State.motionRefusal_permit passes)
    · exact replaced
  · exact replaced

theorem Sound.motionRequest (b : Sound R s []) (fits : Safety.actionFits g a = true) :
    Sound R (s.motionRequest p mo g a).1 [] := by
  unfold State.motionRequest
  split
  · rename_i c claim
    split
    · rename_i renews
      exact b.renewClaim claim renews.2.1
    · split
      · exact b
      · split
        · exact b
        · split
          · exact b
          · split
            · rename_i changes
              exact b.changeMotion claim changes.2 fits
            · exact b
  · rename_i free
    split
    · exact b
    · split
      · exact b
      · split
        · exact b
        · split
          · exact b
          · rename_i passes
            exact b.acceptMotion free fits (State.fullRefusal_permit passes)

/-! ### STOP and the change to ROAD -/

/-- With nothing in the lists and no plan running the books are in order. -/
theorem Books.idle (plans : Safety.PlansFit s.layout) (none : s.motions = []) (idle : s.planRunning = false) : Books s [] where
  plans := plans
  claimed e mem := by rw [none] at mem; cases mem
  kept g z mem := by cases mem
  owed _ e mem := by rw [none] at mem; cases mem
  ended mem := by cases mem
  held on := by rw [idle] at on; cases on
  stage on := by rw [idle] at on; cases on

theorem Permitted.idle (none : s.motions = []) : Permitted s l := .inr fun e mem => by rw [none] at mem; cases mem

theorem Device.endAll (groups : List Group) (b : Device R s l) :
    Device R (Machine.forEach groups (fun g t => (t.motionEnd g z).1) s) l := by
  induction groups generalizing s with
  | nil => exact b
  | cons g rest ih => exact ih b.ended

theorem Records.stopAll : Records (s.endAllMotions o) (s.stopAll o) := by
  unfold State.stopAll
  dsimp only
  split <;> exact ⟨rfl⟩

theorem Sound.stopAll (b : Sound R s []) : Sound R (s.stopAll o) [] := by
  have spec := State.stopAll_spec (s := s) (o := o)
  have none : (s.stopAll o).motions = [] := by simp [State.motions, spec.load, spec.paused]
  have ended : Device R (s.endAllMotions o) [] := b.device.endAll _
  have idle : (s.stopAll o).planRunning = false := by
    unfold State.planRunning
    by_cases on : s.planRunning = true
    · rw [(spec.running on).1]
      rfl
    · rw [spec.resting (by simpa using on)]
      simpa [State.planRunning] using on
  have layout : (s.stopAll o).layout = s.layout := by
    have same := congrArg (fun v : State => v.layout) spec.fixed
    exact same
  exact ⟨ended.records .stopAll, .idle (by rw [layout]; exact b.books.plans) none idle, .idle none⟩

theorem Sound.stopEverything (b : Sound R s []) : Sound R s.stopEverything.1 [] := by
  have stopped : Sound R (s.stopAll .stopped) [] := b.stopAll
  exact stopped.drainMild (tasks := [.handover s.view]) (by simp [Task.mild]) (by simp [weights, Task.weight])

theorem Sound.parkLow (b : Sound R s []) : Sound R s.parkLow [] :=
  ((b.quiet .accept_park).stopAll (o := .road)).quiet .evalAlarm

/-! ### Plans -/

theorem firstAction_planGroups {steps : List PlanStep} (mem : g ∈ planGroups steps) : firstAction steps g ≠ none := by
  unfold planGroups at mem
  simp only [List.mem_filter, List.any_eq_true] at mem
  obtain ⟨-, step, among, x, own, same⟩ := mem
  unfold firstAction
  rw [Ne, Option.map_eq_none_iff, List.find?_eq_none]
  exact fun none => none x (List.mem_flatten_of_mem among own) same

/-- A plan starts with every group of its steps free. -/
theorem Sound.acceptPlan {n : PlanName} {o : PlanOwner} (b : Sound R s []) (steps : s.layout.planSteps n ≠ [])
    (free : ∀ g ∈ planGroups (s.layout.planSteps n), s.claim g = none) (idle : ∀ e ∈ s.motions, e.owner ≠ .sequencer) :
    Sound R (s.acceptPlan n o) [] := by
  obtain ⟨table, started, claims⟩ := s.planStart_eq n o
  unfold State.acceptPlan
  rw [started]
  have still (g : Group) (mem : g ∈ planGroups (s.layout.planSteps n)) : s.still g := fun e listed same => by
    obtain ⟨c, claim, -⟩ := b.books.claimed e listed
    rw [same, free g mem] at claim
    cases claim
  have records : Records s { s with plan := s.newPlan n o, claims := table } := ⟨rfl⟩
  have permits := b.permits.handed (new := [.beginStep]) records.layout (fun e mem => .inl (records.motions ▸ mem))
    (.inl records.view)
  refine Sound.drained (r := []) ⟨?_, ?_, permits⟩ (by simp [weights, Task.weight])
  · exact (b.device.records records).append
  · refine ⟨b.books.plans, fun e mem => ?_, fun g z mem => (by simp at mem), fun off => (by cases off), fun mem => (by simp at mem),
      fun _ => ?_, fun _ => .inl ⟨[], rfl, by simp, rfl, rfl, idle⟩⟩
    · obtain ⟨c, claim, stands⟩ := b.books.claimed e mem
      refine ⟨c, ?_, stands⟩
      show table[groupIndex e.group] = some c
      rw [claims, if_neg fun named => still _ named e mem rfl]
      exact claim
    · refine ⟨n, rfl, Nat.le_refl 1, List.length_pos_iff.mpr steps, rfl, fun g mem => ?_⟩
      obtain ⟨a, action⟩ := Option.ne_none_iff_exists'.mp (firstAction_planGroups mem)
      refine ⟨{ owner := .sequencer, mode := .auto, action := a, deadline := none, ended := false }, ?_, rfl, rfl⟩
      show table[groupIndex g] = _
      rw [claims, if_pos mem]
      simp [planClaim, action]

theorem Sound.runPlan {n : PlanName} (b : Sound R s []) : Sound R (s.runPlan p n).1 [] := by
  unfold State.runPlan
  split
  · exact b
  · split
    · exact b
    · split
      · exact b
      · rename_i steps
        split
        · exact b
        · rename_i idle
          split
          · exact b
          · rename_i free
            refine b.acceptPlan (by simpa using steps) (State.firstOwner_none.mp free) fun e mem own => ?_
            exact absurd (b.books.owed (by simpa using idle) e mem own) List.not_mem_nil

theorem Sound.ignitionRise (b : Sound R s []) : Sound R s.ignitionRise [] := by
  unfold State.ignitionRise
  split
  · split
    · rename_i starts
      have free (g : Group) : s.claim g = none := by
        have all := starts.1
        unfold State.allFree at all
        simpa using List.all_eq_true.mp all g (mem_allGroups g)
      refine b.acceptPlan starts.2.2 (fun g _ => free g) fun e mem own => ?_
      obtain ⟨c, claim, -⟩ := b.books.claimed e mem
      rw [free] at claim
      cases claim
    · exact b.quiet .raise
  · exact b

theorem Sound.ignHigh (b : Sound R s []) : Sound R s.ignHigh [] := (b.quiet .accept_ign).ignitionRise

/-! ### CLEAR_FAULT -/

theorem State.slideClearFault_eq : ∃ r : SliderRec, s.slideClearFault id = s.setSlider id r := by
  unfold State.slideClearFault
  dsimp only
  split
  · exact ⟨_, by simp only [State.setMotor, State.setSlider_setSlider]; rfl⟩
  · exact ⟨_, rfl⟩

theorem JackPart.jacksClearFault : JackPart s s.jacksClearFault := by
  unfold State.jacksClearFault Machine.forEach
  generalize allJacks = jacks
  induction jacks generalizing s with
  | nil => exact .refl s
  | cons j rest ih => exact JackPart.trans .onJack ih

theorem Works.clearFaultOf (b : Device R s l) (still : s.still g) : Works R l s (s.clearFaultOf g, []) := by
  unfold State.clearFaultOf
  split
  · rename_i id own
    obtain ⟨r, cleared⟩ := State.slideClearFault_eq (s := s) (id := id)
    rw [cleared]
    exact ⟨b.still_slider (by cases g <;> cases own <;> exact still), .setSlider, by simp, by simp [weights]⟩
  · exact .jacks b (.idle .jacksClearFault) fun d _ => .forEach (fun j t => .onJack_same rfl rfl) s

theorem Sound.clearFault (b : Sound R s []) : Sound R (s.clearFault g).1 [] := by
  unfold State.clearFault
  split
  · exact b
  · split
    · exact b
    · rename_i free
      have still : s.still g := fun e mem same => by
        obtain ⟨c, claim, -⟩ := b.books.claimed e mem
        rw [same, free] at claim
        cases claim
      have cleared : Works R [] s (s.clearFaultOf g, []) := .clearFaultOf b.device still
      exact b.event (f := fun t => (t.clearFaultOf g, [.permits])) ⟨cleared.device.append (r := [.permits]), cleared.same, by simp [Task.mild], by simp [weights, Task.weight]⟩

/-! ### Requests and their frames -/

/-- The action that a request names is one of its group's (R166). -/
def Request.fits : Request → Prop
  | .auto g a => Safety.actionFits g a = true
  | _ => True

theorem Sound.decideRequest {q : Request} (b : Sound R s []) (fits : q.fits) : Sound R (s.decideRequest p q).1 [] := by
  cases q with
  | move g d => exact b.motionRequest rfl
  | auto g a => exact b.motionRequest fits
  | moveJack j d => exact b.motionRequest rfl
  | release g => exact b.releaseGroup
  | stop => exact b.stopEverything
  | clearFault g => exact b.clearFault
  | runPlan n => exact b.runPlan
  | status => exact b
  | readAxis n a => exact b
  | ack c => exact b.quiet .setPort
  | route c => exact b.quiet .setPort
  | layoutLoad n data =>
    show Sound R (s.loadSegment n data).1 []
    unfold State.loadSegment
    split
    · exact b
    · exact b.quiet (.beside rfl)
  | layoutRead n => exact b
  | layoutCommit =>
    show Sound R s.commit.1 []
    unfold State.commit
    split
    · exact b
    · split
      · exact b
      · split
        · exact b
        · split
          · exact b
          · exact b.quiet (.beside rfl)

theorem Sound.takeRequest {k : RequestKind} {q : Option Request} (b : Sound R s []) (fits : ∀ r, q = some r → r.fits) :
    Sound R (s.takeRequest p k q) [] := by
  unfold State.takeRequest
  split
  · exact b.quiet .discardFrame
  · split
    · exact b.quiet .queueReply
    · rename_i r
      exact (b.decideRequest (fits r rfl)).quiet .queueReply

theorem autoRequest_fits {group action : Byte} {r : Request} (same : autoRequest group action = some r) : r.fits := by
  unfold autoRequest at same
  split at same
  · rename_i g _
    obtain ⟨a, code, rfl⟩ := Option.map_eq_some_iff.mp same
    unfold actionOfCode at code
    split at code
    · rw [← Option.some.inj code]
      rfl
    · split at code
      · rename_i level
        rw [← Option.some.inj code, level.2]
        rfl
      · cases code
  · cases same

theorem moveRequest_fits {group dir : Byte} {r : Request} (same : moveRequest group dir = some r) : r.fits := by
  unfold moveRequest at same
  split at same
  · obtain rfl := Option.some.inj same
    trivial
  · cases same

theorem moveJackRequest_fits {jack dir : Byte} {r : Request} (same : moveJackRequest jack dir = some r) : r.fits := by
  unfold moveJackRequest at same
  split at same
  · obtain rfl := Option.some.inj same
    trivial
  · cases same

theorem fits_of_map {α : Type} {f : α → Request} {q : Option α} {r : Request} (fits : ∀ x, (f x).fits)
    (same : q.map f = some r) : r.fits := by
  obtain ⟨x, -, rfl⟩ := Option.map_eq_some_iff.mp same
  exact fits x

theorem requestOfFields_fits {k : RequestKind} {f : List Byte} {r : Request} (same : requestOfFields k f = some r) : r.fits := by
  cases k with
  | move => exact moveRequest_fits same
  | auto => exact autoRequest_fits same
  | moveJack => exact moveJackRequest_fits same
  | stop | status | layoutCommit =>
    obtain rfl := Option.some.inj same
    trivial
  | release => exact fits_of_map (f := .release) (fun _ => trivial) same
  | runPlan => exact fits_of_map (f := .runPlan) (fun _ => trivial) same
  | readAxis => exact fits_of_map (f := .readAxis _) (fun _ => trivial) same
  | ack => exact fits_of_map (f := .ack) (fun _ => trivial) same
  | route => exact fits_of_map (f := .route) (fun _ => trivial) same
  | clearFault => exact fits_of_map (f := .clearFault) (fun _ => trivial) same
  | layoutLoad => exact fits_of_map (f := fun n => .layoutLoad n _) (fun _ => trivial) same
  | layoutRead => exact fits_of_map (f := .layoutRead) (fun _ => trivial) same

theorem Sound.checkFrame {k : RequestKind} {bytes : List Byte} (b : Sound R s []) : Sound R (s.checkFrame p k bytes) [] := by
  unfold State.checkFrame
  split
  · exact b.takeRequest fun r => requestOfFields_fits
  · exact b.quiet .discardFrame

theorem Sound.character {byte : Byte} {mark stopHigh : Bool} (b : Sound R s []) :
    Sound R (s.character p byte mark stopHigh) [] := by
  unfold State.character
  split
  · exact b.quiet (.trans .setFrame .discardFrame)
  · split
    · unfold State.markedCharacter
      have abandoned : Sound R (if (s.port p).frame.isSome then s.discardFrame p else s) [] := by
        split
        · exact b.quiet .discardFrame
        · exact b
      dsimp only
      split
      · exact abandoned.quiet .setFrame
      · exact abandoned.quiet (.trans .setFrame .discardFrame)
    · unfold State.unmarkedCharacter
      split
      · exact b
      · split
        · exact b.quiet .setFrame
        · dsimp only
          split
          · exact b.quiet .setFrame
          · exact (b.quiet .setFrame).checkFrame

end

end Sys2Proof.Machine
end

section
/-! PROOFS. That the supply watch and the wind watch keep what an event keeps (R104 to R107, R132 to R139). -/

namespace Sys2Proof.Machine

section
variable {s t u w : State} {g h : Group} {e x y : Entry} {c k : Claim} {z : Ending} {a : Action}
  {l r tail : List Task} {v : Task} {R : Prop} {p q : Work} {limit : Nat} {record : Wind} {old : View}

/-! ### Shedding -/

theorem Device.shedTo (b : Device R s l) : Device R (s.shedTo limit) l := by
  have down (fuel : Nat) (w : State) (b : Device R w l) : Device R (State.shedDown fuel limit w) l := by
    induction fuel generalizing w with
    | zero => exact b
    | succ fuel ih =>
      unfold State.shedDown
      split
      · exact b
      · split
        · rename_i e next
          exact ih _ (b.shed (shedNext_mem next))
        · exact b
  exact down _ s b

/-! ### The supply -/

theorem Works.supplyTaken {raw : Nat} (b : Device R s []) : Works R [] s (s.supplyTaken raw) := by
  unfold State.supplyTaken
  dsimp only
  split
  · exact .quiet b (.beside rfl)
  · rename_i mean _
    generalize bandAfter s.supply.mean.isNone s.supply.band mean = band
    have noted : Quietly s { s with supply :=
        { samples := lastTwentyFive (s.supply.samples ++ [raw]), mean := some mean, band := band } } := .beside rfl
    generalize ({ s with supply := _ } : State) = w at noted
    split
    · exact .quiet b noted
    · unfold State.bandChanged
      have raised : Quietly s (w.raise .supply) := noted.trans .raise
      have device := b.calm raised.calm
      split
      · have desk : Desk (w.raise .supply) _ := (State.shedTo_desk (d := .outward) (limit := (w.raise .supply).budget)).1
        exact ⟨device.shedTo, raised.same.trans desk.same, by simp, by simp [weights]⟩
      · exact ⟨device.append (r := [.scan]), raised.same, by simp [Task.mild], by simp [weights, Task.weight]⟩

/-! ### The wind watch -/

/-- Mild work is begun beside mild work that waits. -/
theorem Sound.more (b : Sound R s r) (pending : ∀ v ∈ r, v.mild) (mild : ∀ v ∈ l, v.mild) : Sound R s (l ++ r) where
  device := b.device.append
  books := b.books.swap (old := []) (.refl s) (by simp) mild fun k same => by
    have first := pending .beginStep (by
      have same : r = .beginStep :: k := same
      rw [same]
      exact List.mem_cons_self)
    exact first
  permits := b.permits.handed rfl (fun _ mem => .inl mem) (.inl rfl)

theorem Calm.setWind : Calm s (s.setWind record) := .of_same rfl rfl rfl rfl rfl rfl rfl rfl rfl rfl

/-- The wind record changes, and what the permits read is to be handed over. -/
theorem Sound.setWind (b : Sound R s []) : Sound R (s.setWind record) [.handover s.view] where
  device := b.device.calm .setWind |>.append (r := [.handover s.view])
  books := b.books.opened Calm.setWind.same (by simp [Task.mild])
  permits := b.permits.handed (new := [.handover s.view]) rfl (fun _ mem => .inl mem) (.inr (by simp))

/-- An event that leaves nothing but the handing over. -/
theorem Sound.change {f : State → State} (b : Sound R (f s) [.handover s.view]) : Sound R (s.change f) [] :=
  Sound.drained (l := [.handover s.view]) (r := []) b (by simp [weights, Task.weight])

theorem Sound.windEndsMotion (b : Sound R s [.handover old]) : Sound R s.windEndsMotion [.handover old] := by
  obtain ⟨-, same⟩ | ⟨e, z, -, keep, -, run⟩ := s.windEndsMotion_cases
  · rwa [same]
  · rw [run]
    exact (b.more (l := [.endMotion .awning z]) (by simp [Task.mild]) (by simp [Task.mild, keep])).drained
      (by simp [weights, Task.weight])

theorem Sound.windDisplaces (b : Sound R s [.handover old]) : Sound R s.windDisplaces [.handover old] := by
  obtain ⟨-, same⟩ | ⟨c, claim, ⟨kept, raised⟩ | ⟨owner, runs, run⟩⟩ := s.windDisplaces_cases
  · rwa [same]
  · rw [raised]
    exact b.quiet .raise
  · rw [run]
    have raised : Sound R (s.raise .preempt) [.handover old] := b.quiet .raise
    refine Sound.drained (r := [.handover old]) ⟨?_, ?_, ?_⟩ (by simp [weights, Task.weight])
    · exact (raised.device.records .planEnd).append
    · exact .planEnd raised.books.plans raised.books.claimed raised.books.kept (by simp)
    · exact raised.permits.handed Records.planEnd.layout (fun e mem => .inl (Records.planEnd.motions ▸ mem))
        (.inl Records.planEnd.view)

/-- The running plan holds the awning's claim, or does not name the awning. -/
theorem Books.plannedOrNot (b : Books s l) (g : Group) : s.unplanned g ∨ ∃ c, s.claim g = some c ∧ c.owner = .sequencer := by
  by_cases held : ∃ c, s.claim g = some c ∧ c.owner = .sequencer
  · exact .inr held
  · exact .inl (b.unplanned fun c claim planned => held ⟨c, claim, planned.1⟩)

/-- No motion of the awning is left when its claim is displaced, nor does a running plan name it. -/
theorem Sound.displaced (b : Sound R s [.handover old]) :
    Sound R s.displaced [.handover old] ∧ s.displaced.still .awning ∧ s.displaced.unplanned .awning := by
  have after : Sound R s.displaced [.handover old] := b.windEndsMotion.windDisplaces
  refine ⟨after, ?_⟩
  obtain free | held := b.books.plannedOrNot .awning
  · obtain ⟨still, apart⟩ := State.windEndsMotion_apart free
    exact State.windDisplaces_apart still apart
  · obtain both | silent := State.displaced_apart (.inr held)
    · exact both
    refine ⟨fun e mem own => ?_, fun n on => absurd (silent.symm.trans on) (by simp)⟩
    obtain ⟨c, claim, owner, -⟩ := after.books.claimed e mem
    rw [own] at claim
    obtain ⟨k, before, same, -⟩ := s.displaced_does.follows.claimed _ c claim
    obtain ⟨j, held, planned⟩ := held
    obtain rfl := Option.some.inj (held.symm.trans before)
    have ended := after.books.owed silent e mem (owner.symm.trans (same.trans planned))
    simp at ended

/-- The awning's way in has no row in the permit table (R127). -/
theorem State.permitCause_stowing : s.permitCause .awning (.toward .stowing) = none := by
  unfold State.permitCause
  exact if_neg fun outward => by cases outward.1

theorem Sound.windRetract (b : Sound R s [.handover old]) (still : s.still .awning) (apart : s.unplanned .awning) :
    Sound R s.windRetract [.handover old] := by
  have desk : ∃ v : State, Desk (s.setClaim .awning (some windClaim)) v ∧ Device R v [.handover old] ∧
      (s.setClaim .awning (some windClaim)).placeWind = v.placeAndStart .awning .wind .auto (.toward .stowing) := by
    have device : Device R (s.setClaim .awning (some windClaim)) [.handover old] := b.device.records .setClaim
    unfold State.placeWind
    dsimp only
    split
    · exact ⟨_, .refl _, device, rfl⟩
    · exact ⟨_, (State.shedTo_desk (d := .outward)).1.trans (.raise _), device.shedTo.calm Quietly.raise.calm, rfl⟩
  obtain ⟨v, desk, device, placed⟩ := desk
  unfold State.windRetract
  dsimp only
  rw [placed]
  have claims (h : Group) : v.claim h = if .awning = h then some windClaim else s.claim h := by
    unfold State.claim
    rw [desk.claims]
    exact State.claim_setClaim ..
  refine b.placed (c := windClaim) (by simp [Task.mild]) apart device desk.layout desk.plan (fun h other => ?_) ?_ rfl rfl rfl
    (by simp) (fun e mem => ?_) rfl State.permitCause_stowing (by simp) (by simp [Task.mild]) (by simp [weights, Task.weight])
  · rw [claims, if_neg other.symm]
  · rw [claims, if_pos rfl]
  · have listed : e ∈ s.motions := (desk.motions e).mp mem
    exact ⟨listed, still e listed⟩

theorem Sound.gustCheck (b : Sound R s [.handover old]) : Sound R s.gustCheck [.handover old] := by
  unfold State.gustCheck
  split
  · obtain ⟨after, still, apart⟩ := b.displaced
    exact after.windRetract still apart
  · exact b

theorem Sound.gustEntered (b : Sound R s [.handover old]) : Sound R s.gustEntered [.handover old] := by
  unfold State.gustEntered
  split
  · exact b.quiet ⟨.setWind, rfl⟩
  · exact b.gustCheck

theorem Sound.windHanded {speed : Nat} (b : Sound R s []) : Sound R (s.windHanded speed) [.handover s.view] := by
  have same : Sound R s [.handover s.view] := b.begin (by simp [Task.mild])
  unfold State.windHanded
  dsimp only
  split
  · exact same
  · exact b.setWind
  · exact b.setWind
  · exact b.setWind
  · split
    · exact b.setWind.gustEntered
    · exact b.setWind

theorem Sound.computeWind (b : Sound R s []) : Sound R s.computeWind [] := .change b.windHanded

theorem Sound.windTick (b : Sound R s []) : Sound R (if s.layout.wind.present then s.computeWind else s) [] := by
  split
  · exact b.computeWind
  · exact b

theorem Sound.wndPulse (b : Sound R s []) :
    Sound R (if s.layout.wind.present then (s.setWind s.wind.pulse).computeWind else s) [] := by
  split
  · exact (b.quiet (t := s.setWind s.wind.pulse) ⟨.setWind, rfl⟩).computeWind
  · exact b

theorem Sound.gustReached (b : Sound R s []) : Sound R s.gustReached [] :=
  .change (b.setWind.quiet .raise).gustEntered

theorem Sound.calmReached (b : Sound R s []) : Sound R s.calmReached [] := .change (b.setWind.quiet .raise)

theorem Sound.gustHold (b : Sound R s []) : Sound R s.gustHold [] := by
  unfold State.gustHold
  split
  · exact b.timed (k := State.gustReached) Sound.gustReached
  · exact b

theorem Sound.calmHold (b : Sound R s []) : Sound R s.calmHold [] := by
  unfold State.calmHold
  split
  · exact b.timed (k := State.calmReached) Sound.calmReached
  · exact b

end

end Sys2Proof.Machine
end

section
/-! PROOFS. That a store write and a reset leave nothing that moves, and that with them every step keeps the laws of the device
(R181 to R184; sections 1.5, 3.5, 4.9, 5.5, 6.1, 6.5 and 7.2). -/

namespace Sys2Proof.Machine

section
variable {s t u w : State} {g : Group} {n : Chan} {l : List Task} {R : Prop} {m : Image} {i : Instr}

/-! ### A store write completes -/

/-- What the alarm and the notices change a resting state does not show. -/
theorem Resting.butAlarm (b : Resting s) (same : s.butAlarm t) : Resting t := by
  obtain ⟨frame, -⟩ := same
  refine ⟨?_, ?_, fun n => ?_, ?_, ?_⟩ <;> rw [frame]
  · exact b.load
  · exact b.paused
  · exact b.chans n
  · exact b.level
  · exact b.plan

theorem State.level_takeLayout (s : State) (m : Image) : (s.takeLayout m).level = freshLevel := by
  rw [State.takeLayout_calm]
  have same := (s.laidOut m).butAlarm_evalAlarm.1
  have level : (s.laidOut m).evalAlarm.level = (s.laidOut m).level := by
    generalize s.laidOut m = v at same ⊢
    rw [same]
  have setWind (v : State) (r : Wind) : (v.setWind r).level = v.level := rfl
  rw [setWind, level, State.laidOut_settled]
  unfold State.settled
  generalize (s.enforced m).newInputs s.layout = v
  rw [State.raise_level, State.newWind_frame]
  rfl

theorem State.busy_recensusChannel : (s.recensusChannel n).busy = (s.chan n).busy := by
  unfold State.recensusChannel
  dsimp only
  split <;> rfl

theorem Sound.takeLayout (b : Sound R s []) (free : s.writeFindsNoClaim) (writes : s.write.isSome) : Resting (s.takeLayout m) := by
  have none : s.motions = [] := List.eq_nil_iff_forall_not_mem.mpr fun e mem => by
    obtain ⟨c, claim, -⟩ := b.books.claimed e mem
    rw [free writes] at claim
    cases claim
  have spec := (State.takeLayout_spec (s := s) m).1
  simp only [State.motions, List.map_eq_nil_iff, List.append_eq_nil_iff] at none
  refine ⟨spec.load.trans none.1, spec.paused.trans none.2, fun n => ?_, ?_, ?_⟩
  · rw [spec.chan]
    have kept : ((s.withLayout m).recensusChannel n).busy = (s.chan n).busy := State.busy_recensusChannel
    rw [kept, Bool.eq_false_iff]
    intro busy
    obtain ⟨-, e, mem, -⟩ := b.device.seats.drives n busy
    rw [none.1] at mem
    cases mem
  · unfold State.levelActive
    rw [State.level_takeLayout]
    rfl
  · unfold State.planRunning
    rw [spec.plan]
    rfl

theorem State.written_eq (s : State) : (s.change fun u => u.takeLayout u.staging) =
    Machine.drain workBound (s.takeLayout s.staging, [.handover s.view]) := by
  unfold State.change State.event State.handing
  dsimp only

theorem Resting.written (b : Resting (s.takeLayout s.staging)) : Resting (s.change fun u => u.takeLayout u.staging) := by
  rw [State.written_eq]
  generalize s.takeLayout s.staging = v at b
  exact b.butAlarm (drain_handover_idle b.load b.paused)

theorem Resting.beginReset {k : ResetKind} {straps : Straps} : Resting (s.beginReset k straps) where
  load := rfl
  paused := rfl
  chans n := by
    have fresh : (s.beginReset k straps).chan n = freshChannel .empty false := Vector.getElem_replicate _
    rw [fresh]
    rfl
  level := rfl
  plan := rfl

/-! ### Every command -/

/-- A step ends lawfully: and in a state from which the next may be taken, but in a reset or under another layout. -/
structure EndsWell (R : Prop) (s t : State) : Prop where
  lawful : Lawful R t
  sound : t.inReset = none → t.layout = s.layout → Sound R t []

theorem Sound.well (b : Sound R t []) : EndsWell R s t := ⟨b.lawful, fun _ _ => b⟩

theorem Sound.storeWriteComplete (b : Sound R s []) (free : s.writeFindsNoClaim) :
    EndsWell R s (if s.write.isSome then s.change fun u => u.takeLayout u.staging else s) := by
  split
  · rename_i writes
    have rests := (b.takeLayout (m := s.staging) free writes).written
    generalize (s.change fun u => u.takeLayout u.staging) = v at rests
    refine ⟨rests.lawful, fun _ layout => rests.sound (fun i k other same => ?_) (layout ▸ b.books.plans)⟩
    rw [State.role_layout layout, State.role_layout layout] at same
    rw [State.role_layout layout]
    exact b.device.seats.roles i k other same
  · exact b.well

theorem exec_well (b : Sound R s []) (awake : s.inReset = none) (free : s.writeFindsNoClaim) (h : exec i s = .next t) :
    EndsWell R s t := by
  have reset {k : ResetKind} {straps : Straps} : EndsWell R s (s.beginReset k straps) :=
    ⟨Resting.beginReset.lawful, fun on => by cases on⟩
  have request {p : Port} {k : RequestKind} {q : Option Request} (fits : ∀ r, q = some r → r.fits) :
      EndsWell R s (s.takeRequest p k q) := (b.takeRequest fits).well
  cases i
  case coldReset => cases h; exact reset
  case warmReset => cases h; exact reset
  case resetEnd =>
    cases h
    rw [awake]
    exact b.well
  all_goals
    cases h
    rw [exec_awake awake]
  case initialAcceptedLevel => exact b.initialLevels.well
  case storeWriteComplete => exact b.storeWriteComplete free
  case linkCharacter => exact b.character.well
  case partialFrameTimeout => exact (b.quiet .frameExpired).well
  case replySent => exact (b.quiet .replySent).well
  case censusRead => exact b.censusRead.well
  case recensusPass => exact (b.quiet .recensus).well
  case confirmingRead => exact b.confirmingRead.well
  case stoppingEnd => exact (b.quiet .stoppingEnd).well
  case dwellEnd => exact b.dwellEnd.well
  case rampStep => exact (b.quiet .rampStep).well
  case analogSample => exact b.analogSample.well
  case overcurrent => exact b.overcurrent.well
  case contactLost => exact b.lossReached.well
  case plsPulse => exact b.plsPulse.well
  case pulseNoise => exact b.noiseReached.well
  case stall => exact b.stallReached.well
  case wndPulse => exact b.wndPulse.well
  case windSpeedTick => exact b.windTick.well
  case gustHoldReached => exact b.gustHold.well
  case calmHoldReached => exact b.calmHold.well
  case roomHomeClosed => exact b.homeOf.well
  case roomHomeOpened => exact b.homeOf.well
  case roomSeatDeadline => exact b.seatReached.well
  case roomRunTimeout => exact b.slideTimeout.well
  case jackHomeClosed => exact b.homeOf.well
  case jackHomeOpened => exact b.homeOf.well
  case jackRunTimeout => exact b.jackRunOut.well
  case tiltSample => exact b.tiltTaken.well
  case contactPhaseTimeout => exact b.contactPhaseOut.well
  case settleEnd => exact b.settleDone.well
  case passTimeout => exact b.passOut.well
  case awningHomeClosed => exact b.homeOf.well
  case awningHomeOpened => exact b.homeOf.well
  case awningSeatDeadline => exact b.seatReached.well
  case awningRunTimeout => exact b.slideTimeout.well
  case holdDeadline => exact b.holdReached.well
  case parkSet => exact (b.quiet .parkHigh).well
  case parkReleased => exact b.parkLow.well
  case ignRise => exact b.ignHigh.well
  case faultPatternEnd => exact (b.quiet .patternEnd).well
  case motionPeriod => exact (b.quiet .periodBegins).well
  case supplySample => exact (b.event (.supplyTaken b.device)).well
  case pauseLimit => exact b.pauseReached.well
  case move => exact request fun _ => moveRequest_fits
  case auto => exact request fun _ => autoRequest_fits
  case moveJack => exact request fun _ => moveJackRequest_fits
  case release => exact request fun _ => fits_of_map (f := .release) fun _ => trivial
  case clearFault => exact request fun _ => fits_of_map (f := .clearFault) fun _ => trivial
  case runPlan => exact request fun _ => fits_of_map (f := .runPlan) fun _ => trivial
  case readAxis => exact request fun _ => fits_of_map (f := .readAxis _) fun _ => trivial
  case ack => exact request fun _ => fits_of_map (f := .ack) fun _ => trivial
  case route => exact request fun _ => fits_of_map (f := .route) fun _ => trivial
  case layoutLoad => exact request fun _ => fits_of_map (f := fun n => .layoutLoad n _) fun _ => trivial
  case layoutRead => exact request fun _ => fits_of_map (f := .layoutRead) fun _ => trivial
  all_goals
    refine request fun r same => ?_
    obtain rfl := Option.some.inj same
    trivial

/-! ### Every step -/

theorem State.writeLaw_iff : Safety.writeLaw s = true ↔ s.writeFindsNoClaim := by
  unfold Safety.writeLaw State.writeFindsNoClaim State.allFree
  cases s.write <;> simp [mem_allGroups]

theorem step_well (b : Sound R s []) (awake : s.inReset = none) (free : s.writeFindsNoClaim) (h : step s = .next t) :
    EndsWell R s t := by
  unfold step at h
  split at h
  · cases h
    unfold State.tick
    rw [awake]
    exact (b.quiet .tickRunning).well
  · rename_i rest _
    have waits : Sound R { s with pending := rest } [] := b.quiet (.beside rfl)
    obtain ⟨lawful, sound⟩ := exec_well waits awake free h
    exact ⟨lawful, sound⟩

theorem within_iff {limit : Nat} {c : Option Nat} : (match c with
    | some c => decide (c ≤ limit)
    | none => true) = true ↔ within limit c := by
  cases c <;> simp [within]

theorem mem_allSliders (id : Slider) : id ∈ ([.room 0, .room 1, .room 2, .room 3, .awning] : List Slider) := by
  cases id with
  | room k => fin_cases k <;> simp
  | awning => simp

theorem countLaw_iff : Safety.countLaw s = true ↔ s.countsWithin := by
  unfold Safety.countLaw State.countsWithin
  rw [List.all_eq_true]
  have among (P : Slider → Prop) : (∀ id ∈ ([.room 0, .room 1, .room 2, .room 3, .awning] : List Slider), P id) ↔ ∀ id, P id :=
    ⟨fun all id => all id (mem_allSliders id), fun all id _ => all id⟩
  rw [among]
  refine forall_congr' fun id => ?_
  rw [Bool.or_eq_true, List.all_eq_true, Bool.not_eq_true', ← Bool.not_eq_true, ← imp_iff_not_or]
  exact imp_congr_right fun _ => forall₂_congr fun m _ => within_iff

theorem strokeLaw_iff : Safety.strokeLaw s = true ↔ s.strokesWithin := by
  unfold Safety.strokeLaw State.strokesWithin
  rw [List.all_eq_true]
  exact forall₂_congr fun j _ => within_iff

end

/-- Settles O59: what holds within an event with its work still to be done holds again at its end. -/
theorem onlySeatedChannelsStart : Obligations.OnlySeatedChannelsStart := by
  unfold Obligations.OnlySeatedChannelsStart
  refine ⟨fun s t n h before after => ?_, fun s t awake h law => ?_, fun s t awake h law => ?_, fun s t regular h => ?_⟩
  · exact ((step_keeps h).seated n after).resolve_left (by simpa [State.enOut] using before)
  · exact countLaw_iff.mpr ((step_orderly h awake).counts (countLaw_iff.mp law))
  · exact strokeLaw_iff.mpr ((step_orderly h awake).strokes (strokeLaw_iff.mp law))
  · have free := State.writeLaw_iff.mp regular.writes
    obtain ⟨⟨enable, rack, level, wind, retract, support, lists, claims⟩, sound⟩ :=
      step_well (Regular.sound regular) regular.awake free h
    have writes := State.writeLaw_iff.mpr ((step_keeps h).writes free)
    exact ⟨fun awake layout => (sound awake layout).regular awake writes, enable, rack, level, wind, retract, support, lists,
      claims⟩

end Sys2Proof.Machine
end
